-- ==== Sys2Proof/Word.lean ====
section
/-!
DEFINITION. The words of the model: a 32-bit register word, a byte, and the shape of the sparse tables that hold
registers, memory and the per-index state of the blocks.
-/

namespace Sys2Proof

/-- A register word (spec/00_scope.md, section Registers: registers are 32 bits wide). -/
abbrev Word := BitVec 32

/-- One byte. -/
abbrev Byte := BitVec 8

/-- A sparse table: pairs of a key and a value, the keys strictly rising. What an unlisted key reads as is an argument
of each operation on the table (Sys2Proof/Machine/Tab.lean). -/
abbrev Tab (α : Type) := List (Nat × α)

/-- Who performs a register access (spec/01_architecture.md, R10; spec/02_register_pages.md, R33, R35): one of the four
host application cores, the control core, the metrology core, or the host through a barrier message. -/
inductive Init where
  | core (n : Fin 4)
  | ctrl
  | met
  | host
deriving DecidableEq, Repr

/-- The two sides of the module (spec/00_scope.md, section Sides and lands). -/
inductive Side where
  | hostSide
  | fieldSide
deriving DecidableEq, Repr

/-- The side whose map an initiator reaches. -/
def Init.side : Init → Side
  | .core _ => .hostSide
  | .ctrl => .fieldSide
  | .met => .fieldSide
  | .host => .fieldSide

/-- The number that names an initiator in the tables of the state. -/
def Init.num : Init → Nat
  | .core n => n.val
  | .ctrl => 4
  | .met => 5
  | .host => 6

/-- The key offset of a side's register pages: host pages from 0, field pages from 2^20. -/
def Side.key : Side → Nat
  | .hostSide => 0
  | .fieldSide => 0x100000

end Sys2Proof
end

