-- ==== Sys2Proof/Msg.lean ====
section
/-!
DEFINITION. What the module sends and what its commands carry: barrier messages (R433, R434), Tiolmox frames, records,
wire and pin activity. A message is plain data; a meaning appends what it sends to the list of sent messages.
-/

namespace Sys2Proof


/-- An order as submitted (R56): site port, kind, class, currents in 0.1 A, voltage in 0.1 V, weight, source, expiry. -/
structure OrderReq where
  port : Nat
  kind : Nat
  cls : Nat := 0
  iReq : Nat := 0
  vTgt : Nat := 0
  iMin : Nat := 0
  weight : Nat := 0
  src : Nat := 0
  expire : Nat := 0
deriving DecidableEq, Repr

/-- An order in the book (R56, R60): the request, its state (0-7), SEQ, the clearings that first included and closed it,
the faults counted, its grant. -/
structure Order where
  req : OrderReq := { port := 0, kind := 0 }
  state : Nat := 0
  seq : Nat := 0
  clrIn : Nat := 0
  closed : Nat := 0
  flt : Nat := 0
  grantI : Nat := 0
  grantKw : Nat := 0
deriving DecidableEq, Repr

/-- What a device sends for the order book (R59, R62): an order, a withdrawal, the hardware's withdrawal of its LIMIT of a
source; the fault of a port's DRAW, counted by the port's owner; the stack groups that the owner shut down, to their
devices. -/
inductive OrderMsg where
  | submit (o : OrderReq)
  | withdraw (port slot : Nat)
  | withdrawSrc (port src : Nat)
  | fault (port : Nat)
  | block (mask : Nat)
deriving DecidableEq, Repr

/-- One group of an availability report (R64): available, blocked, in transfer, DERATE, present trunk (31 none), ms
since its contactor last closed. -/
structure GrpRep where
  avail : Bool := false
  blocked : Bool := false
  xfer : Bool := false
  derate : Nat := 256
  trunk : Nat := 31
  sinceMs : Nat := 0
deriving DecidableEq, Repr

/-- An availability report (R64, R321): three groups, the wear terms of 24 coils in kW, the free-slot mask, powers in
kW, the demand interval's energy in Wh and number, what is reached by a live direct lane (bit *q* the single or twin A at position *q*, bit 4 + *q* twin B: R321), the reach slots whose
coils are enabled and not marked FAIL_CLOSE (R94, R103), the device's ports that are withheld (R58). -/
structure Report where
  grps : List GrpRep := []
  wear : List Nat := []
  slots : Nat := 0
  pFeed : Int := 0
  pPort : Int := 0
  eInt : Nat := 0
  intId : Nat := 0
  lanes : Nat := 0
  coils : Nat := 0
  withheld : Nat := 0
deriving DecidableEq, Repr

/-- Whether a report shows a live direct lane to a position, to either of its twins. -/
def Report.reaches (r : Report) (p : Nat) : Bool := r.lanes.testBit p || r.lanes.testBit (4 + p)

/-- A bid (R65), with what level one needs of a stack's ports: their PORT_LIM (R57), which are withheld (R53), which are of
an absent device (R83). -/
structure Bid where
  clr : Nat := 0
  stack : Nat := 0
  flags : Nat := 0
  intId : Nat := 0
  mKw : Nat := 0
  trunkCap : List Nat := []
  pPort : Int := 0
  pFeed : Int := 0
  eInt : Nat := 0
  realised : List Nat := []
  lims : List Nat := []
  noGrant : Nat := 0
  absent : Nat := 0
deriving DecidableEq, Repr

/-- A grant frame (R66). -/
structure GrantFrame where
  clr : Nat := 0
  stack : Nat := 0
  seqCut : Nat := 0
  budget : Nat := 0
  grants : List Nat := []
deriving DecidableEq, Repr

/-- A plan's entry for a trunk (R66): owned, owner position, loop slot, the handover cycle if the owner changes, the groups
of K_t, the grant in kW and 0.1 A, V_EFF and I_EFF, the reason, the class and the connected capacity. -/
structure TrunkPlan where
  owned : Bool := false
  owner : Nat := 0
  slot : Nat := 0
  handover : Bool := false
  handAt : Nat := 0
  mask : Nat := 0
  kw : Nat := 0
  amps : Nat := 0
  volts : Nat := 0
  iEff : Nat := 0
  reason : Nat := 0
  cls : Nat := 0
  realised : Nat := 0
deriving DecidableEq, Repr

/-- A plan's entry for a group (R66): its destination trunk (16 none), its closing rank (R100), whether a transfer is
required. -/
structure GrpPlan where
  trunk : Nat := 16
  rank : Nat := 0
  move : Bool := false
deriving DecidableEq, Repr

/-- A plan (R66): the 12 groups, the 16 trunks, each position's Daybook mirror as the FCTR.MIRROR word; the master's reach
map and group ratings (empty where not carried; R53, R92) and its SITE_STATE (0 not carried; R51). -/
structure Plan where
  clr : Nat := 0
  dest : List GrpPlan := []
  trunks : List TrunkPlan := []
  mirrors : List Nat := []
  model : List Nat := []
  site : Nat := 0
deriving DecidableEq, Repr

/-- A handed-over loop's state (R80, R158, R267). -/
structure LoopSnap where
  cycle : Nat
  integ : Int
  iRef : Nat
  vRef : Nat
  seg : Nat
  satTim : Nat
  u : Nat
  pstate : Nat
  retry : Nat
  coolUs : Nat
  drop : Bool
  dropFrom : Nat
  dropN : Nat
  ramp : Bool := false
  rampOut : Nat := 0
  shortUs : Nat := 0
  iHit : Bool := false
  vHit : Bool := false
deriving DecidableEq, Repr

/-- A handover item of CMD_RT SUB 5 (R80, R434): the state, a cycle's digest, or an abort. -/
inductive HandItem where
  | state (s : LoopSnap)
  | digest (cycle d : Nat)
  | abort
deriving DecidableEq, Repr

/-- The raw values of one sampling instant (R172, R173, R176, R177): the four modulator results of each current channel, the raw
value of each voltage channel, and of each fluxgate head its pick-up as demodulated since the last sample, once per
excitation period. -/
structure SensorSet where
  cur : List (List Int) := []
  volt : List Int := []
  pick : List (List Int) := []
deriving DecidableEq, Repr
/-- How a port drives VP*n*_CP_OUT: high impedance, a steady level in 0.1 V, or the 1,000 Hz square wave of +-12 V at a duty
in 0.1 % (R261, R263, R264). -/
inductive CpDrive where
  | highZ
  | level (v : Int)
  | pwm (duty : Nat)
deriving DecidableEq, Repr
/-- A segment of an MSDU in a mesh frame (R291): source and destination node, MSDU number, the MSDU's length in bytes and
priority, the segment's index and data, and whether its CRC held at the receiver. -/
structure MeshSeg where
  src : Nat := 0
  dst : Nat := 0
  num : Nat := 0
  len : Nat := 0
  prio : Nat := 0
  idx : Nat := 0
  data : List Byte := []
  ok : Bool := true
deriving DecidableEq, Repr

/-- A decoded mesh frame (R290 to R294, R298): its sender, NET_ID, the node it is for (0xFF broadcast), its slot and map, its
segments, the SNR of each carrier in 0.1 dB, the energy of each of its symbols, and an advertisement's lines
(destination, cost, hops). -/
structure MeshRx where
  sender : Nat := 0
  net : Nat := 0
  dest : Nat := 0
  slot : Nat := 0
  map : Nat := 0
  segs : List MeshSeg := []
  snr : List Int := []
  energy : List Nat := []
  adv : Option (List (Nat × Nat × Nat)) := none
deriving DecidableEq, Repr

/-- An acknowledgement received (R293, R295): of a frame's segments, or of a map update by a neighbour for a slot. -/
inductive MeshAck where
  | segs (bits : Nat)
  | update (nbr slot : Nat)
deriving DecidableEq, Repr

/-- What a lane's control block says of a class (R314, R316): credits returned, the highest SEQ received in order
acknowledged, or a negative acknowledgement naming it. -/
inductive LaneCtl where
  | credit (n : Nat)
  | ack (seq : Nat)
  | nak (seq : Nat)
deriving DecidableEq, Repr

/-- A hello (R318): the sender's address, role, position, pair, module identity and the sending lane's number. -/
structure Hello where
  addr : Nat := 0
  role : Nat := 0
  pos : Nat := 0
  pair : Nat := 0
  ident : Nat := 0
  lane : Nat := 0
deriving DecidableEq, Repr
/-- What a switch die reports of one channel (R10, R369): current in mA, junction temperature in 0.1 °C, whether the
limiter acts. -/
structure ChanRep where
  cur : BitVec 16
  tj : BitVec 16
  limiting : Bool
deriving DecidableEq, Repr

/-- What the module drives out, in the order it is driven. -/
inductive Msg where
  /-- A submission or withdrawal forwarded to the manager (R59, R62). -/
  | order (m : OrderMsg)
  /-- The result of a submission or withdrawal on its way back: what it answers, result, slot, SEQ (R62, R63). -/
  | subResult (m : OrderMsg) (result slot seq : Nat)
  /-- An availability report to the stack master; a bid to the manager, as its 88 bytes (R65) with the ports' PORT_LIM and
  the ports withheld or absent; a grant frame; a plan (R64 to R66). -/
  | report (pos : Nat) (r : Report)
  | bid (frame : List Byte) (lims : List Nat) (noGrant absent : Nat)
  | grantFrame (f : GrantFrame)
  | plan (p : Plan)
  /-- A stack's slice of the book to the manager: the orders by key (R87). -/
  | slice (stack : Nat) (orders : List (Nat × Order))
  /-- The stack number passed to the stack's members (R46, R323). -/
  | stackNumber (s : Nat)
  /-- The trunk stop, SUB 1 of CMD_RT: a mask of trunks (R108, R434). -/
  | trunkStop (mask : Nat)
  /-- A trunk voltage, SUB 3 of CMD_RT: trunk and voltage in 0.1 V (R99, R434). -/
  | trunkVolt (trunk volt : Nat)
  /-- A group command, SUB 0 of CMD_RT: trunk, cycle, group mask, references in 0.1 A (R20, R434). -/
  | cmdRt (trunk cycle mask : Nat) (refs : List Nat)
  /-- A measurement frame, SUB 2: trunk, cycle, V_port, I_port, I_LOC word with DROP in bit 15 (R152, R267). -/
  | measFrame (trunk cycle v i word : Nat)
  /-- Group status, SUB 4: group and DERATE (R153), the trunk and how the group stands on it (`grpPhase`). -/
  | grpStatus (group derate trunk st : Nat)
  /-- Handover, SUB 5 (R80). -/
  | handover (trunk : Nat) (h : HandItem)
  /-- A pulse output changes: its number and whether it is active (R190). -/
  | pulse (q : Nat) (on : Bool)
  /-- TIME_SYNC: E of TA and TB, step domain mask, SET flags, step value (R211, R433). -/
  | timeSync (ta tb mask sets : Nat) (step : Int)
  /-- A PPS_OUT pulse of a width in ms (R216). -/
  | ppsOut (widthMs : Nat)
  /-- A METER_RECORD and a TALLY_SNAP, with their bytes (R247 to R249, R433). -/
  | meterRecord (rec : List Byte)
  | tallySnap (rec : List Byte)
  /-- How a port drives CP_OUT from now on (R263). -/
  | cpOut (port : Nat) (d : CpDrive)
  /-- A vehicle frame received by a port, with its receive time (R275, R433): PLC_FRAME and T1S_FRAME towards the host. -/
  | plcFrame (port time : Nat) (frame : List Byte)
  | t1sFrame (port time : Nat) (frame : List Byte)
  /-- A frame a port sends on its vehicle line: through the PLC modem or the 10BASE-T1S PHY (R272, R274). -/
  | vehicleTx (port : Nat) (t1s : Bool) (frame : List Byte)
  /-- What the mesh modem sends on the line (R290 to R298): a frame to a node (0xFF broadcast) in a slot on a map; a selective
  acknowledgement; a map update; its acknowledgement; an advertisement with the neighbours to whom a destination is
  advertised as unreachable. -/
  | meshTx (dest slot map : Nat) (segs : List MeshSeg)
  | meshAck (dest bits : Nat)
  | meshUpdate (dest slot map rate : Nat) (codes : List Nat)
  | meshUpdAck (dest slot : Nat)
  | meshAdv (routes : List (Nat × Nat × Nat)) (except : List (Nat × Nat))
  /-- MESH_FRAME towards the host: source node, priority, MSDU (R433). -/
  | meshFrame (peer prio : Nat) (msdu : List Byte)
  /-- A frame of the module's own on a lane (R312): lane, class, SEQ, destination address, and the message it carries. -/
  | laneTx (lane cls seq dst : Nat) (m : Msg)
  /-- A relayed frame on a lane, whole. -/
  | laneRaw (lane : Nat) (frame : List Byte)
  /-- A control block on a lane (R314, R316). -/
  | laneCtl (lane cls : Nat) (c : LaneCtl)
  /-- A hello, a RESUME with the last sequence number received in each class, and the answer to a hello (R311, R318). -/
  | laneHello (lane : Nat) (h : Hello)
  | laneResume (lane addr ident : Nat) (seqs : List Nat)
  /-- A stack's request for its number, upwards, and the manager's answer, downwards (R323). -/
  | stackIdUp (lane id depth : Nat)
  | stackIdDown (lane id s depth : Nat)
  /-- A frame received and delivered here: lane, class, type, source, payload. -/
  | delivered (lane cls typ src : Nat) (payload : List Byte)
  /-- An Ethernet frame sent, with its FCS (R325). -/
  | ethTx (mac : Nat) (frame : List Byte)
  /-- A lockstep ticket sent to the standby (R340): release tick, sequence number, source, content where the spec lays it
  out. -/
  | ticket (release tseq src : Nat) (content : List Byte)
  /-- The pair lands (R335): PAIR_HB_OUT toggling, PAIR_FAIL_OUT asserted, ACT_OUT toggling. -/
  | pairLands (hb fail act : Bool)
  /-- Between the twins on L4 and L5 (R343, R345): PEER_SYNC lost with its cause, a transfer requested, a round of pre-copy,
  the state as of T_a. -/
  | syncLost (cause : Nat)
  | xferRequest
  | xferRound (n : Nat)
  | xferState (tick : Nat)
  /-- A KEY_WRAP message with its blob (R397, R433). -/
  | keyWrap (blob : List Byte)
  /-- A Daybook record to the mirror, as a BULK frame (R424). -/
  | mirrorRecord (rec : List Byte)
  /-- The mirror's acknowledgement of a record, by its origin and SEQ (R424). -/
  | mirrorAck (origin seq : Nat)
  /-- What the cold-read port returns (R426). -/
  | coldBytes (data : List Byte)
  /-- EVT_FWD: the field event number and the raw state of host events 224-255 (R433, R472). -/
  | evtFwd (ev raw : Nat)
  /-- REG_RSP: tag, status, data words (R433, R436). -/
  | regRsp (tag status : Nat) (data : List Nat)
  /-- HEARTBEAT: from the side, the sender's counter, sender healthy, FTIME.FCTL.FDOM (R18, R433). -/
  | heartbeat (fromSide : Side) (count : Nat) (healthy : Bool) (fdom : Nat)
  /-- A message of the host's transmit ring across the barrier: type and payload (R433, R439). -/
  | barrier (type : Nat) (payload : List Byte)
  /-- DBK_ENTRY: code and payload of a record of field origin (R433, R417). -/
  | dbkEntry (code : Nat) (payload : List Byte)
  /-- The host image sent to a peer that asked on a lane (R499). -/
  | bootImage (lane : Nat) (image : List Byte)
deriving DecidableEq, Repr

/-! What some commands carry, as one operand. -/

/-- A load or fetch (R15): the binary logarithm of its width in bytes, and whether it is a fetch. -/
structure LoadForm where
  w : Fin 4
  fetch : Bool
deriving DecidableEq, Repr

/-- Where an order stands in the book (R58, R60): its slot and SEQ. -/
structure BookPlace where
  slot : BitVec 4
  seq : BitVec 32
deriving DecidableEq, Repr

/-- A bid received (R65): its 88 bytes, and what goes beside them: PORT_LIM of the stack's ports, the ports without a grant and
the absent ones (notes/assumptions/20.md). -/
structure BidData where
  frame : List Byte
  lims : List Nat
  noGrant : BitVec 16
  absent : BitVec 16
deriving DecidableEq, Repr

/-- How a group stands on a trunk (R100, R153): 1 in the close check of a dead trunk, 2 joined, 3 its transfer ended
elsewhere, 0 nothing said. -/
structure GroupPlace where
  trunk : BitVec 5
  phase : Fin 4
deriving DecidableEq, Repr

/-- A comparator's turn-off (R121, R122): the on-time in coarse steps and the sensed current as a fraction of full scale in
1/4,096. -/
structure PeakSense where
  ton : BitVec 16
  cur : BitVec 12
deriving DecidableEq, Repr

/-- The end of a mains cycle (R184): whether a rising crossing ends it, and the frequency in mHz. -/
structure CycleEnd where
  cross : Bool
  freq : Word
deriving DecidableEq, Repr

/-- What a tick brings beside its number (R49, R339): whether the use list released now names other timed inputs than this
twin has used, and the partner's seal state where its messages of the last tick showed it. -/
structure TickNews where
  useDiffers : Bool
  peer : Option Bool
deriving DecidableEq, Repr

/-- A load-switch channel and its current as measured (R356, R359). -/
structure ChanSense where
  chan : Fin 48
  cur : BitVec 16
deriving DecidableEq, Repr

/-- A load-switch rail and its voltage as measured (R367). -/
structure RailSense where
  rail : Fin 2
  volt : BitVec 16
deriving DecidableEq, Repr

end Sys2Proof
end

