-- ==== Sys2Proof/Machine/Blk.lean ====
section
/-!
DEFINITION. The block: every register, memory, queue, sequencer and mode the spec gives the module, as plain data. A
register is named by its key: side * 2^20 + page index * 0x1000 + offset; a field by its register's key, lowest bit and
width.
-/

namespace Sys2Proof.Machine

/-- A register field: the key of its register, its lowest bit and its width. -/
structure Fld where
  a : Nat
  lo : Nat
  w : Nat
deriving DecidableEq, Repr

/-- What the check bits of a 32-bit memory word say (R15, R445, R448): written whole; written with check bits
inverted; the poison pattern; check bits of another address. -/
inductive Mark where
  | clean
  | flipped (bits : Nat)
  | poison
  | otherAddr
deriving DecidableEq, Repr

/-- The answer to the last access by a core (R15, R16, R22, R534): none yet; the word read; the two words of an 8-byte
load of memory; a bus error; a rejected write; the precise exceptions of a consumed poisoned word; data delivered marked poisoned to a non-core reader. -/
inductive Resp where
  | none
  | value (w : Word)
  | double (lo hi : Word)
  | busError
  | rejected
  | accepted
  | loadAccess
  | fetchAccess
deriving DecidableEq, Repr

/-- A page's lock (R33): who has written the first sequence word last, who holds the window, and its fabric cycles
left. -/
structure LockSt where
  seq : Option Init := Option.none
  win : Option Init := Option.none
  remain : Nat := 0
deriving DecidableEq, Repr

/-- The shadow of a wide read (R24): the page, the key of the high word and the word. -/
structure Shadow where
  page : Nat := 0
  key : Nat := 0
  hi : Word := 0
deriving DecidableEq, Repr

/-- What goes out of the module and comes back from an access: the answer to the last core access, the messages
sent, oldest first, and the counter the free values are applied to. -/
structure IoSt where
  resp : Resp := .none
  out : List Msg := []
  free : Nat := 0
deriving DecidableEq, Repr

/-- Register access: page locks by page key, wide-read shadows by initiator and page (`shadowKey`), the displayed words of
frozen pages by page key (R30), the metrology seal (R34), seal generation, and calibration mode as the field side sampled
it (R47; the host's own copy is SYS.MODE.CAL). -/
structure AccSt where
  locks : Tab LockSt := []
  shadows : Tab (Option Shadow) := []
  frozen : Tab (List (Nat × Word)) := []
  sealed : Bool := false
  sealGen : Nat := 0
  cal : Bool := false
deriving DecidableEq, Repr

/-- An IOTLB entry (R453): stream, IOVA page, size in address bits (12 or 21), physical base, rights. -/
structure TlbEntry where
  stream : Nat
  vpn : Nat
  bits : Nat
  phys : Nat
  r : Bool
  w : Bool
deriving DecidableEq, Repr

/-- A fault-queue entry (R452). -/
structure FqEntry where
  iova : Nat
  write : Bool
  stream : Nat
  cause : Nat
deriving DecidableEq, Repr

/-- A DMA channel's descriptor being served (R455, R458): whether one is held, its fields and the bytes done. -/
structure DmaDesc where
  held : Bool := false
  src : Nat := 0
  dst : Nat := 0
  len : Nat := 0
  ctl : Nat := 0
  done : Nat := 0
  started : Bool := false
deriving DecidableEq, Repr

/-- Memory protection, MMU and DMA (chapter 20): the check marks of words by memory key, the IOTLB with the most
recently used first, the fault queue oldest first, the invalidation running (scope, stream, page), the memories
whose CE threshold event has been given, the DMA channels' descriptors and the channel last served, and whether a
power-fail warning has stopped descriptor fetch (R460); the descriptors queued and not written back, as channel and
ring index in the order queued (R455 FENCE); the next word of each scrubber and the passes past their period (R446). -/
structure MemSt where
  marks : Tab Mark := []
  tlb : List TlbEntry := []
  faults : List FqEntry := []
  inv : Option (Nat × Nat × Nat) := Option.none
  thGiven : Nat := 0
  dma : Tab DmaDesc := []
  served : Nat := 31
  noFetch : Bool := false
  order : List (Nat × Nat) := []
  scrubPos : Tab Nat := []
  passLate : Nat := 0
deriving DecidableEq, Repr
/-- The Factor (chapter 4) beyond its registers: the book by 16 * site port + slot, the next SEQ, the submissions and
withdrawals received since the last cut in order of receipt (a key and whether it is a withdrawal), the book as of the
last cut, and T_REM, the demand limit, T_INT and the interval number then (R55, R70); reports by position and which came
since the cut, the reports that came after BID_DEADLINE (R67); bids by stack and which came since the cut; the grants of
the last level one by site port in kW and 0.1 A, their reasons, the grants in force; the grant frame in force and whether
one came since the cut, the plan in force and the next one, whether BID_DEADLINE has passed, whether the deadline of the
grant frame or of the plan passed without one (R67); whether RUN has ever been set, the submission in flight, the last
TALLY_SNAP's feed and port power in kW, interval energy in Wh and interval number, when the last cut was, whether the
reach map or ratings differ from the stack master's, whether a member is isolated (R85), whether the manager or stack
master is regained and the next cut joins (R87). -/
structure FactorSt where
  book : Tab Order := []
  nextSeq : Nat := 1
  acts : List (Nat × Bool) := []
  cutBook : Tab Order := []
  cutDmd : Nat × Nat × Nat × Nat := (0, 0, 0, 0)
  reports : Tab Report := []
  newReports : Nat := 0
  inbox : List (Nat × Report) := []
  bids : Tab Bid := []
  newBids : Nat := 0
  grants : Tab (Nat × Nat) := []
  reasons : Tab Nat := []
  inForce : Tab (Nat × Nat) := []
  frame : Option GrantFrame := Option.none
  frameNew : Bool := false
  plan : Plan := {}
  planNext : Option Plan := Option.none
  bidDone : Bool := false
  grantLate : Bool := false
  planLate : Bool := false
  ran : Bool := false
  inFlight : Option OrderMsg := Option.none
  snap : Int × Int × Nat × Nat := (0, 0, 0, 0)
  cutAt : Nat := 0
  differs : Bool := false
  isolated : Bool := false
  regain : Bool := false
deriving DecidableEq, Repr
/-- A local group's transfer (R99) and the other work of its coils: the step (0 none, 1-7 as R99, 8 failed to close, 9 its
repeated test (R103), 13 retest of a welded coil), source and destination reach slots (8 none), the closing rank, the
start time, the source voltage of the divergence test, matched, close check on a dead trunk, a proof after a stop or trip
(no transfer), the clock stopped for want of a trunk voltage, the coil under retest, when the group last closed, proven
free by a divergence test since power-up (R107); the group's voltage reference in 10^-5 of 0.1 V, its target in 0.1 V and
when it was last brought up to date (R99, R101, R102); a welded coil whose retest waits (24 none). -/
structure XferSt where
  step : Nat := 0
  src : Nat := 8
  dst : Nat := 8
  rank : Nat := 0
  start : Nat := 0
  vsrc : Nat := 0
  matched : Bool := false
  dead : Bool := false
  proof : Bool := false
  silent : Bool := false
  coil : Nat := 0
  closedAt : Option Nat := Option.none
  proven : Bool := false
  vref : Nat := 0
  vtgt : Nat := 0
  vAt : Nat := 0
  due : Nat := 24
deriving DecidableEq, Repr

/-- Trunks (chapter 5): the groups' transfers, the last trunk voltage received in 0.1 V, the stopped-trunk mask still
being repeated and how often (R108), further copies of a stop received, the trunks this device's site ESTOP stopped
(R109), by stack group index the trunk it leaves (R108), the closing ranks of other devices' groups as group, trunk, rank
(R100), and the coil states kept in field MRAM (R107). -/
structure TrunkSt where
  g0 : XferSt := {}
  g1 : XferSt := {}
  g2 : XferSt := {}
  volt : Tab Nat := []
  stopMask : Nat := 0
  stopLeft : Nat := 0
  stopCopies : Nat := 0
  siteMask : Nat := 0
  leaving : Tab Nat := []
  ranks : List (Nat × Nat × Nat) := []
  coilMram : Nat := 0
deriving DecidableEq, Repr
/-- A group command scheduled for its apply instant (R20): cycle, trunk, the group's reference, the owner's position, and
how many ns after its apply instant it came (R479). -/
structure CmdRt where
  cycle : Nat
  trunk : Nat
  ref : Nat
  owner : Nat
  late : Int := 0
deriving DecidableEq, Repr

/-- An edge as the modulator places it (R119, R120): coarse steps from the group period start or from the turn-on, and the tap
of the live line. -/
structure Edge where
  coarse : Nat := 0
  tap : Nat := 0
deriving DecidableEq, Repr

/-- What a phase took at its last turn-on (R121 to R123, R137): the slope in 0.1 A/µs, IPK_MAX, FS_I, the shortest on-time and
the dead time DT_HL in force, TAPS (0 while calibration has failed); T_ON_MAX in fine units; its edges: PWML off and PWMH on
from the group period start, the latest PWMH off and, once PWMH is off, PWML on from the turn-on. -/
structure PhSet where
  slope : Nat := 0
  ipkMax : Nat := 0
  fsI : Nat := 0
  least : Nat := 0
  dtHl : Nat := 0
  taps : Nat := 0
  tonMax : Nat := 0
  startAt : Edge := {}
  onAt : Edge := {}
  maxAt : Edge := {}
  lowAt : Edge := {}
deriving DecidableEq, Repr

/-- The sync fields in force since the last group period start (R137): MAX_CORR, LOCK_WIN, SYNC_DIV, SYNC_TOL, SYNC_LOSS. -/
structure SyncSet where
  maxCorr : Nat := 8
  lockWin : Nat := 4
  div : Nat := 1
  tol : Nat := 20
  loss : Nat := 4
deriving DecidableEq, Repr

/-- A modulator beyond its registers (chapter 6): why GATE_EN is removed (bits 0 emergency stop, 1 clock loss, 2 trunk
stop, 3 trip, 4 power fail); the first calibration finished and one running; no command applied since GATE_EN returned, and none
above the skip threshold; the sequencer's clamp; the sync fields in force, and whether the source was ever locked to; runs of valid edges, of edges within the lock window and of missing edges; the correction of the next period
and the lengths of the period set and in progress, in fine units; the step of each phase (1 low side off, 2 high side
on, 3 high side off) and what it took at its turn-on; the gate outputs; the DESAT inputs; when the first phase fault came and whether in this period;
commands scheduled, the last applied, the owner accepted from a cycle on (R80); the command timeout and its ramp's
remainder (R154). -/
structure ModSt where
  gate : Nat := 0
  calDone : Bool := false
  calRun : Bool := false
  hold : Bool := true
  quiet : Bool := false
  clamp : Bool := false
  sync : SyncSet := {}
  wasLocked : Bool := false
  valid : Nat := 0
  lockRun : Nat := 0
  miss : Nat := 0
  corr : Int := 0
  perSet : Nat := 512000
  per : Nat := 512000
  step : Tab Nat := []
  ph : Tab PhSet := []
  pwmh : Nat := 0
  pwml : Nat := 0
  desat : Nat := 0
  fault : Option Nat := Option.none
  cmds : List CmdRt := []
  last : Option CmdRt := Option.none
  only : Option (Nat × Nat) := Option.none
  timedOut : Bool := false
  rampAcc : Nat := 0
deriving DecidableEq, Repr
/-- A measurement frame of a port (R152, R267): cycle, V_port in 0.1 V, I_port and I_LOC in 0.1 A, the DROP flag. -/
structure MeasFrame where
  cycle : Nat
  v : Nat
  i : Nat
  iloc : Nat
  drop : Bool
deriving DecidableEq, Repr

/-- A group's ramp weight (R153): the trunk it applies to (16 none), its mode (0 full, 1 falling, 2 zero, 3 rising), µs
since the ramp began. -/
structure GrpW where
  trunk : Nat := 16
  mode : Nat := 2
  el : Nat := 0
deriving DecidableEq, Repr

/-- A live gain table (R169): hysteresis and points (breakpoint, KP, KI). -/
structure LutLive where
  hys : Nat := 0
  pts : List (Nat × Nat × Nat) := []
deriving DecidableEq, Repr

/-- A loop slot beyond its registers (R145 to R158): the grant current; the references in 1/1000 of their unit; the
output last released; the frame of the window just closed; consecutive misses; short-test time and cool-off left in
µs; whether each reference has reached its target; a ramp of the output to zero in force, its output in 1/1000; the
drop ramp's start and µs; the handover role (0 none, 1 new owner, 2 old owner), its cycle, the snapshot taken or sent;
the PSTATE to resume, the output computed, the loop ending once at zero, the SEQ of the DRAW served, both owners' digests
of a cycle; the targets (0.1 A, 0.1 V) that hold from the next cycle start (R152), the last I_LOC received; the input a
cooling or general loop took at its cycle start (R160: none before the first start, and none for no valid channel); the
table that a commit since its last cycle start replaced (R169). -/
structure SlotSt where
  grantI : Nat := 0
  iRef : Nat := 0
  vRef : Nat := 0
  rel : Nat := 0
  meas : Option MeasFrame := Option.none
  misses : Nat := 0
  shortUs : Nat := 0
  coolUs : Nat := 0
  iHit : Bool := false
  vHit : Bool := false
  fresh : Bool := false
  ramp : Bool := false
  rampOut : Nat := 0
  drop : Bool := false
  dropFrom : Nat := 0
  dropUs : Nat := 0
  hand : Nat := 0
  handAt : Nat := 0
  handSnap : Bool := false
  under : Nat := 0
  u : Nat := 0
  ending : Bool := false
  drawSeq : Nat := 0
  digMine : Option (Nat × Nat) := Option.none
  digPeer : Option (Nat × Nat) := Option.none
  tgtNext : Option (Nat × Nat) := Option.none
  iloc : Nat := 65535
  inp : Option (Option Int) := Option.none
  lutHold : Option (Option LutLive) := Option.none
deriving DecidableEq, Repr

/-- The auto-tune in progress (R164): the output in force, whether the error is on its high side, half cycles and cycles
seen, the extremes of the oscillation, the sums measured and the oscillations counted. -/
structure TuneSt where
  slot : Nat := 0
  started : Bool := false
  u : Nat := 0
  high : Bool := false
  seen : Bool := false
  oscs : Nat := 0
  cyc : Nat := 0
  total : Nat := 0
  hi : Int := 0
  lo : Int := 0
  sumT : Nat := 0
  sumA : Nat := 0
  back : Nat := 0
deriving DecidableEq, Repr

/-- The control engine (chapter 7) beyond its registers: the slots, the ramp weights and the deratings reported by stack
group index, the live gain tables, the tune, the SRC 2 LIMIT of port
n's cooling loop at key n and its SRC 1 LIMIT at key 4 + n (R162, R383), the sums of voltage and current and the count
of each port's control samples in the open window (R145). -/
structure CeSt where
  slots : Tab SlotSt := []
  weight : Tab GrpW := []
  derate : Tab Nat := []
  lut : Tab LutLive := []
  tune : TuneSt := {}
  lims : Tab (Option Nat) := []
  win : Tab (Int × Int × Nat) := []
deriving DecidableEq, Repr
/-- A step of legal time not yet applied to billing (R228, R229): the counter ns since the end of the last metrology
sample, billing time before and after, legal time before, the step in ns and its ARG3. -/
structure LegalStep where
  dt : Nat
  bm : Nat
  bp : Nat
  l0 : Nat
  s : Int
  kind : Nat
deriving DecidableEq, Repr

/-- The mains cycle in progress (R184 to R188): samples, counter ns, the sums of the energies in quanta, of the squares
of phase voltages and currents times ns, of the square of the neutral sum, the flags, the legal steps inside it with
their counter ns from its start. -/
structure AcCycle where
  n : Nat := 0
  dt : Nat := 0
  p : Int := 0
  q : Int := 0
  v2 : List Nat := [0, 0, 0]
  i2 : List Nat := [0, 0, 0, 0]
  n2 : Nat := 0
  qual : Nat := 0
  bs : Nat := 0
  seg : Nat := 0
  steps : List LegalStep := []
deriving DecidableEq, Repr

/-- What a sensor head is driven with (R173, R174, R193): EXP/EXN (0 not driven, 1 the square wave of a fluxgate, 2 the
reversing supply of bridges) and its amplitude in 1/255, the integral of the fluxgate loop and the CMD output. -/
structure HeadSt where
  exc : Nat := 0
  level : Nat := 0
  loop : Int := 0
  cmd : Nat := 0
deriving DecidableEq, Repr

/-- The metrology front end (chapter 8) beyond its registers: the counter ns of the two field copies at the end of the last
sample and the legal steps since; the heads' drive; the last raw values of delayed channels, by channel and modulator (R178),
and the last voltages of the AC phases (R185); the cycle in progress; consecutive cycles with a bad and a good neutral; the pulse accumulators A_q and
which outputs are active; the last samples of each channel for the 1 ms means (0-7 currents, 8-14 voltages); stopped
after a power-fail commit. -/
structure MetSt where
  lastA : Nat := 0
  lastB : Nat := 0
  steps : List LegalStep := []
  heads : Tab HeadSt := []
  raws : Tab (List Int) := []
  volts : Tab (List Int) := []
  ac : AcCycle := {}
  neuBad : Nat := 0
  neuGood : Nat := 0
  pulse : Tab Nat := []
  active : Nat := 0
  means : Tab (List Int) := []
  stopped : Bool := false
deriving DecidableEq, Repr
/-- A host time domain beyond its registers (R200, R203, R204, R206): E in 2^-32 ns, the shadow of ADD_LO, the servo's
frequency estimate F in 1/16 ns, consecutive updates within LOCK_NS, the addends in force over the last 16 updates,
newest first, and the step not yet mirrored to the field (R211). -/
structure DomSt where
  e : Nat := 0
  shadow : Nat := 0
  freq : Int := 0
  good : Nat := 0
  hist : List Nat := []
  stepDue : Option Int := none
deriving DecidableEq, Repr

/-- A field copy of a domain (R210, R535): E in 2^-32 ns, its counter increments without steps and loads (R176), the addend per 2.5 ns tick in 2^-32 ns, the servo's estimate in
1/16 ns, consecutive TIME_SYNCs within 50 ns, whether a TIME_SYNC has set it since field reset, whether it is held
under R535. -/
structure CopySt where
  e : Nat := 0
  inc : Nat := 0
  rate : Nat := 5 * 2 ^ 31
  freq : Int := 0
  good : Nat := 0
  synced : Bool := false
  held : Bool := false
deriving DecidableEq, Repr

/-- One capture (R215): the counters of both domains and their wrap counts. -/
structure CapEntry where
  ta : Nat
  tb : Nat
  wa : Nat
  wb : Nat
deriving DecidableEq, Repr

/-- Time (chapter 9): the host domains, the field copies, the followed domain in effect (R212) and as the last HEARTBEAT
told the host, the capture FIFOs oldest first (host units 0-7, field units 8-11), the RTC in ns (R217), and the ns
since reset that the block's own timers count. -/
structure TimeSt where
  clk : Nat := 0
  ta : DomSt := {}
  tb : DomSt := {}
  fa : CopySt := {}
  fb : CopySt := {}
  fdom : Nat := 0
  hostFdom : Nat := 0
  caps : Tab (List CapEntry) := []
  rtc : Nat := 0
deriving DecidableEq, Repr
/-- A part of a sample's or a cycle's energy (R229): the number of legal steps before it, its billing span, the meter (0-3
DC port, 4 AC, 5 the samples' counter time), billing energy and cable loss in quanta, |P_c|, |Q_c|, S_c, the quadrant
0-3, the quality word, the counter ns. -/
structure Part where
  seg : Nat
  bs : Nat
  be : Nat
  meter : Nat
  e : Int := 0
  loss : Int := 0
  p : Nat := 0
  q : Nat := 0
  s : Nat := 0
  quad : Nat := 0
  qual : Nat := 0
  el : Nat := 0
deriving DecidableEq, Repr

/-- An open session (R224, R248): its start, reference, the port's 20 tallies at the start, flags and quality since. -/
structure Session where
  startB : Nat := 0
  ref : Nat := 0
  start : List Nat := []
  flags : Nat := 0
  qual : Nat := 0
deriving DecidableEq, Repr

/-- The interval part being counted for a meter (R248): V0 to V3 at its start and the quality since. -/
structure IntPart where
  v : List Nat := []
  qual : Nat := 0
deriving DecidableEq, Repr

/-- What a commit stores (R244, R245): the tallies in quanta, remainders included, by tally number; H; the subinterval in
progress: number, start, nominal end, start of the interval part, demand energy in quanta and counter ns of the
subinterval and of its part, the flags of its records; the completed subintervals of the window, newest first, as energy
and ns; the scheme in force (mode, subintervals, minutes, quantity); the interval parts by meter; the maxima; the open
sessions; a billing reset due; the tariff and the zone (4 none) in force; the summed power in W. -/
structure HouseCore where
  tally : Tab Nat := []
  h : Nat := 0
  num : Nat := 0
  startB : Nat := 0
  endB : Nat := 900000000000
  partB : Nat := 0
  subE : Nat := 0
  subEl : Nat := 0
  partEl : Nat := 0
  flags : Nat := 0
  win : List (Nat × Nat) := []
  scheme : Nat × Nat × Nat × Nat := (0, 1, 15, 0)
  ints : Tab IntPart := []
  max : Tab (Nat × Nat) := []
  sess : Tab (Option Session) := []
  resetDue : Bool := false
  tariff : Nat := 0
  zone : Nat := 4
  power : Nat := 0
deriving DecidableEq, Repr

/-- An Aedkai record waiting for its signature (R247): type, meter, flags, quality, tariff, times of issue, meter
identity, generation of the seal, billing resets, calibration CRC, body. -/
structure AedRec where
  type : Nat
  meter : Nat
  flags : Nat
  qual : Nat
  tariff : Nat
  b : Nat
  l : Nat
  id : Nat
  gen : Nat
  resets : Nat
  crc : Nat
  body : List Byte
deriving DecidableEq, Repr

/-- The Counting House (chapter 10) beyond its registers: the live state and the copy last committed; billing time at the
end of the last sample; the number of legal steps before it; how far boundaries have been fired (steps, billing time);
steps and parts not yet settled; records to sign, the key the head's signature took (KEY_ID and scalar); the record
ring by SEQ mod 256; the pending calendar bank and the default tariff commanded with it; first and last RTC second of
each tamper input (0 cover, 1 term), the inputs whose record is due and those whose seconds were latched with the RTC not
set; energies and ns since the last snapshot (AC, DC) and in the running second, flags and quality since the last
snapshot; whether the projection event was given this subinterval; power-fail times; an outage not yet bridged by a set
time; steps of legal time during a power-fail commit; event records, each with the flags it marks what is open with, that wait for
a billing boundary before them to fire (R7); the count of billing boundaries fired. -/
structure HouseSt where
  live : HouseCore := {}
  copy : HouseCore := {}
  bPrev : Nat := 0
  seg : Nat := 0
  pos : Nat × Nat := (0, 0)
  steps : List (Nat × LegalStep) := []
  parts : List Part := []
  queue : List AedRec := []
  signKey : Option (Nat × Nat) := Option.none
  ring : Tab (List Byte) := []
  pend : Tab Nat := []
  pendDef : Nat := 0
  tamFirst : Tab Nat := []
  tamLast : Tab Nat := []
  tamDue : Nat := 0
  feedE : Int := 0
  portE : Int := 0
  snapDt : Nat := 0
  secE : Int := 0
  secDt : Nat := 0
  exceeded : Bool := false
  tw : Option Nat := Option.none
  tc : Nat := 0
  why : Nat := 0
  committed : Bool := false
  outage : Bool := false
  late : List LegalStep := []
  due : List (Nat × AedRec) := []
  fired : Nat := 0
  tamUnset : Nat := 0
  snapFlags : Nat := 0
  snapQual : Nat := 0
deriving DecidableEq, Repr
/-- A vehicle port beyond its registers (chapter 11): how CP_OUT is driven, the lock pulse running (0 none, 1 lock, 2 unlock), whether the
LOCK_TO window of the last command is open, whether the unlocked-feedback test of that command has started, the level of
LOCK_FB, whether hold bit 4's condition holds, the modem due to power down, the attenuation sums of the 58 carrier
groups and how many soundings they hold; the touch runs at or above TH and below TH/2 by electrode, scans without any
electrode at TH, and the drift not yet applied in 1/1000 counts. -/
structure VpSt where
  cp : CpDrive := .highZ
  pulse : Nat := 0
  lockWin : Bool := false
  lockTest : Bool := false
  fb : Bool := false
  imdLow : Bool := false
  down : Bool := false
  atten : Tab Nat := []
  sounds : Nat := 0
  up : Tab Nat := []
  low : Tab Nat := []
  dry : Nat := 0
  drift : Nat := 0
deriving DecidableEq, Repr
/-- A tone map (R289): the carriers' codes and the rate (0 1/2, 1 16/21). -/
structure MeshMap where
  codes : List Nat := []
  rate : Nat := 0
deriving DecidableEq, Repr

/-- A run of frames of one class in a slot (R295): 0 none, 1 degraded, 2 improved; its length and the sums of the SNRs. -/
structure MeshRun where
  cls : Nat := 0
  n : Nat := 0
  sums : List Int := []
deriving DecidableEq, Repr

/-- A mesh neighbour (R289, R295 to R297): maps 1-7 held, the slot map, a new map per slot not yet acknowledged (its number
and map), the runs of received frames and of unacknowledged ones by slot, whether the last 256 segments sent failed. -/
structure MeshNbr where
  maps : Tab MeshMap := []
  slots : List Nat := [0, 0, 0, 0, 0, 0]
  pend : Tab (Option (Nat × MeshMap)) := []
  runs : Tab MeshRun := []
  unack : Tab Nat := []
  hist : List Bool := []
deriving DecidableEq, Repr

/-- An MSDU queued for the line (R291, R293): source, destination, number, length, priority, octets, the segments not yet
delivered and how often each has failed. -/
structure Msdu where
  src : Nat := 0
  dst : Nat := 0
  num : Nat := 0
  prio : Nat := 0
  data : List Byte := []
  left : List Nat := []
  fails : Tab Nat := []
deriving DecidableEq, Repr

/-- An MSDU being received (R293): complete ones wait for the earlier ones of their source. -/
structure MeshPart where
  src : Nat := 0
  dst : Nat := 0
  num : Nat := 0
  len : Nat := 0
  prio : Nat := 0
  got : Tab (List Byte) := []
deriving DecidableEq, Repr

/-- The mesh (chapter 12) beyond its registers: consecutive good zero crossings, the half-cycle in µs, the start
of a half-cycle in ns of the followed domain, once one is known; the slot now; the energies of the last 64 symbols not erased; the
neighbours; the MSDUs queued; the frame awaiting its acknowledgement (neighbour, slot, its segments as source, number,
index); the MSDUs being received; each destination's routes as next hop, hop count, cost advertised; the last MSDU
number. -/
structure MeshSt where
  cross : Nat := 0
  half : Nat := 10000
  start : Option Int := Option.none
  energies : List Nat := []
  slot : Nat := 0
  nbrs : Tab MeshNbr := []
  queue : List Msdu := []
  air : Option (Nat × Nat × List (Nat × Nat × Nat)) := Option.none
  parts : List MeshPart := []
  routes : Tab (List (Nat × Nat × Nat)) := []
  num : Nat := 0
deriving DecidableEq, Repr
/-- A frame to be sent on a lane: a message of the module's own with its destination, or a relayed frame. -/
inductive LaneItem where
  | own (dst : Nat) (m : Msg)
  | raw (frame : List Byte)
deriving DecidableEq, Repr

/-- A lane's link (R306 to R316) beyond its registers: the settings in effect since its last retrain (RATE, ALIGN, PRE,
POST, ADAPT), per class the credits held, the next SEQ to send, the next SEQ expected, frames queued, frames sent and not
acknowledged with their SEQ, and retransmissions since the last acknowledgement; the peer's identity; when the lane went
into hold; the equaliser setting the receiver adapted to (R307). -/
structure LaneSt where
  rate : Nat := 0
  align : Nat := 0
  eq : List Nat := []
  credits : List Nat := [0, 0, 0, 0]
  txSeq : List Nat := [0, 0, 0, 0]
  rxSeq : List Nat := [0, 0, 0, 0]
  queue : List (Nat × LaneItem) := []
  unacked : List (Nat × Nat × LaneItem) := []
  tries : List Nat := [0, 0, 0, 0]
  peer : Nat := 0
  downAt : Nat := 0
  ctle : Nat := 0
deriving DecidableEq, Repr

/-- The lanes and the hierarchy (chapter 13): each lane's link; messages waiting for a lane, with class and destination
address (R326); the lane that leads to each stack below (+1); the lanes stack-number requests came from, by STACK_ID; the
trunks whose owner changes, with the old owner (+1), its slot and the cycle of change (R80, R319); frames being transmitted by the MACs. -/
structure LanesSt where
  lane : Tab LaneSt := []
  wait : List (Nat × Nat × Msg) := []
  down : Tab Nat := []
  asked : List (Nat × Nat) := []
  old : Tab (Nat × Nat × Nat) := []
deriving DecidableEq, Repr
/-- A load-switch channel beyond its registers (R354 to R369): on since its start; the profile stage (0-2, 3 burst
window, 4 no start); a retry scheduled; the coil in pull-in; the duty and frequency in force; the driver's command
where the driver is not firmware; a duty written since the last period start; during a start the limiter's setting in 0.1 A and the
output slew in V/ms (0 no limit). -/
structure LswCh where
  live : Bool := false
  stage : Nat := 4
  retry : Bool := false
  pull : Bool := false
  duty : Nat := 1000
  freq : Nat := 1000
  drvOn : Bool := false
  drvDuty : Nat := 1000
  dutyNew : Bool := false
  lim : Nat := 0
  slew : Nat := 0
deriving DecidableEq, Repr

/-- The load switches (chapter 15): the channels, and each switch die's hold (0 none, 1 holding, 2 expired; R369). -/
structure LswSt where
  ch : Tab LswCh := []
  hold0 : Nat := 0
  hold1 : Nat := 0
deriving DecidableEq, Repr
/-- A housekeeping channel beyond its registers (R375, R380, R382): consecutive rounds against the shown state of the
open, short and range tests; consecutive deviant and good rounds; the assayed values of the present rate window, newest
first. -/
structure ThmCh where
  openN : Nat := 0
  shortN : Nat := 0
  rangeN : Nat := 0
  dev : Nat := 0
  good : Nat := 0
  hist : List Int := []
deriving DecidableEq, Repr

/-- Housekeeping (chapter 16) beyond its registers: the round in progress, its number, the readings of its channels
(four conversions each, in mΩ or mV) and the reference's deviation in 10 ppm; the period in force in ms; a round to be
discarded at a takeover (R385); failing rounds in a row (R376); the channels; the sum and count of each port's
control-stream current over the round in 0.1 A (R383); the time in ms of the rounds since a channel bound to a port (0 to
3) or a group (4 to 6) rose by half its limit, none while one does (R383, R384). -/
structure ThmSt where
  running : Bool := false
  round : Nat := 0
  reads : List (Nat × List Int) := []
  refDev : Int := 0
  period : Nat := 100
  discard : Bool := false
  bad : Nat := 0
  ch : Tab ThmCh := []
  win : Tab (Int × Nat) := []
  calm : Tab (Option Nat) := []
deriving DecidableEq, Repr
/-- What a commit word of a key slot says (R391): the current cell, the generation, the attributes and the KEY_ID. -/
structure KeyAttr where
  cell : Nat := 0
  gen : Nat := 0
  type : Nat := 0
  engine : Nat := 0
  usage : Nat := 0
  parent : Nat := 0
  pgen : Nat := 0
  keyId : Nat := 0
deriving DecidableEq, Repr

/-- A key slot (R391, R400): its two cells, its two commit words (none where one does not decode), the replacement under
way and the STATE it returns to, the cell in use (R406), whether the old cell awaits zeroising, whether the new key
awaits adoption, faulted, revoked-pending. -/
structure KeySlot where
  c0 : List Byte := []
  c1 : List Byte := []
  w0 : Option KeyAttr := some {}
  w1 : Option KeyAttr := some {}
  pend : Option KeyAttr := Option.none
  use : KeyAttr := {}
  old : Bool := false
  adopt : Bool := false
  faulted : Bool := false
  revoked : Bool := false
deriving DecidableEq, Repr

/-- The operation of the host crypto engine (R405): the slot in flight (64 none), the result, the bytes to write and
where. -/
structure CryptoOp where
  slot : Nat
  result : Nat
  out : List Byte
  dst : Nat
deriving DecidableEq, Repr

/-- The Strongrooms (chapter 17) beyond their registers: host slots 0-63 and field slots 64-79, the host's last blob
nonce, the operation running, the anchors' hashes (host 0-3, field 4-7). -/
structure SrmSt where
  slots : Tab KeySlot := []
  nonce : Nat := 0
  op : Option CryptoOp := Option.none
  anchors : Tab (List Byte) := []
deriving DecidableEq, Repr
/-- A Daybook record requested and not yet committed (R417, R418): code, permanent, of field origin, written by
firmware, the legal-domain E and whether the domain is unset at the request, the payload. -/
structure DbReq where
  code : Nat
  perm : Bool
  field : Bool := false
  fw : Bool := false
  time : Nat := 0
  noTime : Bool := false
  payload : List Byte := []
deriving DecidableEq, Repr

/-- The Daybook (chapter 18) beyond its registers and its MRAM: the queue, firmware records refused since the last
hardware power-up or seal record (R418), SEQ of the last seal record, the sealing in progress and the records queued when
it began (R422), the start of the permanent ring's oldest, the permanent warning given and the 64-bit module identity
(R426), the SEQ of the last record of a full copy's step 2 while the mirror has not acknowledged it (R425), whether the
mirror was last seen reachable (R429). -/
structure DbSt where
  queue : List DbReq := []
  dropped : Nat := 0
  lastSeal : Nat := 0
  sealing : Bool := false
  sealCount : Nat := 0
  pHead : Nat := 0
  warned : Bool := false
  identity : Nat := 0
  copyWait : Option Nat := Option.none
  mirUp : Bool := false
deriving DecidableEq, Repr
/-- The barrier (chapter 19) beyond its registers: each side's verdict on the other (R18); the healthy byte the field last
received (R346); each side's count of the HEARTBEATs it has sent (R433). -/
structure BarSt where
  hostLost : Bool := false
  fieldLost : Bool := false
  peerHealthy : Bool := true
  cntH : Nat := 0
  cntF : Nat := 0
deriving DecidableEq, Repr
/-- A monitor's accumulators (R476): the firmware reads the last snapshot of them in the MON registers. -/
structure MonAcc where
  count : Nat := 0
  sum : Int := 0
  least : Int := 0x7FFFFFFF
  most : Int := -0x80000000
  mostAt : Nat := 0
  restarts : Nat := 0
  limCnt : Nat := 0
  bins : Tab Nat := []
deriving DecidableEq, Repr

/-- Event controllers and monitors (chapter 21): the events each core holds in service, innermost first, with the level
before the claim (host cores 0-3, control core 4, metrology core 5); the accumulators of host monitors 0-15 and field
monitors 16-31. -/
structure EventSt where
  svc : Tab (List (Nat × Nat)) := []
  mons : Tab MonAcc := []
deriving DecidableEq, Repr
/-- A flash operation running (R502): erase or program, and the flash offset. -/
structure FlashOp where
  erase : Bool
  addr : Nat
deriving DecidableEq, Repr

/-- Power, reset and boot of one side (chapter 22): held in reset, the sources that hold it now and the causes that held
since its last release, both by bit of RST_CAUSE; whether the fuse bank's check code held at the last release; the
image's core or cores running; the deadline of the power-fail sequence passed, the supply back in range; a watchdog
timeout deferred; unrecognised kicks; when the warning came; island clocks lost, by the CSTAT bit number (field: 0 CTRL, 1 PWM, 2 MET, 3 PLC, 4 HK). -/
structure SideSt where
  held : Bool := false
  holds : Nat := 0
  rootOk : Bool := false
  causes : Nat := 1
  run : Bool := false
  vinBack : Bool := false
  wdtDue : Bool := false
  badKicks : Nat := 0
  lost : Nat := 0
  warnAt : Nat := 0
deriving DecidableEq, Repr

/-- Power, reset and boot (chapter 22) beyond the registers: MET_HASH, stored at SEAL, and the BODY_HASH of the running
metrology image; the sides; the CORE step waiting to take effect; the flash operation; lanes asked for an image; which
control and metrology slots run (0 A, 1 B, 2 none). -/
structure BootSt where
  metHash : List Byte := []
  metRun : List Byte := []
  host : SideSt := {}
  field : SideSt := {}
  coreStep : Nat := 12
  flash : Option FlashOp := Option.none
  asked : Nat := 0
  ctrlSlot : Nat := 2
  metSlot : Nat := 2
  image : List Byte := []
deriving DecidableEq, Repr

/-- An asynchronous input of the deterministic domain (R340), as the command of the same name brings it. -/
inductive Input where
  | captureEdge (field : Bool) (c : Fin 8)
  | periodStart (g : Fin 3) (imean : List Int) (vgrp : Int)
  | desatQualify (g : Fin 3) (p : Fin 8) (low : Bool)
  | availReport (pos : Fin 4) (r : Report)
  | grantFrame (f : GrantFrame)
  | planFrame (p : Plan)
  | sliceReconcile (stack : Fin 16) (orders : List (Nat × Order))
  | orderAccept (m : OrderMsg)
  | subResult (m : OrderMsg) (res : BitVec 3) (x : BookPlace)
  | switchDieReport (d : Fin 2) (vls : BitVec 16) (chans : List ChanRep)
  | hkRoundStart (reads : List (Nat × List Int)) (refDev : BitVec 16)
  | controlSample (set : SensorSet)
  | plugInsert (p : Fin 4) (mv : BitVec 16)
  | plugRemove (p : Fin 4) (mv : BitVec 16)
  | plugFault (p : Fin 4) (mv : BitVec 16)
  | pilotChange (p : Fin 4) (hi lo : BitVec 16)
  | imdFault (p : Fin 4)
  | imdClear (p : Fin 4)
  | lockFeedbackChange (p : Fin 4) (fb : Bool)
  | soundingFrame (p : Fin 4) (att : List (BitVec 8))
  | plcJoined (p : Fin 4)
  | t1sLinkChange (p : Fin 4) (up : Bool)
  | vehicleFrameRx (p : Fin 4) (frame : List Byte) (cut : Bool)
  | buttonChange (p : Fin 4) (k : Fin 2) (on : Bool)
  | longPress (p : Fin 4) (k : Fin 2)
  | touchScan (p : Fin 4) (raw : List (BitVec 16))
  | mainsZeroCross (dev half : BitVec 16)
  | meshFrameRx (f : MeshRx)
  | meshAckRx (a : MeshAck)
  | meshAckMissing
  | mapUpdateRx (n : Fin 64) (k : Fin 6) (m : Fin 8) (rate : Bool) (codes : List (BitVec 3))
  | sessionOpen
  | sessionClose
  | gridLimit
  | replay
  | setContract
  | billingReset
  | calLoad
  | calActivate
  | zoneSet
  | ackTamper
  | seal
  | unseal
  | handover (t : Fin 16) (h : HandItem)
  | metrologySample (set : SensorSet)
  | mainsCycleEnd (x : CycleEnd)
  | tamperEvent (term opened : Bool)
  | bid (x : BidData)
  | groupCommand (cycle : BitVec 32) (trunk : Fin 16) (mask : BitVec 12) (refs : List (BitVec 16)) (owner : Fin 4)
  | measurementFrame (t : Fin 16) (cycle : BitVec 32) (v i word : BitVec 16)
  | plcFrame (p : Fin 4) (frame : List Byte)
  | t1sFrame (p : Fin 4) (frame : List Byte)
  | meshFrame (peer prio : Byte) (msdu : List Byte)
deriving DecidableEq, Repr
/-- A lockstep ticket (R340): release tick, sequence number, source, content; on the active, the input it holds. -/
structure Ticket where
  release : Nat
  tseq : Nat
  src : Nat
  content : List Byte
  input : Option Input := Option.none
deriving DecidableEq, Repr

/-- A firmware write to a deterministic page waiting for its release tick (R342): its ticket's sequence number, the register's key, the value, the
initiator, whether the page was unlocked for it; the events that occurred in the cycle of a write of EVT_CLR (R31); the
request its REG_RSP answers once it has taken effect (R23): tag, page and a status already found. -/
structure LateWrite where
  release : Nat
  tseq : Nat := 0
  a : Nat
  v : Word
  init : Init
  unl : Bool
  same : Nat := 0
  rsp : Option (Nat × Nat × Nat) := Option.none
deriving DecidableEq, Repr

/-- The pair (chapter 14) beyond its registers: the next ticket sequence number sent and the one expected; tickets and
firmware writes waiting for release, a standby's own writes not yet matched; digests of its own waiting for the
active's, by release tick; matching comparisons since verification began; the transfer's tries; when the active stopped,
whether no sample was taken since (takenOver) and whether the outputs are yet to follow; the partner's seal state as
last known; why the field side asserts PAIR_FAIL_OUT (R346) and whether its host has heard of it; whether the pre-copy rounds have ended; a standby's host cores held in reset for a transfer. -/
structure RedSt where
  tseq : Nat := 0
  expect : Option Nat := Option.none
  tickets : List Ticket := []
  writes : List LateWrite := []
  mine : List LateWrite := []
  digests : List (Nat × Nat) := []
  good : Nat := 0
  tries : Nat := 0
  gapFrom : Nat := 0
  takenOver : Bool := false
  outDue : Bool := false
  peerSealed : Option Bool := Option.none
  fail : Option (Nat × Bool) := Option.none
  roundsDone : Bool := false
  coresHeld : Bool := false
deriving DecidableEq, Repr

/-- The block: all that the commands act on. -/
structure Blk where
  /-- Every register that does not read as its reset word, by key. -/
  regs : Tab Word := []
  /-- Every byte of memory that does not read as its default, by memory key. -/
  mem : List Host.Cell := []
  io : IoSt := {}
  acc : AccSt := {}
  memory : MemSt := {}
  factor : FactorSt := {}
  trunk : TrunkSt := {}
  mod0 : ModSt := {}
  mod1 : ModSt := {}
  mod2 : ModSt := {}
  ce : CeSt := {}
  met : MetSt := {}
  time : TimeSt := {}
  house : HouseSt := {}
  vp : Tab VpSt := []
  mesh : MeshSt := {}
  lanes : LanesSt := {}
  red : RedSt := {}
  lsw : LswSt := {}
  thm : ThmSt := {}
  srm : SrmSt := {}
  daybook : DbSt := {}
  bar : BarSt := {}
  events : EventSt := {}
  boot : BootSt := {}
deriving DecidableEq, Repr

end Sys2Proof.Machine
end

