-- ==== Sys2Proof/Syntax.lean ====
section
/-!
DEFINITION. The commands of the block: one constructor for each row of spec/opcode_table.json, with what the command
carries. A register write names its initiator and the word written; an event that the world brings carries what the
world measured, sent or did.
-/

namespace Sys2Proof


/-- A condition that qualifies over FLT_MS, or 10 ms on a voltage channel (R173 to R175); `fault`: all that makes a channel
faulty has been absent for FLT_MS. -/
inductive SnsCond where
  | ovr
  | loopSat
  | excFault
  | brOpen
  | brMismatch
  | stray
  | fault
deriving DecidableEq, Repr


/-- The commands. -/
inductive Instr where
  /-- REG_WRITE (R534). A write to a register or field that has no row of its own is judged by its access type, seal, lock, permission, BUSY and block rules and takes effect or is rejected. -/
  | regWrite (i : Init) (addr : BitVec 32) (data : List Byte)
  /-- WIDE_LOW_READ (R24). A read of the low word of a 64-bit pair snapshots the high word into a per-initiator shadow. -/
  | wideLowRead (i : Init) (p : BitVec 8) (off : BitVec 12)
  /-- MEMORY_READ (R15). A read of SRAM, TCM, MRAM, fabric or LPDDR4X is checked by SECDED and delivers clean, corrected or poisoned data. -/
  | memoryRead (i : Init) (addr : BitVec 32) (x : LoadForm)
  /-- PAGE_SOFT_RESET (R29). A write of 1 to PAGE_CTL.SRST returns block fields to reset, clears FRZ, relocks the page and sets BUSY. -/
  | pageSoftReset (i : Init) (p : BitVec 8)
  /-- SOFT_RESET_DONE (R29). PAGE_STAT.BUSY clears at most 16 fabric cycles after a soft reset. -/
  | softResetDone (field : Bool) (p : BitVec 8)
  /-- PAGE_ENABLE (R28). Setting PAGE_CTL.EN starts the block from its register contents under its chapter's start-up rule. -/
  | pageEnable (i : Init) (p : BitVec 8)
  /-- PAGE_DISABLE (R28). A write of 0 to PAGE_CTL.EN disables the block, or is rejected while the block holds work that must end in order. -/
  | pageDisable (i : Init) (p : BitVec 8)
  /-- PAGE_FREEZE (R30). Setting or clearing PAGE_CTL.FRZ holds or releases the displayed status and counter fields. -/
  | pageFreeze (i : Init) (p : BitVec 8) (on : Bool)
  /-- PAGE_LOCK_WRITE (R33). A write to PAGE_LOCK advances, completes, repeats, cancels or breaks the unlock sequence. -/
  | pageLockWrite (i : Init) (p : BitVec 8) (v : Word)
  /-- UNLOCK_WINDOW_EXPIRE (R33). The page relocks 256 fabric cycles after the unlock sequence completed. -/
  | unlockWindowExpire (field : Bool) (p : BitVec 8)
  /-- EVENT_CLEAR (R31). A 1 written to EVT_CLR clears the matching EVT_RAW bit unless the event occurs in the same cycle. -/
  | eventClear (i : Init) (p : BitVec 8) (v : Word) (same : Word)
  /-- EVT_FWD_REPEAT (R472). Every 1 ms while any forwarded field raw bit stays set, the field endpoint sends EVT_FWD again. -/
  | evtFwdRepeat
  /-- EVT_FWD (R472). An EVT_FWD message received by the host sets the host summary bits it shows in EVC.FWD_RAW. -/
  | evtFwd (ev : Fin 128) (raw : Word)
  /-- FWD_CLEAR (R472). A 1 in EVC.FWD_CLR clears the host copy of a forwarded summary only. -/
  | fwdClear (i : Init) (v : Word)
  /-- EVENT_CLAIM (R471). A read of CORE.CLAIM returns the eligible event of lowest priority number, marks it in service and lowers CUR. -/
  | eventClaim (i : Init) (c : Fin 4)
  /-- EVENT_COMPLETE (R471). A write to CORE.COMPLETE ends service of the innermost event and restores CUR, or is rejected. -/
  | eventComplete (i : Init) (c : Fin 4) (ev : BitVec 8)
  /-- HEARTBEAT_SEND (R18). Each side sends HEARTBEAT across the barrier every 10 µs. -/
  | heartbeatSend (field : Bool)
  /-- HEARTBEAT (R433). A received HEARTBEAT renews the peer-side watch and carries the healthy byte and the followed domain. -/
  | heartbeat (field crcOk reserved gap healthy fdom : Bool)
  /-- OTHER_SIDE_LOST (R18). A side that receives no HEARTBEAT for 1 ms declares the other side lost and acts for a lost host or field. -/
  | otherSideLost (field : Bool)
  /-- CLOCK_LOST (R14). An island clock stopped for 1 µs or off frequency for 10 µs is declared lost and raises an event; PWM or CTRL loss disables gates. -/
  | clockLost (field : Bool) (k : Fin 32)
  /-- CLOCK_LOSS_RESET (R491). Loss of CORE, FAB, CTRL or PWM clock resets its side 10 µs after it is declared. -/
  | clockLossReset (field : Bool)
  /-- REFCLK_LOSS (R491). Loss of a side's reference holds that side in reset until the reference has been present for 1 ms. -/
  | refclkLoss (field : Bool)
  /-- ESTOP_ASSERT (R270). An open, out-of-window or shorted port or site ESTOP loop qualifies within 200 ns and stops the local groups and trunks. -/
  | estopAssert (site : Bool) (p : Fin 4)
  /-- TRUNK_STOP_REPEAT (R108). The trunk stop is sent again every 20 µs for 1 ms. -/
  | trunkStopRepeat
  /-- ESTOP_RELEASE (R270). An ESTOP loop continuously closed and in window for 50 ms qualifies as released. -/
  | estopRelease (site : Bool) (p : Fin 4)
  /-- HOST_RESET_RELEASE (R41). At the rising edge of nRST the host samples its straps into SYS.STRAP and forms SYS.MODE. -/
  | hostResetRelease (straps : Word) (rootOk : Bool) (peer : Option Bool)
  /-- FIELD_RESET_RELEASE (R500). At release of field reset the field samples its straps, checks the fuse root and mints slot 0 if empty. -/
  | fieldResetRelease (straps : Word) (rootOk : Bool)
  /-- HOLD_READY (R487). VHOLD reaching 90 % of V_CHG sets HOLD_RDY and gives C_EST from the timed rise. -/
  | holdReady (field : Bool) (us : Word)
  /-- HOLD_TIMEOUT (R487). HOLD_RDY not set 2 s after reset release sets HOLD_LOW. -/
  | holdTimeout (field : Bool)
  /-- HOST_BOOT (R499). Once HOLD_RDY is set the host boot ROM selects a candidate image from flash or lanes and enters it, or halts. -/
  | hostBoot (img : Option (Fin 16 × List Byte))
  /-- IMAGE_REQUEST (R499). A peer whose SERVE bit is set answers a lane image request with the host image it booted from. -/
  | imageRequest (n : Fin 16)
  /-- LANE_BOOT_TIMEOUT (R499). A lane boot source that gives no image within 2 s per lane or 30 s in all is abandoned. -/
  | laneBootTimeout (n : Fin 16) (all : Bool)
  /-- FIELD_IMAGE_START (R500). Once HOLD_RDY is set the field loads the control image, runs the seal check, starts the metrology and control cores and the watchdog. -/
  | fieldImageStart
  /-- POWER_ON_RESET (R491). A side is held in reset until its VIN has been in range for 10 ms. -/
  | powerOnReset (field : Bool)
  /-- RESET_LAND (R491). nRST or nRST_F low for at least 1 µs resets its side. -/
  | resetLand (field : Bool)
  /-- SOFTWARE_RESET (R491). A write of 0x0000_5257 to SWRST resets that side. -/
  | softwareReset (i : Init) (v : Word)
  /-- WATCHDOG_KICK (R493). A write of 0x0000_A5C3 to WDT_KICK restarts the count; any other value is ignored and counted. -/
  | watchdogKick (i : Init) (v : Word)
  /-- WATCHDOG_HALF (R493). Half the timeout without a kick raises SYS event 2 on the host. -/
  | watchdogHalf (field : Bool)
  /-- WATCHDOG_TIMEOUT (R493). The full watchdog timeout resets the side, deferred during a power-fail sequence. -/
  | watchdogTimeout (field : Bool)
  /-- FIELD_PF_WARNING (R489). PFAIL low or VIN_F under threshold sets the field warning, stops starts and switching and begins the field power-fail sequence. -/
  | fieldPfWarning (pfail : Bool) (vin : BitVec 16)
  /-- HOST_PF_WARNING (R489). VIN_H under threshold or a forwarded field event 122 sets the host warning, slows the cores and stops DMA fetch. -/
  | hostPfWarning (fwd : Bool) (vin : BitVec 16)
  /-- PF_GATE_REMOVE (R138). After a power-fail warning GATE_EN is removed when the group's last phase has turned off, within one period plus 100 ns. -/
  | pfGateRemove (g : Fin 3)
  /-- PF_COMMIT (R244). At t_c, currents quiet for 1 ms or t_w + 2 ms, the Counting House sets H := B and commits tallies and state to field MRAM. -/
  | pfCommit (quiet : Bool)
  /-- PF_RECORD (R244). After the commit the Counting House signs and sends the power-fail record with the residue bound. -/
  | pfRecord
  /-- BROWN_OUT (R490). VHOLD reaching V_MIN after a warning gives a brown-out reset. -/
  | brownOut (field : Bool)
  /-- PF_RECOVERY_RESET (R490). VIN back in range for RECOVER_MS after the sequence's last deadline gives a power-fail recovery reset. -/
  | pfRecoveryReset (field : Bool)
  /-- CORE_CLOCK_CHANGE (R506). A write of CLK.CORE_CFG.STEP changes the CORE clock, rejected in reduced mode. -/
  | coreClockChange (i : Init) (v : Word)
  /-- CORE_CLOCK_DONE (R506). The new CORE clock is in effect within 50 µs and CLK event bit 5 is raised. -/
  | coreClockDone
  /-- FLASH_PROGRAM (R502). FL_CTL.GO with ERASE = 0 programs FL_BUF into field flash at FL_ADDR, or is rejected. -/
  | flashProgram (i : Init) (v : Word)
  /-- FLASH_ERASE (R502). FL_CTL.GO with ERASE = 1 erases a 4 KiB field flash sector, or is rejected. -/
  | flashErase (i : Init) (v : Word)
  /-- FLASH_OP_DONE (R502). A field flash operation completes and FL_CTL.BUSY clears. -/
  | flashOpDone
  /-- BOOK_RUN (R53). Setting FCTR.BOOK_CTL.RUN starts clearings on a manager or bids on a stack master. -/
  | bookRun (i : Init) (v : Word)
  /-- SUB_GO (R63). A write to BOOK.SUB_GO forwards the order in SUB_W0–SUB_EXP to the manager and sets SUB_STAT.BUSY. -/
  | subGo (i : Init) (v : Word)
  /-- ORDER_ACCEPT (R58). The manager, or a stack master in holding, accepts an order with the next SEQ or rejects it with a result code. -/
  | orderAccept (m : OrderMsg)
  /-- CANCEL (R59). A write to BOOK.CANCEL requests withdrawal of an order, accepted or refused with a result. -/
  | cancel (i : Init) (v : Word)
  /-- SUB_RESULT (R63). The result of a submission or withdrawal returns and SUB_STAT.BUSY clears with RESULT, SLOT and SEQ. -/
  | subResult (m : OrderMsg) (res : BitVec 3) (x : BookPlace)
  /-- GROUP_ARM (R62). A 1 in FCTR.GRP_ARM clears BLOCKED of that group. -/
  | groupArm (i : Init) (v : Word)
  /-- CLEARING_CUT (R64). At boundary t_k the manager cuts the book and every device samples its state and sends an availability report. -/
  | clearingCut
  /-- AVAIL_REPORT (R64). A stack master receives a device's availability report, marking a returned device present. -/
  | availReport (pos : Fin 4) (r : Report)
  /-- BID_DEADLINE (R67). At t_k + P/4 a stack master substitutes missing reports and builds and sends its bid. -/
  | bidDeadline
  /-- BID (R65). The manager receives a stack's bid frame. -/
  | bid (x : BidData)
  /-- LEVEL_ONE (R70). By t_k + P/2 the manager substitutes missing bids, computes C_port, admits floors, shares power and sends grant frames. -/
  | levelOne
  /-- GRANT_FRAME (R66). A stack master receives its grant frame and runs level two. -/
  | grantFrame (f : GrantFrame)
  /-- GRANT_DEADLINE (R67). A grant frame not complete by its deadline leaves the standing plan in force and counts an overrun. -/
  | grantDeadline
  /-- PLAN_FRAME (R66). A device receives the plan of its stack. -/
  | planFrame (p : Plan)
  /-- PLAN_DEADLINE (R67). A plan frame not complete by t_k + 3P/4 leaves the standing plan in force and counts an overrun. -/
  | planDeadline
  /-- PLAN_ADOPT (R64). At t_{k+1} every device adopts the plan, starts transfers and handovers, applies targets and raises FCTR event 0. -/
  | planAdopt
  /-- PEER_ABSENT (R83). A device or stack silent for ABSENT_MS becomes absent; members isolate and stacks enter holding as the lost party requires. -/
  | peerAbsent (stack : Bool) (n : Fin 16)
  /-- ISLAND_ENTER (R84). After HOLD_MS in holding a stack enters island state and runs level one against ISLAND_KW. -/
  | islandEnter
  /-- SLICE_RECONCILE (R87). On regaining the manager each stack master sends its book slice, which the manager renumbers and adopts. -/
  | sliceReconcile (stack : Fin 16) (orders : List (Nat × Order))
  /-- LOOP_CYCLE_START (R145). At s_k a slot releases its previous output as the command for cycle k and the port's device closes the measurement window and sends the measurement frame. -/
  | loopCycleStart (slots : BitVec 16) (ports : BitVec 4)
  /-- LOOP_COMPUTE (R150). From s_k + 2 µs the engine computes the slot's new output from its error, gain table and integrator. -/
  | loopCompute (i : Fin 16)
  /-- LOOP_DEADLINE_MISS (R146). A computation not finished by its deadline is abandoned and the previous output released again. -/
  | loopDeadlineMiss (i : Fin 16)
  /-- COOLOFF_END (R158). At the end of cool-off the loop re-enters soft start if retries remain. -/
  | cooloffEnd (i : Fin 16)
  /-- LUT_COMMIT (R169). A write to LUT.COMMIT checks a shadow table and makes it live at each slot's next cycle or refuses it. -/
  | lutCommit (i : Init) (v : Word)
  /-- TUNE_GO (R163). A write of TUNE_GO.GO starts a relay auto-tune on a cooling or general slot, or is rejected. -/
  | tuneGo (i : Init)
  /-- TUNE_ABORT (R164). A write of TUNE_GO.ABORT aborts the tune with cause 2 and restores control. -/
  | tuneAbort (i : Init)
  /-- TUNE_TIMEOUT (R164). No full oscillation within the limit aborts the tune with cause 1. -/
  | tuneTimeout
  /-- GROUP_STATUS_SEND (R153). Each group's device sends a group status message to the owner once per millisecond and on every change. -/
  | groupStatusSend
  /-- GROUP_COMMAND (R20). A CMD_RT group command arrives and is scheduled for its apply instant, applied late, or discarded as stale. -/
  | groupCommand (cycle : BitVec 32) (trunk : Fin 16) (mask : BitVec 12) (refs : List (BitVec 16)) (owner : Fin 4)
  /-- GROUP_COMMAND_APPLY (R20). At the owner's cycle start plus 2 µs each group loads IGPK from the command. -/
  | groupCommandApply (g : Fin 3)
  /-- GROUP_CMD_TIMEOUT (R154). A group with no command for CMD_TO_US ramps IGPK to zero at the last trunk's I_SLEW and raises CE event 30. -/
  | groupCmdTimeout (g : Fin 3)
  /-- TRUNK_STOP (R108). A received trunk stop disables the gate enables of this device's groups on the stopped trunks and aborts their transfers. -/
  | trunkStop (mask : BitVec 16)
  /-- MEASUREMENT_FRAME (R152). The owner or shadow receives a port's V_port, I_port, I_LOC and DROP for a cycle. -/
  | measurementFrame (t : Fin 16) (cycle : BitVec 32) (v i word : BitVec 16)
  /-- TRUNK_VOLTAGE (R99). A device in transfer receives the trunk voltage of the trunk concerned. -/
  | trunkVoltage (t : Fin 16) (v : BitVec 16)
  /-- GROUP_STATUS (R153). The owner receives a group's DERATE for its output limit and weights. -/
  | groupStatus (k : Fin 12) (derate : BitVec 16) (x : GroupPlace)
  /-- HANDOVER (R80). A handover state, digest or abort is received; a differing digest or missing snapshot aborts the handover. -/
  | handover (t : Fin 16) (h : HandItem)
  /-- STOP_LIMIT_EXPIRE (R109). A group still above zero current STOP_LIM after a stop keeps its coil and raises TRUNK event 189 with a Daybook record. -/
  | stopLimitExpire (g : Fin 3)
  /-- STOP_COIL_RELEASE (R109). After a stop each coil is de-energised once its group reaches zero current, and then proven open. -/
  | stopCoilRelease (g : Fin 3)
  /-- TRUNK_STOP_CLEAR (R109). A write to TRUNK.STOP_CLR releases a stopped trunk, rejected while a stopping input is asserted. -/
  | trunkStopClear (i : Init) (v : Word)
  /-- XFER_SHIFT_END (R99). SHIFT_MS after t_{k+1} the source owner has moved the group's share off and step 2 begins. -/
  | xferShiftEnd (g : Fin 3)
  /-- XFER_ZERO_HELD (R99). Zero current held for ZERO_HOLD_US de-energises the source coil and counts one operation. -/
  | xferZeroHeld (g : Fin 3)
  /-- XFER_ZERO_TIMEOUT (R105). Zero current not reached by ZERO_LIM fails the transfer with result 2. -/
  | xferZeroTimeout (g : Fin 3)
  /-- XFER_OPEN_END (R101). At the end of T_OPEN_MS the divergence test begins towards V_probe. -/
  | xferOpenEnd (g : Fin 3)
  /-- XFER_DIVERGED (R101). A divergence of DIV_PCT proves the contact open and step 5 continues. -/
  | xferDiverged (g : Fin 3) (vg : BitVec 16)
  /-- XFER_DIV_TIMEOUT (R103). No divergence by DIV_MS declares the coil welded, blocks the group and records it. -/
  | xferDivTimeout (g : Fin 3)
  /-- XFER_MATCHED (R99). Group and destination voltages within MATCH_PCT for 1 ms make the group matched. -/
  | xferMatched (g : Fin 3) (vg : BitVec 16)
  /-- XFER_MATCH_TIMEOUT (R105). No match by MATCH_LIM fails the transfer with result 3 and frees the group. -/
  | xferMatchTimeout (g : Fin 3)
  /-- XFER_COIL_ENERGISE (R100). A matched group whose closing rank permits energises its destination coil, subject to the interlocks. -/
  | xferCoilEnergise (g : Fin 3) (vg : BitVec 16)
  /-- XFER_CLOSE_END (R102). At the end of T_CLOSE_MS the close check begins on a live trunk. -/
  | xferCloseEnd (g : Fin 3)
  /-- XFER_CLOSE_CHECK_END (R102). At the end of CLOSE_TEST_MS the contact is proven closed and the transfer completes, or failure to close is handled. -/
  | xferCloseCheckEnd (g : Fin 3) (imean : BitVec 16)
  /-- XFER_DEAD_CLOSE_END (R102). The dead-trunk close check ends when the group reaches 150 V or at MATCH_LIM. -/
  | xferDeadCloseEnd (g : Fin 3) (vg : BitVec 16)
  /-- FAIL_CLOSE_RETEST (R103). After a failure to close and T_OPEN_MS the divergence test is repeated and marks FAIL_CLOSE or WELDED. -/
  | failCloseRetest (g : Fin 3) (vg : BitVec 16)
  /-- TRUNK_VOLTAGE_SILENCE (R99). A transfer step with no trunk voltage for 100 µs stops its clock and waits. -/
  | trunkVoltageSilence (g : Fin 3)
  /-- WELD_CLR (R104). A write to TRUNK.WELD_CLR clears FAIL_CLOSE at once or starts a divergence retest of a welded coil, or is rejected. -/
  | weldClr (i : Init) (v : Word)
  /-- WELD_RETEST_DONE (R104). The retest of a welded coil ends and clears WELDED only if it passed. -/
  | weldRetestDone (g : Fin 3) (vg : BitVec 16)
  /-- OPS_PRESET (R112). A write to TRUNK.OPS_PRESET sets a coil's N_ops and writes a Daybook record, or is rejected. -/
  | opsPreset (i : Init) (v : Word)
  /-- PHASE_START (R121). At a phase start the phase latches ref_p, skips or drives PWML low and schedules turn-on. -/
  | phaseStart (g : Fin 3) (p : Fin 8)
  /-- DEAD_TIME_END (R121). The end of a dead time drives PWMH high or PWML high. -/
  | deadTimeEnd (g : Fin 3) (p : Fin 8)
  /-- PHASE_PEAK_OFF (R122). The peak comparator reaching its threshold after blanking turns PWMH off. -/
  | phasePeakOff (g : Fin 3) (p : Fin 8) (x : PeakSense)
  /-- PHASE_TON_MAX (R121). An on-time reaching T_ON_MAX turns PWMH off and counts DLIM. -/
  | phaseTonMax (g : Fin 3) (p : Fin 8)
  /-- PERIOD_START (R118). At each group period start new period settings take effect and IGRP is updated. -/
  | periodStart (g : Fin 3) (imean : List Int) (vgrp : Int)
  /-- SYNC_EDGE (R126). An alignment edge measures the error e and corrects the next period by at most MAX_CORR. -/
  | syncEdge (g : Fin 3) (e : BitVec 32) (dev : BitVec 32)
  /-- SYNC_EDGE_MISSING (R127). SYNC_LOSS missing or invalid edges clear LOCKED and enter holdover. -/
  | syncEdgeMissing (g : Fin 3)
  /-- DELAY_LINE_CAL (R120). Every CAL_MS a background calibration of the replica line starts. -/
  | delayLineCal (g : Fin 3)
  /-- DELAY_CAL_DONE (R120). A calibration result is taken or, outside 80–127 taps, discarded with CAL_FAIL. -/
  | delayCalDone (g : Fin 3) (taps : BitVec 8)
  /-- BALANCE_STEP (R129). Every BAL_DIV periods the active phases' trims are adjusted and re-centred, unless skipped. -/
  | balanceStep (g : Fin 3)
  /-- PHASE_IMBALANCE (R131). A phase imbalanced for IMB_MS sets IMB, or clears it after IMB_MS absent. -/
  | phaseImbalance (g : Fin 3) (p : Fin 8) (imb : Bool)
  /-- DESAT_QUALIFY (R133). DESAT asserted for DESAT_FILT drives the phase low within 40 ns and latches a phase fault. -/
  | desatQualify (g : Fin 3) (p : Fin 8) (low : Bool)
  /-- PHASE_FAULT_CLEAR (R135). ARM.PH clears a phase fault while APPLIED = 0 and DESAT is deasserted, or is rejected. -/
  | phaseFaultClear (i : Init) (g : Fin 3) (ph : BitVec 8) (desat : BitVec 8)
  /-- TRIP_CLEAR (R135). ARM.TRIP_CLR clears TRIPPED and restores GATE_EN while the group is on no trunk, or is rejected. -/
  | tripClear (i : Init) (g : Fin 3)
  /-- METROLOGY_SAMPLE (R182). At the end of each 125 µs sample the front end calibrates every channel, forms port energies and the Counting House bills them. -/
  | metrologySample (set : SensorSet)
  /-- CONTROL_SAMPLE (R177). At every 5,000 ns multiple each channel produces a control sample, used for loops and sent as trunk voltage. -/
  | controlSample (set : SensorSet)
  /-- MAINS_CYCLE_END (R184). A mains cycle ends at the reference phase's rising crossing or fixed length and yields P_c, Q_c, S_c and a quadrant. -/
  | mainsCycleEnd (x : CycleEnd)
  /-- SENSOR_FAULT_QUALIFY (R175). A sensor condition held or absent for FLT_MS sets or clears its fault or overrange flag. -/
  | sensorFaultQualify (ch : Fin 15) (c : SnsCond) (on : Bool)
  /-- TWIN_DISAGREE (R193). A standby sample differing from the active's by more than PAIR_TOL for one second sets PAIR_STAT and raises MTR event 6. -/
  | twinDisagree (c : Fin 15)
  /-- CAPTURE_START (R180). MTR.CAPT_CTL.GO starts summing raw values of one channel over N samples. -/
  | captureStart (i : Init) (v : Word)
  /-- CAPTURE_DONE (R180). The capture of N samples completes with exact sum and sum of squares. -/
  | captureDone
  /-- CAL_COMMIT (R181). MTR.CAL_COMMIT.GO computes and stores the calibration CRC and sets CAL_OK. -/
  | calCommit (i : Init)
  /-- CAL_CHECK (R181). Once a second the front end recomputes the calibration CRC and clears CAL_OK on a difference. -/
  | calCheck
  /-- PULSE_START (R190). An accumulator at or above 3.6 × 10²³ starts a pulse after the inactive time and is reduced. -/
  | pulseStart (q : Fin 5)
  /-- PULSE_END (R190). A pulse ends after WIDTH_US. -/
  | pulseEnd (q : Fin 5)
  /-- PULSE_CONFIG_WRITE (R190). A write to CONST or SRC clears the accumulator and PCNT. -/
  | pulseConfigWrite (i : Init) (q : Fin 5) (v : Word)
  /-- ADDEND_COMMIT (R203). A write of ADD_HI commits the shadowed addend at the next tick, or is rejected. -/
  | addendCommit (i : Init) (d : Fin 2) (v : Word)
  /-- STEP_GO (R204). A write of STEP_GO steps the domain's E at one tick and sets SET, or is rejected. -/
  | stepGo (i : Init) (v : Word)
  /-- SOURCE_CHANGE (R205). A write of DOM.SRC changes the domain's source and holds the addend until lock. -/
  | sourceChange (i : Init) (d : Fin 2) (v : Word)
  /-- PTP_LOCK_WRITE (R207). Firmware's PTP_LOCK is copied to LOCKED, raising lock or loss events. -/
  | ptpLockWrite (i : Init) (d : Fin 2) (lock : Bool)
  /-- SERVO_UPDATE (R206). On a Tiolmox time update or PPS_IN edge the servo measures offset and adjusts the addend. -/
  | servoUpdate (d : Fin 2) (o : BitVec 64)
  /-- SOURCE_LOST (R207). LOSS_CNT missing updates clear LOCKED and enter holdover. -/
  | sourceLost (d : Fin 2)
  /-- TIME_SYNC_SEND (R210). The host sends TIME_SYNC every 1 ms, and at once with a step. -/
  | timeSyncSend
  /-- TIME_SYNC (R210). The field copy takes a TIME_SYNC to set, correct, step or hold its domain copies. -/
  | timeSync (ta tb : BitVec 64) (mask sets : BitVec 2) (step : BitVec 64)
  /-- FOLLOWER_HOLDOVER (R210). Three missing TIME_SYNCs set FSTAT.HOLD and raise field event 126. -/
  | followerHoldover
  /-- FDOM_WRITE (R212). A write changing FTIME.FDOM is accepted only with AGREE and both copies locked. -/
  | fdomWrite (i : Init) (v : Word)
  /-- FDOM_APPLY (R212). An accepted FDOM change takes effect at the next port-loop cycle start. -/
  | fdomApply
  /-- CAPTURE_EDGE (R215). A capture unit's source edge stamps both domains into its FIFO or drops it as overflow. -/
  | captureEdge (field : Bool) (c : Fin 8)
  /-- CAPTURE_READ (R215). A read of CINFO advances the capture FIFO. -/
  | captureRead (i : Init) (c : Fin 8)
  /-- PPS_OUT_PULSE (R216). At each whole second of OUT_DOM PPS_OUT pulses for WIDTH_MS. -/
  | ppsOutPulse
  /-- RTC_TRIM (R217). At each whole second of a set legal domain the RTC is trimmed, the first time loading it and setting RTC_SET. -/
  | rtcTrim
  /-- VBAT_POWER_ON (R217). The VBAT island starting from no power starts the RTC at 0 with RTC_SET clear. -/
  | vbatPowerOn
  /-- VBAT_CHANGEOVER (R11). The VBAT island moves between VIN_F and VBAT supply without an RTC step. -/
  | vbatChangeover (onVbat : Bool)
  /-- MAILBOX_GO (R438). FBAR.MBX_CTL.GO hands the command frame to the metrology core and sets BUSY. -/
  | mailboxGo (i : Init) (v : Word)
  /-- SESSION_OPEN (R224). Opens a port's session and notes its start tallies. -/
  | sessionOpen
  /-- SESSION_CLOSE (R224). Closes a port's session and issues a session record. -/
  | sessionClose
  /-- GRID_LIMIT (R240). Sets or cancels the grid limit and its window. -/
  | gridLimit
  /-- REPLAY (R249). Sends a record again from the ring, refused if no longer held. -/
  | replay
  /-- SET_CONTRACT (R224). Sets DMD.CONTRACT.KW and issues a contract record. -/
  | setContract
  /-- BILLING_RESET (R239). Schedules a billing reset at the next subinterval end. -/
  | billingReset
  /-- CAL_LOAD (R236). Writes entries into the pending calendar bank, or is refused. -/
  | calLoad
  /-- CAL_ACTIVATE (R236). Schedules the calendar bank swap if the pending bank's CRC matches. -/
  | calActivate
  /-- ZONE_SET (R233). Writes a time-zone entry. -/
  | zoneSet
  /-- ACK_TAMPER (R251). Clears the seal-broken latch, refused while either cover input is open. -/
  | ackTamper
  /-- SEAL (R226). Seals the metrology partition, stores MET_HASH and issues a seal record, or is refused. -/
  | seal
  /-- UNSEAL (R226). Unseals the metrology partition and issues an unseal record, or is refused. -/
  | unseal
  /-- SUBINTERVAL_END (R238). At a subinterval end the demand is computed, maxima updated, interval records issued and a due billing reset performed. -/
  | subintervalEnd
  /-- TARIFF_SWITCH (R235). At a local minute boundary the tariff is evaluated and a change is a tariff switch. -/
  | tariffSwitch
  /-- CALENDAR_ACTIVATION (R236). Billing time reaching the activation time swaps the calendar banks and issues a calendar record. -/
  | calendarActivation
  /-- ZONE_CHANGE (R233). Billing time reaching a zone entry's START changes local time and issues a zone record. -/
  | zoneChange
  /-- GRID_LIMIT_BOUNDARY (R240). Billing time reaching a grid limit's start or end changes the demand limit and raises DMD event 79. -/
  | gridLimitBoundary
  /-- TALLY_SNAPSHOT (R242). At each clearing boundary the Counting House signs a snapshot and sends it as TALLY_SNAP. -/
  | tallySnapshot (clr : BitVec 32)
  /-- PERIODIC_COMMIT (R245). At every subinterval end and at least once a second the Counting House commits its state to MRAM. -/
  | periodicCommit
  /-- RECORD_SIGN_DONE (R249). A record's signature completes, it takes its SEQ and ring slot and crosses as METER_RECORD. -/
  | recordSignDone
  /-- TAMPER_EVENT (R250). A cover opening lasting 10 ms is latched and recorded, setting BROKEN while sealed. -/
  | tamperEvent (term open' : Bool)
  /-- PLUG_INSERT (R262). PLUG_IN_MS of present samples sets PLUG, latches PLUG_TS and wakes the modem or PHY. -/
  | plugInsert (p : Fin 4) (mv : BitVec 16)
  /-- PLUG_REMOVE (R262). PLUG_OUT_MS of non-present samples clears PLUG and clears the modem's keys. -/
  | plugRemove (p : Fin 4) (mv : BitVec 16)
  /-- PLUG_FAULT (R262). PLUG_OUT_MS of fault samples sets PLUG_FAULT, cleared after PLUG_IN_MS without one. -/
  | plugFault (p : Fin 4) (mv : BitVec 16)
  /-- PILOT_CHANGE (R263). A pilot state, band or diode fault agreeing over CP_FILT_MS qualifies. -/
  | pilotChange (p : Fin 4) (hi lo : BitVec 16)
  /-- IMD_FAULT (R266). VP_IMD low for IMD_MS sets hold bit 4. -/
  | imdFault (p : Fin 4)
  /-- DROP_CLR (R266). ARM.DROP_CLR clears DROP_LATCH, rejected while HOLD ≠ 0. -/
  | dropClr (i : Init) (p : Fin 4)
  /-- DISCHARGE_TIMEOUT (R269). LIVE not cleared DISCH_MS into a drop sets CAUSE.DISCH_TO. -/
  | dischargeTimeout (p : Fin 4)
  /-- LOCK_COMMAND (R265). A change of LOCK.CMD pulses the lock or unlock channel, or is rejected with PLUG = 0 or LIVE = 1. -/
  | lockCommand (i : Init) (p : Fin 4) (v : Word)
  /-- LOCK_PULSE_END (R265). A bistable lock pulse ends after PULSE_MS. -/
  | lockPulseEnd (p : Fin 4)
  /-- LOCK_TIMEOUT (R265). Feedback not agreeing within LOCK_TO sets LOCK_FAULT. -/
  | lockTimeout (p : Fin 4)
  /-- LOCK_FEEDBACK_LOST (R265). Feedback showing unlocked for CP_FILT_MS while CMD = 1 sets LOCK_FAULT. -/
  | lockFeedbackLost (p : Fin 4)
  /-- LOCK_CLR (R265). ARM.LOCK_CLR clears LOCK_FAULT once the feedback agrees with CMD. -/
  | lockClr (i : Init) (p : Fin 4)
  /-- WAKE (R272). ARM.WAKE wakes the port's modem or PHY. -/
  | wake (i : Init) (p : Fin 4)
  /-- SOUND_RST (R272). ARM.SOUND_RST clears the attenuation averages. -/
  | soundRst (i : Init) (p : Fin 4)
  /-- SOUNDING_FRAME (R272). A sounding frame with the set run identifier updates the per-group attenuation average. -/
  | soundingFrame (p : Fin 4) (att : List (BitVec 8))
  /-- PLC_JOINED (R272). The modem joins the logical network under the firmware's key and sets JOINED. -/
  | plcJoined (p : Fin 4)
  /-- MODEM_POWER_DOWN (R273). The modem powers down 1 s after plug loss unless the plug returns. -/
  | modemPowerDown (p : Fin 4)
  /-- T1S_LINK_CHANGE (R274). T1S LINK changes with a valid frame or after SILENT_MS of silence. -/
  | t1sLinkChange (p : Fin 4) (up : Bool)
  /-- VEHICLE_FRAME_RX (R275). A vehicle frame with good FCS crosses as PLC_FRAME or T1S_FRAME; a cut frame is discarded and counted. -/
  | vehicleFrameRx (p : Fin 4) (frame : List Byte) (cut : Bool)
  /-- BUTTON_CHANGE (R277). A button press or release held for BTN_MS qualifies and raises event bit 2. -/
  | buttonChange (p : Fin 4) (k : Fin 2) (on : Bool)
  /-- LONG_PRESS (R277). A press held for LONG_MS qualifies as a long press. -/
  | longPress (p : Fin 4) (k : Fin 2)
  /-- TOUCH_SCAN (R278). Each SCAN_MS the touch electrodes are measured and touches, releases and wetness qualified. -/
  | touchScan (p : Fin 4) (raw : List (BitVec 16))
  /-- TOUCH_RECAL (R278). An electrode touched for TOUCH_MAX_S has BASE := RAW and sets CAUSE.RECAL. -/
  | touchRecal (p : Fin 4) (e : Fin 4)
  /-- RECAL (R278). ARM.RECAL sets BASE := RAW on every electrode. -/
  | recal (i : Init) (p : Fin 4)
  /-- PLC_FRAME (R433). A PLC_FRAME barrier message carries a vehicle frame between host and port. -/
  | plcFrame (toHost : Bool) (p : Fin 4) (time : BitVec 64) (frame : List Byte)
  /-- T1S_FRAME (R433). A T1S_FRAME barrier message carries a vehicle frame between host and port. -/
  | t1sFrame (toHost : Bool) (p : Fin 4) (time : BitVec 64) (frame : List Byte)
  /-- MESH_FRAME (R433). A MESH_FRAME barrier message queues an MSDU for the mesh or delivers one to the host. -/
  | meshFrame (toHost : Bool) (peer prio : Byte) (msdu : List Byte)
  /-- MAINS_ZERO_CROSS (R288). A fundamental zero crossing of the slot reference phase aligns the mesh half-cycle and its lock. -/
  | mainsZeroCross (dev half : BitVec 16)
  /-- MESH_SLOT_START (R288). A mesh slot boundary selects the slot's tone map for frames that begin in it. -/
  | meshSlotStart (k : Fin 6)
  /-- MESH_TX_START (R290). The node wins channel access and begins a frame of segments that fit in the slot. -/
  | meshTxStart (left : BitVec 16)
  /-- MESH_FRAME_RX (R294). A decoded mesh frame is acknowledged selectively, classed for adaptation, and its segments reassembled, relayed or delivered. -/
  | meshFrameRx (f : MeshRx)
  /-- MESH_ACK_RX (R293). A selective acknowledgement marks segments delivered or failed, dropping an MSDU after RETRY_MAX. -/
  | meshAckRx (a : MeshAck)
  /-- MESH_ACK_MISSING (R296). DEG_CNT unacknowledged frames in a slot move the sender's slot to map 0. -/
  | meshAckMissing
  /-- MAP_UPDATE_RX (R295). The sender acknowledges a map update and uses the new map from its next frame. -/
  | mapUpdateRx (n : Fin 64) (k : Fin 6) (m : Fin 8) (rate : Bool) (codes : List (BitVec 3))
  /-- MAP_UPDATE_REPEAT (R295). An unacknowledged map update is resent every 50 ms. -/
  | mapUpdateRepeat (n : Fin 64) (k : Fin 6)
  /-- MSDU_LIFETIME_EXPIRE (R293). An MSDU or partial MSDU not completed within LIFE_MS is dropped. -/
  | msduLifetimeExpire (tx : Bool) (src : Fin 64) (num : BitVec 16)
  /-- ROUTE_ADVERTISE (R298). Every ADV_S, or within 1 s of a best-route change, the node broadcasts its routes. -/
  | routeAdvertise
  /-- NEIGHBOUR_LOST (R297). A neighbour silent for HOLD_ADV × ADV_S is lost and its routes lapse. -/
  | neighbourLost (n : Fin 64)
  /-- ROUTE_LAPSE (R298). A route not advertised for HOLD_ADV × ADV_S lapses. -/
  | routeLapse (d n : Fin 64)
  /-- MESH_LINE_FAULT (R285). A driver overcurrent or overtemperature disables transmission for 1 s. -/
  | meshLineFault
  /-- MESH_LINE_RESUME (R285). After 1 s transmission resumes if the line fault has cleared. -/
  | meshLineResume (clear : Bool)
  /-- LANE_RETRAIN (R306). LCTL.RETRAIN forces the lane to retrain with its current settings. -/
  | laneRetrain (i : Init) (n : Fin 16) (v : Word)
  /-- LANE_ALIGNED (R309). The lane finds the block boundary by header-hunt or bit-slip and aligns. -/
  | laneAligned (n : Fin 16) (slip : BitVec 7)
  /-- LANE_LOSS (R310). 16 invalid of the last 64 headers declares loss, enters hold and retrains. -/
  | laneLoss (n : Fin 16)
  /-- LANE_FRAME_TIMEOUT (R310). A frame whose last block has not arrived 2 µs after its first is discarded. -/
  | laneFrameTimeout (n : Fin 16)
  /-- LINK_RESUME (R311). A RESUME within HOLD_MS from an unchanged peer resumes the link with credits and sequences kept. -/
  | linkResume (n : Fin 16) (addr : Byte) (ident : BitVec 64) (seqs : List (BitVec 16))
  /-- LINK_HOLD_EXPIRE (R311). After HOLD_MS the link state is reset and a new handshake is required. -/
  | linkHoldExpire (n : Fin 16)
  /-- LINK_HANDSHAKE (R314). A handshake completes and each receiver grants all its buffers as credits. -/
  | linkHandshake (n : Fin 16)
  /-- HELLO_SEND (R323). A training lane sends a hello every 1 ms until answered. -/
  | helloSend (n : Fin 16)
  /-- HELLO_RX (R318). A hello is checked against the stack wiring and the lane accepted or refused. -/
  | helloRx (n : Fin 16) (h : Hello)
  /-- TIOLMOX_FRAME_RX (R312). A Tiolmox frame is checked, acknowledged, delivered, relayed or discarded. -/
  | tiolmoxFrameRx (n : Fin 16) (f : List Byte)
  /-- RETX_TIMEOUT (R316). No acknowledgement for RETX_US retransmits from the first unacknowledged frame. -/
  | retxTimeout (n : Fin 16) (c : Fin 4)
  /-- CREDIT_STARVE (R314). A class with no credit for 100 µs raises LINK event bit 7. -/
  | creditStarve (n : Fin 16) (c : Fin 4)
  /-- STACK_ID_REQUEST (R323). The manager looks up a stack's STACK_ID in MAP and answers with its number or refuses. -/
  | stackIdRequest (id : Word) (n : Fin 16) (depth : BitVec 4)
  /-- STACK_NUMBER_ASSIGN (R323). A stack master or member receiving its stack number sets SYS.MODE.STACK and joins. -/
  | stackNumberAssign (id : Word) (n : Fin 16) (depth : Fin 4)
  /-- ETH_FRAME_RX (R325). The MAC receives and stamps a frame into the receive ring, or drops it. -/
  | ethFrameRx (e : Fin 2) (f : List Byte)
  /-- ETH_TX_QUEUE (R333). A write of TX_RING.TAIL queues descriptors for the MAC to send. -/
  | ethTxQueue (i : Init) (e : Fin 2) (v : Word)
  /-- ETH_FRAME_TX (R325). The MAC finishes sending a frame, stamps it and returns its descriptor. -/
  | ethFrameTx (e : Fin 2)
  /-- TICK_START (R338). At each 1 µs tick the deterministic domain releases inputs and matched writes due at that tick. -/
  | tickStart (x : TickNews)
  /-- DIGEST_COMPUTE (R344). At each tick multiple of 1,000 each twin computes the state digest and the active tickets it. -/
  | digestCompute
  /-- LOCKSTEP_TICKET (R340). The standby receives tickets for release, detecting sequence gaps and late tickets. -/
  | lockstepTicket (release : Word) (tseq : BitVec 16) (src : Byte) (content : List Byte)
  /-- LOCKSTEP_SILENCE (R343). No ticket on either lockstep lane for 10 ticks makes the standby unsynchronised. -/
  | lockstepSilence
  /-- XFER (R345). RED.ARM.XFER starts a state transfer of the deterministic domain. -/
  | xfer (i : Init) (v : Word)
  /-- AUTO_XFER_START (R345). 100 ms after becoming unsynchronised with AUTO_XFER set, a state transfer starts. -/
  | autoXferStart
  /-- XFER_PRECOPY_ROUND (R345). A pre-copy round ends and the next round or the adopt tick follows. -/
  | xferPrecopyRound (marked : Word)
  /-- XFER_ADOPT_TICK (R345). At T_a the active captures remaining marked words and block state and sends them. -/
  | xferAdoptTick
  /-- XFER_STATE_LOADED (R345). The standby loads the state as of T_a and runs catch-up. -/
  | xferStateLoaded (dom : Machine.Blk)
  /-- CATCHUP_END (R345). Catch-up reaches the present tick and verification by digest begins. -/
  | catchupEnd
  /-- XFER_TIMEOUT (R345). A transfer not complete within XFER_MS or broken by lane loss fails. -/
  | xferTimeout
  /-- XFER_RETRY (R345). 1 s after a failed transfer it is retried up to XFER_TRY times. -/
  | xferRetry
  /-- FORCE (R346). RED.ARM.FORCE makes the synchronised active give up its outputs. -/
  | force (i : Init) (v : Word)
  /-- REJOIN (R346). RED.ARM.REJOIN releases PAIR_FAIL_OUT on a twin whose cause has cleared. -/
  | rejoin (i : Init) (v : Word)
  /-- PAIR_FAIL_IN (R347). The partner asserting PAIR_FAIL_IN makes the standby decide on takeover. -/
  | pairFailIn (on hb act : Bool)
  /-- HB_SILENCE (R347). PAIR_HB_IN with no edge for 2 µs makes the standby decide on takeover or set HB_FAULT. -/
  | hbSilence (act : Bool)
  /-- TAKEOVER_OUTPUTS (R348). By t_0 + 5 µs the new active drives all other outputs, transmits on every lane and records the takeover. -/
  | takeoverOutputs
  /-- CHANNEL_START (R356). A channel commanded on runs the inrush of its mode. -/
  | channelStart (c : Fin 48)
  /-- INRUSH_STAGE_END (R357). A profile stage ends and the next runs, or the start ends or fails. -/
  | inrushStageEnd (c : Fin 48)
  /-- BURST_END (R358). At the end of BURST_MS a retry-burst start that is still limiting fails. -/
  | burstEnd (c : Fin 48)
  /-- CHANNEL_OVERCURRENT (R359). Current above I_OC for OC_US turns the channel off as a trip. -/
  | channelOvercurrent (x : ChanSense)
  /-- CHANNEL_SHORT (R359). Current at or above I_SHORT for 200 ns turns the channel off within 1 µs and freezes its rail's compensation. -/
  | channelShort (c : Fin 48)
  /-- CHANNEL_RETRY (R360). SPACE_MS after a trip a retry start runs, or the channel is exhausted. -/
  | channelRetry (c : Fin 48)
  /-- RETRY_RESET (R360). A channel on for RST_MS without a trip returns RETRY to 0. -/
  | retryReset (c : Fin 48)
  /-- REARM (R360). LSW.ARM.REARM clears RETRY and EXHAUSTED of a channel. -/
  | rearm (i : Init) (c : BitVec 6)
  /-- THERMAL_LATCH (R361). A junction reaching TJ_LIM turns the channel off within 10 µs and latches. -/
  | thermalLatch (c : Fin 48) (tj : BitVec 16)
  /-- THERMAL_RELEASE (R361). The latch releases once the junction has cooled, with THERM_CLR where TLATCH is set. -/
  | thermalRelease (c : Fin 48) (tj : BitVec 16)
  /-- THERM_CLR (R361). LSW.ARM.THERM_CLR allows release of a cooled thermal latch. -/
  | thermClr (i : Init) (c : BitVec 6)
  /-- PWM_PERIOD_START (R364). At each PWM period start the duty and frequency take effect and compensation is recomputed. -/
  | pwmPeriodStart (c : Fin 48) (vrail : BitVec 16)
  /-- COMP_FREEZE_END (R365). 1 ms after the last short on a rail its compensation freeze ends. -/
  | compFreezeEnd (r : Fin 2)
  /-- COIL_PULL_END (R366). After PULL_MS an economy coil moves to HOLD_DUTY at 20 kHz. -/
  | coilPullEnd (c : Fin 48)
  /-- OPEN_LOAD (R356). Current below OPEN_MA for OPEN_MS after inrush sets OPEN. -/
  | openLoad (x : ChanSense)
  /-- RAIL_UNDERVOLTAGE (R367). A rail below UV_TH for 100 µs turns off all its channels. -/
  | railUndervoltage (x : RailSense)
  /-- RAIL_RECOVER (R367). A rail at or above UV_REL for 1 ms restarts its commanded channels. -/
  | railRecover (x : RailSense)
  /-- SWITCH_DIE_REPORT (R10). A switch die reports channel current, temperature and faults every 10 µs. -/
  | switchDieReport (d : Fin 2) (vls : BitVec 16) (chans : List ChanRep)
  /-- SWITCH_DIE_HOLD (R369). A switch die with no frame for 30 µs declares the field die lost and holds its channels. -/
  | switchDieHold (d : Fin 2)
  /-- SWITCH_HOLD_EXPIRE (R369). 10 ms into the hold every channel of the die turns off. -/
  | switchHoldExpire (d : Fin 2)
  /-- SWITCH_DIE_LOST (R369). The field die with no report for 30 µs declares a switch die lost. -/
  | switchDieLost (d : Fin 2)
  /-- SWITCH_LINK_RETURN (R369). On link return the field die reads channel states and restarts or continues them. -/
  | switchLinkReturn (d : Fin 2)
  /-- HK_ROUND_START (R377). At each round start the configured channels are measured in ascending order. -/
  | hkRoundStart (reads : List (Nat × List Int)) (refDev : BitVec 16)
  /-- HK_ROUND_PUBLISH (R377). At each round end the conversions, faults, assay, rates and derating are published together. -/
  | hkRoundPublish
  /-- RATE_DERATE_RELEASE (R383). No bound channel at RISE_LIM / 2 for REL_S withdraws the rate LIMIT. -/
  | rateDerateRelease (grp : Bool) (n : Fin 4)
  /-- MINT_GO (R396). SRM.MINT_GO derives a key by HKDF into DEST, or is refused. -/
  | mintGo (i : Init)
  /-- KEY_SELFTEST_DONE (R400). A new key's self-test ends and it is committed in two phases, or zeroised on failure. -/
  | keySelftestDone (n : Fin 80)
  /-- KEY_OLD_ZEROISE (R400). The old cell is zeroised within 10 µs of its last operation and its children become revoked-pending. -/
  | keyOldZeroise (n : Fin 80)
  /-- REVOKE (R403). A REVOKE write invalidates a slot and its descendants become revoked-pending. -/
  | revoke (i : Init) (v : Word)
  /-- REVOKED_ZEROISE (R403). A revoked-pending slot is zeroised after its last operation and written empty. -/
  | revokedZeroise (n : Fin 80)
  /-- KW_SEND (R397). SRM.KW_SEND sends a TYPE 7 host slot's blob as KEY_WRAP, or is refused. -/
  | kwSend (i : Init) (v : Word)
  /-- KEY_WRAP (R399). The field Strongroom checks a blob and enters it into DEST, or refuses it. -/
  | keyWrap (blob : List Byte)
  /-- AES_GCM_ENCRYPT (R405). OP_CTL code 1 encrypts with AES-GCM. -/
  | aesGcmEncrypt (i : Init) (slot : BitVec 8)
  /-- AES_GCM_DECRYPT (R405). OP_CTL code 2 decrypts with AES-GCM, zeroing output on tag failure. -/
  | aesGcmDecrypt (i : Init) (slot : BitVec 8)
  /-- HMAC_SHA256 (R405). OP_CTL code 3 computes an HMAC-SHA-256. -/
  | hmacSha256 (i : Init) (slot : BitVec 8)
  /-- SHA256 (R405). OP_CTL code 4 computes a SHA-256. -/
  | sha256 (i : Init)
  /-- ECDSA_SIGN (R405). OP_CTL code 5 signs a hash with an RFC 6979 nonce. -/
  | ecdsaSign (i : Init) (slot : BitVec 8)
  /-- ECDSA_VERIFY (R405). OP_CTL code 6 verifies a signature. -/
  | ecdsaVerify (i : Init) (slot : BitVec 8)
  /-- ECDH (R405). OP_CTL code 7 derives a shared secret into DSLOT. -/
  | ecdh (i : Init) (slot : BitVec 8) (dslot : BitVec 6)
  /-- IMPORT_BLOB (R405). OP_CTL code 8 imports a wrapped blob into a host slot. -/
  | importBlob (i : Init)
  /-- LOAD_IN_CLEAR (R405). OP_CTL code 9 loads a public key or blob in clear into a host slot. -/
  | loadInClear (i : Init)
  /-- CRYPTO_OP_COMPLETE (R405). A host crypto operation completes, writing its result and clearing BUSY. -/
  | cryptoOpComplete
  /-- ANCHOR_PROGRAM (R408). ANCH_CTL.PROG burns ANCH_STAGE into an unprogrammed anchor while unlocked. -/
  | anchorProgram (i : Init) (idx : Fin 4)
  /-- ANCHOR_REVOKE (R408). ANCH_CTL.REVOKE burns an anchor's revoke fuse unless none would remain. -/
  | anchorRevoke (i : Init) (idx : Fin 4)
  /-- ROLL_ADV (R409). ROLL_ADV.GO burns one floor fuse, refused when FLOOR ≥ BOOT_SVN. -/
  | rollAdv (i : Init)
  /-- DBK_ENTRY (R417). A field-origin DBK_ENTRY is queued as a Daybook record. -/
  | dbkEntry (code : BitVec 16) (time : BitVec 64) (payload : List Byte)
  /-- DAYBOOK_WRITE (R418). DBK.WR_GO queues a firmware record, or refuses it when only reserved entries remain or sealed. -/
  | daybookWrite (i : Init) (v : Word)
  /-- DAYBOOK_COMMIT (R419). The record at the queue head is committed to MRAM within 20 µs and sent to the mirror. -/
  | daybookCommit
  /-- DAYBOOK_RELEASE (R423). A write of REL_HI releases permanent records up to the written SEQ. -/
  | daybookRelease (i : Init) (v : Word)
  /-- MIRROR_RECORD_RX (R424). A mirror stores a received record in its rolling region and acknowledges it. -/
  | mirrorRecordRx (rec : List Byte)
  /-- MIRROR_ACK (R424). The mirror's acknowledgement advances MIR_ACK. -/
  | mirrorAck (seq : BitVec 64)
  /-- FULL_COPY_DONE (R425). The mirror acknowledges the last record of a full copy, clearing COPYING. -/
  | fullCopyDone
  /-- COLD_READ (R426). A cold-read READ command returns Daybook bytes from the address. -/
  | coldRead (addr : BitVec 23) (n : Nat)
  /-- COLD_IDENT (R426). A cold-read IDENT command returns the 16-byte identity block. -/
  | coldIdent
  /-- BARRIER_CHANNEL_DOWN (R430). A barrier channel with no valid block for 1 µs goes down and traffic restripes. -/
  | barrierChannelDown (field tx : Bool) (c : Fin 4)
  /-- BARRIER_CHANNEL_UP (R430). A retrained barrier channel rejoins at a message boundary. -/
  | barrierChannelUp (field tx : Bool) (c : Fin 4)
  /-- BARRIER_REASM_TIMEOUT (R432). A segmented message whose LAST has not arrived SEG_TO_US after FIRST is discarded. -/
  | barrierReasmTimeout (field : Bool)
  /-- REG_RD (R436). The field endpoint executes a host register read and answers with REG_RSP. -/
  | regRd (tag page : Byte) (off : BitVec 16) (count : Byte) (rsv : BitVec 24)
  /-- REG_WR (R436). The field endpoint executes a host register write word by word, with the unlock attribute where granted. -/
  | regWr (tag page : Byte) (off : BitVec 16) (count attr : Byte) (rsv : BitVec 16) (data : List Word)
  /-- REG_RSP (R436). The host receives the answer to a register request. -/
  | regRsp (tag status : Byte) (data : List Word)
  /-- TALLY_SNAP (R433). The host receives a snapshot record for the availability report. -/
  | tallySnap (rec : List Byte)
  /-- METER_RECORD (R433). The host receives an Aedkai record into its receive ring. -/
  | meterRecord (rec : List Byte)
  /-- BAR_TX_QUEUE (R439). A write of BAR.TX_RING.TAIL queues messages for the barrier endpoint. -/
  | barTxQueue (i : Init) (v : Word)
  /-- SCRUB_READ (R446). A scrubber reads the next word, correcting single-bit errors and storing poison for uncorrectable ones. -/
  | scrubRead (m : Fin 7)
  /-- SCRUB_PASS_LATE (R446). A scrub pass not ended by its period sets LATE and the next pass starts on completion. -/
  | scrubPassLate (m : Fin 3)
  /-- INJ_GO (R448). MEM.INJ.GO arms a check-bit injection on the next write to INJ_ADDR. -/
  | injGo (i : Init) (v : Word)
  /-- MMU_INVALIDATE (R453). MMU.INV.GO starts invalidating IOTLB entries of the chosen scope. -/
  | mmuInvalidate (i : Init) (v : Word)
  /-- MMU_INVALIDATE_DONE (R453). No matching entry remains and INV_STAT.BUSY clears. -/
  | mmuInvalidateDone
  /-- FQ_POP (R463). MMU.FQ_POP removes the oldest fault-queue entry. -/
  | fqPop (i : Init)
  /-- DMA_QUEUE (R455). A write of a channel's RING.TAIL queues descriptors for the channel. -/
  | dmaQueue (i : Init) (c : Fin 32) (v : Word)
  /-- DMA_BEAT (R456). At a beat boundary the engine chooses the ready channel of highest priority and issues its next beat. -/
  | dmaBeat
  /-- RESUME (R459). DMA CMD.RESUME continues a faulted channel from its resume descriptor. -/
  | resume (i : Init) (c : Fin 32)
  /-- SKIP (R459). DMA CMD.SKIP abandons a faulted descriptor and goes on to the next. -/
  | skip (i : Init) (c : Fin 32)
  /-- MONITOR_SAMPLE (R476). A monitor's source yields a sample that updates its bin, count, sum, extremes and limit. -/
  | monitorSample (field : Bool) (m : Fin 16) (x : BitVec 32) (re : BitVec 16)
  /-- SNAP (R477). MON.SNAP.GO copies the selected monitors' accumulators in one cycle, optionally clearing them. -/
  | snap (i : Init) (v : Word)
  /-- LOCK_FEEDBACK_CHANGE (R265). VP_LOCK_FB changes, after FB_INV, so VSTAT.LOCKED sets or clears, HOLD bit 2 follows, and the unlocked-feedback test of a lock command starts. -/
  | lockFeedbackChange (p : Fin 4) (fb : Bool)
  /-- IMD_CLEAR (R266). VP_IMD high for IMD_MS clears hold bit 4 and can end a drop. -/
  | imdClear (p : Fin 4)
  /-- LIMITER_RELEASE (R358). The channel current leaves the limiter's limit during inrush, LIMITING clears and a retry-burst start ends successfully. -/
  | limiterRelease (c : Fin 48)
  /-- CLOCK_RESTORED (R506). A lost island clock that did not reset its side returns, its blocks resume and CLK event bit 1 is raised. -/
  | clockRestored (field : Bool) (k : Fin 32)
  /-- VIN_RESTORED (R490). VIN returns to range after a power-fail warning, starting the RECOVER_MS count and, on the host, raising PMU event bit 3. -/
  | vinRestored (field : Bool) (vin : BitVec 16)
  /-- REFCLK_RESTORED (R491). A lost side reference returns and, once present for 1 ms, the side is released from reset and AON_H returns to REFCLK_H. -/
  | refclkRestored (field : Bool)
  /-- WRAP_COUNT_CHANGE (R220). A domain's 32-bit counter wraps every 4.294967296 s, its wrap count increments and TIME event bit 13 or 14 is raised. -/
  | wrapCountChange (d : Fin 2)
  /-- CONTROL_BLOCK (R314). A lane sender receives a control block returning credits or acknowledging frames, which unblocks its class or triggers retransmission on a negative acknowledgement. -/
  | controlBlock (n : Fin 16) (c : Fin 4) (k : LaneCtl)
deriving DecidableEq, Repr

end Sys2Proof
end

