-- ==== Sys2Proof/Decode.lean ====
section
/-!
DEFINITION. Which command a word spells. The opcode table gives its rows no bits: the commands come from outside the block
as register accesses, messages and events, so no word spells one.
-/

namespace Sys2Proof

/-- The command a word of the table's bits spells: none, since no row has bits. -/
def decodeTableWord (_nbits _w : Nat) : Option Instr := none

end Sys2Proof
end

