-- ==== Sys2Proof/Machine/Num.lean ====
section
/-!
DEFINITION. Arithmetic the meanings share: two's complement, saturation, clamps, rounding, integer square root, bytes
of an integer. Values are exact integers, narrowed where the spec gives a field's width.
-/

namespace Sys2Proof.Num

/-- The two's complement reading of the low `w` bits of `n`. -/
def toInt (w n : Nat) : Int :=
  if n % 2 ^ w < 2 ^ (w - 1) then ((n % 2 ^ w : Nat) : Int) else ((n % 2 ^ w : Nat) : Int) - ((2 ^ w : Nat) : Int)

/-- The `w`-bit two's complement encoding of an integer. -/
def ofInt (w : Nat) (i : Int) : Nat := (i % ((2 ^ w : Nat) : Int)).toNat

/-- Saturate at the largest `w`-bit count. -/
def satU (w n : Nat) : Nat := min n (2 ^ w - 1)

/-- Saturate at the limits of a signed `w`-bit field. -/
def satS (w : Nat) (i : Int) : Int :=
  max (-((2 ^ (w - 1) : Nat) : Int)) (min i (((2 ^ (w - 1) : Nat) : Int) - 1))

/-- Keep an integer within bounds. -/
def clamp (lo hi x : Int) : Int := max lo (min hi x)

/-- Quotient rounded down (b positive). -/
def fdiv (a b : Int) : Int := Int.fdiv a b

/-- Quotient rounded to nearest, halves up (b positive). -/
def rdiv (a b : Int) : Int := Int.fdiv (2 * a + b) (2 * b)

/-- Natural quotient rounded to nearest, halves up. -/
def rdivN (a b : Nat) : Nat := (2 * a + b) / (2 * b)

/-- Integer square root, by the bits of the result from bit `k - 1` down. -/
def isqrtAux (n : Nat) : Nat → Nat → Nat
  | 0, r => r
  | k + 1, r => if (r + 2 ^ k) * (r + 2 ^ k) ≤ n then isqrtAux n k (r + 2 ^ k) else isqrtAux n k r

/-- Integer square root. -/
def isqrt (n : Nat) : Nat := isqrtAux n (Nat.log2 n / 2 + 1) 0

/-- `k` bytes of a natural, least significant first. -/
def le (k n : Nat) : List Byte := (List.range k).map fun i => BitVec.ofNat 8 (n / 256 ^ i)

/-- `k` bytes of a natural, most significant first. -/
def be (k n : Nat) : List Byte := (le k n).reverse

/-- The natural whose bytes, least significant first, are listed. -/
def ofLE : List Byte → Nat
  | [] => 0
  | b :: t => b.toNat + 256 * ofLE t

/-- The natural whose bytes, most significant first, are listed. -/
def ofBE (l : List Byte) : Nat := ofLE l.reverse

/-- The bit of a natural at a position. -/
def bit (n i : Nat) : Bool := n.testBit i

/-- A natural with one bit set or cleared. -/
def setBit (n i : Nat) (v : Bool) : Nat :=
  if v then n ||| 2 ^ i else if n.testBit i then n - 2 ^ i else n

/-- A Bool as a one-bit field. -/
def b2n (b : Bool) : Nat := if b then 1 else 0

/-- How many of the low `k` bits are set. -/
def popcount (k n : Nat) : Nat := ((List.range k).filter fun i => n.testBit i).length

/-- The set bits among the low `k`, in rising order. -/
def bitsOf (k n : Nat) : List Nat := (List.range k).filter fun i => n.testBit i

/-- The natural with the listed bits set. -/
def ofBits (l : List Nat) : Nat := l.foldl (fun n i => n ||| 2 ^ i) 0

/-- The sum of a list of integers. -/
def sumI (l : List Int) : Int := l.foldl (· + ·) 0

/-- The sum of a list of naturals. -/
def sumN (l : List Nat) : Nat := l.foldl (· + ·) 0

/-- Insertion of an element into a list ordered by a test. -/
def insertBy {α : Type} (le : α → α → Bool) (x : α) : List α → List α
  | [] => [x]
  | y :: t => if le x y then x :: y :: t else y :: insertBy le x t

/-- A stable insertion sort. -/
def sortBy {α : Type} (le : α → α → Bool) : List α → List α
  | [] => []
  | x :: t => insertBy le x (sortBy le t)

/-- The first of the elements for which no later one is strictly better. -/
def bestBy {α : Type} (lt : α → α → Bool) : List α → Option α
  | [] => none
  | x :: t => match bestBy lt t with
    | none => some x
    | some y => if lt y x then some y else some x

/-- The mean of a list rounded to nearest, halves up. -/
def meanI (l : List Int) : Int := rdiv (sumI l) (if l.length = 0 then 1 else l.length)

end Sys2Proof.Num
end

