-- ==== Sys2Proof/Machine/Crc.lean ====
section
/-!
DEFINITION. The check words the spec names: CRC-32 of IEEE 802.3 (R416, R432) and CRC-64 of ECMA-182 (R344). Their
bit orders are those standards' own (notes/assumptions/5.md).
-/

namespace Sys2Proof.Machine.Crc

open Sys2Proof.Num

/-- `k` reflected CRC-32 bit steps. -/
def step32 : Nat → BitVec 32 → BitVec 32
  | 0, c => c
  | k + 1, c => step32 k (if c.getLsbD 0 then (c >>> 1) ^^^ 0xEDB88320#32 else c >>> 1)

/-- CRC-32 of IEEE 802.3 over bytes. -/
def crc32 (l : List Byte) : Nat :=
  (~~~ (l.foldl (fun c x => step32 8 (c ^^^ x.setWidth 32)) 0xFFFFFFFF#32)).toNat

/-- `k` CRC-64 bit steps, most significant bit first. -/
def step64 : Nat → BitVec 64 → BitVec 64
  | 0, c => c
  | k + 1, c => step64 k (if c.getLsbD 63 then (c <<< 1) ^^^ 0x42F0E1EBA9EA3693#64 else c <<< 1)

/-- CRC-64 of ECMA-182 over bytes. -/
def crc64 (l : List Byte) : Nat :=
  (l.foldl (fun c x => step64 8 (c ^^^ ((x.setWidth 64 : BitVec 64) <<< (56 : Nat)))) 0#64).toNat

end Sys2Proof.Machine.Crc
end

