-- ==== Sys2Proof/Config.lean ====
section
/-!
DEFINITION. What the spec leaves open and no implementation is chosen for: free values. They have no body, so that no
proof can see what they are (notes/assumptions).
-/

namespace Sys2Proof

/-- A value the spec leaves open. A meaning that needs one applies it to the counter `free` of the state, which it then
advances. Every statement holds for every choice of it. -/
opaque Config.freeValue : Nat → Nat

/-- The fuse root of a side (R390): 256 bits programmed at the factory and unique to the module. -/
opaque Config.fuseRoot : Side → BitVec 256

/-- Whether a receiver knows a message type of a lane class (R312): the types' numbers are not stated. -/
opaque Config.knownType : Nat → Nat → Bool

/-- Whether a byte of field MRAM, by its address, lies in the region that holds the metrology partition's state (R10): the
region's place is not stated. -/
opaque Config.metMram : Nat → Bool

/-- The CMD output of a fluxgate head at a value of its loop's integral (R173): the scale is not stated. -/
opaque Config.fluxCmd : Int → BitVec 16

/-- A raw value delayed by PH_DELAY ns through fractional-delay interpolation of the last raw values, newest first (R178): the
interpolation is not stated. -/
opaque Config.fracDelay : Int → List Int → Int

/-- The fundamental of a voltage delayed by a quarter of the measured period (R185), from the frequency in mHz and the last
samples, newest first: how the fundamental is found is not stated. -/
opaque Config.quarter : Nat → List Int → Int

end Sys2Proof
end

