-- ==== Sys2Proof/Machine/State.lean ====
section
/-!
DEFINITION. The state: the block and the queue of waiting commands; why a step may stop; the machine right after reset.
-/

namespace Sys2Proof.Machine

/-- The state: the block and the queue of waiting commands, first in, first out. -/
structure State where
  blk : Blk
  pending : List Instr
deriving DecidableEq, Repr

/-- Why a step stops. No command of this block stops the machine: an access the spec calls a bus error is answered by
one (R22) and the block goes on. -/
inductive Fault where
  /-- Raised by no meaning: every command of the table has an effect in every state. Kept so that the type has a name
  for a stop; safe, since nothing raises it. -/
  | halted
deriving DecidableEq, Repr

/-- Why a command has no meaning. -/
inductive Refusal where
  /-- The arm of a command that has no meaning yet answers with its mnemonic; safe, since nothing is claimed of it. -/
  | notModelled (mnemonic : String)
deriving DecidableEq, Repr

/-- The block after power-on reset of both sides with every strap land sampled low: each register at its reset word,
memory with nothing listed, the rest at the values the fields' defaults name. -/
def Blk.reset : Blk := {}

/-- The machine right after reset: the block reset, no command waiting. -/
def State.reset : State := { blk := Blk.reset, pending := [] }

end Sys2Proof.Machine
end

