-- ==== Sys2Proof/Machine/Fields.lean ====
section
/-! DEFINITION. The register fields by the names spec/ gives them: PAGE.REGISTER.FIELD, each its register's key, lowest bit and width. -/

namespace Sys2Proof.Machine

/-- Page SYS: its key (spec/22_power_reset_boot.md). -/
def pgSYS : Nat := 0x0
def SYS.STRAP.STRAP_ERR : Fld := ⟨0x40, 16, 1⟩
def SYS.STRAP.LANE_ALIGN : Fld := ⟨0x40, 15, 1⟩
def SYS.STRAP.INRUSH_DEF : Fld := ⟨0x40, 14, 1⟩
def SYS.STRAP.MAINS_HZ : Fld := ⟨0x40, 13, 1⟩
def SYS.STRAP.CAL_REQ : Fld := ⟨0x40, 12, 1⟩
def SYS.STRAP.LANE_RATE : Fld := ⟨0x40, 10, 2⟩
def SYS.STRAP.BOOT : Fld := ⟨0x40, 8, 2⟩
def SYS.STRAP.PAIR : Fld := ⟨0x40, 6, 2⟩
def SYS.STRAP.POS : Fld := ⟨0x40, 4, 2⟩
def SYS.STRAP.ROLE : Fld := ⟨0x40, 2, 2⟩
def SYS.MODE.STACK : Fld := ⟨0x44, 20, 5⟩
def SYS.MODE.SITE_STATE : Fld := ⟨0x44, 18, 2⟩
def SYS.MODE.ROLE : Fld := ⟨0x44, 16, 2⟩
def SYS.MODE.POS : Fld := ⟨0x44, 14, 2⟩
def SYS.MODE.PAIR : Fld := ⟨0x44, 12, 2⟩
def SYS.MODE.ACTIVE : Fld := ⟨0x44, 11, 1⟩
def SYS.MODE.PEER_SYNC : Fld := ⟨0x44, 10, 1⟩
def SYS.MODE.SEALED : Fld := ⟨0x44, 9, 1⟩
def SYS.MODE.CAL : Fld := ⟨0x44, 8, 1⟩
def SYS.MODE.LEGAL_DOM : Fld := ⟨0x44, 7, 1⟩
def SYS.RST_CAUSE.CAUSE : Fld := ⟨0x48, 0, 8⟩
def SYS.BOOT_STAT.LANE : Fld := ⟨0x4c, 31, 1⟩
def SYS.BOOT_STAT.SLOT_B : Fld := ⟨0x4c, 30, 1⟩
def SYS.BOOT_STAT.FALLBACK : Fld := ⟨0x4c, 29, 1⟩
def SYS.BOOT_STAT.RESULT : Fld := ⟨0x4c, 20, 4⟩
def SYS.BOOT_STAT.LANE_NUM : Fld := ⟨0x4c, 16, 4⟩
def SYS.BOOT_STAT.GEN : Fld := ⟨0x4c, 0, 16⟩
def SYS.WDT.RUN : Fld := ⟨0x50, 31, 1⟩
def SYS.WDT.TIMEOUT_MS : Fld := ⟨0x50, 0, 16⟩
def SYS.WDT_KICK.KICK : Fld := ⟨0x54, 0, 32⟩
def SYS.SWRST.KEY : Fld := ⟨0x58, 0, 32⟩
def SYS.BOOT_CTL.SERVE : Fld := ⟨0x5c, 0, 1⟩
def SYS.FSTRAP.VALID : Fld := ⟨0x60, 31, 1⟩
def SYS.FSTRAP.MISMATCH : Fld := ⟨0x60, 16, 1⟩
def SYS.FSTRAP.STRAP : Fld := ⟨0x60, 0, 16⟩
/-- Page PMU: its key (spec/22_power_reset_boot.md). -/
def pgPMU : Nat := 0x1000
def PMU.PFCTL.RECOVER_MS : Fld := ⟨0x1040, 16, 10⟩
def PMU.PFCTL.PF_TH : Fld := ⟨0x1040, 0, 8⟩
def PMU.PFSTAT.WARN : Fld := ⟨0x1044, 31, 1⟩
def PMU.PFSTAT.BY_VIN : Fld := ⟨0x1044, 30, 1⟩
def PMU.PFSTAT.BY_FWD : Fld := ⟨0x1044, 29, 1⟩
def PMU.PFSTAT.REDUCED : Fld := ⟨0x1044, 28, 1⟩
def PMU.PFSTAT.SEQ_US : Fld := ⟨0x1044, 0, 16⟩
def PMU.VMEAS.VHOLD : Fld := ⟨0x1048, 16, 16⟩
def PMU.VMEAS.VIN : Fld := ⟨0x1048, 0, 16⟩
def PMU.HOLD.HOLD_RDY : Fld := ⟨0x104c, 31, 1⟩
def PMU.HOLD.HOLD_LOW : Fld := ⟨0x104c, 30, 1⟩
def PMU.HOLD.C_EST : Fld := ⟨0x104c, 0, 16⟩
def PMU.HOLD_MIN.HOLD_MIN_UF : Fld := ⟨0x1050, 0, 16⟩
def PMU.RAILS.GOOD : Fld := ⟨0x1054, 0, 4⟩
/-- Page CLK: its key (spec/22_power_reset_boot.md). -/
def pgCLK : Nat := 0x2000
def CLK.CORE_CFG.STEP : Fld := ⟨0x2040, 0, 4⟩
def CLK.CSTAT.LANE_RX : Fld := ⟨0x2044, 16, 16⟩
def CLK.CSTAT.PLL_LOCK : Fld := ⟨0x2044, 7, 1⟩
def CLK.CSTAT.LANE_REF : Fld := ⟨0x2044, 6, 1⟩
def CLK.CSTAT.REF_H : Fld := ⟨0x2044, 5, 1⟩
def CLK.CSTAT.AON_EXT : Fld := ⟨0x2044, 4, 1⟩
def CLK.CSTAT.ISLANDS : Fld := ⟨0x2044, 0, 4⟩
def CLK.LOSS.LAST : Fld := ⟨0x2048, 16, 4⟩
def CLK.LOSS.COUNT : Fld := ⟨0x2048, 0, 16⟩
/-- Page EVC: its key (spec/21_events_and_monitors.md). -/
def pgEVC : Nat := 0x8000
def EVC.FWD_RAW.RAW : Fld := ⟨0x8040, 0, 32⟩
def EVC.FWD_EN.EN : Fld := ⟨0x8044, 0, 32⟩
def EVC.FWD_CLR.CLR : Fld := ⟨0x8048, 0, 32⟩
def EVC.FWD_CFG.RX_CNT : Fld := ⟨0x804c, 16, 16⟩
def EVC.FWD_CFG.LAST : Fld := ⟨0x804c, 8, 8⟩
def EVC.FWD_CFG.PRIO : Fld := ⟨0x804c, 0, 4⟩
def EVC.CORE.THR.THR (i : Nat) : Fld := ⟨0x8100 + 16 * i, 0, 5⟩
def EVC.CORE.CLAIM.VALID (i : Nat) : Fld := ⟨0x8104 + 16 * i, 31, 1⟩
def EVC.CORE.CLAIM.PRIO (i : Nat) : Fld := ⟨0x8104 + 16 * i, 8, 4⟩
def EVC.CORE.CLAIM.EVENT (i : Nat) : Fld := ⟨0x8104 + 16 * i, 0, 8⟩
def EVC.CORE.COMPLETE.EVENT (i : Nat) : Fld := ⟨0x8108 + 16 * i, 0, 8⟩
def EVC.CORE.CUR.DEPTH (i : Nat) : Fld := ⟨0x810c + 16 * i, 16, 5⟩
def EVC.CORE.CUR.CUR (i : Nat) : Fld := ⟨0x810c + 16 * i, 0, 5⟩
def EVC.EV.OVR (i : Nat) : Fld := ⟨0x8400 + 4 * i, 31, 1⟩
def EVC.EV.PRIO (i : Nat) : Fld := ⟨0x8400 + 4 * i, 24, 4⟩
def EVC.EV.TGT (i : Nat) : Fld := ⟨0x8400 + 4 * i, 16, 2⟩
def EVC.EV.INSVC (i : Nat) : Fld := ⟨0x8400 + 4 * i, 9, 1⟩
def EVC.EV.PEND (i : Nat) : Fld := ⟨0x8400 + 4 * i, 8, 1⟩
def EVC.EV.EFF (i : Nat) : Fld := ⟨0x8400 + 4 * i, 0, 4⟩
/-- Page MON: its key (spec/21_events_and_monitors.md). -/
def pgMON : Nat := 0xc000
def MON.SNAP.GO : Fld := ⟨0xc040, 31, 1⟩
def MON.SNAP.CLR : Fld := ⟨0xc040, 30, 1⟩
def MON.SNAP.MASK : Fld := ⟨0xc040, 0, 16⟩
def MON.LIM_STAT.LIM : Fld := ⟨0xc044, 0, 16⟩
def MON.SNAP_TIME.E : Fld := ⟨0xc048, 0, 32⟩
def MON.SNAP_TIME_HI.E_HI : Fld := ⟨0xc04c, 0, 32⟩
def MON.M.MCFG.EN (i : Nat) : Fld := ⟨0xc400 + 192 * i, 31, 1⟩
def MON.M.MCFG.LDIR (i : Nat) : Fld := ⟨0xc400 + 192 * i, 30, 1⟩
def MON.M.MCFG.LOG (i : Nat) : Fld := ⟨0xc400 + 192 * i, 29, 1⟩
def MON.M.MCFG.TDOM (i : Nat) : Fld := ⟨0xc400 + 192 * i, 28, 1⟩
def MON.M.MCFG.SRC (i : Nat) : Fld := ⟨0xc400 + 192 * i, 20, 4⟩
def MON.M.MCFG.A (i : Nat) : Fld := ⟨0xc400 + 192 * i, 8, 8⟩
def MON.M.MCFG.B (i : Nat) : Fld := ⟨0xc400 + 192 * i, 0, 8⟩
def MON.M.BASE.BASE (i : Nat) : Fld := ⟨0xc404 + 192 * i, 0, 32⟩
def MON.M.WIDTH.WIDTH (i : Nat) : Fld := ⟨0xc408 + 192 * i, 0, 32⟩
def MON.M.LIMIT.LIMIT (i : Nat) : Fld := ⟨0xc40c + 192 * i, 0, 32⟩
def MON.M.COUNT.COUNT (i : Nat) : Fld := ⟨0xc410 + 192 * i, 0, 32⟩
def MON.M.COUNT_HI.COUNT_HI (i : Nat) : Fld := ⟨0xc414 + 192 * i, 0, 32⟩
def MON.M.SUM.SUM (i : Nat) : Fld := ⟨0xc418 + 192 * i, 0, 32⟩
def MON.M.SUM_HI.SUM_HI (i : Nat) : Fld := ⟨0xc41c + 192 * i, 0, 32⟩
def MON.M.MIN.MIN (i : Nat) : Fld := ⟨0xc420 + 192 * i, 0, 32⟩
def MON.M.MAX.MAX (i : Nat) : Fld := ⟨0xc424 + 192 * i, 0, 32⟩
def MON.M.MAX_TIME.E (i : Nat) : Fld := ⟨0xc428 + 192 * i, 0, 32⟩
def MON.M.MAX_TIME_HI.E_HI (i : Nat) : Fld := ⟨0xc42c + 192 * i, 0, 32⟩
def MON.M.MSTAT.RESTARTS (i : Nat) : Fld := ⟨0xc430 + 192 * i, 16, 16⟩
def MON.M.MSTAT.LIM_CNT (i : Nat) : Fld := ⟨0xc430 + 192 * i, 0, 16⟩
def MON.M.BIN.COUNT (i k : Nat) : Fld := ⟨0xc440 + 192 * i + 4 * k, 0, 32⟩
/-- Page MMU: its key (spec/20_memory_and_dma.md). -/
def pgMMU : Nat := 0x10000
def MMU.INV.GO : Fld := ⟨0x10040, 31, 1⟩
def MMU.INV.SCOPE : Fld := ⟨0x10040, 29, 2⟩
def MMU.INV.STREAM : Fld := ⟨0x10040, 0, 6⟩
def MMU.INV_ADDR.PAGE : Fld := ⟨0x10044, 12, 20⟩
def MMU.INV_STAT.BUSY : Fld := ⟨0x10048, 31, 1⟩
def MMU.FQ_STAT.OVF : Fld := ⟨0x1004c, 16, 16⟩
def MMU.FQ_STAT.COUNT : Fld := ⟨0x1004c, 0, 5⟩
def MMU.FQ_ADDR.IOVA : Fld := ⟨0x10050, 0, 32⟩
def MMU.FQ_INFO.VALID : Fld := ⟨0x10054, 31, 1⟩
def MMU.FQ_INFO.WRITE : Fld := ⟨0x10054, 30, 1⟩
def MMU.FQ_INFO.STREAM : Fld := ⟨0x10054, 24, 6⟩
def MMU.FQ_INFO.CAUSE : Fld := ⟨0x10054, 20, 4⟩
def MMU.FQ_POP.GO : Fld := ⟨0x10058, 0, 1⟩
def MMU.TLB_STAT.MISSES : Fld := ⟨0x1005c, 16, 16⟩
def MMU.TLB_STAT.USED : Fld := ⟨0x1005c, 0, 9⟩
def MMU.STR.ROOT.ROOT (i : Nat) : Fld := ⟨0x10400 + 16 * i, 14, 18⟩
def MMU.STR.ROOT.EN (i : Nat) : Fld := ⟨0x10400 + 16 * i, 0, 1⟩
def MMU.STR.SSTAT.FAULTS (i : Nat) : Fld := ⟨0x10404 + 16 * i, 16, 16⟩
/-- Page DMA: its key (spec/20_memory_and_dma.md). -/
def pgDMA : Nat := 0x11000
def DMA.DONE.CH : Fld := ⟨0x11040, 0, 32⟩
def DMA.FAULTED.CH : Fld := ⟨0x11044, 0, 32⟩
def DMA.ACTIVE.CH : Fld := ⟨0x11048, 0, 32⟩
def DMA.BEATS.COUNT : Fld := ⟨0x1104c, 0, 32⟩
def DMA.CH.CFG.PRIO (i : Nat) : Fld := ⟨0x11400 + 64 * i, 8, 3⟩
def DMA.CH.CFG.EN (i : Nat) : Fld := ⟨0x11400 + 64 * i, 0, 1⟩
def DMA.CH.RING_BASE.IOVA (i : Nat) : Fld := ⟨0x11404 + 64 * i, 0, 32⟩
def DMA.CH.RING_BASE_HI.IOVA_HI (i : Nat) : Fld := ⟨0x11408 + 64 * i, 0, 32⟩
def DMA.CH.RING.TAIL (i : Nat) : Fld := ⟨0x1140c + 64 * i, 16, 16⟩
def DMA.CH.RING.SIZE (i : Nat) : Fld := ⟨0x1140c + 64 * i, 0, 16⟩
def DMA.CH.HEAD.HEAD (i : Nat) : Fld := ⟨0x11410 + 64 * i, 0, 16⟩
def DMA.CH.CSTAT.STATE (i : Nat) : Fld := ⟨0x11414 + 64 * i, 29, 3⟩
def DMA.CH.CSTAT.CAUSE (i : Nat) : Fld := ⟨0x11414 + 64 * i, 24, 4⟩
def DMA.CH.CSTAT.DESC (i : Nat) : Fld := ⟨0x11414 + 64 * i, 0, 16⟩
def DMA.CH.FADDR.IOVA (i : Nat) : Fld := ⟨0x11418 + 64 * i, 0, 32⟩
def DMA.CH.FADDR_HI.IOVA_HI (i : Nat) : Fld := ⟨0x1141c + 64 * i, 0, 32⟩
def DMA.CH.BYTES.BYTES (i : Nat) : Fld := ⟨0x11420 + 64 * i, 0, 32⟩
def DMA.CH.RES_SRC.IOVA (i : Nat) : Fld := ⟨0x11424 + 64 * i, 0, 32⟩
def DMA.CH.RES_SRC_HI.IOVA_HI (i : Nat) : Fld := ⟨0x11428 + 64 * i, 0, 32⟩
def DMA.CH.RES_DST.IOVA (i : Nat) : Fld := ⟨0x1142c + 64 * i, 0, 32⟩
def DMA.CH.RES_DST_HI.IOVA_HI (i : Nat) : Fld := ⟨0x11430 + 64 * i, 0, 32⟩
def DMA.CH.RES_LEN.LEN (i : Nat) : Fld := ⟨0x11434 + 64 * i, 0, 32⟩
def DMA.CH.CMD.RESUME (i : Nat) : Fld := ⟨0x11438 + 64 * i, 1, 1⟩
def DMA.CH.CMD.SKIP (i : Nat) : Fld := ⟨0x11438 + 64 * i, 0, 1⟩
/-- Page MEM: its key (spec/20_memory_and_dma.md). -/
def pgMEM : Nat := 0x14000
def MEM.SCRUB.SRAM_S : Fld := ⟨0x14040, 24, 8⟩
def MEM.SCRUB.DRAM_MIN : Fld := ⟨0x14040, 12, 12⟩
def MEM.SCRUB.MRAM_MIN : Fld := ⟨0x14040, 0, 12⟩
def MEM.SSTAT.LATE : Fld := ⟨0x14044, 0, 3⟩
def MEM.CE_CNT.FAB : Fld := ⟨0x14048, 24, 8⟩
def MEM.CE_CNT.MRAM : Fld := ⟨0x14048, 16, 8⟩
def MEM.CE_CNT.DRAM : Fld := ⟨0x14048, 8, 8⟩
def MEM.CE_CNT.SRAM : Fld := ⟨0x14048, 0, 8⟩
def MEM.UE_CNT.SRAM : Fld := ⟨0x1404c, 0, 8⟩
def MEM.UE_CNT.DRAM : Fld := ⟨0x1404c, 8, 8⟩
def MEM.UE_CNT.MRAM : Fld := ⟨0x1404c, 16, 8⟩
def MEM.UE_CNT.FAB : Fld := ⟨0x1404c, 24, 8⟩
def MEM.CNT_CLR.UE : Fld := ⟨0x14050, 1, 1⟩
def MEM.CNT_CLR.CE : Fld := ⟨0x14050, 0, 1⟩
def MEM.CE_TH.TH : Fld := ⟨0x14054, 0, 8⟩
def MEM.CE_LOG.ADDR : Fld := ⟨0x14058, 0, 32⟩
def MEM.CE_INFO.VALID : Fld := ⟨0x1405c, 31, 1⟩
def MEM.CE_INFO.MEM : Fld := ⟨0x1405c, 26, 2⟩
def MEM.CE_INFO.SCRUB : Fld := ⟨0x1405c, 25, 1⟩
def MEM.CE_INFO.INIT : Fld := ⟨0x1405c, 8, 6⟩
def MEM.CE_INFO.SYND : Fld := ⟨0x1405c, 0, 7⟩
def MEM.UE_LOG.ADDR : Fld := ⟨0x14060, 0, 32⟩
def MEM.UE_INFO.VALID : Fld := ⟨0x14064, 31, 1⟩
def MEM.UE_INFO.MEM : Fld := ⟨0x14064, 26, 2⟩
def MEM.UE_INFO.SCRUB : Fld := ⟨0x14064, 25, 1⟩
def MEM.UE_INFO.INIT : Fld := ⟨0x14064, 8, 6⟩
def MEM.UE_INFO.SYND : Fld := ⟨0x14064, 0, 7⟩
def MEM.UE_INFO.MISMATCH : Fld := ⟨0x14064, 24, 1⟩
def MEM.POISON.READS : Fld := ⟨0x14068, 16, 16⟩
def MEM.POISON.WR_MERGE : Fld := ⟨0x14068, 0, 16⟩
def MEM.INJ_ADDR.ADDR : Fld := ⟨0x14070, 2, 30⟩
def MEM.INJ.GO : Fld := ⟨0x14074, 31, 1⟩
def MEM.INJ.ARMED : Fld := ⟨0x14074, 30, 1⟩
def MEM.INJ.FLIP : Fld := ⟨0x14074, 0, 7⟩
/-- Page BAR: its key (spec/19_barrier.md). -/
def pgBAR : Nat := 0x18000
def BAR.BCTL.SEG_TO_US : Fld := ⟨0x18040, 0, 10⟩
def BAR.BSTAT.FIELD_LOST : Fld := ⟨0x18044, 31, 1⟩
def BAR.BSTAT.DEGRADED : Fld := ⟨0x18044, 30, 1⟩
def BAR.BSTAT.RX_UP : Fld := ⟨0x18044, 4, 4⟩
def BAR.BSTAT.TX_UP : Fld := ⟨0x18044, 0, 4⟩
def BAR.RX_BASE.IOVA : Fld := ⟨0x18048, 0, 32⟩
def BAR.RX_BASE_HI.IOVA_HI : Fld := ⟨0x1804c, 0, 32⟩
def BAR.RX_RING.TAIL : Fld := ⟨0x18050, 16, 16⟩
def BAR.RX_RING.SIZE : Fld := ⟨0x18050, 0, 16⟩
def BAR.RX_HEAD.HEAD : Fld := ⟨0x18054, 0, 16⟩
def BAR.TX_BASE.IOVA : Fld := ⟨0x18058, 0, 32⟩
def BAR.TX_BASE_HI.IOVA_HI : Fld := ⟨0x1805c, 0, 32⟩
def BAR.TX_RING.TAIL : Fld := ⟨0x18060, 16, 16⟩
def BAR.TX_RING.SIZE : Fld := ⟨0x18060, 0, 16⟩
def BAR.TX_HEAD.HEAD : Fld := ⟨0x18064, 0, 16⟩
def BAR.DROP_A.CRC : Fld := ⟨0x18068, 16, 16⟩
def BAR.DROP_A.TYPE : Fld := ⟨0x18068, 0, 16⟩
def BAR.DROP_B.POISON : Fld := ⟨0x1806c, 24, 8⟩
def BAR.DROP_B.GAP : Fld := ⟨0x1806c, 16, 8⟩
def BAR.DROP_B.REASM : Fld := ⟨0x1806c, 8, 8⟩
def BAR.DROP_B.RX_DROP : Fld := ⟨0x1806c, 0, 8⟩
def BAR.RT_MAX.NS : Fld := ⟨0x18070, 0, 16⟩
/-- Page TIME: its key (spec/09_time.md). -/
def pgTIME : Nat := 0x20000
def TIME.PPS_CTL.WIDTH_MS : Fld := ⟨0x20040, 16, 8⟩
def TIME.PPS_CTL.OUT_EN : Fld := ⟨0x20040, 8, 1⟩
def TIME.PPS_CTL.OUT_DOM : Fld := ⟨0x20040, 4, 1⟩
def TIME.PPS_CTL.IN_POL : Fld := ⟨0x20040, 0, 1⟩
def TIME.DIFF.DIFF : Fld := ⟨0x20044, 0, 32⟩
def TIME.STEP_LO.LO : Fld := ⟨0x20048, 0, 32⟩
def TIME.STEP_HI.HI : Fld := ⟨0x2004c, 0, 32⟩
def TIME.STEP_GO.DOM : Fld := ⟨0x20050, 1, 1⟩
def TIME.STEP_GO.GO : Fld := ⟨0x20050, 0, 1⟩
def TIME.CAP.CCFG.EVT (i : Nat) : Fld := ⟨0x20100 + 16 * i, 8, 8⟩
def TIME.CAP.CCFG.SRC (i : Nat) : Fld := ⟨0x20100 + 16 * i, 0, 3⟩
def TIME.CAP.CTA.NS (i : Nat) : Fld := ⟨0x20104 + 16 * i, 0, 32⟩
def TIME.CAP.CTB.NS (i : Nat) : Fld := ⟨0x20108 + 16 * i, 0, 32⟩
def TIME.CAP.CINFO.VALID (i : Nat) : Fld := ⟨0x2010c + 16 * i, 31, 1⟩
def TIME.CAP.CINFO.DEPTH (i : Nat) : Fld := ⟨0x2010c + 16 * i, 28, 3⟩
def TIME.CAP.CINFO.OVF (i : Nat) : Fld := ⟨0x2010c + 16 * i, 16, 8⟩
def TIME.CAP.CINFO.WRAP_B (i : Nat) : Fld := ⟨0x2010c + 16 * i, 8, 8⟩
def TIME.CAP.CINFO.WRAP_A (i : Nat) : Fld := ⟨0x2010c + 16 * i, 0, 8⟩
def TIME.DOM.NOW.NS (i : Nat) : Fld := ⟨0x20400 + 64 * i, 0, 32⟩
def TIME.DOM.NOW_HI.EXT_HI (i : Nat) : Fld := ⟨0x20404 + 64 * i, 0, 32⟩
def TIME.DOM.ADD_LO.FRAC (i : Nat) : Fld := ⟨0x20408 + 64 * i, 0, 32⟩
def TIME.DOM.ADD_HI.INT (i : Nat) : Fld := ⟨0x2040c + 64 * i, 0, 8⟩
def TIME.DOM.SRC.PTP_LOCK (i : Nat) : Fld := ⟨0x20410 + 64 * i, 9, 1⟩
def TIME.DOM.SRC.AUTO_STEP (i : Nat) : Fld := ⟨0x20410 + 64 * i, 8, 1⟩
def TIME.DOM.SRC.LANE (i : Nat) : Fld := ⟨0x20410 + 64 * i, 4, 4⟩
def TIME.DOM.SRC.SRC (i : Nat) : Fld := ⟨0x20410 + 64 * i, 0, 3⟩
def TIME.DOM.SRV.LOSS_CNT (i : Nat) : Fld := ⟨0x20414 + 64 * i, 24, 8⟩
def TIME.DOM.SRV.SLEW_PPM (i : Nat) : Fld := ⟨0x20414 + 64 * i, 16, 8⟩
def TIME.DOM.SRV.LOCK_NS (i : Nat) : Fld := ⟨0x20414 + 64 * i, 0, 16⟩
def TIME.DOM.STEP_THR.NS (i : Nat) : Fld := ⟨0x20418 + 64 * i, 0, 32⟩
def TIME.DOM.OFFSET.O (i : Nat) : Fld := ⟨0x2041c + 64 * i, 0, 32⟩
def TIME.DOM.STAT.SET (i : Nat) : Fld := ⟨0x20420 + 64 * i, 31, 1⟩
def TIME.DOM.STAT.LOCKED (i : Nat) : Fld := ⟨0x20420 + 64 * i, 30, 1⟩
def TIME.DOM.STAT.HOLD (i : Nat) : Fld := ⟨0x20420 + 64 * i, 29, 1⟩
def TIME.DOM.STAT.CLAMP (i : Nat) : Fld := ⟨0x20420 + 64 * i, 28, 1⟩
def TIME.DOM.STAT.STEP_REQ (i : Nat) : Fld := ⟨0x20420 + 64 * i, 27, 1⟩
def TIME.DOM.STAT.STEPS (i : Nat) : Fld := ⟨0x20420 + 64 * i, 0, 16⟩
def TIME.DOM.LAST_STEP_LO.LO (i : Nat) : Fld := ⟨0x20424 + 64 * i, 0, 32⟩
def TIME.DOM.LAST_STEP_HI.HI (i : Nat) : Fld := ⟨0x20428 + 64 * i, 0, 32⟩
/-- Page SRM: its key (spec/17_strongroom.md). -/
def pgSRM : Nat := 0x28000
def SRM.STAT.OPEN : Fld := ⟨0x28040, 31, 1⟩
def SRM.STAT.ROOT_OK : Fld := ⟨0x28040, 30, 1⟩
def SRM.STAT.ANCH_REV : Fld := ⟨0x28040, 16, 4⟩
def SRM.STAT.ANCH_PROG : Fld := ⟨0x28040, 12, 4⟩
def SRM.STAT.BOOT_ANCH : Fld := ⟨0x28040, 8, 2⟩
def SRM.STAT.FLOOR : Fld := ⟨0x28040, 0, 7⟩
def SRM.BOOT_SVN.SVN : Fld := ⟨0x28044, 0, 7⟩
def SRM.ROLL_ADV.GO : Fld := ⟨0x28048, 0, 1⟩
def SRM.ANCH_CTL.REVOKE : Fld := ⟨0x2804c, 3, 1⟩
def SRM.ANCH_CTL.PROG : Fld := ⟨0x2804c, 2, 1⟩
def SRM.ANCH_CTL.IDX : Fld := ⟨0x2804c, 0, 2⟩
def SRM.ANCH_STAGE.HASH (i : Nat) : Fld := ⟨0x28050 + 4 * i, 0, 32⟩
def SRM.MINT_CFG.PARENT : Fld := ⟨0x28070, 24, 8⟩
def SRM.MINT_CFG.DEST : Fld := ⟨0x28070, 16, 6⟩
def SRM.MINT_CFG.TYPE : Fld := ⟨0x28070, 12, 4⟩
def SRM.MINT_CFG.ENGINE : Fld := ⟨0x28070, 8, 3⟩
def SRM.MINT_CFG.USAGE : Fld := ⟨0x28070, 0, 7⟩
def SRM.MINT_GO.GO : Fld := ⟨0x28074, 0, 1⟩
def SRM.LABEL.LABEL (i : Nat) : Fld := ⟨0x28078 + 4 * i, 0, 32⟩
def SRM.REVOKE.GO : Fld := ⟨0x28088, 7, 1⟩
def SRM.REVOKE.SLOT : Fld := ⟨0x28088, 0, 6⟩
def SRM.KW_SEND.GO : Fld := ⟨0x2808c, 7, 1⟩
def SRM.KW_SEND.SLOT : Fld := ⟨0x2808c, 0, 6⟩
def SRM.OP_CTL.GO : Fld := ⟨0x28090, 31, 1⟩
def SRM.OP_CTL.CODE : Fld := ⟨0x28090, 20, 4⟩
def SRM.OP_CTL.DSLOT : Fld := ⟨0x28090, 8, 6⟩
def SRM.OP_CTL.SLOT : Fld := ⟨0x28090, 0, 8⟩
def SRM.OP_SRC.IOVA : Fld := ⟨0x28094, 0, 32⟩
def SRM.OP_SRC_HI.IOVA_HI : Fld := ⟨0x28098, 0, 32⟩
def SRM.OP_DST.IOVA : Fld := ⟨0x2809c, 0, 32⟩
def SRM.OP_DST_HI.IOVA_HI : Fld := ⟨0x280a0, 0, 32⟩
def SRM.OP_LEN.LEN : Fld := ⟨0x280a4, 0, 16⟩
def SRM.OP_STAT.BUSY : Fld := ⟨0x280a8, 31, 1⟩
def SRM.OP_STAT.RESULT : Fld := ⟨0x280a8, 16, 8⟩
def SRM.OP_STAT.OUT_LEN : Fld := ⟨0x280a8, 0, 16⟩
def SRM.LD_STAT.BUSY : Fld := ⟨0x280ac, 31, 1⟩
def SRM.LD_STAT.RESULT : Fld := ⟨0x280ac, 16, 8⟩
def SRM.LD_STAT.SLOT : Fld := ⟨0x280ac, 0, 6⟩
def SRM.PUB_WIN.WORD : Fld := ⟨0x280b0, 8, 4⟩
def SRM.PUB_WIN.SLOT : Fld := ⟨0x280b0, 0, 6⟩
def SRM.PUB_DATA.DATA : Fld := ⟨0x280b4, 0, 32⟩
def SRM.CNT.REFUSED : Fld := ⟨0x280b8, 16, 16⟩
def SRM.CNT.ZEROISED : Fld := ⟨0x280b8, 0, 16⟩
def SRM.SLOT.SATTR.PARENT (i : Nat) : Fld := ⟨0x28400 + 16 * i, 24, 8⟩
def SRM.SLOT.SATTR.TYPE (i : Nat) : Fld := ⟨0x28400 + 16 * i, 20, 4⟩
def SRM.SLOT.SATTR.ENGINE (i : Nat) : Fld := ⟨0x28400 + 16 * i, 16, 3⟩
def SRM.SLOT.SATTR.USAGE (i : Nat) : Fld := ⟨0x28400 + 16 * i, 8, 7⟩
def SRM.SLOT.SATTR.STATE (i : Nat) : Fld := ⟨0x28400 + 16 * i, 0, 3⟩
def SRM.SLOT.KEY_ID.KEY_ID (i : Nat) : Fld := ⟨0x28404 + 16 * i, 0, 32⟩
def SRM.SLOT.SGEN.GEN (i : Nat) : Fld := ⟨0x28408 + 16 * i, 16, 16⟩
def SRM.SLOT.SGEN.USES (i : Nat) : Fld := ⟨0x28408 + 16 * i, 0, 16⟩
def SRM.SLOT.PGEN.PGEN (i : Nat) : Fld := ⟨0x2840c + 16 * i, 16, 16⟩
/-- Page DBK: its key (spec/18_daybook.md). -/
def pgDBK : Nat := 0x30000
def DBK.DCTL.COPY_N : Fld := ⟨0x30040, 16, 16⟩
def DBK.DCTL.PWARN_PCT : Fld := ⟨0x30040, 8, 8⟩
def DBK.DSTAT.SEALED : Fld := ⟨0x30044, 31, 1⟩
def DBK.DSTAT.PFULL : Fld := ⟨0x30044, 30, 1⟩
def DBK.DSTAT.MIR_UP : Fld := ⟨0x30044, 29, 1⟩
def DBK.DSTAT.COPYING : Fld := ⟨0x30044, 28, 1⟩
def DBK.DSTAT.QUEUE : Fld := ⟨0x30044, 0, 7⟩
def DBK.NEXT_SEQ.SEQ : Fld := ⟨0x30048, 0, 32⟩
def DBK.NEXT_SEQ_HI.SEQ_HI : Fld := ⟨0x3004c, 0, 32⟩
def DBK.P_USED.USED : Fld := ⟨0x30050, 0, 14⟩
def DBK.P_OLDEST.SEQ : Fld := ⟨0x30054, 0, 32⟩
def DBK.P_OLDEST_HI.SEQ_HI : Fld := ⟨0x30058, 0, 32⟩
def DBK.R_NEXT.SLOT : Fld := ⟨0x3005c, 0, 17⟩
def DBK.REL_LO.SEQ : Fld := ⟨0x30060, 0, 32⟩
def DBK.REL_HI.SEQ : Fld := ⟨0x30064, 0, 32⟩
def DBK.WR_HDR.CODE : Fld := ⟨0x30070, 16, 16⟩
def DBK.WR_HDR.LEN : Fld := ⟨0x30070, 8, 6⟩
def DBK.WR_HDR.PERM : Fld := ⟨0x30070, 0, 1⟩
def DBK.WR_GO.GO : Fld := ⟨0x30074, 0, 1⟩
def DBK.WR_STAT.BUSY : Fld := ⟨0x30078, 31, 1⟩
def DBK.WR_STAT.RESULT : Fld := ⟨0x30078, 16, 8⟩
def DBK.WR_SEQ.SEQ : Fld := ⟨0x3007c, 0, 32⟩
def DBK.WR_SEQ_HI.SEQ_HI : Fld := ⟨0x30080, 0, 32⟩
def DBK.WR_DATA.DATA (i : Nat) : Fld := ⟨0x30084 + 4 * i, 0, 32⟩
def DBK.MIR_ACK.SEQ : Fld := ⟨0x300a4, 0, 32⟩
def DBK.MIR_ACK_HI.SEQ_HI : Fld := ⟨0x300a8, 0, 32⟩
def DBK.MIR_RX.COUNT : Fld := ⟨0x300ac, 0, 32⟩
def DBK.ERR.CRC_BAD : Fld := ⟨0x300b0, 16, 16⟩
def DBK.ERR.REPAIRED : Fld := ⟨0x300b0, 0, 16⟩
/-- Page LANE: its key (spec/13_lanes_and_stacking.md). -/
def pgLANE (n : Nat) : Nat := 0x40000 + 0x1000 * n
def LANE.LCTL.MODE (n : Nat) : Fld := ⟨0x40040 + 0x1000 * n, 16, 2⟩
def LANE.LCTL.RATE (n : Nat) : Fld := ⟨0x40040 + 0x1000 * n, 12, 2⟩
def LANE.LCTL.ALIGN (n : Nat) : Fld := ⟨0x40040 + 0x1000 * n, 8, 1⟩
def LANE.LCTL.LOOPBACK (n : Nat) : Fld := ⟨0x40040 + 0x1000 * n, 4, 1⟩
def LANE.LCTL.RETRAIN (n : Nat) : Fld := ⟨0x40040 + 0x1000 * n, 0, 1⟩
def LANE.TXEQ.POST (n : Nat) : Fld := ⟨0x40044 + 0x1000 * n, 8, 5⟩
def LANE.TXEQ.PRE (n : Nat) : Fld := ⟨0x40044 + 0x1000 * n, 0, 4⟩
def LANE.RXEQ.ADAPT (n : Nat) : Fld := ⟨0x40048 + 0x1000 * n, 31, 1⟩
def LANE.RXEQ.CTLE (n : Nat) : Fld := ⟨0x40048 + 0x1000 * n, 0, 8⟩
def LANE.STAT.ALIGNED (n : Nat) : Fld := ⟨0x4004c + 0x1000 * n, 31, 1⟩
def LANE.STAT.UP (n : Nat) : Fld := ⟨0x4004c + 0x1000 * n, 30, 1⟩
def LANE.STAT.HOLD (n : Nat) : Fld := ⟨0x4004c + 0x1000 * n, 29, 1⟩
def LANE.STAT.RATE_LOW (n : Nat) : Fld := ⟨0x4004c + 0x1000 * n, 28, 1⟩
def LANE.STAT.STATE (n : Nat) : Fld := ⟨0x4004c + 0x1000 * n, 24, 4⟩
def LANE.STAT.PEER (n : Nat) : Fld := ⟨0x4004c + 0x1000 * n, 8, 8⟩
def LANE.STAT.SLIP (n : Nat) : Fld := ⟨0x4004c + 0x1000 * n, 0, 7⟩
def LANE.ERR.HDR_ERR (n : Nat) : Fld := ⟨0x40050 + 0x1000 * n, 16, 16⟩
def LANE.ERR.LOSSES (n : Nat) : Fld := ⟨0x40050 + 0x1000 * n, 0, 16⟩
def LANE.CRC.CRC_ERR (n : Nat) : Fld := ⟨0x40054 + 0x1000 * n, 16, 16⟩
def LANE.CRC.TIMEOUTS (n : Nat) : Fld := ⟨0x40054 + 0x1000 * n, 0, 16⟩
def LANE.DOWN.DOWN_MS (n : Nat) : Fld := ⟨0x40058 + 0x1000 * n, 0, 32⟩
/-- Page LINK: its key (spec/13_lanes_and_stacking.md). -/
def pgLINK : Nat := 0x50000
def LINK.LCTL.HOLD_MS : Fld := ⟨0x50040, 16, 16⟩
def LINK.LCTL.RETX_US : Fld := ⟨0x50040, 8, 8⟩
def LINK.LCTL.RETX_MAX : Fld := ⟨0x50040, 0, 4⟩
def LINK.LSTAT.UP : Fld := ⟨0x50044, 16, 16⟩
def LINK.LSTAT.HOLD : Fld := ⟨0x50044, 0, 16⟩
def LINK.DROPS.UNKNOWN : Fld := ⟨0x50048, 16, 16⟩
def LINK.DROPS.POISON : Fld := ⟨0x50048, 0, 16⟩
def LINK.RELAY.COUNT : Fld := ⟨0x5004c, 0, 32⟩
def LINK.CLS.CRED.BUF (i : Nat) : Fld := ⟨0x50400 + 16 * i, 0, 8⟩
def LINK.CLS.TX.FRAMES (i : Nat) : Fld := ⟨0x50404 + 16 * i, 0, 32⟩
def LINK.CLS.RX.FRAMES (i : Nat) : Fld := ⟨0x50408 + 16 * i, 0, 32⟩
def LINK.CLS.ERR.SEQ_GAP (i : Nat) : Fld := ⟨0x5040c + 16 * i, 16, 16⟩
def LINK.CLS.ERR.RETX (i : Nat) : Fld := ⟨0x5040c + 16 * i, 0, 16⟩
/-- Page STK: its key (spec/13_lanes_and_stacking.md). -/
def pgSTK : Nat := 0x58000
def STK.STACK_ID.ID : Fld := ⟨0x58040, 0, 32⟩
def STK.HLANES.DOWN : Fld := ⟨0x58044, 16, 16⟩
def STK.HLANES.UP : Fld := ⟨0x58044, 0, 16⟩
def STK.SSTAT.DEPTH : Fld := ⟨0x58048, 16, 4⟩
def STK.SSTAT.PRES_A : Fld := ⟨0x58048, 8, 4⟩
def STK.SSTAT.PRES_B : Fld := ⟨0x58048, 0, 4⟩
def STK.PARENT.VALID : Fld := ⟨0x5804c, 31, 1⟩
def STK.PARENT.ADDR : Fld := ⟨0x5804c, 0, 8⟩
def STK.REFUSED.COUNT : Fld := ⟨0x58050, 16, 16⟩
def STK.REFUSED.LANE : Fld := ⟨0x58050, 0, 4⟩
def STK.MAP.ID.ID (i : Nat) : Fld := ⟨0x58400 + 16 * i, 0, 32⟩
def STK.MAP.MSTAT.JOINED (i : Nat) : Fld := ⟨0x58404 + 16 * i, 31, 1⟩
def STK.MAP.MSTAT.LANE (i : Nat) : Fld := ⟨0x58404 + 16 * i, 16, 4⟩
def STK.MAP.MSTAT.DEPTH (i : Nat) : Fld := ⟨0x58404 + 16 * i, 0, 2⟩
/-- Page RED: its key (spec/14_redundancy.md). -/
def pgRED : Nat := 0x60000
def RED.CTL.LAG : Fld := ⟨0x60040, 16, 8⟩
def RED.CTL.WR_LAG : Fld := ⟨0x60040, 8, 8⟩
def RED.CTL.XFER_TRY : Fld := ⟨0x60040, 4, 4⟩
def RED.CTL.AUTO_XFER : Fld := ⟨0x60040, 3, 1⟩
def RED.XFER_CFG.XFER_MS : Fld := ⟨0x60044, 16, 16⟩
def RED.PSTAT.ACTIVE : Fld := ⟨0x60048, 31, 1⟩
def RED.PSTAT.PEER_SYNC : Fld := ⟨0x60048, 30, 1⟩
def RED.PSTAT.PEER_HB : Fld := ⟨0x60048, 29, 1⟩
def RED.PSTAT.PEER_FAIL : Fld := ⟨0x60048, 28, 1⟩
def RED.PSTAT.PEER_ACT : Fld := ⟨0x60048, 27, 1⟩
def RED.PSTAT.OWN_FAIL : Fld := ⟨0x60048, 26, 1⟩
def RED.PSTAT.HB_FAULT : Fld := ⟨0x60048, 25, 1⟩
def RED.PSTAT.CATCHUP : Fld := ⟨0x60048, 24, 1⟩
def RED.PSTAT.XSTATE : Fld := ⟨0x60048, 20, 4⟩
def RED.PSTAT.UNSYNC_CAUSE : Fld := ⟨0x60048, 16, 4⟩
def RED.PSTAT.XROUND : Fld := ⟨0x60048, 8, 8⟩
def RED.PSTAT.FAIL_CAUSE : Fld := ⟨0x60048, 0, 8⟩
def RED.TICK.TICK : Fld := ⟨0x6004c, 0, 32⟩
def RED.DIG_OWN.DIG : Fld := ⟨0x60050, 0, 32⟩
def RED.DIG_OWN_HI.DIG_HI : Fld := ⟨0x60054, 0, 32⟩
def RED.DIG_PEER.DIG : Fld := ⟨0x60058, 0, 32⟩
def RED.DIG_PEER_HI.DIG_HI : Fld := ⟨0x6005c, 0, 32⟩
def RED.DIG_CNT.MATCH : Fld := ⟨0x60060, 16, 16⟩
def RED.DIG_CNT.MISMATCH : Fld := ⟨0x60060, 0, 16⟩
def RED.TKT_STAT.TICKETS : Fld := ⟨0x60064, 16, 16⟩
def RED.TKT_STAT.GAPS : Fld := ⟨0x60064, 0, 16⟩
def RED.TKT_LATE.LATE : Fld := ⟨0x60068, 16, 16⟩
def RED.TKT_LATE.MIN_MARGIN : Fld := ⟨0x60068, 0, 16⟩
def RED.WR_STAT.WR_MISMATCH : Fld := ⟨0x6006c, 16, 16⟩
def RED.WR_STAT.WR_LATE : Fld := ⟨0x6006c, 0, 16⟩
def RED.SW_CNT.TAKEOVERS : Fld := ⟨0x60070, 16, 16⟩
def RED.SW_CNT.LAST_GAP_NS : Fld := ⟨0x60070, 0, 16⟩
def RED.SW_TIME.E : Fld := ⟨0x60074, 0, 32⟩
def RED.SW_TIME_HI.E_HI : Fld := ⟨0x60078, 0, 32⟩
def RED.ENTRY.ADDR : Fld := ⟨0x6007c, 0, 32⟩
def RED.ARM.REJOIN : Fld := ⟨0x60080, 2, 1⟩
def RED.ARM.XFER : Fld := ⟨0x60080, 1, 1⟩
def RED.ARM.FORCE : Fld := ⟨0x60080, 0, 1⟩
def RED.REGION.BASE.BASE (i : Nat) : Fld := ⟨0x60400 + 16 * i, 0, 32⟩
def RED.REGION.SIZE.SIZE (i : Nat) : Fld := ⟨0x60404 + 16 * i, 0, 32⟩
def RED.REGION.RCTL.EN (i : Nat) : Fld := ⟨0x60408 + 16 * i, 0, 1⟩
/-- Page FCTR: its key (spec/04_factor.md). -/
def pgFCTR : Nat := 0x80000
def FCTR.BOOK_CTL.TDOM : Fld := ⟨0x80040, 17, 1⟩
def FCTR.BOOK_CTL.RUN : Fld := ⟨0x80040, 16, 1⟩
def FCTR.BOOK_CTL.MAX_MOVES : Fld := ⟨0x80040, 8, 8⟩
def FCTR.BOOK_CTL.PERIOD : Fld := ⟨0x80040, 0, 8⟩
def FCTR.SITE_CAP.CAP_KW : Fld := ⟨0x80044, 0, 17⟩
def FCTR.MARGIN.MARGIN_KW : Fld := ⟨0x80048, 0, 16⟩
def FCTR.HOLD.ABSENT_MS : Fld := ⟨0x8004c, 16, 16⟩
def FCTR.HOLD.HOLD_MS : Fld := ⟨0x8004c, 0, 16⟩
def FCTR.ISLAND.ISLAND_KW : Fld := ⟨0x80050, 0, 17⟩
def FCTR.DWELL.HYST_PCT : Fld := ⟨0x80054, 16, 8⟩
def FCTR.DWELL.DWELL_MS : Fld := ⟨0x80054, 0, 16⟩
def FCTR.COST.K_XFER : Fld := ⟨0x80058, 20, 12⟩
def FCTR.COST.K_WEAR : Fld := ⟨0x80058, 8, 12⟩
def FCTR.COST.K_REMOTE : Fld := ⟨0x80058, 0, 8⟩
def FCTR.LOOP.FAULT_LIMIT : Fld := ⟨0x8005c, 8, 4⟩
def FCTR.LOOP.SHADOW : Fld := ⟨0x8005c, 0, 4⟩
def FCTR.CLR_NUM.CLR_NUM : Fld := ⟨0x80060, 0, 32⟩
def FCTR.CLR_STAT.DUR_US : Fld := ⟨0x80064, 16, 16⟩
def FCTR.CLR_STAT.OVERRUNS : Fld := ⟨0x80064, 8, 8⟩
def FCTR.CLR_STAT.STALE : Fld := ⟨0x80064, 0, 8⟩
def FCTR.CAP_EFF.CAP_EFF : Fld := ⟨0x80068, 0, 17⟩
def FCTR.GRANTED.GRANTED : Fld := ⟨0x8006c, 0, 17⟩
def FCTR.P_ALLOW.P_ALLOW : Fld := ⟨0x80070, 0, 17⟩
def FCTR.P_OVH.P_OVH : Fld := ⟨0x80074, 0, 17⟩
def FCTR.PEERS.PRESENT : Fld := ⟨0x80078, 0, 16⟩
def FCTR.MIRROR.VALID : Fld := ⟨0x8007c, 31, 1⟩
def FCTR.MIRROR.PARTNER : Fld := ⟨0x8007c, 30, 1⟩
def FCTR.MIRROR.STACK : Fld := ⟨0x8007c, 8, 4⟩
def FCTR.MIRROR.POS : Fld := ⟨0x8007c, 0, 2⟩
def FCTR.GRP_RATE.I_RATE (i : Nat) : Fld := ⟨0x80080 + 4 * i, 16, 16⟩
def FCTR.GRP_RATE.P_RATE (i : Nat) : Fld := ⟨0x80080 + 4 * i, 0, 16⟩
def FCTR.PORT_LIM.I_CABLE (i : Nat) : Fld := ⟨0x800c0 + 4 * i, 0, 16⟩
def FCTR.GRP_STAT.AVAIL (i : Nat) : Fld := ⟨0x80100 + 4 * i, 31, 1⟩
def FCTR.GRP_STAT.XFER (i : Nat) : Fld := ⟨0x80100 + 4 * i, 30, 1⟩
def FCTR.GRP_STAT.BLOCKED (i : Nat) : Fld := ⟨0x80100 + 4 * i, 29, 1⟩
def FCTR.GRP_STAT.DERATE (i : Nat) : Fld := ⟨0x80100 + 4 * i, 16, 9⟩
def FCTR.GRP_STAT.TRUNK (i : Nat) : Fld := ⟨0x80100 + 4 * i, 8, 5⟩
def FCTR.GRP_ARM.ARM : Fld := ⟨0x80130, 0, 12⟩
def FCTR.TRUNK_PLAN.OWNED (i : Nat) : Fld := ⟨0x80140 + 4 * i, 31, 1⟩
def FCTR.TRUNK_PLAN.OWNER_POS (i : Nat) : Fld := ⟨0x80140 + 4 * i, 28, 2⟩
def FCTR.TRUNK_PLAN.SLOT (i : Nat) : Fld := ⟨0x80140 + 4 * i, 24, 4⟩
def FCTR.TRUNK_PLAN.GRP_MASK (i : Nat) : Fld := ⟨0x80140 + 4 * i, 0, 12⟩
def FCTR.ROW.STK_CFG.PRESENT (i : Nat) : Fld := ⟨0x80400 + 32 * i, 31, 1⟩
def FCTR.ROW.STK_CFG.FEED (i : Nat) : Fld := ⟨0x80400 + 32 * i, 24, 4⟩
def FCTR.ROW.FEED_CAP.FEED_KW (i : Nat) : Fld := ⟨0x80404 + 32 * i, 0, 17⟩
def FCTR.ROW.STK_BUDGET.BUDGET (i : Nat) : Fld := ⟨0x80408 + 32 * i, 0, 17⟩
def FCTR.ROW.STK_BID.M_KW (i : Nat) : Fld := ⟨0x8040c + 32 * i, 0, 17⟩
def FCTR.ROW.STK_AGE.AGE (i : Nat) : Fld := ⟨0x80410 + 32 * i, 0, 8⟩
/-- Page BOOK: its key (spec/04_factor.md). -/
def pgBOOK : Nat := 0x81000
def BOOK.WIN.PORT : Fld := ⟨0x81040, 0, 8⟩
def BOOK.PORT_GRANT.GRANT_I : Fld := ⟨0x81044, 16, 16⟩
def BOOK.PORT_GRANT.GRANT_KW : Fld := ⟨0x81044, 0, 16⟩
def BOOK.PORT_EFF.I_EFF : Fld := ⟨0x81048, 16, 16⟩
def BOOK.PORT_EFF.V_EFF : Fld := ⟨0x81048, 0, 16⟩
def BOOK.PORT_INFO.REASON : Fld := ⟨0x8104c, 28, 4⟩
def BOOK.PORT_INFO.CLASS : Fld := ⟨0x8104c, 16, 3⟩
def BOOK.PORT_INFO.REALISED_KW : Fld := ⟨0x8104c, 0, 16⟩
def BOOK.BOOK_STAT.REJECTS : Fld := ⟨0x81050, 16, 16⟩
def BOOK.BOOK_STAT.OPEN_CNT : Fld := ⟨0x81050, 0, 13⟩
def BOOK.SEQ_CUT.SEQ_CUT : Fld := ⟨0x81054, 0, 32⟩
def BOOK.SUB_W0.PORT : Fld := ⟨0x81060, 24, 8⟩
def BOOK.SUB_W0.KIND : Fld := ⟨0x81060, 16, 4⟩
def BOOK.SUB_W0.CLASS : Fld := ⟨0x81060, 13, 3⟩
def BOOK.SUB_W1.I_REQ : Fld := ⟨0x81064, 16, 16⟩
def BOOK.SUB_W1.V_TGT : Fld := ⟨0x81064, 0, 16⟩
def BOOK.SUB_W2.I_MIN : Fld := ⟨0x81068, 16, 16⟩
def BOOK.SUB_W2.WEIGHT : Fld := ⟨0x81068, 8, 8⟩
def BOOK.SUB_EXP.EXPIRE : Fld := ⟨0x8106c, 0, 32⟩
def BOOK.SUB_GO.GO : Fld := ⟨0x81070, 0, 1⟩
def BOOK.SUB_STAT.BUSY : Fld := ⟨0x81074, 31, 1⟩
def BOOK.SUB_STAT.RESULT : Fld := ⟨0x81074, 28, 3⟩
def BOOK.SUB_STAT.SLOT : Fld := ⟨0x81074, 24, 4⟩
def BOOK.SUB_SEQ.SEQ : Fld := ⟨0x81078, 0, 32⟩
def BOOK.CANCEL.PORT : Fld := ⟨0x8107c, 24, 8⟩
def BOOK.CANCEL.SLOT : Fld := ⟨0x8107c, 20, 4⟩
def BOOK.CANCEL.GO : Fld := ⟨0x8107c, 0, 1⟩
def BOOK.ENTRY.HDR.PORT (i : Nat) : Fld := ⟨0x81400 + 32 * i, 24, 8⟩
def BOOK.ENTRY.HDR.SLOT (i : Nat) : Fld := ⟨0x81400 + 32 * i, 20, 4⟩
def BOOK.ENTRY.HDR.KIND (i : Nat) : Fld := ⟨0x81400 + 32 * i, 16, 4⟩
def BOOK.ENTRY.HDR.CLASS (i : Nat) : Fld := ⟨0x81400 + 32 * i, 13, 3⟩
def BOOK.ENTRY.HDR.FLT_CNT (i : Nat) : Fld := ⟨0x81400 + 32 * i, 4, 4⟩
def BOOK.ENTRY.HDR.STATE (i : Nat) : Fld := ⟨0x81400 + 32 * i, 0, 4⟩
def BOOK.ENTRY.TARGET.I_REQ (i : Nat) : Fld := ⟨0x81404 + 32 * i, 16, 16⟩
def BOOK.ENTRY.TARGET.V_TGT (i : Nat) : Fld := ⟨0x81404 + 32 * i, 0, 16⟩
def BOOK.ENTRY.TERMS.I_MIN (i : Nat) : Fld := ⟨0x81408 + 32 * i, 16, 16⟩
def BOOK.ENTRY.TERMS.WEIGHT (i : Nat) : Fld := ⟨0x81408 + 32 * i, 8, 8⟩
def BOOK.ENTRY.TERMS.SRC (i : Nat) : Fld := ⟨0x81408 + 32 * i, 4, 4⟩
def BOOK.ENTRY.SEQ.SEQ (i : Nat) : Fld := ⟨0x8140c + 32 * i, 0, 32⟩
def BOOK.ENTRY.EXPIRE.EXPIRE (i : Nat) : Fld := ⟨0x81410 + 32 * i, 0, 32⟩
def BOOK.ENTRY.CLR_IN.CLR_IN (i : Nat) : Fld := ⟨0x81414 + 32 * i, 0, 32⟩
def BOOK.ENTRY.GRANT.GRANT_I (i : Nat) : Fld := ⟨0x81418 + 32 * i, 16, 16⟩
def BOOK.ENTRY.GRANT.GRANT_KW (i : Nat) : Fld := ⟨0x81418 + 32 * i, 0, 16⟩
def BOOK.ENTRY.CLOSED.CLOSED (i : Nat) : Fld := ⟨0x8141c + 32 * i, 0, 32⟩
/-- Page TRUNK: its key (spec/05_trunks_and_contactors.md). -/
def pgTRUNK : Nat := 0x88000
def TRUNK.ZERO.ZERO_HOLD_US : Fld := ⟨0x88040, 16, 10⟩
def TRUNK.ZERO.ZERO_I : Fld := ⟨0x88040, 0, 9⟩
def TRUNK.TIMES.T_OPEN_MS : Fld := ⟨0x88044, 24, 8⟩
def TRUNK.TIMES.T_CLOSE_MS : Fld := ⟨0x88044, 16, 8⟩
def TRUNK.TIMES.DIV_MS : Fld := ⟨0x88044, 8, 8⟩
def TRUNK.TIMES.SHIFT_MS : Fld := ⟨0x88044, 0, 8⟩
def TRUNK.MATCH.MATCH_PCT : Fld := ⟨0x88048, 24, 8⟩
def TRUNK.MATCH.DIV_PCT : Fld := ⟨0x88048, 16, 8⟩
def TRUNK.MATCH.MATCH_SLEW : Fld := ⟨0x88048, 8, 8⟩
def TRUNK.MATCH.MATCH_LIM : Fld := ⟨0x88048, 0, 8⟩
def TRUNK.CLOSE.CLOSE_TEST_MS : Fld := ⟨0x8804c, 24, 8⟩
def TRUNK.CLOSE.CLOSE_PCT : Fld := ⟨0x8804c, 16, 8⟩
def TRUNK.CLOSE.ZERO_LIM : Fld := ⟨0x8804c, 8, 8⟩
def TRUNK.CLOSE.STOP_LIM : Fld := ⟨0x8804c, 0, 8⟩
def TRUNK.WEAR.LOAD_WEIGHT : Fld := ⟨0x88050, 24, 8⟩
def TRUNK.WEAR.WARN_PCT : Fld := ⟨0x88050, 16, 8⟩
def TRUNK.COIL_EN.EN : Fld := ⟨0x88054, 0, 24⟩
def TRUNK.TSTOP.STOPPED : Fld := ⟨0x88058, 0, 16⟩
def TRUNK.STOP_CLR.CLR : Fld := ⟨0x8805c, 0, 16⟩
def TRUNK.WELD_CLR.GO : Fld := ⟨0x88060, 31, 1⟩
def TRUNK.WELD_CLR.COIL : Fld := ⟨0x88060, 0, 5⟩
def TRUNK.OPS_PRESET.COIL : Fld := ⟨0x88064, 24, 5⟩
def TRUNK.OPS_PRESET.VALUE : Fld := ⟨0x88064, 0, 24⟩
def TRUNK.XFER_STAT.XFERS : Fld := ⟨0x88068, 16, 16⟩
def TRUNK.XFER_STAT.FAILS : Fld := ⟨0x88068, 8, 8⟩
def TRUNK.XFER_STAT.WELDS : Fld := ⟨0x88068, 0, 8⟩
def TRUNK.LAST_XFER.RESULT : Fld := ⟨0x8806c, 28, 4⟩
def TRUNK.LAST_XFER.GROUP : Fld := ⟨0x8806c, 24, 2⟩
def TRUNK.LAST_XFER.FROM : Fld := ⟨0x8806c, 19, 5⟩
def TRUNK.LAST_XFER.TO : Fld := ⟨0x8806c, 14, 5⟩
def TRUNK.LAST_XFER.DUR_MS : Fld := ⟨0x8806c, 0, 14⟩
def TRUNK.REACH_LO.V0 (i : Nat) : Fld := ⟨0x88080 + 8 * i, 7, 1⟩
def TRUNK.REACH_LO.T0 (i : Nat) : Fld := ⟨0x88080 + 8 * i, 0, 4⟩
def TRUNK.REACH_LO.V1 (i : Nat) : Fld := ⟨0x88080 + 8 * i, 15, 1⟩
def TRUNK.REACH_LO.T1 (i : Nat) : Fld := ⟨0x88080 + 8 * i, 8, 4⟩
def TRUNK.REACH_LO.V2 (i : Nat) : Fld := ⟨0x88080 + 8 * i, 23, 1⟩
def TRUNK.REACH_LO.T2 (i : Nat) : Fld := ⟨0x88080 + 8 * i, 16, 4⟩
def TRUNK.REACH_LO.V3 (i : Nat) : Fld := ⟨0x88080 + 8 * i, 31, 1⟩
def TRUNK.REACH_LO.T3 (i : Nat) : Fld := ⟨0x88080 + 8 * i, 24, 4⟩
def TRUNK.REACH_HI.V4 (i : Nat) : Fld := ⟨0x88084 + 8 * i, 7, 1⟩
def TRUNK.REACH_HI.T4 (i : Nat) : Fld := ⟨0x88084 + 8 * i, 0, 4⟩
def TRUNK.REACH_HI.V5 (i : Nat) : Fld := ⟨0x88084 + 8 * i, 15, 1⟩
def TRUNK.REACH_HI.T5 (i : Nat) : Fld := ⟨0x88084 + 8 * i, 8, 4⟩
def TRUNK.REACH_HI.V6 (i : Nat) : Fld := ⟨0x88084 + 8 * i, 23, 1⟩
def TRUNK.REACH_HI.T6 (i : Nat) : Fld := ⟨0x88084 + 8 * i, 16, 4⟩
def TRUNK.REACH_HI.V7 (i : Nat) : Fld := ⟨0x88084 + 8 * i, 31, 1⟩
def TRUNK.REACH_HI.T7 (i : Nat) : Fld := ⟨0x88084 + 8 * i, 24, 4⟩
def TRUNK.COIL.CFG.N_RATED (i : Nat) : Fld := ⟨0x88400 + 16 * i, 0, 24⟩
def TRUNK.COIL.OPS.OPS (i : Nat) : Fld := ⟨0x88404 + 16 * i, 0, 24⟩
def TRUNK.COIL.STAT.WARNED (i : Nat) : Fld := ⟨0x88408 + 16 * i, 7, 1⟩
def TRUNK.COIL.STAT.FAIL_CLOSE (i : Nat) : Fld := ⟨0x88408 + 16 * i, 6, 1⟩
def TRUNK.COIL.STAT.WELDED (i : Nat) : Fld := ⟨0x88408 + 16 * i, 5, 1⟩
def TRUNK.COIL.STAT.STATE (i : Nat) : Fld := ⟨0x88408 + 16 * i, 0, 3⟩
def TRUNK.COIL.LOAD_BREAKS.BREAKS (i : Nat) : Fld := ⟨0x8840c + 16 * i, 0, 16⟩
/-- Page ETH: its key (spec/13_lanes_and_stacking.md). -/
def pgETH (n : Nat) : Nat := 0x90000 + 0x1000 * n
def ETH.ECTL.PROMISC (n : Nat) : Fld := ⟨0x90040 + 0x1000 * n, 1, 1⟩
def ETH.ECTL.BCAST (n : Nat) : Fld := ⟨0x90040 + 0x1000 * n, 0, 1⟩
def ETH.MAC_LO.ADDR (n : Nat) : Fld := ⟨0x90044 + 0x1000 * n, 0, 32⟩
def ETH.MAC_HI.ADDR (n : Nat) : Fld := ⟨0x90048 + 0x1000 * n, 0, 16⟩
def ETH.RX_BASE.IOVA (n : Nat) : Fld := ⟨0x9004c + 0x1000 * n, 0, 32⟩
def ETH.RX_BASE_HI.IOVA_HI (n : Nat) : Fld := ⟨0x90050 + 0x1000 * n, 0, 32⟩
def ETH.RX_RING.TAIL (n : Nat) : Fld := ⟨0x90054 + 0x1000 * n, 16, 16⟩
def ETH.RX_RING.SIZE (n : Nat) : Fld := ⟨0x90054 + 0x1000 * n, 0, 16⟩
def ETH.RX_HEAD.HEAD (n : Nat) : Fld := ⟨0x90058 + 0x1000 * n, 0, 16⟩
def ETH.TX_BASE.IOVA (n : Nat) : Fld := ⟨0x9005c + 0x1000 * n, 0, 32⟩
def ETH.TX_BASE_HI.IOVA_HI (n : Nat) : Fld := ⟨0x90060 + 0x1000 * n, 0, 32⟩
def ETH.TX_RING.TAIL (n : Nat) : Fld := ⟨0x90064 + 0x1000 * n, 16, 16⟩
def ETH.TX_RING.SIZE (n : Nat) : Fld := ⟨0x90064 + 0x1000 * n, 0, 16⟩
def ETH.TX_HEAD.HEAD (n : Nat) : Fld := ⟨0x90068 + 0x1000 * n, 0, 16⟩
def ETH.ESTAT.LINK (n : Nat) : Fld := ⟨0x9006c + 0x1000 * n, 31, 1⟩
def ETH.RX_CNT.ERR (n : Nat) : Fld := ⟨0x90070 + 0x1000 * n, 16, 16⟩
def ETH.RX_CNT.DROP (n : Nat) : Fld := ⟨0x90070 + 0x1000 * n, 0, 16⟩
def ETH.FRAMES.RX (n : Nat) : Fld := ⟨0x90074 + 0x1000 * n, 16, 16⟩
def ETH.FRAMES.TX (n : Nat) : Fld := ⟨0x90074 + 0x1000 * n, 0, 16⟩
/-- Page FSYS: its key (spec/22_power_reset_boot.md). -/
def pgFSYS : Nat := 0x100000
def FSYS.STRAP.STRAP_ERR : Fld := ⟨0x100040, 16, 1⟩
def FSYS.STRAP.LANE_ALIGN : Fld := ⟨0x100040, 15, 1⟩
def FSYS.STRAP.INRUSH_DEF : Fld := ⟨0x100040, 14, 1⟩
def FSYS.STRAP.MAINS_HZ : Fld := ⟨0x100040, 13, 1⟩
def FSYS.STRAP.CAL_REQ : Fld := ⟨0x100040, 12, 1⟩
def FSYS.STRAP.LANE_RATE : Fld := ⟨0x100040, 10, 2⟩
def FSYS.STRAP.BOOT : Fld := ⟨0x100040, 8, 2⟩
def FSYS.STRAP.PAIR : Fld := ⟨0x100040, 6, 2⟩
def FSYS.STRAP.POS : Fld := ⟨0x100040, 4, 2⟩
def FSYS.STRAP.ROLE : Fld := ⟨0x100040, 2, 2⟩
def FSYS.RST_CAUSE.CAUSE : Fld := ⟨0x100048, 0, 8⟩
def FSYS.BOOT_STAT.CTRL_OK : Fld := ⟨0x10004c, 31, 1⟩
def FSYS.BOOT_STAT.MET_OK : Fld := ⟨0x10004c, 30, 1⟩
def FSYS.BOOT_STAT.MET_FAIL : Fld := ⟨0x10004c, 29, 1⟩
def FSYS.BOOT_STAT.HOLD_WAIT : Fld := ⟨0x10004c, 28, 1⟩
def FSYS.BOOT_STAT.CTRL_B : Fld := ⟨0x10004c, 27, 1⟩
def FSYS.BOOT_STAT.MET_B : Fld := ⟨0x10004c, 26, 1⟩
def FSYS.WDT.RUN : Fld := ⟨0x100050, 31, 1⟩
def FSYS.WDT.TIMEOUT_MS : Fld := ⟨0x100050, 0, 16⟩
def FSYS.WDT_KICK.KICK : Fld := ⟨0x100054, 0, 32⟩
def FSYS.SWRST.KEY : Fld := ⟨0x100058, 0, 32⟩
def FSYS.MET_ID.ID : Fld := ⟨0x10005c, 0, 32⟩
def FSYS.FL_CTL.GO : Fld := ⟨0x100060, 31, 1⟩
def FSYS.FL_CTL.ERASE : Fld := ⟨0x100060, 30, 1⟩
def FSYS.FL_CTL.BUSY : Fld := ⟨0x100060, 29, 1⟩
def FSYS.FL_CTL.REJ : Fld := ⟨0x100060, 28, 1⟩
def FSYS.FL_ADDR.ADDR : Fld := ⟨0x100064, 0, 23⟩
def FSYS.FL_BUF.DATA (i : Nat) : Fld := ⟨0x100400 + 4 * i, 0, 32⟩
/-- Page FPMU: its key (spec/22_power_reset_boot.md). -/
def pgFPMU : Nat := 0x101000
def FPMU.PFCTL.RECOVER_MS : Fld := ⟨0x101040, 16, 10⟩
def FPMU.PFCTL.PF_FILT_US : Fld := ⟨0x101040, 8, 8⟩
def FPMU.PFCTL.PF_TH : Fld := ⟨0x101040, 0, 8⟩
def FPMU.PFSTAT.WARN : Fld := ⟨0x101044, 31, 1⟩
def FPMU.PFSTAT.BY_VIN : Fld := ⟨0x101044, 30, 1⟩
def FPMU.PFSTAT.PFAIL : Fld := ⟨0x101044, 29, 1⟩
def FPMU.PFSTAT.REDUCED : Fld := ⟨0x101044, 28, 1⟩
def FPMU.PFSTAT.SEQ_US : Fld := ⟨0x101044, 0, 16⟩
def FPMU.VMEAS.VHOLD : Fld := ⟨0x101048, 16, 16⟩
def FPMU.VMEAS.VIN : Fld := ⟨0x101048, 0, 16⟩
def FPMU.HOLD.HOLD_RDY : Fld := ⟨0x10104c, 31, 1⟩
def FPMU.HOLD.HOLD_LOW : Fld := ⟨0x10104c, 30, 1⟩
def FPMU.HOLD.C_EST : Fld := ⟨0x10104c, 0, 16⟩
def FPMU.HOLD_MIN.HOLD_MIN_UF : Fld := ⟨0x101050, 0, 16⟩
def FPMU.RAILS.GOOD : Fld := ⟨0x101054, 0, 4⟩
/-- Page FEVC: its key (spec/21_events_and_monitors.md). -/
def pgFEVC : Nat := 0x108000
def FEVC.CORE.THR.THR (i : Nat) : Fld := ⟨0x108100 + 16 * i, 0, 5⟩
def FEVC.CORE.CLAIM.VALID (i : Nat) : Fld := ⟨0x108104 + 16 * i, 31, 1⟩
def FEVC.CORE.CLAIM.PRIO (i : Nat) : Fld := ⟨0x108104 + 16 * i, 8, 4⟩
def FEVC.CORE.CLAIM.EVENT (i : Nat) : Fld := ⟨0x108104 + 16 * i, 0, 8⟩
def FEVC.CORE.COMPLETE.EVENT (i : Nat) : Fld := ⟨0x108108 + 16 * i, 0, 8⟩
def FEVC.CORE.CUR.DEPTH (i : Nat) : Fld := ⟨0x10810c + 16 * i, 16, 5⟩
def FEVC.CORE.CUR.CUR (i : Nat) : Fld := ⟨0x10810c + 16 * i, 0, 5⟩
def FEVC.EV.OVR (i : Nat) : Fld := ⟨0x108400 + 4 * i, 31, 1⟩
def FEVC.EV.PRIO (i : Nat) : Fld := ⟨0x108400 + 4 * i, 24, 4⟩
def FEVC.EV.TGT (i : Nat) : Fld := ⟨0x108400 + 4 * i, 16, 1⟩
def FEVC.EV.INSVC (i : Nat) : Fld := ⟨0x108400 + 4 * i, 9, 1⟩
def FEVC.EV.PEND (i : Nat) : Fld := ⟨0x108400 + 4 * i, 8, 1⟩
def FEVC.EV.EFF (i : Nat) : Fld := ⟨0x108400 + 4 * i, 0, 4⟩
/-- Page FMON: its key (spec/21_events_and_monitors.md). -/
def pgFMON : Nat := 0x10c000
def FMON.SNAP.GO : Fld := ⟨0x10c040, 31, 1⟩
def FMON.SNAP.CLR : Fld := ⟨0x10c040, 30, 1⟩
def FMON.SNAP.MASK : Fld := ⟨0x10c040, 0, 16⟩
def FMON.LIM_STAT.LIM : Fld := ⟨0x10c044, 0, 16⟩
def FMON.SNAP_TIME.E : Fld := ⟨0x10c048, 0, 32⟩
def FMON.SNAP_TIME_HI.E_HI : Fld := ⟨0x10c04c, 0, 32⟩
def FMON.M.MCFG.EN (i : Nat) : Fld := ⟨0x10c400 + 192 * i, 31, 1⟩
def FMON.M.MCFG.LDIR (i : Nat) : Fld := ⟨0x10c400 + 192 * i, 30, 1⟩
def FMON.M.MCFG.LOG (i : Nat) : Fld := ⟨0x10c400 + 192 * i, 29, 1⟩
def FMON.M.MCFG.SRC (i : Nat) : Fld := ⟨0x10c400 + 192 * i, 20, 4⟩
def FMON.M.MCFG.A (i : Nat) : Fld := ⟨0x10c400 + 192 * i, 8, 8⟩
def FMON.M.MCFG.B (i : Nat) : Fld := ⟨0x10c400 + 192 * i, 0, 8⟩
def FMON.M.BASE.BASE (i : Nat) : Fld := ⟨0x10c404 + 192 * i, 0, 32⟩
def FMON.M.WIDTH.WIDTH (i : Nat) : Fld := ⟨0x10c408 + 192 * i, 0, 32⟩
def FMON.M.LIMIT.LIMIT (i : Nat) : Fld := ⟨0x10c40c + 192 * i, 0, 32⟩
def FMON.M.COUNT.COUNT (i : Nat) : Fld := ⟨0x10c410 + 192 * i, 0, 32⟩
def FMON.M.COUNT_HI.COUNT_HI (i : Nat) : Fld := ⟨0x10c414 + 192 * i, 0, 32⟩
def FMON.M.SUM.SUM (i : Nat) : Fld := ⟨0x10c418 + 192 * i, 0, 32⟩
def FMON.M.SUM_HI.SUM_HI (i : Nat) : Fld := ⟨0x10c41c + 192 * i, 0, 32⟩
def FMON.M.MIN.MIN (i : Nat) : Fld := ⟨0x10c420 + 192 * i, 0, 32⟩
def FMON.M.MAX.MAX (i : Nat) : Fld := ⟨0x10c424 + 192 * i, 0, 32⟩
def FMON.M.MAX_TIME.E (i : Nat) : Fld := ⟨0x10c428 + 192 * i, 0, 32⟩
def FMON.M.MAX_TIME_HI.E_HI (i : Nat) : Fld := ⟨0x10c42c + 192 * i, 0, 32⟩
def FMON.M.MSTAT.RESTARTS (i : Nat) : Fld := ⟨0x10c430 + 192 * i, 16, 16⟩
def FMON.M.MSTAT.LIM_CNT (i : Nat) : Fld := ⟨0x10c430 + 192 * i, 0, 16⟩
def FMON.M.BIN.COUNT (i k : Nat) : Fld := ⟨0x10c440 + 192 * i + 4 * k, 0, 32⟩
/-- Page FBAR: its key (spec/19_barrier.md). -/
def pgFBAR : Nat := 0x118000
def FBAR.FCTL.SEG_TO_US : Fld := ⟨0x118040, 0, 10⟩
def FBAR.FSTAT.HOST_LOST : Fld := ⟨0x118044, 31, 1⟩
def FBAR.FSTAT.DEGRADED : Fld := ⟨0x118044, 30, 1⟩
def FBAR.FSTAT.UP : Fld := ⟨0x118044, 0, 8⟩
def FBAR.DROP_A.CRC : Fld := ⟨0x118048, 16, 16⟩
def FBAR.DROP_A.TYPE : Fld := ⟨0x118048, 0, 16⟩
def FBAR.DROP_B.POISON : Fld := ⟨0x11804c, 24, 8⟩
def FBAR.DROP_B.GAP : Fld := ⟨0x11804c, 16, 8⟩
def FBAR.DROP_B.REASM : Fld := ⟨0x11804c, 8, 8⟩
def FBAR.REFUSED.COUNT : Fld := ⟨0x118050, 16, 16⟩
def FBAR.REFUSED.PAGE : Fld := ⟨0x118050, 8, 8⟩
def FBAR.REFUSED.STATUS : Fld := ⟨0x118050, 0, 8⟩
def FBAR.MBX_CTL.GO : Fld := ⟨0x118080, 0, 1⟩
def FBAR.MBX_STAT.BUSY : Fld := ⟨0x118084, 31, 1⟩
def FBAR.MBX_STAT.LEN : Fld := ⟨0x118084, 0, 9⟩
def FBAR.MBX_DATA.DATA (i : Nat) : Fld := ⟨0x118100 + 4 * i, 0, 32⟩
def FBAR.PERM.P0 (i : Nat) : Fld := ⟨0x118400 + 4 * i, 0, 4⟩
def FBAR.PERM.P1 (i : Nat) : Fld := ⟨0x118400 + 4 * i, 4, 4⟩
def FBAR.PERM.P2 (i : Nat) : Fld := ⟨0x118400 + 4 * i, 8, 4⟩
def FBAR.PERM.P3 (i : Nat) : Fld := ⟨0x118400 + 4 * i, 12, 4⟩
def FBAR.PERM.P4 (i : Nat) : Fld := ⟨0x118400 + 4 * i, 16, 4⟩
def FBAR.PERM.P5 (i : Nat) : Fld := ⟨0x118400 + 4 * i, 20, 4⟩
def FBAR.PERM.P6 (i : Nat) : Fld := ⟨0x118400 + 4 * i, 24, 4⟩
def FBAR.PERM.P7 (i : Nat) : Fld := ⟨0x118400 + 4 * i, 28, 4⟩
/-- Page MOD: its key (spec/06_phase_modulators.md). -/
def pgMOD (n : Nat) : Nat := 0x120000 + 0x1000 * n
def MOD.GCTL.SYNC_LOSS (n : Nat) : Fld := ⟨0x120040 + 0x1000 * n, 12, 4⟩
def MOD.GCTL.AUTO_IL (n : Nat) : Fld := ⟨0x120040 + 0x1000 * n, 8, 1⟩
def MOD.GCTL.OUT_MODE (n : Nat) : Fld := ⟨0x120040 + 0x1000 * n, 7, 1⟩
def MOD.GCTL.SYNC_SEL (n : Nat) : Fld := ⟨0x120040 + 0x1000 * n, 4, 3⟩
def MOD.GCTL.SLOPE_MODE (n : Nat) : Fld := ⟨0x120040 + 0x1000 * n, 3, 1⟩
def MOD.PERIOD.PER_FINE (n : Nat) : Fld := ⟨0x120044 + 0x1000 * n, 16, 6⟩
def MOD.PERIOD.PER (n : Nat) : Fld := ⟨0x120044 + 0x1000 * n, 0, 16⟩
def MOD.EDGE.LEB (n : Nat) : Fld := ⟨0x120048 + 0x1000 * n, 24, 8⟩
def MOD.EDGE.TON_MIN (n : Nat) : Fld := ⟨0x120048 + 0x1000 * n, 16, 8⟩
def MOD.EDGE.TOFF_MIN (n : Nat) : Fld := ⟨0x120048 + 0x1000 * n, 0, 12⟩
def MOD.DEAD.DT_HL_F (n : Nat) : Fld := ⟨0x12004c + 0x1000 * n, 26, 6⟩
def MOD.DEAD.DT_HL (n : Nat) : Fld := ⟨0x12004c + 0x1000 * n, 16, 10⟩
def MOD.DEAD.DT_LH_F (n : Nat) : Fld := ⟨0x12004c + 0x1000 * n, 10, 6⟩
def MOD.DEAD.DT_LH (n : Nat) : Fld := ⟨0x12004c + 0x1000 * n, 0, 10⟩
def MOD.DUTY.DMAX (n : Nat) : Fld := ⟨0x120050 + 0x1000 * n, 0, 12⟩
def MOD.LIMIT.IPK_MAX (n : Nat) : Fld := ⟨0x120054 + 0x1000 * n, 16, 16⟩
def MOD.LIMIT.IPK_SKIP (n : Nat) : Fld := ⟨0x120054 + 0x1000 * n, 0, 16⟩
def MOD.SCALE.VG_FS (n : Nat) : Fld := ⟨0x120058 + 0x1000 * n, 16, 16⟩
def MOD.SCALE.FS_I (n : Nat) : Fld := ⟨0x120058 + 0x1000 * n, 0, 16⟩
def MOD.SLOPE.K_SLOPE (n : Nat) : Fld := ⟨0x12005c + 0x1000 * n, 16, 16⟩
def MOD.SLOPE.SLOPE (n : Nat) : Fld := ⟨0x12005c + 0x1000 * n, 0, 16⟩
def MOD.SYNC.MAX_CORR (n : Nat) : Fld := ⟨0x120060 + 0x1000 * n, 24, 8⟩
def MOD.SYNC.LOCK_WIN (n : Nat) : Fld := ⟨0x120060 + 0x1000 * n, 16, 8⟩
def MOD.SYNC.SYNC_DIV (n : Nat) : Fld := ⟨0x120060 + 0x1000 * n, 8, 8⟩
def MOD.SYNC.SYNC_TOL (n : Nat) : Fld := ⟨0x120060 + 0x1000 * n, 0, 8⟩
def MOD.GOFS.GOFS (n : Nat) : Fld := ⟨0x120064 + 0x1000 * n, 0, 16⟩
def MOD.BAL.BAL_DIV (n : Nat) : Fld := ⟨0x120068 + 0x1000 * n, 24, 8⟩
def MOD.BAL.K_BAL (n : Nat) : Fld := ⟨0x120068 + 0x1000 * n, 16, 8⟩
def MOD.BAL.TRIM_MAX (n : Nat) : Fld := ⟨0x120068 + 0x1000 * n, 0, 16⟩
def MOD.IMB.BAL_MIN (n : Nat) : Fld := ⟨0x12006c + 0x1000 * n, 16, 16⟩
def MOD.IMB.IMB_PCT (n : Nat) : Fld := ⟨0x12006c + 0x1000 * n, 8, 8⟩
def MOD.IMB.IMB_MS (n : Nat) : Fld := ⟨0x12006c + 0x1000 * n, 0, 8⟩
def MOD.DESAT.TRIP_MS (n : Nat) : Fld := ⟨0x120070 + 0x1000 * n, 8, 8⟩
def MOD.DESAT.DESAT_FILT (n : Nat) : Fld := ⟨0x120070 + 0x1000 * n, 0, 8⟩
def MOD.PHASES.PH_EN (n : Nat) : Fld := ⟨0x120074 + 0x1000 * n, 0, 8⟩
def MOD.ARM.TRIP_CLR (n : Nat) : Fld := ⟨0x120078 + 0x1000 * n, 8, 1⟩
def MOD.ARM.PH (n : Nat) : Fld := ⟨0x120078 + 0x1000 * n, 0, 8⟩
def MOD.CAL.TAPS (n : Nat) : Fld := ⟨0x12007c + 0x1000 * n, 24, 8⟩
def MOD.CAL.CAL_MS (n : Nat) : Fld := ⟨0x12007c + 0x1000 * n, 0, 8⟩
def MOD.GSTAT.MAY_SW (n : Nat) : Fld := ⟨0x120080 + 0x1000 * n, 31, 1⟩
def MOD.GSTAT.LOCKED (n : Nat) : Fld := ⟨0x120080 + 0x1000 * n, 30, 1⟩
def MOD.GSTAT.HOLDOVER (n : Nat) : Fld := ⟨0x120080 + 0x1000 * n, 29, 1⟩
def MOD.GSTAT.HW_OFF (n : Nat) : Fld := ⟨0x120080 + 0x1000 * n, 28, 1⟩
def MOD.GSTAT.PF_STOP (n : Nat) : Fld := ⟨0x120080 + 0x1000 * n, 27, 1⟩
def MOD.GSTAT.TRIPPED (n : Nat) : Fld := ⟨0x120080 + 0x1000 * n, 26, 1⟩
def MOD.GSTAT.CLAMPED (n : Nat) : Fld := ⟨0x120080 + 0x1000 * n, 25, 1⟩
def MOD.GSTAT.CAL_FAIL (n : Nat) : Fld := ⟨0x120080 + 0x1000 * n, 24, 1⟩
def MOD.GSTAT.PH_FAULT (n : Nat) : Fld := ⟨0x120080 + 0x1000 * n, 16, 8⟩
def MOD.GSTAT.PH_ACT (n : Nat) : Fld := ⟨0x120080 + 0x1000 * n, 8, 8⟩
def MOD.GSTAT.N_ACT (n : Nat) : Fld := ⟨0x120080 + 0x1000 * n, 4, 4⟩
def MOD.IGPK.CMD (n : Nat) : Fld := ⟨0x120084 + 0x1000 * n, 16, 16⟩
def MOD.IGPK.APPLIED (n : Nat) : Fld := ⟨0x120084 + 0x1000 * n, 0, 16⟩
def MOD.MEAS.VGRP (n : Nat) : Fld := ⟨0x120088 + 0x1000 * n, 16, 16⟩
def MOD.MEAS.IGRP (n : Nat) : Fld := ⟨0x120088 + 0x1000 * n, 0, 16⟩
def MOD.ALIGN.ERR (n : Nat) : Fld := ⟨0x12008c + 0x1000 * n, 16, 16⟩
def MOD.ALIGN.EFF_OFS (n : Nat) : Fld := ⟨0x12008c + 0x1000 * n, 0, 16⟩
def MOD.CMD_CNT.LATE (n : Nat) : Fld := ⟨0x120090 + 0x1000 * n, 16, 16⟩
def MOD.CMD_CNT.STALE (n : Nat) : Fld := ⟨0x120090 + 0x1000 * n, 0, 16⟩
def MOD.CAL_CNT.CAL_CNT (n : Nat) : Fld := ⟨0x120094 + 0x1000 * n, 0, 32⟩
def MOD.PH.PCFG.OFS (n i : Nat) : Fld := ⟨0x120400 + 0x1000 * n + 32 * i, 0, 16⟩
def MOD.PH.PSTAT.DESAT (n i : Nat) : Fld := ⟨0x120404 + 0x1000 * n + 32 * i, 31, 1⟩
def MOD.PH.PSTAT.DESAT_OFF (n i : Nat) : Fld := ⟨0x120404 + 0x1000 * n + 32 * i, 30, 1⟩
def MOD.PH.PSTAT.TRIM_SAT (n i : Nat) : Fld := ⟨0x120404 + 0x1000 * n + 32 * i, 29, 1⟩
def MOD.PH.PSTAT.IMB (n i : Nat) : Fld := ⟨0x120404 + 0x1000 * n + 32 * i, 28, 1⟩
def MOD.PH.PSTAT.DLIM (n i : Nat) : Fld := ⟨0x120404 + 0x1000 * n + 32 * i, 27, 1⟩
def MOD.PH.PSTAT.SKIP (n i : Nat) : Fld := ⟨0x120404 + 0x1000 * n + 32 * i, 26, 1⟩
def MOD.PH.PSTAT.TRIM (n i : Nat) : Fld := ⟨0x120404 + 0x1000 * n + 32 * i, 0, 16⟩
def MOD.PH.PREF.REF (n i : Nat) : Fld := ⟨0x120408 + 0x1000 * n + 32 * i, 16, 16⟩
def MOD.PH.PREF.I_MEAN (n i : Nat) : Fld := ⟨0x120408 + 0x1000 * n + 32 * i, 0, 16⟩
def MOD.PH.PTIME.EFF_OFS (n i : Nat) : Fld := ⟨0x12040c + 0x1000 * n + 32 * i, 16, 16⟩
def MOD.PH.PTIME.TON (n i : Nat) : Fld := ⟨0x12040c + 0x1000 * n + 32 * i, 0, 16⟩
def MOD.PH.PCNT.DESAT_CNT (n i : Nat) : Fld := ⟨0x120410 + 0x1000 * n + 32 * i, 16, 16⟩
def MOD.PH.PCNT.DLIM_CNT (n i : Nat) : Fld := ⟨0x120410 + 0x1000 * n + 32 * i, 0, 16⟩
/-- Page CE: its key (spec/07_control_engine.md). -/
def pgCE : Nat := 0x130000
def CE.PLOOP.PSAT_MS : Fld := ⟨0x130040, 20, 12⟩
def CE.PLOOP.TABLE : Fld := ⟨0x130040, 16, 4⟩
def CE.PLOOP.PERIOD_US : Fld := ⟨0x130040, 0, 8⟩
def CE.PGAIN.GPK : Fld := ⟨0x130044, 16, 16⟩
def CE.PGAIN.KVI : Fld := ⟨0x130044, 0, 16⟩
def CE.SSTART.SHORT_MS : Fld := ⟨0x130048, 24, 8⟩
def CE.SSTART.SHORT_PCT : Fld := ⟨0x130048, 16, 8⟩
def CE.SSTART.RETRY_MAX : Fld := ⟨0x130048, 12, 4⟩
def CE.SSTART.COOLOFF_MS : Fld := ⟨0x130048, 0, 12⟩
def CE.RT_WD.MEAS_LOSS : Fld := ⟨0x13004c, 16, 8⟩
def CE.RT_WD.CMD_TO_US : Fld := ⟨0x13004c, 0, 10⟩
def CE.SLOT_RES.RES : Fld := ⟨0x130050, 0, 16⟩
def CE.SLOT_USE.PORT : Fld := ⟨0x130054, 16, 16⟩
def CE.SLOT_USE.RUN : Fld := ⟨0x130054, 0, 16⟩
def CE.ENG_STAT.DL_MISS : Fld := ⟨0x130058, 16, 16⟩
def CE.ENG_STAT.LOAD : Fld := ⟨0x130058, 0, 10⟩
def CE.PSLEW.V_SLEW (i : Nat) : Fld := ⟨0x130060 + 4 * i, 16, 16⟩
def CE.PSLEW.I_SLEW (i : Nat) : Fld := ⟨0x130060 + 4 * i, 0, 16⟩
def CE.COOL.CCFG.T_SET (i : Nat) : Fld := ⟨0x1300a0 + 16 * i, 0, 16⟩
def CE.COOL.CSNS.CH0 (i : Nat) : Fld := ⟨0x1300a4 + 16 * i, 0, 8⟩
def CE.COOL.CSNS.CH1 (i : Nat) : Fld := ⟨0x1300a4 + 16 * i, 8, 8⟩
def CE.COOL.CSNS.CH2 (i : Nat) : Fld := ⟨0x1300a4 + 16 * i, 16, 8⟩
def CE.COOL.CSNS.CH3 (i : Nat) : Fld := ⟨0x1300a4 + 16 * i, 24, 8⟩
def CE.COOL.COUT.PUMP_MAX (i : Nat) : Fld := ⟨0x1300a8 + 16 * i, 24, 8⟩
def CE.COOL.COUT.PUMP_MIN (i : Nat) : Fld := ⟨0x1300a8 + 16 * i, 16, 8⟩
def CE.COOL.COUT.VALVE (i : Nat) : Fld := ⟨0x1300a8 + 16 * i, 8, 8⟩
def CE.COOL.COUT.PUMP (i : Nat) : Fld := ⟨0x1300a8 + 16 * i, 0, 8⟩
def CE.COOL.CDER.T_MAX (i : Nat) : Fld := ⟨0x1300ac + 16 * i, 16, 16⟩
def CE.COOL.CDER.T_DER (i : Nat) : Fld := ⟨0x1300ac + 16 * i, 0, 16⟩
def CE.TUNE.SLOT : Fld := ⟨0x1300e0, 28, 4⟩
def CE.TUNE.CYC : Fld := ⟨0x1300e0, 16, 8⟩
def CE.TUNE.D : Fld := ⟨0x1300e0, 0, 16⟩
def CE.TUNE_BIAS.BIAS : Fld := ⟨0x1300e4, 16, 16⟩
def CE.TUNE_BIAS.HYS : Fld := ⟨0x1300e4, 0, 16⟩
def CE.TUNE_GO.ABORT : Fld := ⟨0x1300e8, 1, 1⟩
def CE.TUNE_GO.GO : Fld := ⟨0x1300e8, 0, 1⟩
def CE.TUNE_STAT.STATE : Fld := ⟨0x1300ec, 30, 2⟩
def CE.TUNE_STAT.CAUSE : Fld := ⟨0x1300ec, 28, 2⟩
def CE.TUNE_RES.AMP : Fld := ⟨0x1300f0, 16, 16⟩
def CE.TUNE_RES.TU : Fld := ⟨0x1300f0, 0, 16⟩
def CE.TUNE_SUG.KP_SUG : Fld := ⟨0x1300f4, 16, 16⟩
def CE.TUNE_SUG.KI_SUG : Fld := ⟨0x1300f4, 0, 16⟩
def CE.TUNE_KU.KU : Fld := ⟨0x1300f8, 0, 32⟩
def CE.PLOC.INPUT_LOST (i : Nat) : Fld := ⟨0x130100 + 4 * i, 18, 1⟩
def CE.PLOC.DER_ASSAY (i : Nat) : Fld := ⟨0x130100 + 4 * i, 17, 1⟩
def CE.PLOC.DER_COOL (i : Nat) : Fld := ⟨0x130100 + 4 * i, 16, 1⟩
def CE.PLOC.I_LOC (i : Nat) : Fld := ⟨0x130100 + 4 * i, 0, 16⟩
def CE.SLOT.CFG.PERIOD_US (i : Nat) : Fld := ⟨0x130400 + 64 * i, 15, 17⟩
def CE.SLOT.CFG.TABLE (i : Nat) : Fld := ⟨0x130400 + 64 * i, 8, 4⟩
def CE.SLOT.CFG.SAT_ACT (i : Nat) : Fld := ⟨0x130400 + 64 * i, 4, 2⟩
def CE.SLOT.CFG.KIND (i : Nat) : Fld := ⟨0x130400 + 64 * i, 0, 3⟩
def CE.SLOT.LIM.OUT_MAX (i : Nat) : Fld := ⟨0x130404 + 64 * i, 16, 16⟩
def CE.SLOT.LIM.OUT_MIN (i : Nat) : Fld := ⟨0x130404 + 64 * i, 0, 16⟩
def CE.SLOT.IO.OUT_CH (i : Nat) : Fld := ⟨0x130408 + 64 * i, 24, 8⟩
def CE.SLOT.IO.IN_CH (i : Nat) : Fld := ⟨0x130408 + 64 * i, 16, 8⟩
def CE.SLOT.IO.SET (i : Nat) : Fld := ⟨0x130408 + 64 * i, 0, 16⟩
def CE.SLOT.SAT.SAT_MS (i : Nat) : Fld := ⟨0x13040c + 64 * i, 16, 16⟩
def CE.SLOT.STATE.PSTATE (i : Nat) : Fld := ⟨0x130410 + 64 * i, 29, 3⟩
def CE.SLOT.STATE.CV (i : Nat) : Fld := ⟨0x130410 + 64 * i, 28, 1⟩
def CE.SLOT.STATE.SAT (i : Nat) : Fld := ⟨0x130410 + 64 * i, 27, 1⟩
def CE.SLOT.STATE.SAT_LONG (i : Nat) : Fld := ⟨0x130410 + 64 * i, 26, 1⟩
def CE.SLOT.STATE.TGT_END (i : Nat) : Fld := ⟨0x130410 + 64 * i, 24, 2⟩
def CE.SLOT.STATE.SEG (i : Nat) : Fld := ⟨0x130410 + 64 * i, 20, 4⟩
def CE.SLOT.STATE.RETRY (i : Nat) : Fld := ⟨0x130410 + 64 * i, 16, 4⟩
def CE.SLOT.OUT.U (i : Nat) : Fld := ⟨0x130414 + 64 * i, 16, 16⟩
def CE.SLOT.OUT.E (i : Nat) : Fld := ⟨0x130414 + 64 * i, 0, 16⟩
def CE.SLOT.INTEG.I (i : Nat) : Fld := ⟨0x130418 + 64 * i, 0, 32⟩
def CE.SLOT.REF.V_REF (i : Nat) : Fld := ⟨0x13041c + 64 * i, 16, 16⟩
def CE.SLOT.REF.I_REF (i : Nat) : Fld := ⟨0x13041c + 64 * i, 0, 16⟩
def CE.SLOT.TGT.V_TGT (i : Nat) : Fld := ⟨0x130420 + 64 * i, 16, 16⟩
def CE.SLOT.TGT.I_TGT (i : Nat) : Fld := ⟨0x130420 + 64 * i, 0, 16⟩
def CE.SLOT.MEAS.V (i : Nat) : Fld := ⟨0x130424 + 64 * i, 16, 16⟩
def CE.SLOT.MEAS.I (i : Nat) : Fld := ⟨0x130424 + 64 * i, 0, 16⟩
def CE.SLOT.CYCLE.CYCLE (i : Nat) : Fld := ⟨0x130428 + 64 * i, 0, 32⟩
def CE.SLOT.SATTIM.SATTIM (i : Nat) : Fld := ⟨0x13042c + 64 * i, 0, 32⟩
def CE.SLOT.CNT.MEAS_MISS (i : Nat) : Fld := ⟨0x130430 + 64 * i, 16, 16⟩
def CE.SLOT.CNT.DL_MISS (i : Nat) : Fld := ⟨0x130430 + 64 * i, 0, 16⟩
def CE.SLOT.BIND.SITE_PORT (i : Nat) : Fld := ⟨0x130434 + 64 * i, 8, 8⟩
def CE.SLOT.BIND.TRUNK (i : Nat) : Fld := ⟨0x130434 + 64 * i, 0, 5⟩
/-- Page LUT: its key (spec/07_control_engine.md). -/
def pgLUT : Nat := 0x138000
def LUT.TBL.HYS (i : Nat) : Fld := ⟨0x138040 + 4 * i, 16, 16⟩
def LUT.TBL.NPTS (i : Nat) : Fld := ⟨0x138040 + 4 * i, 0, 4⟩
def LUT.COMMIT.TBL : Fld := ⟨0x138060, 0, 8⟩
def LUT.LSTAT.PENDING : Fld := ⟨0x138064, 16, 8⟩
def LUT.LSTAT.INUSE : Fld := ⟨0x138064, 8, 8⟩
def LUT.LSTAT.VALID : Fld := ⟨0x138064, 0, 8⟩
def LUT.PT.BP.BP (i : Nat) : Fld := ⟨0x138400 + 8 * i, 0, 16⟩
def LUT.PT.GAIN.KP (i : Nat) : Fld := ⟨0x138404 + 8 * i, 16, 16⟩
def LUT.PT.GAIN.KI (i : Nat) : Fld := ⟨0x138404 + 8 * i, 0, 16⟩
/-- Page MTR: its key (spec/08_metrology.md). -/
def pgMTR : Nat := 0x140000
def MTR.MCTL.REF_PH : Fld := ⟨0x140040, 8, 2⟩
def MTR.MCTL.MAINS_HZ : Fld := ⟨0x140040, 2, 1⟩
def MTR.MCTL.APP_VEC : Fld := ⟨0x140040, 1, 1⟩
def MTR.MCTL.AC_EN : Fld := ⟨0x140040, 0, 1⟩
def MTR.START.START_AC : Fld := ⟨0x140044, 16, 16⟩
def MTR.START.START_DC : Fld := ⟨0x140044, 0, 16⟩
def MTR.NEUTRAL.NEU_TOL : Fld := ⟨0x140048, 16, 16⟩
def MTR.NEUTRAL.NEU_CYC : Fld := ⟨0x140048, 0, 8⟩
def MTR.VLOSS.V_LOSS : Fld := ⟨0x14004c, 0, 16⟩
def MTR.FREQ.CYC_LEN : Fld := ⟨0x140050, 16, 16⟩
def MTR.FREQ.FREQ : Fld := ⟨0x140050, 0, 16⟩
def MTR.CAL_STAT.CAL_OK : Fld := ⟨0x140054, 31, 1⟩
def MTR.CAL_STAT.COMMITS : Fld := ⟨0x140054, 0, 16⟩
def MTR.CAL_CRC.CRC : Fld := ⟨0x140058, 0, 32⟩
def MTR.CAL_COMMIT.GO : Fld := ⟨0x14005c, 0, 1⟩
def MTR.PAIR.PAIR_TOL : Fld := ⟨0x140060, 0, 16⟩
def MTR.PAIR_STAT.DIFF : Fld := ⟨0x140064, 0, 15⟩
def MTR.CREEP_AC.COUNT : Fld := ⟨0x140068, 0, 32⟩
def MTR.CREEP_DC.COUNT : Fld := ⟨0x14006c, 0, 32⟩
def MTR.CAPT_CTL.N : Fld := ⟨0x140070, 16, 16⟩
def MTR.CAPT_CTL.CH : Fld := ⟨0x140070, 8, 4⟩
def MTR.CAPT_CTL.GO : Fld := ⟨0x140070, 0, 1⟩
def MTR.CAPT_STAT.BUSY : Fld := ⟨0x140074, 31, 1⟩
def MTR.CAPT_STAT.DONE_N : Fld := ⟨0x140074, 0, 16⟩
def MTR.CAPT_SUM.SUM : Fld := ⟨0x140078, 0, 32⟩
def MTR.CAPT_SUM_HI.SUM_HI : Fld := ⟨0x14007c, 0, 32⟩
def MTR.CAPT_SQ.SQ : Fld := ⟨0x140080, 0, 32⟩
def MTR.CAPT_SQ_HI.SQ_HI : Fld := ⟨0x140084, 0, 32⟩
def MTR.PAC.P : Fld := ⟨0x140088, 0, 32⟩
def MTR.QAC.Q : Fld := ⟨0x14008c, 0, 32⟩
def MTR.SAC.S : Fld := ⟨0x140090, 0, 32⟩
def MTR.ACSTAT.QUAD : Fld := ⟨0x140094, 30, 2⟩
def MTR.ACSTAT.V_LOST : Fld := ⟨0x140094, 29, 1⟩
def MTR.ACSTAT.NEU_BAD : Fld := ⟨0x140094, 28, 1⟩
def MTR.PDC.P (i : Nat) : Fld := ⟨0x1400a0 + 4 * i, 0, 32⟩
def MTR.PULSE.PCFG.CONST (i : Nat) : Fld := ⟨0x1400b0 + 16 * i, 15, 17⟩
def MTR.PULSE.PCFG.SRC (i : Nat) : Fld := ⟨0x1400b0 + 16 * i, 12, 3⟩
def MTR.PULSE.PCFG.POL (i : Nat) : Fld := ⟨0x1400b0 + 16 * i, 11, 1⟩
def MTR.PULSE.PWID.WIDTH_US (i : Nat) : Fld := ⟨0x1400b4 + 16 * i, 0, 17⟩
def MTR.PULSE.PSTAT.SAT (i : Nat) : Fld := ⟨0x1400b8 + 16 * i, 31, 1⟩
def MTR.PULSE.PSTAT.PEND (i : Nat) : Fld := ⟨0x1400b8 + 16 * i, 0, 31⟩
def MTR.PULSE.PCNT.COUNT (i : Nat) : Fld := ⟨0x1400bc + 16 * i, 0, 32⟩
def MTR.PORT.LOSS.ALPHA (i : Nat) : Fld := ⟨0x140100 + 16 * i, 16, 16⟩
def MTR.PORT.LOSS.R20 (i : Nat) : Fld := ⟨0x140100 + 16 * i, 0, 16⟩
def MTR.PORT.LTEMP.LOSS_EN (i : Nat) : Fld := ⟨0x140104 + 16 * i, 31, 1⟩
def MTR.PORT.LTEMP.T_CH (i : Nat) : Fld := ⟨0x140104 + 16 * i, 16, 8⟩
def MTR.PORT.LTEMP.T_DEF (i : Nat) : Fld := ⟨0x140104 + 16 * i, 0, 16⟩
def MTR.PORT.LSTAT.T_SUBST (i : Nat) : Fld := ⟨0x140108 + 16 * i, 31, 1⟩
def MTR.PORT.LSTAT.R_EFF (i : Nat) : Fld := ⟨0x140108 + 16 * i, 0, 16⟩
def MTR.PORT.DROP.DV (i : Nat) : Fld := ⟨0x14010c + 16 * i, 0, 32⟩
def MTR.VCH.VOFS.OFS (i : Nat) : Fld := ⟨0x140400 + 64 * i, 0, 24⟩
def MTR.VCH.VGAIN.GAIN (i : Nat) : Fld := ⟨0x140404 + 64 * i, 0, 32⟩
def MTR.VCH.VTEMP.TC (i : Nat) : Fld := ⟨0x140408 + 64 * i, 16, 16⟩
def MTR.VCH.VTEMP.T_CAL (i : Nat) : Fld := ⟨0x140408 + 64 * i, 0, 16⟩
def MTR.VCH.VTCH.T_CH (i : Nat) : Fld := ⟨0x14040c + 64 * i, 0, 8⟩
def MTR.VCH.VPH.PH_DELAY (i : Nat) : Fld := ⟨0x140510 + 64 * i, 0, 32⟩
def MTR.VCH.VRAW.X (i : Nat) : Fld := ⟨0x140414 + 64 * i, 0, 24⟩
def MTR.VCH.VMET.Y (i : Nat) : Fld := ⟨0x140418 + 64 * i, 0, 32⟩
def MTR.VCH.VCTL.OVR (i : Nat) : Fld := ⟨0x14041c + 64 * i, 31, 1⟩
def MTR.VCH.VCTL.INVALID (i : Nat) : Fld := ⟨0x14041c + 64 * i, 30, 1⟩
def MTR.VCH.VCTL.V (i : Nat) : Fld := ⟨0x14041c + 64 * i, 0, 16⟩
def MTR.VCH.VRMS.RMS (i : Nat) : Fld := ⟨0x140420 + 64 * i, 0, 32⟩
/-- Page SNS: its key (spec/08_metrology.md). -/
def pgSNS (n : Nat) : Nat := 0x141000 + 0x1000 * n
def SNS.SCFG.INV (n : Nat) : Fld := ⟨0x141040 + 0x1000 * n, 8, 1⟩
def SNS.SCFG.TYPE (n : Nat) : Fld := ⟨0x141040 + 0x1000 * n, 0, 2⟩
def SNS.SOFS.OFS (n : Nat) : Fld := ⟨0x141044 + 0x1000 * n, 0, 24⟩
def SNS.SGAIN.GAIN (n : Nat) : Fld := ⟨0x141048 + 0x1000 * n, 0, 32⟩
def SNS.STEMP.TC (n : Nat) : Fld := ⟨0x14104c + 0x1000 * n, 16, 16⟩
def SNS.STEMP.T_CAL (n : Nat) : Fld := ⟨0x14104c + 0x1000 * n, 0, 16⟩
def SNS.SCH.T_CH (n : Nat) : Fld := ⟨0x141050 + 0x1000 * n, 0, 8⟩
def SNS.SPHASE.PH_DELAY (n : Nat) : Fld := ⟨0x141054 + 0x1000 * n, 0, 32⟩
def SNS.FLUX.EXC_LVL (n : Nat) : Fld := ⟨0x141058 + 0x1000 * n, 16, 8⟩
def SNS.FLUX.K_LOOP (n : Nat) : Fld := ⟨0x141058 + 0x1000 * n, 0, 16⟩
def SNS.FTOL.BR_TOL (n : Nat) : Fld := ⟨0x14105c + 0x1000 * n, 16, 16⟩
def SNS.FTOL.FLT_MS (n : Nat) : Fld := ⟨0x14105c + 0x1000 * n, 0, 16⟩
def SNS.SRAW.X (n : Nat) : Fld := ⟨0x141060 + 0x1000 * n, 0, 24⟩
def SNS.SMET.Y (n : Nat) : Fld := ⟨0x141064 + 0x1000 * n, 0, 32⟩
def SNS.SCTL.I (n : Nat) : Fld := ⟨0x141068 + 0x1000 * n, 0, 16⟩
def SNS.SSTAT.VALID (n : Nat) : Fld := ⟨0x14106c + 0x1000 * n, 31, 1⟩
def SNS.SSTAT.FAULT (n : Nat) : Fld := ⟨0x14106c + 0x1000 * n, 30, 1⟩
def SNS.SSTAT.OVR (n : Nat) : Fld := ⟨0x14106c + 0x1000 * n, 29, 1⟩
def SNS.SSTAT.LOOP_SAT (n : Nat) : Fld := ⟨0x14106c + 0x1000 * n, 28, 1⟩
def SNS.SSTAT.EXC_FAULT (n : Nat) : Fld := ⟨0x14106c + 0x1000 * n, 27, 1⟩
def SNS.SSTAT.BR_OPEN (n : Nat) : Fld := ⟨0x14106c + 0x1000 * n, 26, 1⟩
def SNS.SSTAT.BR_MISMATCH (n : Nat) : Fld := ⟨0x14106c + 0x1000 * n, 25, 1⟩
def SNS.SSTAT.STRAY (n : Nat) : Fld := ⟨0x14106c + 0x1000 * n, 24, 1⟩
def SNS.SSTAT.TEMP_SUBST (n : Nat) : Fld := ⟨0x14106c + 0x1000 * n, 23, 1⟩
def SNS.SSTAT.FAULT_CNT (n : Nat) : Fld := ⟨0x14106c + 0x1000 * n, 0, 16⟩
def SNS.SRMS.RMS (n : Nat) : Fld := ⟨0x141070 + 0x1000 * n, 0, 32⟩
def SNS.BR.RAW (n i : Nat) : Fld := ⟨0x141074 + 0x1000 * n + 4 * i, 0, 24⟩
def SNS.LIN.LIN (n i : Nat) : Fld := ⟨0x141400 + 0x1000 * n + 4 * i, 0, 16⟩
/-- Page CH: its key (spec/10_counting_house.md). -/
def pgCH : Nat := 0x150000
def CH.CCTL.INT_REC : Fld := ⟨0x150040, 8, 5⟩
def CH.CCTL.LEGAL_DOM : Fld := ⟨0x150040, 0, 1⟩
def CH.STEP.STEP_LIM_MS : Fld := ⟨0x150044, 0, 16⟩
def CH.PF.LAST_RES_WH : Fld := ⟨0x150048, 16, 16⟩
def CH.PF.TAIL_MS : Fld := ⟨0x150048, 0, 10⟩
def CH.METER_ID.ID : Fld := ⟨0x15004c, 0, 32⟩
def CH.METER_ID_HI.ID_HI : Fld := ⟨0x150050, 0, 32⟩
def CH.HWM.H : Fld := ⟨0x150054, 0, 32⟩
def CH.HWM_HI.H_HI : Fld := ⟨0x150058, 0, 32⟩
def CH.BTIME.B : Fld := ⟨0x15005c, 0, 32⟩
def CH.BTIME_HI.B_HI : Fld := ⟨0x150060, 0, 32⟩
def CH.SEQ.SEQ : Fld := ⟨0x150064, 0, 32⟩
def CH.SEQ_HI.SEQ_HI : Fld := ⟨0x150068, 0, 32⟩
def CH.NONCE.NONCE : Fld := ⟨0x15006c, 0, 32⟩
def CH.NONCE_HI.NONCE_HI : Fld := ⟨0x150070, 0, 32⟩
def CH.CSTAT.BROKEN : Fld := ⟨0x150074, 31, 1⟩
def CH.CSTAT.RTC_TIME : Fld := ⟨0x150074, 30, 1⟩
def CH.CSTAT.TIMED : Fld := ⟨0x150074, 29, 1⟩
def CH.CSTAT.SESS_OPEN : Fld := ⟨0x150074, 16, 4⟩
def CH.CSTAT.PF_CNT : Fld := ⟨0x150074, 0, 16⟩
def CH.CMD_STAT.CODE : Fld := ⟨0x150078, 24, 8⟩
def CH.CMD_STAT.RESULT : Fld := ⟨0x150078, 20, 4⟩
def CH.CMD_STAT.COUNT : Fld := ⟨0x150078, 0, 16⟩
def CH.TAMPER.COVER_OPEN : Fld := ⟨0x15007c, 31, 1⟩
def CH.TAMPER.TERM_OPEN : Fld := ⟨0x15007c, 30, 1⟩
def CH.TAMPER.COVER_CNT : Fld := ⟨0x15007c, 8, 8⟩
def CH.TAMPER.TERM_CNT : Fld := ⟨0x15007c, 0, 8⟩
def CH.RING.QUEUED : Fld := ⟨0x150080, 0, 16⟩
def CH.TALLY.LO.LO (i : Nat) : Fld := ⟨0x150400 + 16 * i, 0, 32⟩
def CH.TALLY.HI.HI (i : Nat) : Fld := ⟨0x150404 + 16 * i, 0, 32⟩
def CH.TALLY.COMPACT.WH (i : Nat) : Fld := ⟨0x150408 + 16 * i, 0, 32⟩
def CH.TALLY.WRAP.WRAP (i : Nat) : Fld := ⟨0x15040c + 16 * i, 0, 8⟩
/-- Page TRF: its key (spec/10_counting_house.md). -/
def pgTRF : Nat := 0x151000
def TRF.TCTL.DEF_TRF : Fld := ⟨0x151040, 0, 3⟩
def TRF.TNOW.DAY_TYPE : Fld := ⟨0x151044, 16, 8⟩
def TRF.TNOW.SEASON : Fld := ⟨0x151044, 8, 2⟩
def TRF.TNOW.TARIFF : Fld := ⟨0x151044, 0, 3⟩
def TRF.NEXT_SW.B : Fld := ⟨0x151048, 0, 32⟩
def TRF.NEXT_SW_HI.B_HI : Fld := ⟨0x15104c, 0, 32⟩
def TRF.PEND_IDX.IDX : Fld := ⟨0x151050, 0, 9⟩
def TRF.PEND_DATA.ENTRY : Fld := ⟨0x151054, 0, 32⟩
def TRF.ACT_CRC.CRC : Fld := ⟨0x151058, 0, 32⟩
def TRF.PEND_CRC.CRC : Fld := ⟨0x15105c, 0, 32⟩
def TRF.ACT_AT.B : Fld := ⟨0x151060, 0, 32⟩
def TRF.ACT_AT_HI.B_HI : Fld := ⟨0x151064, 0, 32⟩
def TRF.ZONE.START.START (i : Nat) : Fld := ⟨0x151070 + 8 * i, 0, 32⟩
def TRF.ZONE.OFS.OFS (i : Nat) : Fld := ⟨0x151074 + 8 * i, 0, 32⟩
def TRF.CAL.ENTRY (i : Nat) : Fld := ⟨0x151400 + 4 * i, 0, 32⟩
/-- Page DMD: its key (spec/10_counting_house.md). -/
def pgDMD : Nat := 0x152000
def DMD.DCFG.QTY : Fld := ⟨0x152040, 16, 2⟩
def DMD.DCFG.N_SUB : Fld := ⟨0x152040, 12, 4⟩
def DMD.DCFG.SUB_MIN : Fld := ⟨0x152040, 6, 6⟩
def DMD.DCFG.MODE : Fld := ⟨0x152040, 0, 1⟩
def DMD.CONTRACT.KW : Fld := ⟨0x152044, 0, 17⟩
def DMD.GRID.ACTIVE : Fld := ⟨0x152048, 31, 1⟩
def DMD.GRID.KW : Fld := ⟨0x152048, 0, 17⟩
def DMD.GRID_START.B : Fld := ⟨0x15204c, 0, 32⟩
def DMD.GRID_START_HI.B_HI : Fld := ⟨0x152050, 0, 32⟩
def DMD.GRID_END.B : Fld := ⟨0x152054, 0, 32⟩
def DMD.GRID_END_HI.B_HI : Fld := ⟨0x152058, 0, 32⟩
def DMD.LIM.KW : Fld := ⟨0x15205c, 0, 17⟩
def DMD.INT_NUM.NUM : Fld := ⟨0x152060, 0, 32⟩
def DMD.T_INT.MS : Fld := ⟨0x152064, 0, 32⟩
def DMD.T_REM.MS : Fld := ⟨0x152068, 0, 32⟩
def DMD.WIN_E.MWH : Fld := ⟨0x15206c, 0, 32⟩
def DMD.WIN_E_HI.MWH_HI : Fld := ⟨0x152070, 0, 32⟩
def DMD.LAST_D.W : Fld := ⟨0x152074, 0, 32⟩
def DMD.PROJ.W : Fld := ⟨0x152078, 0, 32⟩
def DMD.DSTAT.OUTAGE : Fld := ⟨0x15207c, 31, 1⟩
def DMD.DSTAT.STEP_BACK : Fld := ⟨0x15207c, 30, 1⟩
def DMD.DSTAT.STEP_FWD : Fld := ⟨0x15207c, 29, 1⟩
def DMD.DSTAT.SPLIT : Fld := ⟨0x15207c, 28, 1⟩
def DMD.DSTAT.ZONE : Fld := ⟨0x15207c, 27, 1⟩
def DMD.DSTAT.RESET_DUE : Fld := ⟨0x15207c, 26, 1⟩
def DMD.DSTAT.RESETS : Fld := ⟨0x15207c, 0, 16⟩
def DMD.P_1S.W : Fld := ⟨0x152080, 0, 32⟩
def DMD.MAX.D.D_W (i : Nat) : Fld := ⟨0x152400 + 16 * i, 0, 32⟩
def DMD.MAX.TIME.B (i : Nat) : Fld := ⟨0x152404 + 16 * i, 0, 32⟩
def DMD.MAX.TIME_HI.B_HI (i : Nat) : Fld := ⟨0x152408 + 16 * i, 0, 32⟩
/-- Page FSRM: its key (spec/17_strongroom.md). -/
def pgFSRM : Nat := 0x153000
def FSRM.STAT.OPEN : Fld := ⟨0x153040, 31, 1⟩
def FSRM.STAT.ROOT_OK : Fld := ⟨0x153040, 30, 1⟩
def FSRM.STAT.ANCH_REV : Fld := ⟨0x153040, 16, 4⟩
def FSRM.STAT.ANCH_PROG : Fld := ⟨0x153040, 12, 4⟩
def FSRM.STAT.BOOT_ANCH : Fld := ⟨0x153040, 8, 2⟩
def FSRM.STAT.FLOOR : Fld := ⟨0x153040, 0, 7⟩
def FSRM.BOOT_SVN.SVN : Fld := ⟨0x153044, 0, 7⟩
def FSRM.ROLL_ADV.GO : Fld := ⟨0x153048, 0, 1⟩
def FSRM.ANCH_CTL.REVOKE : Fld := ⟨0x15304c, 3, 1⟩
def FSRM.ANCH_CTL.PROG : Fld := ⟨0x15304c, 2, 1⟩
def FSRM.ANCH_CTL.IDX : Fld := ⟨0x15304c, 0, 2⟩
def FSRM.ANCH_STAGE.HASH (i : Nat) : Fld := ⟨0x153050 + 4 * i, 0, 32⟩
def FSRM.PUB_WIN.WORD : Fld := ⟨0x1530b0, 8, 4⟩
def FSRM.PUB_WIN.SLOT : Fld := ⟨0x1530b0, 0, 6⟩
def FSRM.PUB_DATA.DATA : Fld := ⟨0x1530b4, 0, 32⟩
def FSRM.SLOT.SATTR.PARENT (i : Nat) : Fld := ⟨0x153400 + 16 * i, 24, 8⟩
def FSRM.SLOT.SATTR.TYPE (i : Nat) : Fld := ⟨0x153400 + 16 * i, 20, 4⟩
def FSRM.SLOT.SATTR.ENGINE (i : Nat) : Fld := ⟨0x153400 + 16 * i, 16, 3⟩
def FSRM.SLOT.SATTR.USAGE (i : Nat) : Fld := ⟨0x153400 + 16 * i, 8, 7⟩
def FSRM.SLOT.SATTR.STATE (i : Nat) : Fld := ⟨0x153400 + 16 * i, 0, 3⟩
def FSRM.SLOT.KEY_ID.KEY_ID (i : Nat) : Fld := ⟨0x153404 + 16 * i, 0, 32⟩
def FSRM.SLOT.SGEN.GEN (i : Nat) : Fld := ⟨0x153408 + 16 * i, 16, 16⟩
def FSRM.SLOT.SGEN.USES (i : Nat) : Fld := ⟨0x153408 + 16 * i, 0, 16⟩
def FSRM.SLOT.PGEN.PGEN (i : Nat) : Fld := ⟨0x15340c + 16 * i, 16, 16⟩
def FSRM.KW_STAT.BUSY : Fld := ⟨0x153070, 31, 1⟩
def FSRM.KW_STAT.RESULT : Fld := ⟨0x153070, 16, 8⟩
def FSRM.KW_STAT.SLOT : Fld := ⟨0x153070, 8, 4⟩
def FSRM.KW_NONCE.NONCE : Fld := ⟨0x153074, 0, 32⟩
def FSRM.KW_NONCE_HI.NONCE_HI : Fld := ⟨0x153078, 0, 32⟩
def FSRM.REVOKE.GO : Fld := ⟨0x15307c, 7, 1⟩
def FSRM.REVOKE.SLOT : Fld := ⟨0x15307c, 0, 4⟩
def FSRM.CNT.REFUSED : Fld := ⟨0x153088, 16, 16⟩
def FSRM.CNT.SIGNS : Fld := ⟨0x153088, 0, 16⟩
/-- Page VP: its key (spec/11_vehicle_ports.md). -/
def pgVP (n : Nat) : Nat := 0x160000 + 0x1000 * n
def VP.VCTL.UNLOCK_CH (n : Nat) : Fld := ⟨0x160040 + 0x1000 * n, 24, 8⟩
def VP.VCTL.LOCK_CH (n : Nat) : Fld := ⟨0x160040 + 0x1000 * n, 16, 8⟩
def VP.VCTL.FB_INV (n : Nat) : Fld := ⟨0x160040 + 0x1000 * n, 8, 1⟩
def VP.VCTL.OFF_LVL (n : Nat) : Fld := ⟨0x160040 + 0x1000 * n, 4, 1⟩
def VP.VCTL.AUTO_WAKE (n : Nat) : Fld := ⟨0x160040 + 0x1000 * n, 3, 1⟩
def VP.VCTL.PLCA (n : Nat) : Fld := ⟨0x160040 + 0x1000 * n, 2, 1⟩
def VP.VCTL.TYPE (n : Nat) : Fld := ⟨0x160040 + 0x1000 * n, 0, 2⟩
def VP.VSTAT.PLUG (n : Nat) : Fld := ⟨0x160044 + 0x1000 * n, 31, 1⟩
def VP.VSTAT.PLUG_FAULT (n : Nat) : Fld := ⟨0x160044 + 0x1000 * n, 30, 1⟩
def VP.VSTAT.LOCKED (n : Nat) : Fld := ⟨0x160044 + 0x1000 * n, 29, 1⟩
def VP.VSTAT.LOCK_FAULT (n : Nat) : Fld := ⟨0x160044 + 0x1000 * n, 28, 1⟩
def VP.VSTAT.IMD_OK (n : Nat) : Fld := ⟨0x160044 + 0x1000 * n, 27, 1⟩
def VP.VSTAT.ESTOP (n : Nat) : Fld := ⟨0x160044 + 0x1000 * n, 26, 1⟩
def VP.VSTAT.SITE_ESTOP (n : Nat) : Fld := ⟨0x160044 + 0x1000 * n, 25, 1⟩
def VP.VSTAT.LIVE (n : Nat) : Fld := ⟨0x160044 + 0x1000 * n, 24, 1⟩
def VP.VSTAT.DROP (n : Nat) : Fld := ⟨0x160044 + 0x1000 * n, 23, 1⟩
def VP.VSTAT.DROP_LATCH (n : Nat) : Fld := ⟨0x160044 + 0x1000 * n, 22, 1⟩
def VP.VSTAT.LINK (n : Nat) : Fld := ⟨0x160044 + 0x1000 * n, 21, 1⟩
def VP.VSTAT.DIODE_FAULT (n : Nat) : Fld := ⟨0x160044 + 0x1000 * n, 20, 1⟩
def VP.VSTAT.PILOT (n : Nat) : Fld := ⟨0x160044 + 0x1000 * n, 16, 3⟩
def VP.VSTAT.HOLD (n : Nat) : Fld := ⟨0x160044 + 0x1000 * n, 8, 8⟩
def VP.CP_CTL.CP_MODE (n : Nat) : Fld := ⟨0x160048 + 0x1000 * n, 16, 2⟩
def VP.CP_CTL.DUTY (n : Nat) : Fld := ⟨0x160048 + 0x1000 * n, 0, 10⟩
def VP.CP_MEAS.HIGH (n : Nat) : Fld := ⟨0x16004c + 0x1000 * n, 16, 16⟩
def VP.CP_MEAS.LOW (n : Nat) : Fld := ⟨0x16004c + 0x1000 * n, 0, 16⟩
def VP.TIMING.PLUG_IN_MS (n : Nat) : Fld := ⟨0x160050 + 0x1000 * n, 24, 8⟩
def VP.TIMING.PLUG_OUT_MS (n : Nat) : Fld := ⟨0x160050 + 0x1000 * n, 20, 4⟩
def VP.TIMING.CP_FILT_MS (n : Nat) : Fld := ⟨0x160050 + 0x1000 * n, 16, 4⟩
def VP.TIMING.IMD_MS (n : Nat) : Fld := ⟨0x160050 + 0x1000 * n, 8, 8⟩
def VP.TIMING.LOCK_TO (n : Nat) : Fld := ⟨0x160050 + 0x1000 * n, 0, 8⟩
def VP.LOCK.CMD (n : Nat) : Fld := ⟨0x160054 + 0x1000 * n, 31, 1⟩
def VP.LOCK.PULSE_MS (n : Nat) : Fld := ⟨0x160054 + 0x1000 * n, 0, 8⟩
def VP.DISCH.DISCH_MS (n : Nat) : Fld := ⟨0x160058 + 0x1000 * n, 0, 16⟩
def VP.PLUG_BAND.P_HI (n : Nat) : Fld := ⟨0x16005c + 0x1000 * n, 16, 16⟩
def VP.PLUG_BAND.P_LO (n : Nat) : Fld := ⟨0x16005c + 0x1000 * n, 0, 16⟩
def VP.ABS_BAND.A_HI (n : Nat) : Fld := ⟨0x160060 + 0x1000 * n, 16, 16⟩
def VP.ABS_BAND.A_LO (n : Nat) : Fld := ⟨0x160060 + 0x1000 * n, 0, 16⟩
def VP.PLUG_MEAS.MV (n : Nat) : Fld := ⟨0x160064 + 0x1000 * n, 0, 16⟩
def VP.MBAND_LO.TH1 (n : Nat) : Fld := ⟨0x160068 + 0x1000 * n, 16, 16⟩
def VP.MBAND_LO.TH0 (n : Nat) : Fld := ⟨0x160068 + 0x1000 * n, 0, 16⟩
def VP.MBAND_HI.TH3 (n : Nat) : Fld := ⟨0x16006c + 0x1000 * n, 16, 16⟩
def VP.MBAND_HI.TH2 (n : Nat) : Fld := ⟨0x16006c + 0x1000 * n, 0, 16⟩
def VP.MCS_CTL.DRV (n : Nat) : Fld := ⟨0x160070 + 0x1000 * n, 16, 16⟩
def VP.MCS_CTL.READY_MASK (n : Nat) : Fld := ⟨0x160070 + 0x1000 * n, 8, 5⟩
def VP.PERSON_CTL.BTN_MS (n : Nat) : Fld := ⟨0x160074 + 0x1000 * n, 24, 8⟩
def VP.PERSON_CTL.SCAN_MS (n : Nat) : Fld := ⟨0x160074 + 0x1000 * n, 16, 8⟩
def VP.PERSON_CTL.LONG_MS (n : Nat) : Fld := ⟨0x160074 + 0x1000 * n, 0, 16⟩
def VP.TOUCH_CTL.DRIFT (n : Nat) : Fld := ⟨0x160078 + 0x1000 * n, 24, 8⟩
def VP.TOUCH_CTL.TOUCH_MAX_S (n : Nat) : Fld := ⟨0x160078 + 0x1000 * n, 16, 8⟩
def VP.PERSON.WET (n : Nat) : Fld := ⟨0x16007c + 0x1000 * n, 16, 1⟩
def VP.PERSON.TOUCHED (n : Nat) : Fld := ⟨0x16007c + 0x1000 * n, 8, 4⟩
def VP.PERSON.LONG (n : Nat) : Fld := ⟨0x16007c + 0x1000 * n, 4, 2⟩
def VP.PERSON.BTN (n : Nat) : Fld := ⟨0x16007c + 0x1000 * n, 0, 2⟩
def VP.PLC_STAT.AWAKE (n : Nat) : Fld := ⟨0x160080 + 0x1000 * n, 31, 1⟩
def VP.PLC_STAT.JOINED (n : Nat) : Fld := ⟨0x160080 + 0x1000 * n, 30, 1⟩
def VP.PLC_STAT.SOUNDS (n : Nat) : Fld := ⟨0x160080 + 0x1000 * n, 16, 8⟩
def VP.PLC_STAT.ATTEN_AVG (n : Nat) : Fld := ⟨0x160080 + 0x1000 * n, 8, 8⟩
def VP.ATTEN.IDX (n : Nat) : Fld := ⟨0x160084 + 0x1000 * n, 16, 6⟩
def VP.ATTEN.DATA (n : Nat) : Fld := ⟨0x160084 + 0x1000 * n, 0, 8⟩
def VP.T1S_STAT.AWAKE (n : Nat) : Fld := ⟨0x160088 + 0x1000 * n, 31, 1⟩
def VP.T1S_STAT.LINK (n : Nat) : Fld := ⟨0x160088 + 0x1000 * n, 30, 1⟩
def VP.T1S_STAT.PLCA_ACT (n : Nat) : Fld := ⟨0x160088 + 0x1000 * n, 29, 1⟩
def VP.T1S_CTL.NODES (n : Nat) : Fld := ⟨0x16008c + 0x1000 * n, 24, 8⟩
def VP.T1S_CTL.SILENT_MS (n : Nat) : Fld := ⟨0x16008c + 0x1000 * n, 0, 16⟩
def VP.FRM_CNT.DISC (n : Nat) : Fld := ⟨0x160090 + 0x1000 * n, 16, 16⟩
def VP.FRM_CNT.TXDROP (n : Nat) : Fld := ⟨0x160090 + 0x1000 * n, 0, 16⟩
def VP.PLUG_TS.E (n : Nat) : Fld := ⟨0x160094 + 0x1000 * n, 0, 32⟩
def VP.PLUG_TS_HI.E_HI (n : Nat) : Fld := ⟨0x160098 + 0x1000 * n, 0, 32⟩
def VP.DROP_TS.E (n : Nat) : Fld := ⟨0x16009c + 0x1000 * n, 0, 32⟩
def VP.DROP_TS_HI.E_HI (n : Nat) : Fld := ⟨0x1600a0 + 0x1000 * n, 0, 32⟩
def VP.CAUSE.CAUSE (n : Nat) : Fld := ⟨0x1600a4 + 0x1000 * n, 0, 19⟩
def VP.ARM.WAKE (n : Nat) : Fld := ⟨0x1600a8 + 0x1000 * n, 4, 1⟩
def VP.ARM.SOUND_RST (n : Nat) : Fld := ⟨0x1600a8 + 0x1000 * n, 3, 1⟩
def VP.ARM.LOCK_CLR (n : Nat) : Fld := ⟨0x1600a8 + 0x1000 * n, 2, 1⟩
def VP.ARM.RECAL (n : Nat) : Fld := ⟨0x1600a8 + 0x1000 * n, 1, 1⟩
def VP.ARM.DROP_CLR (n : Nat) : Fld := ⟨0x1600a8 + 0x1000 * n, 0, 1⟩
def VP.TCH.TCFG.TH (n i : Nat) : Fld := ⟨0x160400 + 0x1000 * n + 16 * i, 16, 16⟩
def VP.TCH.TCFG.EN (n i : Nat) : Fld := ⟨0x160400 + 0x1000 * n + 16 * i, 0, 1⟩
def VP.TCH.TRAW.BASE (n i : Nat) : Fld := ⟨0x160404 + 0x1000 * n + 16 * i, 16, 16⟩
def VP.TCH.TRAW.RAW (n i : Nat) : Fld := ⟨0x160404 + 0x1000 * n + 16 * i, 0, 16⟩
def VP.TCH.TSTAT.TOUCHED (n i : Nat) : Fld := ⟨0x160408 + 0x1000 * n + 16 * i, 31, 1⟩
def VP.TCH.TSTAT.DELTA (n i : Nat) : Fld := ⟨0x160408 + 0x1000 * n + 16 * i, 0, 16⟩
/-- Page MESH: its key (spec/12_mains_mesh.md). -/
def pgMESH : Nat := 0x170000
def MESH.MCTL.NET_ID : Fld := ⟨0x170040, 24, 8⟩
def MESH.MCTL.RELAY : Fld := ⟨0x170040, 20, 1⟩
def MESH.MCTL.ZC_PH : Fld := ⟨0x170040, 16, 2⟩
def MESH.MCTL.NODE_ID : Fld := ⟨0x170040, 0, 6⟩
def MESH.SYNC.ZC_OFS : Fld := ⟨0x170044, 16, 16⟩
def MESH.SYNC.MAINS_HZ : Fld := ⟨0x170044, 2, 1⟩
def MESH.SYNC.FREE : Fld := ⟨0x170044, 1, 1⟩
def MESH.SYNC.LOCKED : Fld := ⟨0x170044, 0, 1⟩
def MESH.TXCTL.TX_ATT : Fld := ⟨0x170048, 24, 8⟩
def MESH.TXCTL.RETRY_MAX : Fld := ⟨0x170048, 20, 4⟩
def MESH.TXCTL.LIFE_MS : Fld := ⟨0x170048, 0, 12⟩
def MESH.ADAPT.DEG_CNT : Fld := ⟨0x17004c, 24, 8⟩
def MESH.ADAPT.UP_DB : Fld := ⟨0x17004c, 16, 8⟩
def MESH.ADAPT.DOWN_DB : Fld := ⟨0x17004c, 8, 8⟩
def MESH.ADAPT.ERASE_PCT : Fld := ⟨0x17004c, 0, 8⟩
def MESH.IMP.IMP_TH : Fld := ⟨0x170050, 0, 8⟩
def MESH.ROUTE.ADV_S : Fld := ⟨0x170054, 24, 8⟩
def MESH.ROUTE.HOLD_ADV : Fld := ⟨0x170054, 16, 8⟩
def MESH.ROUTE.MAX_HOPS : Fld := ⟨0x170054, 8, 8⟩
def MESH.KEY.SLOT : Fld := ⟨0x170058, 0, 8⟩
def MESH.STAT.LINE_FAULT : Fld := ⟨0x17005c, 31, 1⟩
def MESH.STAT.TX_BUSY : Fld := ⟨0x17005c, 30, 1⟩
def MESH.STAT.NBRS : Fld := ⟨0x17005c, 16, 8⟩
def MESH.STAT.ROUTES : Fld := ⟨0x17005c, 8, 8⟩
def MESH.CNT_RX.FRAMES : Fld := ⟨0x170060, 16, 16⟩
def MESH.CNT_RX.SEG_FAIL : Fld := ⟨0x170060, 0, 16⟩
def MESH.CNT_TX.FRAMES : Fld := ⟨0x170064, 16, 16⟩
def MESH.CNT_TX.RETX : Fld := ⟨0x170064, 0, 16⟩
def MESH.CNT_DROP.DROPS : Fld := ⟨0x170068, 16, 16⟩
def MESH.CNT_DROP.ERASED : Fld := ⟨0x170068, 0, 16⟩
def MESH.TM_WIN.NBR : Fld := ⟨0x17006c, 26, 6⟩
def MESH.TM_WIN.MAP : Fld := ⟨0x17006c, 23, 3⟩
def MESH.TM_WIN.WORD : Fld := ⟨0x17006c, 0, 7⟩
def MESH.TM_DATA.CODES : Fld := ⟨0x170070, 0, 30⟩
def MESH.RT_WIN.IDX : Fld := ⟨0x170074, 0, 8⟩
def MESH.RT_DATA.VALID : Fld := ⟨0x170078, 31, 1⟩
def MESH.RT_DATA.NEXT : Fld := ⟨0x170078, 24, 6⟩
def MESH.RT_DATA.HOPS : Fld := ⟨0x170078, 20, 4⟩
def MESH.RT_DATA.COST : Fld := ⟨0x170078, 0, 16⟩
def MESH.MASK.MASK (i : Nat) : Fld := ⟨0x170100 + 4 * i, 0, 32⟩
def MESH.NBR.NSTAT.PRESENT (i : Nat) : Fld := ⟨0x170400 + 16 * i, 31, 1⟩
def MESH.NBR.NSTAT.SLOTMAP (i : Nat) : Fld := ⟨0x170400 + 16 * i, 0, 18⟩
def MESH.NBR.NCOST.COST (i : Nat) : Fld := ⟨0x170404 + 16 * i, 16, 16⟩
def MESH.NBR.NCOST.MARGIN (i : Nat) : Fld := ⟨0x170404 + 16 * i, 8, 8⟩
def MESH.NBR.NCNT.SEG_OK (i : Nat) : Fld := ⟨0x170408 + 16 * i, 16, 16⟩
def MESH.NBR.NCNT.SEG_FAIL (i : Nat) : Fld := ⟨0x170408 + 16 * i, 0, 16⟩
def MESH.NBR.NMAP.MAPS_VALID (i : Nat) : Fld := ⟨0x17040c + 16 * i, 24, 8⟩
def MESH.NBR.NMAP.CHANGES (i : Nat) : Fld := ⟨0x17040c + 16 * i, 16, 8⟩
/-- Page LSW: its key (spec/15_load_switches.md). -/
def pgLSW : Nat := 0x178000
def LSW.RAIL.UV_TH : Fld := ⟨0x178040, 24, 8⟩
def LSW.RAIL.UV_REL : Fld := ⟨0x178040, 16, 8⟩
def LSW.RAIL.V_REF : Fld := ⟨0x178040, 8, 8⟩
def LSW.RAIL.TJ_HYS : Fld := ⟨0x178040, 0, 8⟩
def LSW.RMEAS.V_LS1 : Fld := ⟨0x178044, 16, 16⟩
def LSW.RMEAS.V_LS0 : Fld := ⟨0x178044, 0, 16⟩
def LSW.RSTAT.LINK1 : Fld := ⟨0x178048, 5, 1⟩
def LSW.RSTAT.LINK0 : Fld := ⟨0x178048, 4, 1⟩
def LSW.RSTAT.UV1 : Fld := ⟨0x178048, 3, 1⟩
def LSW.RSTAT.UV0 : Fld := ⟨0x178048, 2, 1⟩
def LSW.RSTAT.FRZ1 : Fld := ⟨0x178048, 1, 1⟩
def LSW.RSTAT.FRZ0 : Fld := ⟨0x178048, 0, 1⟩
def LSW.COIL.PULL_MS : Fld := ⟨0x17804c, 16, 16⟩
def LSW.COIL.HOLD_DUTY : Fld := ⟨0x17804c, 8, 8⟩
def LSW.OPEN.OPEN_MS : Fld := ⟨0x178050, 16, 16⟩
def LSW.OPEN.OPEN_MA : Fld := ⟨0x178050, 0, 16⟩
def LSW.OC.OC_US : Fld := ⟨0x178054, 0, 16⟩
def LSW.CAUSE_LO.CH : Fld := ⟨0x178058, 0, 32⟩
def LSW.CAUSE_HI.CH : Fld := ⟨0x17805c, 0, 16⟩
def LSW.ON_LO.CH : Fld := ⟨0x178060, 0, 32⟩
def LSW.ON_HI.CH : Fld := ⟨0x178064, 0, 16⟩
def LSW.DIE.LOSS1 : Fld := ⟨0x178068, 8, 8⟩
def LSW.DIE.LOSS0 : Fld := ⟨0x178068, 0, 8⟩
def LSW.ARM.THERM_CLR : Fld := ⟨0x17806c, 7, 1⟩
def LSW.ARM.REARM : Fld := ⟨0x17806c, 6, 1⟩
def LSW.ARM.CH : Fld := ⟨0x17806c, 0, 6⟩
def LSW.PROF.STG0.D0 (i : Nat) : Fld := ⟨0x178080 + 16 * i, 16, 16⟩
def LSW.PROF.STG0.L0 (i : Nat) : Fld := ⟨0x178080 + 16 * i, 0, 16⟩
def LSW.PROF.STG1.D1 (i : Nat) : Fld := ⟨0x178084 + 16 * i, 16, 16⟩
def LSW.PROF.STG1.L1 (i : Nat) : Fld := ⟨0x178084 + 16 * i, 0, 16⟩
def LSW.PROF.STG2.D2 (i : Nat) : Fld := ⟨0x178088 + 16 * i, 16, 16⟩
def LSW.PROF.STG2.L2 (i : Nat) : Fld := ⟨0x178088 + 16 * i, 0, 16⟩
def LSW.PROF.PCTL.SLEW (i : Nat) : Fld := ⟨0x17808c + 16 * i, 0, 16⟩
def LSW.CH.CFG.PAR (i : Nat) : Fld := ⟨0x178400 + 32 * i, 31, 1⟩
def LSW.CH.CFG.TLATCH (i : Nat) : Fld := ⟨0x178400 + 32 * i, 30, 1⟩
def LSW.CH.CFG.ECON (i : Nat) : Fld := ⟨0x178400 + 32 * i, 29, 1⟩
def LSW.CH.CFG.COMP (i : Nat) : Fld := ⟨0x178400 + 32 * i, 28, 1⟩
def LSW.CH.CFG.LOAD (i : Nat) : Fld := ⟨0x178400 + 32 * i, 21, 3⟩
def LSW.CH.CFG.MODE (i : Nat) : Fld := ⟨0x178400 + 32 * i, 19, 1⟩
def LSW.CH.CFG.PROFILE (i : Nat) : Fld := ⟨0x178400 + 32 * i, 16, 3⟩
def LSW.CH.CFG.TJ_LIM (i : Nat) : Fld := ⟨0x178400 + 32 * i, 8, 8⟩
def LSW.CH.CFG.I_OC (i : Nat) : Fld := ⟨0x178400 + 32 * i, 0, 8⟩
def LSW.CH.OUT.ON (i : Nat) : Fld := ⟨0x178404 + 32 * i, 31, 1⟩
def LSW.CH.OUT.FREQ (i : Nat) : Fld := ⟨0x178404 + 32 * i, 16, 15⟩
def LSW.CH.OUT.DUTY (i : Nat) : Fld := ⟨0x178404 + 32 * i, 0, 10⟩
def LSW.CH.RETRY.N_RETRY (i : Nat) : Fld := ⟨0x178408 + 32 * i, 16, 5⟩
def LSW.CH.RETRY.SPACE_MS (i : Nat) : Fld := ⟨0x178408 + 32 * i, 8, 8⟩
def LSW.CH.RETRY.BURST_MS (i : Nat) : Fld := ⟨0x178408 + 32 * i, 0, 8⟩
def LSW.CH.BURST.RST_MS (i : Nat) : Fld := ⟨0x17840c + 32 * i, 16, 16⟩
def LSW.CH.BURST.BURST_L (i : Nat) : Fld := ⟨0x17840c + 32 * i, 0, 16⟩
def LSW.CH.STAT.OUT_ON (i : Nat) : Fld := ⟨0x178410 + 32 * i, 31, 1⟩
def LSW.CH.STAT.INRUSH (i : Nat) : Fld := ⟨0x178410 + 32 * i, 30, 1⟩
def LSW.CH.STAT.LIMITING (i : Nat) : Fld := ⟨0x178410 + 32 * i, 29, 1⟩
def LSW.CH.STAT.THERM_LATCH (i : Nat) : Fld := ⟨0x178410 + 32 * i, 28, 1⟩
def LSW.CH.STAT.EXHAUSTED (i : Nat) : Fld := ⟨0x178410 + 32 * i, 27, 1⟩
def LSW.CH.STAT.HOLDING (i : Nat) : Fld := ⟨0x178410 + 32 * i, 26, 1⟩
def LSW.CH.STAT.FROZEN (i : Nat) : Fld := ⟨0x178410 + 32 * i, 25, 1⟩
def LSW.CH.STAT.OPEN (i : Nat) : Fld := ⟨0x178410 + 32 * i, 24, 1⟩
def LSW.CH.STAT.OWNER (i : Nat) : Fld := ⟨0x178410 + 32 * i, 21, 3⟩
def LSW.CH.STAT.RETRY (i : Nat) : Fld := ⟨0x178410 + 32 * i, 16, 5⟩
def LSW.CH.STAT.DUTY_EFF (i : Nat) : Fld := ⟨0x178410 + 32 * i, 0, 10⟩
def LSW.CH.MEAS.TJ (i : Nat) : Fld := ⟨0x178414 + 32 * i, 16, 16⟩
def LSW.CH.MEAS.I (i : Nat) : Fld := ⟨0x178414 + 32 * i, 0, 16⟩
def LSW.CH.CAUSE.CAUSE (i : Nat) : Fld := ⟨0x178418 + 32 * i, 0, 8⟩
def LSW.CH.CNT.TRIPS (i : Nat) : Fld := ⟨0x17841c + 32 * i, 16, 16⟩
def LSW.CH.CNT.LATCHES (i : Nat) : Fld := ⟨0x17841c + 32 * i, 0, 16⟩
/-- Page THM: its key (spec/16_thermal_assay.md). -/
def pgTHM : Nat := 0x17c000
def THM.HCTL.ROUND_MS : Fld := ⟨0x17c040, 0, 16⟩
def THM.RISE.RISE_WIN : Fld := ⟨0x17c044, 24, 8⟩
def THM.RISE.DER_PCT : Fld := ⟨0x17c044, 16, 8⟩
def THM.RISE.REL_S : Fld := ⟨0x17c044, 0, 16⟩
def THM.ASSAY.SUSP_RND : Fld := ⟨0x17c048, 24, 8⟩
def THM.ASSAY.CLR_RND : Fld := ⟨0x17c048, 16, 8⟩
def THM.HSTAT.REF_FAIL : Fld := ⟨0x17c04c, 31, 1⟩
def THM.HSTAT.REF_PPM : Fld := ⟨0x17c04c, 0, 16⟩
def THM.ROUND_NUM.ROUND : Fld := ⟨0x17c050, 0, 32⟩
def THM.FAULT_LO.CH : Fld := ⟨0x17c054, 0, 32⟩
def THM.FAULT_HI.CH : Fld := ⟨0x17c058, 0, 32⟩
def THM.SUSP_LO.CH : Fld := ⟨0x17c05c, 0, 32⟩
def THM.SUSP_HI.CH : Fld := ⟨0x17c060, 0, 32⟩
def THM.GDER.GCH.CH0 (i : Nat) : Fld := ⟨0x17c080 + 16 * i, 0, 8⟩
def THM.GDER.GCH.CH1 (i : Nat) : Fld := ⟨0x17c080 + 16 * i, 8, 8⟩
def THM.GDER.GCH.CH2 (i : Nat) : Fld := ⟨0x17c080 + 16 * i, 16, 8⟩
def THM.GDER.GCH.CH3 (i : Nat) : Fld := ⟨0x17c080 + 16 * i, 24, 8⟩
def THM.GDER.GTHR.T_MAX (i : Nat) : Fld := ⟨0x17c084 + 16 * i, 16, 16⟩
def THM.GDER.GTHR.T_DER (i : Nat) : Fld := ⟨0x17c084 + 16 * i, 0, 16⟩
def THM.GDER.GMIN.DERATE (i : Nat) : Fld := ⟨0x17c088 + 16 * i, 16, 9⟩
def THM.GDER.GMIN.DER_MIN (i : Nat) : Fld := ⟨0x17c088 + 16 * i, 0, 9⟩
def THM.GDER.GTEMP.CAP (i : Nat) : Fld := ⟨0x17c08c + 16 * i, 16, 16⟩
def THM.GDER.GTEMP.T (i : Nat) : Fld := ⟨0x17c08c + 16 * i, 0, 16⟩
def THM.PDER.ACTIVE (i : Nat) : Fld := ⟨0x17c0c0 + 4 * i, 31, 1⟩
def THM.PDER.D (i : Nat) : Fld := ⟨0x17c0c0 + 4 * i, 0, 16⟩
def THM.NBH.MASK_LO.MASK (i : Nat) : Fld := ⟨0x17c100 + 16 * i, 0, 32⟩
def THM.NBH.MASK_HI.MASK (i : Nat) : Fld := ⟨0x17c104 + 16 * i, 0, 32⟩
def THM.NBH.NCFG.TOL (i : Nat) : Fld := ⟨0x17c108 + 16 * i, 16, 16⟩
def THM.NBH.NCFG.SUBST (i : Nat) : Fld := ⟨0x17c108 + 16 * i, 0, 1⟩
def THM.NBH.NSTAT.MEDIAN (i : Nat) : Fld := ⟨0x17c10c + 16 * i, 16, 16⟩
def THM.NBH.NSTAT.THIN (i : Nat) : Fld := ⟨0x17c10c + 16 * i, 15, 1⟩
def THM.NBH.NSTAT.POOL (i : Nat) : Fld := ⟨0x17c10c + 16 * i, 0, 7⟩
def THM.CHN.CCFG.BIND (i : Nat) : Fld := ⟨0x17c400 + 32 * i, 30, 2⟩
def THM.CHN.CCFG.BIND_IDX (i : Nat) : Fld := ⟨0x17c400 + 32 * i, 28, 2⟩
def THM.CHN.CCFG.RISE_EN (i : Nat) : Fld := ⟨0x17c400 + 32 * i, 27, 1⟩
def THM.CHN.CCFG.TYPE (i : Nat) : Fld := ⟨0x17c400 + 32 * i, 0, 3⟩
def THM.CHN.NTC.BETA (i : Nat) : Fld := ⟨0x17c404 + 32 * i, 16, 16⟩
def THM.CHN.NTC.R25 (i : Nat) : Fld := ⟨0x17c404 + 32 * i, 0, 16⟩
def THM.CHN.VSCALE.GAIN (i : Nat) : Fld := ⟨0x17c408 + 32 * i, 16, 16⟩
def THM.CHN.VSCALE.OFS (i : Nat) : Fld := ⟨0x17c408 + 32 * i, 0, 16⟩
def THM.CHN.LIMS.T_HI (i : Nat) : Fld := ⟨0x17c40c + 32 * i, 16, 16⟩
def THM.CHN.LIMS.T_LO (i : Nat) : Fld := ⟨0x17c40c + 32 * i, 0, 16⟩
def THM.CHN.ACFG.OFS (i : Nat) : Fld := ⟨0x17c410 + 32 * i, 16, 16⟩
def THM.CHN.ACFG.RISE_LIM (i : Nat) : Fld := ⟨0x17c410 + 32 * i, 0, 16⟩
def THM.CHN.CVAL.RAW (i : Nat) : Fld := ⟨0x17c414 + 32 * i, 16, 16⟩
def THM.CHN.CVAL.VAL (i : Nat) : Fld := ⟨0x17c414 + 32 * i, 0, 16⟩
def THM.CHN.CSTAT.VALID (i : Nat) : Fld := ⟨0x17c418 + 32 * i, 31, 1⟩
def THM.CHN.CSTAT.SUBST (i : Nat) : Fld := ⟨0x17c418 + 32 * i, 30, 1⟩
def THM.CHN.CSTAT.SUSPECT (i : Nat) : Fld := ⟨0x17c418 + 32 * i, 29, 1⟩
def THM.CHN.CSTAT.OPEN (i : Nat) : Fld := ⟨0x17c418 + 32 * i, 28, 1⟩
def THM.CHN.CSTAT.SHORT (i : Nat) : Fld := ⟨0x17c418 + 32 * i, 27, 1⟩
def THM.CHN.CSTAT.RANGE (i : Nat) : Fld := ⟨0x17c418 + 32 * i, 26, 1⟩
def THM.CHN.CSTAT.BREACH (i : Nat) : Fld := ⟨0x17c418 + 32 * i, 25, 1⟩
def THM.CHN.CSTAT.NBH (i : Nat) : Fld := ⟨0x17c418 + 32 * i, 16, 5⟩
def THM.CHN.CSTAT.RATE (i : Nat) : Fld := ⟨0x17c418 + 32 * i, 0, 16⟩
/-- Page FTIME: its key (spec/09_time.md). -/
def pgFTIME : Nat := 0x1a0000
def FTIME.FCTL.FDOM : Fld := ⟨0x1a0040, 16, 1⟩
def FTIME.FCTL.SW_TOL_NS : Fld := ⟨0x1a0040, 0, 16⟩
def FTIME.FSTAT.A_LOCK : Fld := ⟨0x1a0044, 31, 1⟩
def FTIME.FSTAT.B_LOCK : Fld := ⟨0x1a0044, 30, 1⟩
def FTIME.FSTAT.HOLD : Fld := ⟨0x1a0044, 29, 1⟩
def FTIME.FSTAT.AGREE : Fld := ⟨0x1a0044, 28, 1⟩
def FTIME.FSTAT.A_SET : Fld := ⟨0x1a0044, 27, 1⟩
def FTIME.FSTAT.B_SET : Fld := ⟨0x1a0044, 26, 1⟩
def FTIME.FSTAT.SYNC_MISS : Fld := ⟨0x1a0044, 0, 16⟩
def FTIME.FA_NOW.E : Fld := ⟨0x1a0048, 0, 32⟩
def FTIME.FA_NOW_HI.E_HI : Fld := ⟨0x1a004c, 0, 32⟩
def FTIME.FB_NOW.E : Fld := ⟨0x1a0050, 0, 32⟩
def FTIME.FB_NOW_HI.E_HI : Fld := ⟨0x1a0054, 0, 32⟩
def FTIME.FOFS.OFS_B : Fld := ⟨0x1a0058, 16, 16⟩
def FTIME.FOFS.OFS_A : Fld := ⟨0x1a0058, 0, 16⟩
def FTIME.RTC_SEC.SEC : Fld := ⟨0x1a005c, 0, 32⟩
def FTIME.RTC_SUB.SUB : Fld := ⟨0x1a0060, 0, 15⟩
def FTIME.RTC_STAT.TRIMMED : Fld := ⟨0x1a0064, 31, 1⟩
def FTIME.RTC_STAT.VBAT_RUN : Fld := ⟨0x1a0064, 30, 1⟩
def FTIME.RTC_STAT.RTC_SET : Fld := ⟨0x1a0064, 29, 1⟩
def FTIME.FCAP.CCFG.EVT (i : Nat) : Fld := ⟨0x1a0080 + 16 * i, 8, 8⟩
def FTIME.FCAP.CCFG.SRC (i : Nat) : Fld := ⟨0x1a0080 + 16 * i, 0, 3⟩
def FTIME.FCAP.CTA.NS (i : Nat) : Fld := ⟨0x1a0084 + 16 * i, 0, 32⟩
def FTIME.FCAP.CTB.NS (i : Nat) : Fld := ⟨0x1a0088 + 16 * i, 0, 32⟩
def FTIME.FCAP.CINFO.VALID (i : Nat) : Fld := ⟨0x1a008c + 16 * i, 31, 1⟩
def FTIME.FCAP.CINFO.DEPTH (i : Nat) : Fld := ⟨0x1a008c + 16 * i, 28, 3⟩
def FTIME.FCAP.CINFO.OVF (i : Nat) : Fld := ⟨0x1a008c + 16 * i, 16, 8⟩
def FTIME.FCAP.CINFO.WRAP_B (i : Nat) : Fld := ⟨0x1a008c + 16 * i, 8, 8⟩
def FTIME.FCAP.CINFO.WRAP_A (i : Nat) : Fld := ⟨0x1a008c + 16 * i, 0, 8⟩

end Sys2Proof.Machine
end

