-- ==== Sys2Proof/Machine/RegForm.lean ====
section
/-!
DEFINITION. The form of the register tables: what an access type is, which values a field takes, and how a row says
where its registers lie and what they hold after reset.
-/

namespace Sys2Proof.Machine

/-- The access types of R8. -/
inductive Acc where
  | rw | ro | wo | w1c | rws | rwl | rwx | rwc
deriving DecidableEq, Repr

/-- The encodings a field takes; any other written value is a reserved encoding and leaves the field as it was (R6).
`mask` keeps only the bits the field implements. -/
inductive Chk where
  | any
  | range (lo hi : Nat)
  | srange (lo hi : Int)
  | rangeOr (hi x : Nat)
  | mask (m : Nat)
deriving DecidableEq, Repr

/-- One field of a register: lowest bit, width, access type and encodings. -/
structure FieldRow where
  lo : Nat
  w : Nat
  acc : Acc
  chk : Chk
deriving DecidableEq, Repr

/-- One row of a register table: registers at `off + st*i + st2*k` for `i < cnt`, `k < cnt2`; the word after
power-on reset; the bits kept in MRAM or fuses; whether it is the low word of a 64-bit pair (R24); its fields. -/
structure RegRow where
  off : Nat
  st : Nat
  cnt : Nat
  st2 : Nat
  cnt2 : Nat
  rst : Nat
  nv : Nat
  pair : Bool
  fields : List FieldRow
deriving DecidableEq, Repr

/-- One line of a page map (R36, R37): side 0 host, 1 field; first page index and number of instances; events per
instance and the first event number; whether EN always reads 1 (R27); whether the page is sealable (R34). -/
structure PageRow where
  side : Nat
  base : Nat
  n : Nat
  events : Nat
  first : Nat
  alwaysOn : Bool
  sealable : Bool
  stride : Nat
  count : Nat
  rows : List RegRow
deriving DecidableEq, Repr

namespace RegForm

/-- A field. -/
def fd (lo w : Nat) (a : Acc) (c : Chk) : FieldRow := ⟨lo, w, a, c⟩

/-- A row. -/
def rw (off st cnt st2 cnt2 rst nv : Nat) (pair : Bool) (fs : List FieldRow) : RegRow :=
  ⟨off, st, cnt, st2, cnt2, rst, nv, pair, fs⟩

end RegForm

end Sys2Proof.Machine
end

