-- ==== Sys2Proof/Machine/RegTabField.lean ====
section
/-! DEFINITION. The register tables of the field pages, field by field as spec/ gives them. -/

namespace Sys2Proof.Machine

open RegForm

/-- Registers of page FSYS (spec/22_power_reset_boot.md, R507). -/
def regTabFSYS : List RegRow :=
  [
    rw 0x40 0 1 0 1 0x0 0x0 false [fd 16 1 .ro .any, fd 15 1 .ro .any, fd 14 1 .ro .any, fd 13 1 .ro .any, fd 12 1 .ro .any, fd 10 2 .ro .any, fd 8 2 .ro .any, fd 6 2 .ro .any, fd 4 2 .ro .any, fd 2 2 .ro .any],
    rw 0x48 0 1 0 1 0x1 0x0 false [fd 0 8 .ro .any],
    rw 0x4c 0 1 0 1 0x0 0x0 false [fd 31 1 .ro .any, fd 30 1 .ro .any, fd 29 1 .ro .any, fd 28 1 .ro .any, fd 27 1 .ro .any, fd 26 1 .ro .any],
    rw 0x50 0 1 0 1 0x3e8 0x0 false [fd 31 1 .ro .any, fd 0 16 .rwl (.range 10 10000)],
    rw 0x54 0 1 0 1 0x0 0x0 false [fd 0 32 .wo .any],
    rw 0x58 0 1 0 1 0x0 0x0 false [fd 0 32 .wo .any],
    rw 0x5c 0 1 0 1 0x0 0xffffffff false [fd 0 32 .ro .any],
    rw 0x60 0 1 0 1 0x0 0x0 false [fd 31 1 .wo .any, fd 30 1 .wo .any, fd 29 1 .ro .any, fd 28 1 .ro .any],
    rw 0x64 0 1 0 1 0x0 0x0 false [fd 0 23 .rw (.mask 8388352)],
    rw 0x400 4 64 0 1 0x0 0x0 false [fd 0 32 .rw .any]]

/-- Registers of page FPMU (spec/22_power_reset_boot.md, R505). -/
def regTabFPMU : List RegRow :=
  [
    rw 0x40 0 1 0 1 0x640aaa 0x0 false [fd 16 10 .rwl (.range 10 1000), fd 8 8 .rwl (.range 1 100), fd 0 8 .rwl (.range 150 179)],
    rw 0x44 0 1 0 1 0x0 0x0 false [fd 31 1 .ro .any, fd 30 1 .ro .any, fd 29 1 .ro .any, fd 28 1 .ro .any, fd 0 16 .ro .any],
    rw 0x48 0 1 0 1 0x0 0x0 false [fd 16 16 .ro .any, fd 0 16 .ro .any],
    rw 0x4c 0 1 0 1 0x0 0x0 false [fd 31 1 .ro .any, fd 30 1 .ro .any, fd 0 16 .ro .any],
    rw 0x50 0 1 0 1 0x96 0x0 false [fd 0 16 .rw .any],
    rw 0x54 0 1 0 1 0x0 0x0 false [fd 0 4 .ro .any]]

/-- Registers of page FEVC (spec/21_events_and_monitors.md, R481). -/
def regTabFEVC : List RegRow :=
  [
    rw 0x100 16 2 0 1 0x10 0x0 false [fd 0 5 .rw (.range 0 16)],
    rw 0x104 16 2 0 1 0x0 0x0 false [fd 31 1 .ro .any, fd 8 4 .ro .any, fd 0 8 .ro .any],
    rw 0x108 16 2 0 1 0x0 0x0 false [fd 0 8 .wo .any],
    rw 0x10c 16 2 0 1 0x10 0x0 false [fd 16 5 .ro .any, fd 0 5 .ro .any],
    rw 0x400 4 128 0 1 0x8 0x0 false [fd 31 1 .rw .any, fd 24 4 .rw .any, fd 16 1 .rw .any, fd 9 1 .ro .any, fd 8 1 .ro .any, fd 0 4 .ro .any]]

/-- Registers of page FMON (spec/21_events_and_monitors.md, R482). -/
def regTabFMON : List RegRow :=
  [
    rw 0x40 0 1 0 1 0x0 0x0 false [fd 31 1 .wo .any, fd 30 1 .wo .any, fd 0 16 .wo .any],
    rw 0x44 0 1 0 1 0x0 0x0 false [fd 0 16 .w1c .any],
    rw 0x48 0 1 0 1 0x0 0x0 true [fd 0 32 .ro .any],
    rw 0x4c 0 1 0 1 0x0 0x0 false [fd 0 32 .ro .any],
    rw 0x400 192 16 0 1 0x0 0x0 false [fd 31 1 .rw .any, fd 30 1 .rw .any, fd 29 1 .rw .any, fd 20 4 .rw (.range 0 3), fd 8 8 .rw .any, fd 0 8 .rw .any],
    rw 0x404 192 16 0 1 0x0 0x0 false [fd 0 32 .rw .any],
    rw 0x408 192 16 0 1 0x1 0x0 false [fd 0 32 .rw (.range 1 16777215)],
    rw 0x40c 192 16 0 1 0x7fffffff 0x0 false [fd 0 32 .rw .any],
    rw 0x410 192 16 0 1 0x0 0x0 true [fd 0 32 .ro .any],
    rw 0x414 192 16 0 1 0x0 0x0 false [fd 0 32 .ro .any],
    rw 0x418 192 16 0 1 0x0 0x0 true [fd 0 32 .ro .any],
    rw 0x41c 192 16 0 1 0x0 0x0 false [fd 0 32 .ro .any]] ++
  [
    rw 0x420 192 16 0 1 0x7fffffff 0x0 false [fd 0 32 .ro .any],
    rw 0x424 192 16 0 1 0x80000000 0x0 false [fd 0 32 .ro .any],
    rw 0x428 192 16 0 1 0x0 0x0 true [fd 0 32 .ro .any],
    rw 0x42c 192 16 0 1 0x0 0x0 false [fd 0 32 .ro .any],
    rw 0x430 192 16 0 1 0x0 0x0 false [fd 16 16 .ro .any, fd 0 16 .ro .any],
    rw 0x440 192 16 4 32 0x0 0x0 false [fd 0 32 .ro .any]]

/-- Registers of page FBAR (spec/19_barrier.md, R443). -/
def regTabFBAR : List RegRow :=
  [
    rw 0x40 0 1 0 1 0x64 0x0 false [fd 0 10 .rwl (.range 10 1000)],
    rw 0x44 0 1 0 1 0x0 0x0 false [fd 31 1 .ro .any, fd 30 1 .ro .any, fd 0 8 .ro .any],
    rw 0x48 0 1 0 1 0x0 0x0 false [fd 16 16 .ro .any, fd 0 16 .ro .any],
    rw 0x4c 0 1 0 1 0x0 0x0 false [fd 24 8 .ro .any, fd 16 8 .ro .any, fd 8 8 .ro .any],
    rw 0x50 0 1 0 1 0x0 0x0 false [fd 16 16 .ro .any, fd 8 8 .ro .any, fd 0 8 .ro .any],
    rw 0x80 0 1 0 1 0x0 0x0 false [fd 0 1 .wo .any],
    rw 0x84 0 1 0 1 0x0 0x0 false [fd 31 1 .ro .any, fd 0 9 .ro .any],
    rw 0x100 4 64 0 1 0x0 0x0 false [fd 0 32 .rw .any],
    rw 0x400 4 32 0 1 0x0 0x0 false [fd 0 4 .rwl .any, fd 4 4 .rwl .any, fd 8 4 .rwl .any, fd 12 4 .rwl .any, fd 16 4 .rwl .any, fd 20 4 .rwl .any, fd 24 4 .rwl .any, fd 28 4 .rwl .any]]

/-- Registers of page MOD (spec/06_phase_modulators.md, R141). -/
def regTabMOD : List RegRow :=
  [
    rw 0x40 0 1 0 1 0x4148 0x0 false [fd 12 4 .rwl (.range 2 15), fd 8 1 .rwl .any, fd 7 1 .rwl .any, fd 4 3 .rwl (.range 0 4), fd 3 1 .rwl .any],
    rw 0x44 0 1 0 1 0x1f40 0x0 false [fd 16 6 .rwl .any, fd 0 16 .rwl (.range 3200 40000)],
    rw 0x48 0 1 0 1 0x607800a0 0x0 false [fd 24 8 .rwl (.range 16 255), fd 16 8 .rwl (.range 16 255), fd 0 12 .rwl (.range 80 4000)],
    rw 0x4c 0 1 0 1 0xa000a0 0x0 false [fd 26 6 .rwl .any, fd 16 10 .rwl (.range 16 1023), fd 10 6 .rwl .any, fd 0 10 .rwl (.range 16 1023)],
    rw 0x50 0 1 0 1 0xe66 0x0 false [fd 0 12 .rwl (.range 410 4014)],
    rw 0x54 0 1 0 1 0xa 0x0 false [fd 16 16 .rwl .any, fd 0 16 .rwl .any],
    rw 0x58 0 1 0 1 0x0 0x0 false [fd 16 16 .rwl .any, fd 0 16 .rwl .any],
    rw 0x5c 0 1 0 1 0x0 0x0 false [fd 16 16 .rwl .any, fd 0 16 .rwl .any],
    rw 0x60 0 1 0 1 0x8040114 0x0 false [fd 24 8 .rwl (.range 1 64), fd 16 8 .rwl (.range 1 64), fd 8 8 .rwl (.range 1 255), fd 0 8 .rwl (.range 5 100)],
    rw 0x64 0 1 0 1 0x0 0x0 false [fd 0 16 .rwl .any],
    rw 0x68 0 1 0 1 0x10200032 0x0 false [fd 24 8 .rwl (.range 1 255), fd 16 8 .rwl .any, fd 0 16 .rwl .any],
    rw 0x6c 0 1 0 1 0x1900a32 0x0 false [fd 16 16 .rwl .any, fd 8 8 .rwl (.range 2 50), fd 0 8 .rwl (.range 1 255)]] ++
  [
    rw 0x70 0 1 0 1 0xa50 0x0 false [fd 8 8 .rwl (.range 1 255), fd 0 8 .rwl (.range 8 255)],
    rw 0x74 0 1 0 1 0xff 0x0 false [fd 0 8 .rwl .any],
    rw 0x78 0 1 0 1 0x0 0x0 false [fd 8 1 .wo .any, fd 0 8 .wo .any],
    rw 0x7c 0 1 0 1 0xa 0x0 false [fd 24 8 .ro .any, fd 0 8 .rwl (.range 1 100)],
    rw 0x80 0 1 0 1 0x0 0x0 false [fd 31 1 .ro .any, fd 30 1 .ro .any, fd 29 1 .ro .any, fd 28 1 .ro .any, fd 27 1 .ro .any, fd 26 1 .ro .any, fd 25 1 .ro .any, fd 24 1 .ro .any, fd 16 8 .ro .any, fd 8 8 .ro .any, fd 4 4 .ro .any],
    rw 0x84 0 1 0 1 0x0 0x0 false [fd 16 16 .ro .any, fd 0 16 .ro .any],
    rw 0x88 0 1 0 1 0x0 0x0 false [fd 16 16 .ro .any, fd 0 16 .ro .any],
    rw 0x8c 0 1 0 1 0x0 0x0 false [fd 16 16 .ro .any, fd 0 16 .ro .any],
    rw 0x90 0 1 0 1 0x0 0x0 false [fd 16 16 .ro .any, fd 0 16 .ro .any],
    rw 0x94 0 1 0 1 0x0 0x0 false [fd 0 32 .ro .any],
    rw 0x400 32 8 0 1 0x0 0x0 false [fd 0 16 .rwl .any],
    rw 0x404 32 8 0 1 0x0 0x0 false [fd 31 1 .ro .any, fd 30 1 .ro .any, fd 29 1 .ro .any, fd 28 1 .ro .any, fd 27 1 .ro .any, fd 26 1 .ro .any, fd 0 16 .ro .any]] ++
  [
    rw 0x408 32 8 0 1 0x0 0x0 false [fd 16 16 .ro .any, fd 0 16 .ro .any],
    rw 0x40c 32 8 0 1 0x0 0x0 false [fd 16 16 .ro .any, fd 0 16 .ro .any],
    rw 0x410 32 8 0 1 0x0 0x0 false [fd 16 16 .ro .any, fd 0 16 .ro .any]]

/-- Registers of page CE (spec/07_control_engine.md, R167). -/
def regTabCE : List RegRow :=
  [
    rw 0x40 0 1 0 1 0x1f400014 0x0 false [fd 20 12 .rwl (.range 1 4000), fd 16 4 .rwl (.range 0 7), fd 0 8 .rwl (.range 10 100)],
    rw 0x44 0 1 0 1 0x10 0x0 false [fd 16 16 .rwl .any, fd 0 16 .rwl (.range 1 4096)],
    rw 0x48 0 1 0 1 0x20a31f4 0x0 false [fd 24 8 .rwl (.range 1 20), fd 16 8 .rwl (.range 5 50), fd 12 4 .rwl (.range 0 7), fd 0 12 .rwl (.range 100 4000)],
    rw 0x4c 0 1 0 1 0x800fa 0x0 false [fd 16 8 .rwl (.range 2 64), fd 0 10 .rwl (.range 50 1000)],
    rw 0x50 0 1 0 1 0x0 0x0 false [fd 0 16 .rwl .any],
    rw 0x54 0 1 0 1 0x0 0x0 false [fd 16 16 .ro .any, fd 0 16 .ro .any],
    rw 0x58 0 1 0 1 0x0 0x0 false [fd 16 16 .ro .any, fd 0 10 .ro .any],
    rw 0x60 4 16 0 1 0xc80064 0x0 false [fd 16 16 .rwl (.range 1 10000), fd 0 16 .rwl (.range 1 30000)],
    rw 0xa0 16 4 0 1 0x258 0x0 false [fd 0 16 .rwl .any],
    rw 0xa4 16 4 0 1 0xffffffff 0x0 false [fd 0 8 .rwl .any, fd 8 8 .rwl .any, fd 16 8 .rwl .any, fd 24 8 .rwl .any],
    rw 0xa8 16 4 0 1 0x6414ffff 0x0 false [fd 24 8 .rwl .any, fd 16 8 .rwl .any, fd 8 8 .rwl (.rangeOr 47 255), fd 0 8 .rwl (.rangeOr 47 255)],
    rw 0xac 16 4 0 1 0x3840320 0x0 false [fd 16 16 .rwl .any, fd 0 16 .rwl .any]] ++
  [
    rw 0xe0 0 1 0 1 0x40000 0x0 false [fd 28 4 .rw .any, fd 16 8 .rw (.range 2 32), fd 0 16 .rw .any],
    rw 0xe4 0 1 0 1 0x0 0x0 false [fd 16 16 .rw .any, fd 0 16 .rw .any],
    rw 0xe8 0 1 0 1 0x0 0x0 false [fd 1 1 .wo .any, fd 0 1 .wo .any],
    rw 0xec 0 1 0 1 0x0 0x0 false [fd 30 2 .ro .any, fd 28 2 .ro .any],
    rw 0xf0 0 1 0 1 0x0 0x0 false [fd 16 16 .ro .any, fd 0 16 .ro .any],
    rw 0xf4 0 1 0 1 0x0 0x0 false [fd 16 16 .ro .any, fd 0 16 .ro .any],
    rw 0xf8 0 1 0 1 0x0 0x0 false [fd 0 32 .ro .any],
    rw 0x100 4 4 0 1 0x0 0x0 false [fd 18 1 .ro .any, fd 17 1 .ro .any, fd 16 1 .ro .any, fd 0 16 .ro .any],
    rw 0x400 64 16 0 1 0xa0000 0x0 false [fd 15 17 .rwl (.range 10 100000), fd 8 4 .rwl (.range 0 7), fd 4 2 .rwl (.range 0 1), fd 0 3 .rwl .any],
    rw 0x404 64 16 0 1 0xfff0000 0x0 false [fd 16 16 .rwl .any, fd 0 16 .rwl .any],
    rw 0x408 64 16 0 1 0xff000000 0x0 false [fd 24 8 .rwl (.rangeOr 47 255), fd 16 8 .rwl (.range 0 63), fd 0 16 .rwl .any],
    rw 0x40c 64 16 0 1 0x3e80000 0x0 false [fd 16 16 .rwl (.range 1 60000)]] ++
  [
    rw 0x410 64 16 0 1 0x0 0x0 false [fd 29 3 .ro .any, fd 28 1 .ro .any, fd 27 1 .ro .any, fd 26 1 .ro .any, fd 24 2 .ro .any, fd 20 4 .ro .any, fd 16 4 .ro .any],
    rw 0x414 64 16 0 1 0x0 0x0 false [fd 16 16 .ro .any, fd 0 16 .ro .any],
    rw 0x418 64 16 0 1 0x0 0x0 false [fd 0 32 .ro .any],
    rw 0x41c 64 16 0 1 0x0 0x0 false [fd 16 16 .ro .any, fd 0 16 .ro .any],
    rw 0x420 64 16 0 1 0x0 0x0 false [fd 16 16 .ro .any, fd 0 16 .ro .any],
    rw 0x424 64 16 0 1 0x0 0x0 false [fd 16 16 .ro .any, fd 0 16 .ro .any],
    rw 0x428 64 16 0 1 0x0 0x0 false [fd 0 32 .ro .any],
    rw 0x42c 64 16 0 1 0x0 0x0 false [fd 0 32 .ro .any],
    rw 0x430 64 16 0 1 0x0 0x0 false [fd 16 16 .ro .any, fd 0 16 .ro .any],
    rw 0x434 64 16 0 1 0x1f 0x0 false [fd 8 8 .ro .any, fd 0 5 .rwl .any]]

/-- Registers of page LUT (spec/07_control_engine.md, R169). -/
def regTabLUT : List RegRow :=
  [
    rw 0x40 4 8 0 1 0x0 0x0 false [fd 16 16 .rwl .any, fd 0 4 .rwl .any],
    rw 0x60 0 1 0 1 0x0 0x0 false [fd 0 8 .wo .any],
    rw 0x64 0 1 0 1 0x0 0x0 false [fd 16 8 .ro .any, fd 8 8 .ro .any, fd 0 8 .ro .any],
    rw 0x400 8 64 0 1 0x0 0x0 false [fd 0 16 .rwl .any],
    rw 0x404 8 64 0 1 0x0 0x0 false [fd 16 16 .rwl .any, fd 0 16 .rwl .any]]

/-- Registers of page MTR (spec/08_metrology.md, R196). -/
def regTabMTR : List RegRow :=
  [
    rw 0x40 0 1 0 1 0x0 0x303 false [fd 8 2 .rwx (.range 0 2), fd 2 1 .ro .any, fd 1 1 .rwx .any, fd 0 1 .rwx .any],
    rw 0x44 0 1 0 1 0xa0005 0xffffffff false [fd 16 16 .rwx (.range 1 1000), fd 0 16 .rwx (.range 1 100)],
    rw 0x48 0 1 0 1 0x64000a 0x0 false [fd 16 16 .rw .any, fd 0 8 .rw (.range 1 255)],
    rw 0x4c 0 1 0 1 0x3e8 0xffff false [fd 0 16 .rwx .any],
    rw 0x50 0 1 0 1 0x0 0x0 false [fd 16 16 .ro .any, fd 0 16 .ro .any],
    rw 0x54 0 1 0 1 0x0 0xffff false [fd 31 1 .ro .any, fd 0 16 .ro .any],
    rw 0x58 0 1 0 1 0x0 0xffffffff false [fd 0 32 .ro .any],
    rw 0x5c 0 1 0 1 0x0 0x0 false [fd 0 1 .wo .any],
    rw 0x60 0 1 0 1 0xa 0x0 false [fd 0 16 .rw (.range 1 1000)],
    rw 0x64 0 1 0 1 0x0 0x0 false [fd 0 15 .ro .any],
    rw 0x68 0 1 0 1 0x0 0x0 false [fd 0 32 .ro .any],
    rw 0x6c 0 1 0 1 0x0 0x0 false [fd 0 32 .ro .any]] ++
  [
    rw 0x70 0 1 0 1 0x0 0x0 false [fd 16 16 .rw (.range 1 65535), fd 8 4 .rw (.range 0 14), fd 0 1 .wo .any],
    rw 0x74 0 1 0 1 0x0 0x0 false [fd 31 1 .ro .any, fd 0 16 .ro .any],
    rw 0x78 0 1 0 1 0x0 0x0 true [fd 0 32 .ro .any],
    rw 0x7c 0 1 0 1 0x0 0x0 false [fd 0 32 .ro .any],
    rw 0x80 0 1 0 1 0x0 0x0 true [fd 0 32 .ro .any],
    rw 0x84 0 1 0 1 0x0 0x0 false [fd 0 32 .ro .any],
    rw 0x88 0 1 0 1 0x0 0x0 false [fd 0 32 .ro .any],
    rw 0x8c 0 1 0 1 0x0 0x0 false [fd 0 32 .ro .any],
    rw 0x90 0 1 0 1 0x0 0x0 false [fd 0 32 .ro .any],
    rw 0x94 0 1 0 1 0x0 0x0 false [fd 30 2 .ro .any, fd 29 1 .ro .any, fd 28 1 .ro .any],
    rw 0xa0 4 4 0 1 0x0 0x0 false [fd 0 32 .ro .any],
    rw 0xb0 16 5 0 1 0x13880000 0xfffff000 false [fd 15 17 .rwx (.range 1 100000), fd 12 3 .rwx .any, fd 11 1 .rw .any]] ++
  [
    rw 0xb4 16 5 0 1 0x7d0 0x0 false [fd 0 17 .rw (.range 1 100000)],
    rw 0xb8 16 5 0 1 0x0 0x0 false [fd 31 1 .ro .any, fd 0 31 .ro .any],
    rw 0xbc 16 5 0 1 0x0 0x0 false [fd 0 32 .ro .any],
    rw 0x100 16 4 0 1 0xf5a0000 0xffffffff false [fd 16 16 .rwx (.range 0 10000), fd 0 16 .rwx .any],
    rw 0x104 16 4 0 1 0xff0190 0x80ffffff false [fd 31 1 .rwx .any, fd 16 8 .rwx .any, fd 0 16 .rwx .any],
    rw 0x108 16 4 0 1 0x0 0x0 false [fd 31 1 .ro .any, fd 0 16 .ro .any],
    rw 0x10c 16 4 0 1 0x0 0x0 false [fd 0 32 .ro .any],
    rw 0x400 64 7 0 1 0x0 0xffffff false [fd 0 24 .rwx .any],
    rw 0x404 64 7 0 1 0x0 0xffffffff false [fd 0 32 .rwx .any],
    rw 0x408 64 7 0 1 0xfa 0xffffffff false [fd 16 16 .rwx .any, fd 0 16 .rwx .any],
    rw 0x40c 64 7 0 1 0xff 0xff false [fd 0 8 .rwx .any],
    rw 0x510 64 3 0 1 0x0 0xffffffff false [fd 0 32 .rwx .any]] ++
  [
    rw 0x414 64 7 0 1 0x0 0x0 false [fd 0 24 .ro .any],
    rw 0x418 64 7 0 1 0x0 0x0 false [fd 0 32 .ro .any],
    rw 0x41c 64 7 0 1 0x0 0x0 false [fd 31 1 .ro .any, fd 30 1 .ro .any, fd 0 16 .ro .any],
    rw 0x420 64 7 0 1 0x0 0x0 false [fd 0 32 .ro .any]]

/-- Registers of page SNS (spec/08_metrology.md, R198). -/
def regTabSNS : List RegRow :=
  [
    rw 0x40 0 1 0 1 0x0 0x103 false [fd 8 1 .rwx .any, fd 0 2 .rwx .any],
    rw 0x44 0 1 0 1 0x0 0xffffff false [fd 0 24 .rwx .any],
    rw 0x48 0 1 0 1 0x0 0xffffffff false [fd 0 32 .rwx .any],
    rw 0x4c 0 1 0 1 0xfa 0xffffffff false [fd 16 16 .rwx .any, fd 0 16 .rwx .any],
    rw 0x50 0 1 0 1 0xff 0xff false [fd 0 8 .rwx .any],
    rw 0x54 0 1 0 1 0x0 0xffffffff false [fd 0 32 .rwx .any],
    rw 0x58 0 1 0 1 0x800100 0xffffff false [fd 16 8 .rwx .any, fd 0 16 .rwx .any],
    rw 0x5c 0 1 0 1 0xc8000a 0x0 false [fd 16 16 .rw .any, fd 0 16 .rw (.range 1 1000)],
    rw 0x60 0 1 0 1 0x0 0x0 false [fd 0 24 .ro .any],
    rw 0x64 0 1 0 1 0x0 0x0 false [fd 0 32 .ro .any],
    rw 0x68 0 1 0 1 0x0 0x0 false [fd 0 16 .ro .any],
    rw 0x6c 0 1 0 1 0x0 0x0 false [fd 31 1 .ro .any, fd 30 1 .ro .any, fd 29 1 .ro .any, fd 28 1 .ro .any, fd 27 1 .ro .any, fd 26 1 .ro .any, fd 25 1 .ro .any, fd 24 1 .ro .any, fd 23 1 .ro .any, fd 0 16 .ro .any]] ++
  [
    rw 0x70 0 1 0 1 0x0 0x0 false [fd 0 32 .ro .any],
    rw 0x74 4 4 0 1 0x0 0x0 false [fd 0 24 .ro .any],
    rw 0x400 4 10 0 1 0x0 0xffff false [fd 0 16 .rwx .any]]

/-- Registers of page CH (spec/10_counting_house.md, R254). -/
def regTabCH : List RegRow :=
  [
    rw 0x40 0 1 0 1 0x1f00 0x1f01 false [fd 8 5 .rwx .any, fd 0 1 .rwx .any],
    rw 0x44 0 1 0 1 0x7d0 0xffff false [fd 0 16 .rwx (.range 100 60000)],
    rw 0x48 0 1 0 1 0x14 0xffff03ff false [fd 16 16 .ro .any, fd 0 10 .rwx (.range 1 1000)],
    rw 0x4c 0 1 0 1 0x0 0xffffffff true [fd 0 32 .rwx .any],
    rw 0x50 0 1 0 1 0x0 0xffffffff false [fd 0 32 .rwx .any],
    rw 0x54 0 1 0 1 0x0 0xffffffff true [fd 0 32 .ro .any],
    rw 0x58 0 1 0 1 0x0 0xffffffff false [fd 0 32 .ro .any],
    rw 0x5c 0 1 0 1 0x0 0x0 true [fd 0 32 .ro .any],
    rw 0x60 0 1 0 1 0x0 0x0 false [fd 0 32 .ro .any],
    rw 0x64 0 1 0 1 0x1 0xffffffff true [fd 0 32 .ro .any],
    rw 0x68 0 1 0 1 0x1 0xffffffff false [fd 0 32 .ro .any],
    rw 0x6c 0 1 0 1 0x0 0xffffffff true [fd 0 32 .ro .any]] ++
  [
    rw 0x70 0 1 0 1 0x0 0xffffffff false [fd 0 32 .ro .any],
    rw 0x74 0 1 0 1 0x0 0xa000ffff false [fd 31 1 .ro .any, fd 30 1 .ro .any, fd 29 1 .ro .any, fd 16 4 .ro .any, fd 0 16 .ro .any],
    rw 0x78 0 1 0 1 0x0 0x0 false [fd 24 8 .ro .any, fd 20 4 .ro .any, fd 0 16 .ro .any],
    rw 0x7c 0 1 0 1 0x0 0xffff false [fd 31 1 .ro .any, fd 30 1 .ro .any, fd 8 8 .ro .any, fd 0 8 .ro .any],
    rw 0x80 0 1 0 1 0x0 0x0 false [fd 0 16 .ro .any],
    rw 0x400 16 153 0 1 0x0 0xffffffff true [fd 0 32 .ro .any],
    rw 0x404 16 153 0 1 0x0 0xffffffff false [fd 0 32 .ro .any],
    rw 0x408 16 153 0 1 0x0 0xffffffff false [fd 0 32 .ro .any],
    rw 0x40c 16 153 0 1 0x0 0xff false [fd 0 8 .ro .any]]

/-- Registers of page TRF (spec/10_counting_house.md, R256). -/
def regTabTRF : List RegRow :=
  [
    rw 0x40 0 1 0 1 0x0 0x7 false [fd 0 3 .rwc .any],
    rw 0x44 0 1 0 1 0x0 0x0 false [fd 16 8 .ro .any, fd 8 2 .ro .any, fd 0 3 .ro .any],
    rw 0x48 0 1 0 1 0x0 0x0 true [fd 0 32 .ro .any],
    rw 0x4c 0 1 0 1 0x0 0x0 false [fd 0 32 .ro .any],
    rw 0x50 0 1 0 1 0x0 0x0 false [fd 0 9 .rw .any],
    rw 0x54 0 1 0 1 0x0 0x0 false [fd 0 32 .rwc .any],
    rw 0x58 0 1 0 1 0x0 0xffffffff false [fd 0 32 .ro .any],
    rw 0x5c 0 1 0 1 0x0 0x0 false [fd 0 32 .ro .any],
    rw 0x60 0 1 0 1 0x0 0xffffffff true [fd 0 32 .ro .any],
    rw 0x64 0 1 0 1 0x0 0xffffffff false [fd 0 32 .ro .any],
    rw 0x70 8 4 0 1 0xffffffff 0xffffffff false [fd 0 32 .rwc .any],
    rw 0x74 8 4 0 1 0x0 0xffffffff false [fd 0 32 .rwc .any]] ++
  [
    rw 0x400 4 512 0 1 0x0 0xffffffff false [fd 0 32 .ro .any]]

/-- Registers of page DMD (spec/10_counting_house.md, R258). -/
def regTabDMD : List RegRow :=
  [
    rw 0x40 0 1 0 1 0x13c0 0x3ffc1 false [fd 16 2 .rwx (.range 0 2), fd 12 4 .rwx (.range 1 15), fd 6 6 .rwx .any, fd 0 1 .rwx .any],
    rw 0x44 0 1 0 1 0x0 0x1ffff false [fd 0 17 .rwc .any],
    rw 0x48 0 1 0 1 0x0 0x1ffff false [fd 31 1 .ro .any, fd 0 17 .rwc .any],
    rw 0x4c 0 1 0 1 0x0 0xffffffff true [fd 0 32 .rwc .any],
    rw 0x50 0 1 0 1 0x0 0xffffffff false [fd 0 32 .rwc .any],
    rw 0x54 0 1 0 1 0x0 0xffffffff true [fd 0 32 .rwc .any],
    rw 0x58 0 1 0 1 0x0 0xffffffff false [fd 0 32 .rwc .any],
    rw 0x5c 0 1 0 1 0x0 0x0 false [fd 0 17 .ro .any],
    rw 0x60 0 1 0 1 0x0 0x0 false [fd 0 32 .ro .any],
    rw 0x64 0 1 0 1 0x0 0x0 false [fd 0 32 .ro .any],
    rw 0x68 0 1 0 1 0x0 0x0 false [fd 0 32 .ro .any],
    rw 0x6c 0 1 0 1 0x0 0x0 true [fd 0 32 .ro .any]] ++
  [
    rw 0x70 0 1 0 1 0x0 0x0 false [fd 0 32 .ro .any],
    rw 0x74 0 1 0 1 0x0 0x0 false [fd 0 32 .ro .any],
    rw 0x78 0 1 0 1 0x0 0x0 false [fd 0 32 .ro .any],
    rw 0x7c 0 1 0 1 0x0 0xffff false [fd 31 1 .ro .any, fd 30 1 .ro .any, fd 29 1 .ro .any, fd 28 1 .ro .any, fd 27 1 .ro .any, fd 26 1 .ro .any, fd 0 16 .ro .any],
    rw 0x80 0 1 0 1 0x0 0x0 false [fd 0 32 .ro .any],
    rw 0x400 16 8 0 1 0x0 0xffffffff false [fd 0 32 .ro .any],
    rw 0x404 16 8 0 1 0x0 0xffffffff true [fd 0 32 .ro .any],
    rw 0x408 16 8 0 1 0x0 0xffffffff false [fd 0 32 .ro .any]]

/-- Registers of page FSRM (spec/17_strongroom.md, R413). -/
def regTabFSRM : List RegRow :=
  [
    rw 0x40 0 1 0 1 0x80000000 0x800ff07f false [fd 31 1 .ro .any, fd 30 1 .ro .any, fd 16 4 .ro .any, fd 12 4 .ro .any, fd 8 2 .ro .any, fd 0 7 .ro .any],
    rw 0x44 0 1 0 1 0x0 0x0 false [fd 0 7 .ro .any],
    rw 0x48 0 1 0 1 0x0 0x0 false [fd 0 1 .wo .any],
    rw 0x4c 0 1 0 1 0x0 0x0 false [fd 3 1 .wo .any, fd 2 1 .wo .any, fd 0 2 .wo .any],
    rw 0x50 4 8 0 1 0x0 0x0 false [fd 0 32 .rwx .any],
    rw 0xb0 0 1 0 1 0x0 0x0 false [fd 8 4 .rw .any, fd 0 6 .rw .any],
    rw 0xb4 0 1 0 1 0x0 0x0 false [fd 0 32 .ro .any],
    rw 0x400 16 16 0 1 0x0 0xfff77f07 false [fd 24 8 .ro .any, fd 20 4 .ro .any, fd 16 3 .ro .any, fd 8 7 .ro .any, fd 0 3 .ro .any],
    rw 0x404 16 16 0 1 0x0 0xffffffff false [fd 0 32 .ro .any],
    rw 0x408 16 16 0 1 0x0 0xffff0000 false [fd 16 16 .ro .any, fd 0 16 .ro .any],
    rw 0x40c 16 16 0 1 0x0 0xffff0000 false [fd 16 16 .ro .any],
    rw 0x70 0 1 0 1 0x0 0x0 false [fd 31 1 .ro .any, fd 16 8 .ro .any, fd 8 4 .ro .any]] ++
  [
    rw 0x74 0 1 0 1 0x0 0xffffffff true [fd 0 32 .ro .any],
    rw 0x78 0 1 0 1 0x0 0xffffffff false [fd 0 32 .ro .any],
    rw 0x7c 0 1 0 1 0x0 0x0 false [fd 7 1 .wo .any, fd 0 4 .wo .any],
    rw 0x88 0 1 0 1 0x0 0x0 false [fd 16 16 .ro .any, fd 0 16 .ro .any]]

/-- Registers of page VP (spec/11_vehicle_ports.md, R283). -/
def regTabVP : List RegRow :=
  [
    rw 0x40 0 1 0 1 0xffff0008 0x0 false [fd 24 8 .rwl (.rangeOr 47 255), fd 16 8 .rwl (.rangeOr 47 255), fd 8 1 .rwl .any, fd 4 1 .rwl .any, fd 3 1 .rwl .any, fd 2 1 .rwl .any, fd 0 2 .rwl (.range 0 2)],
    rw 0x44 0 1 0 1 0x860300 0x0 false [fd 31 1 .ro .any, fd 30 1 .ro .any, fd 29 1 .ro .any, fd 28 1 .ro .any, fd 27 1 .ro .any, fd 26 1 .ro .any, fd 25 1 .ro .any, fd 24 1 .ro .any, fd 23 1 .ro .any, fd 22 1 .ro .any, fd 21 1 .ro .any, fd 20 1 .ro .any, fd 16 3 .ro .any, fd 8 8 .ro .any],
    rw 0x48 0 1 0 1 0x32 0x0 false [fd 16 2 .rw (.range 0 2), fd 0 10 .rw (.range 50 970)],
    rw 0x4c 0 1 0 1 0x0 0x0 false [fd 16 16 .ro .any, fd 0 16 .ro .any],
    rw 0x50 0 1 0 1 0x32220a32 0x0 false [fd 24 8 .rwl (.range 10 250), fd 20 4 .rwl (.range 1 4), fd 16 4 .rwl (.range 1 4), fd 8 8 .rwl (.range 1 100), fd 0 8 .rwl (.range 5 200)],
    rw 0x54 0 1 0 1 0xc8 0x0 false [fd 31 1 .rw .any, fd 0 8 .rwl (.range 10 250)],
    rw 0x58 0 1 0 1 0x3e8 0x0 false [fd 0 16 .rwl (.range 100 5000)],
    rw 0x5c 0 1 0 1 0x0 0x0 false [fd 16 16 .rwl .any, fd 0 16 .rwl .any],
    rw 0x60 0 1 0 1 0x0 0x0 false [fd 16 16 .rwl .any, fd 0 16 .rwl .any],
    rw 0x64 0 1 0 1 0x0 0x0 false [fd 0 16 .ro .any],
    rw 0x68 0 1 0 1 0x0 0x0 false [fd 16 16 .rwl .any, fd 0 16 .rwl .any],
    rw 0x6c 0 1 0 1 0x0 0x0 false [fd 16 16 .rwl .any, fd 0 16 .rwl .any]] ++
  [
    rw 0x70 0 1 0 1 0x0 0x0 false [fd 16 16 .rwl .any, fd 8 5 .rwl .any],
    rw 0x74 0 1 0 1 0x140a07d0 0x0 false [fd 24 8 .rwl (.range 5 100), fd 16 8 .rwl (.range 5 100), fd 0 16 .rwl (.range 500 10000)],
    rw 0x78 0 1 0 1 0x21e0000 0x0 false [fd 24 8 .rwl .any, fd 16 8 .rwl (.range 5 255)],
    rw 0x7c 0 1 0 1 0x0 0x0 false [fd 16 1 .ro .any, fd 8 4 .ro .any, fd 4 2 .ro .any, fd 0 2 .ro .any],
    rw 0x80 0 1 0 1 0x0 0x0 false [fd 31 1 .ro .any, fd 30 1 .ro .any, fd 16 8 .ro .any, fd 8 8 .ro .any],
    rw 0x84 0 1 0 1 0x0 0x0 false [fd 16 6 .rw (.range 0 57), fd 0 8 .ro .any],
    rw 0x88 0 1 0 1 0x0 0x0 false [fd 31 1 .ro .any, fd 30 1 .ro .any, fd 29 1 .ro .any],
    rw 0x8c 0 1 0 1 0x2000064 0x0 false [fd 24 8 .rwl (.range 2 8), fd 0 16 .rwl (.range 10 1000)],
    rw 0x90 0 1 0 1 0x0 0x0 false [fd 16 16 .ro .any, fd 0 16 .ro .any],
    rw 0x94 0 1 0 1 0x0 0x0 true [fd 0 32 .ro .any],
    rw 0x98 0 1 0 1 0x0 0x0 false [fd 0 32 .ro .any],
    rw 0x9c 0 1 0 1 0x0 0x0 true [fd 0 32 .ro .any]] ++
  [
    rw 0xa0 0 1 0 1 0x0 0x0 false [fd 0 32 .ro .any],
    rw 0xa4 0 1 0 1 0x0 0x0 false [fd 0 19 .w1c .any],
    rw 0xa8 0 1 0 1 0x0 0x0 false [fd 4 1 .wo .any, fd 3 1 .wo .any, fd 2 1 .wo .any, fd 1 1 .wo .any, fd 0 1 .wo .any],
    rw 0x400 16 4 0 1 0xc80000 0x0 false [fd 16 16 .rwl .any, fd 0 1 .rwl .any],
    rw 0x404 16 4 0 1 0x0 0x0 false [fd 16 16 .ro .any, fd 0 16 .ro .any],
    rw 0x408 16 4 0 1 0x0 0x0 false [fd 31 1 .ro .any, fd 0 16 .ro .any]]

/-- Registers of page MESH (spec/12_mains_mesh.md, R304). -/
def regTabMESH : List RegRow :=
  [
    rw 0x40 0 1 0 1 0x100000 0x0 false [fd 24 8 .rwl .any, fd 20 1 .rwl .any, fd 16 2 .rwl (.range 0 2), fd 0 6 .rwl .any],
    rw 0x44 0 1 0 1 0x0 0x0 false [fd 16 16 .rwl (.srange (-10000) 10000), fd 2 1 .ro .any, fd 1 1 .ro .any, fd 0 1 .ro .any],
    rw 0x48 0 1 0 1 0x4000c8 0x0 false [fd 24 8 .rwl (.range 0 60), fd 20 4 .rwl (.range 1 15), fd 0 12 .rwl (.range 10 4000)],
    rw 0x4c 0 1 0 1 0x806020a 0x0 false [fd 24 8 .rwl (.range 2 32), fd 16 8 .rwl (.range 1 20), fd 8 8 .rwl (.range 0 19), fd 0 8 .rwl (.range 1 100)],
    rw 0x50 0 1 0 1 0x6 0x0 false [fd 0 8 .rwl (.range 3 20)],
    rw 0x54 0 1 0 1 0xa030800 0x0 false [fd 24 8 .rwl (.range 1 255), fd 16 8 .rwl (.range 2 15), fd 8 8 .rwl (.range 1 15)],
    rw 0x58 0 1 0 1 0xff 0x0 false [fd 0 8 .rwl (.rangeOr 15 255)],
    rw 0x5c 0 1 0 1 0x0 0x0 false [fd 31 1 .ro .any, fd 30 1 .ro .any, fd 16 8 .ro .any, fd 8 8 .ro .any],
    rw 0x60 0 1 0 1 0x0 0x0 false [fd 16 16 .ro .any, fd 0 16 .ro .any],
    rw 0x64 0 1 0 1 0x0 0x0 false [fd 16 16 .ro .any, fd 0 16 .ro .any],
    rw 0x68 0 1 0 1 0x0 0x0 false [fd 16 16 .ro .any, fd 0 16 .ro .any],
    rw 0x6c 0 1 0 1 0x0 0x0 false [fd 26 6 .rw .any, fd 23 3 .rw .any, fd 0 7 .rw (.range 0 92)]] ++
  [
    rw 0x70 0 1 0 1 0x0 0x0 false [fd 0 30 .ro .any],
    rw 0x74 0 1 0 1 0x0 0x0 false [fd 0 8 .rw .any],
    rw 0x78 0 1 0 1 0xffff 0x0 false [fd 31 1 .ro .any, fd 24 6 .ro .any, fd 20 4 .ro .any, fd 0 16 .ro .any],
    rw 0x100 4 28 0 1 0x0 0x0 false [fd 0 32 .rwl .any],
    rw 0x400 16 64 0 1 0x0 0x0 false [fd 31 1 .ro .any, fd 0 18 .ro .any],
    rw 0x404 16 64 0 1 0xffff0000 0x0 false [fd 16 16 .ro .any, fd 8 8 .ro .any],
    rw 0x408 16 64 0 1 0x0 0x0 false [fd 16 16 .ro .any, fd 0 16 .ro .any],
    rw 0x40c 16 64 0 1 0x1000000 0x0 false [fd 24 8 .ro .any, fd 16 8 .ro .any],
    rw 0x170 0 1 0 1 0x0 0x0 false [fd 0 21 .rwl .any]]

/-- Registers of page LSW (spec/15_load_switches.md, R372). -/
def regTabLSW : List RegRow :=
  [
    rw 0x40 0 1 0 1 0xa0aaf00f 0x0 false [fd 24 8 .rwl (.range 120 180), fd 16 8 .rwl (.range 0 200), fd 8 8 .rwl (.range 180 320), fd 0 8 .rwl (.range 5 30)],
    rw 0x44 0 1 0 1 0x0 0x0 false [fd 16 16 .ro .any, fd 0 16 .ro .any],
    rw 0x48 0 1 0 1 0x0 0x0 false [fd 5 1 .ro .any, fd 4 1 .ro .any, fd 3 1 .ro .any, fd 2 1 .ro .any, fd 1 1 .ro .any, fd 0 1 .ro .any],
    rw 0x4c 0 1 0 1 0x642800 0x0 false [fd 16 16 .rwl (.range 20 1000), fd 8 8 .rwl (.range 20 100)],
    rw 0x50 0 1 0 1 0x640032 0x0 false [fd 16 16 .rwl (.range 10 10000), fd 0 16 .rwl (.range 10 1000)],
    rw 0x54 0 1 0 1 0xc8 0x0 false [fd 0 16 .rwl (.range 10 10000)],
    rw 0x58 0 1 0 1 0x0 0x0 false [fd 0 32 .ro .any],
    rw 0x5c 0 1 0 1 0x0 0x0 false [fd 0 16 .ro .any],
    rw 0x60 0 1 0 1 0x0 0x0 false [fd 0 32 .ro .any],
    rw 0x64 0 1 0 1 0x0 0x0 false [fd 0 16 .ro .any],
    rw 0x68 0 1 0 1 0x0 0x0 false [fd 8 8 .ro .any, fd 0 8 .ro .any],
    rw 0x6c 0 1 0 1 0x0 0x0 false [fd 7 1 .wo .any, fd 6 1 .wo .any, fd 0 6 .wo .any]] ++
  [
    rw 0x80 16 8 0 1 0x3c 0x0 false [fd 16 16 .rwl (.range 0 1000), fd 0 16 .rwl (.range 10 200)],
    rw 0x84 16 8 0 1 0x3c 0x0 false [fd 16 16 .rwl (.range 0 1000), fd 0 16 .rwl (.range 10 200)],
    rw 0x88 16 8 0 1 0x3c 0x0 false [fd 16 16 .rwl (.range 0 1000), fd 0 16 .rwl (.range 10 200)],
    rw 0x8c 16 8 0 1 0x0 0x0 false [fd 0 16 .rwl .any],
    rw 0x400 32 48 0 1 0x10009632 0x0 false [fd 31 1 .rwl .any, fd 30 1 .rwl .any, fd 29 1 .rwl .any, fd 28 1 .rwl .any, fd 21 3 .rwl (.range 0 4), fd 19 1 .rwl .any, fd 16 3 .rwl .any, fd 8 8 .rwl (.range 110 165), fd 0 8 .rwl (.range 5 80)],
    rw 0x404 32 48 0 1 0x3e803e8 0x0 false [fd 31 1 .rw .any, fd 16 15 .rw (.range 100 20000), fd 0 10 .rw (.range 0 1000)],
    rw 0x408 32 48 0 1 0x80a05 0x0 false [fd 16 5 .rwl (.range 0 16), fd 8 8 .rwl (.range 1 50), fd 0 8 .rwl (.range 1 50)],
    rw 0x40c 32 48 0 1 0x3e80078 0x0 false [fd 16 16 .rwl (.range 100 10000), fd 0 16 .rwl (.range 40 200)],
    rw 0x410 32 48 0 1 0x0 0x0 false [fd 31 1 .ro .any, fd 30 1 .ro .any, fd 29 1 .ro .any, fd 28 1 .ro .any, fd 27 1 .ro .any, fd 26 1 .ro .any, fd 25 1 .ro .any, fd 24 1 .ro .any, fd 21 3 .ro .any, fd 16 5 .ro .any, fd 0 10 .ro .any],
    rw 0x414 32 48 0 1 0x0 0x0 false [fd 16 16 .ro .any, fd 0 16 .ro .any],
    rw 0x418 32 48 0 1 0x0 0x0 false [fd 0 8 .w1c .any],
    rw 0x41c 32 48 0 1 0x0 0x0 false [fd 16 16 .ro .any, fd 0 16 .ro .any]]

/-- Registers of page THM (spec/16_thermal_assay.md, R388). -/
def regTabTHM : List RegRow :=
  [
    rw 0x40 0 1 0 1 0x64 0x0 false [fd 0 16 .rwl (.range 10 1000)],
    rw 0x44 0 1 0 1 0xa4b001e 0x0 false [fd 24 8 .rwl (.range 2 100), fd 16 8 .rwl (.range 10 95), fd 0 16 .rwl (.range 1 600)],
    rw 0x48 0 1 0 1 0x30a0000 0x0 false [fd 24 8 .rwl (.range 1 50), fd 16 8 .rwl (.range 1 255)],
    rw 0x4c 0 1 0 1 0x0 0x0 false [fd 31 1 .ro .any, fd 0 16 .ro .any],
    rw 0x50 0 1 0 1 0x0 0x0 false [fd 0 32 .ro .any],
    rw 0x54 0 1 0 1 0x0 0x0 false [fd 0 32 .ro .any],
    rw 0x58 0 1 0 1 0x0 0x0 false [fd 0 32 .ro .any],
    rw 0x5c 0 1 0 1 0x0 0x0 false [fd 0 32 .ro .any],
    rw 0x60 0 1 0 1 0x0 0x0 false [fd 0 32 .ro .any],
    rw 0x80 16 3 0 1 0xffffffff 0x0 false [fd 0 8 .rwl .any, fd 8 8 .rwl .any, fd 16 8 .rwl .any, fd 24 8 .rwl .any],
    rw 0x84 16 3 0 1 0x38402bc 0x0 false [fd 16 16 .rwl .any, fd 0 16 .rwl .any],
    rw 0x88 16 3 0 1 0x1000080 0x0 false [fd 16 9 .ro .any, fd 0 9 .rwl (.range 0 256)]] ++
  [
    rw 0x8c 16 3 0 1 0x1000000 0x0 false [fd 16 16 .ro .any, fd 0 16 .ro .any],
    rw 0xc0 4 4 0 1 0x0 0x0 false [fd 31 1 .ro .any, fd 0 16 .ro .any],
    rw 0x100 16 16 0 1 0x0 0x0 false [fd 0 32 .rwl .any],
    rw 0x104 16 16 0 1 0x0 0x0 false [fd 0 32 .rwl .any],
    rw 0x108 16 16 0 1 0x320000 0x0 false [fd 16 16 .rwl (.range 5 500), fd 0 1 .rwl .any],
    rw 0x10c 16 16 0 1 0x0 0x0 false [fd 16 16 .ro .any, fd 15 1 .ro .any, fd 0 7 .ro .any],
    rw 0x400 32 64 0 1 0x0 0x0 false [fd 30 2 .rwl (.range 0 2), fd 28 2 .rwl .any, fd 27 1 .rwl .any, fd 0 3 .rwl (.range 0 3)],
    rw 0x404 32 64 0 1 0xd6b03e8 0x0 false [fd 16 16 .rwl (.range 1000 10000), fd 0 16 .rwl (.range 1 65535)],
    rw 0x408 32 64 0 1 0x10000000 0x0 false [fd 16 16 .rwl .any, fd 0 16 .rwl .any],
    rw 0x40c 32 64 0 1 0x5dcfe70 0x0 false [fd 16 16 .rwl .any, fd 0 16 .rwl .any],
    rw 0x410 32 64 0 1 0x14 0x0 false [fd 16 16 .rwl .any, fd 0 16 .rwl (.range 1 1000)],
    rw 0x414 32 64 0 1 0x0 0x0 false [fd 16 16 .ro .any, fd 0 16 .ro .any]] ++
  [
    rw 0x418 32 64 0 1 0x1f0000 0x0 false [fd 31 1 .ro .any, fd 30 1 .ro .any, fd 29 1 .ro .any, fd 28 1 .ro .any, fd 27 1 .ro .any, fd 26 1 .ro .any, fd 25 1 .ro .any, fd 16 5 .ro .any, fd 0 16 .ro .any]]

/-- Registers of page FTIME (spec/09_time.md, R221). -/
def regTabFTIME : List RegRow :=
  [
    rw 0x40 0 1 0 1 0x64 0x0 false [fd 16 1 .rwl .any, fd 0 16 .rwl (.range 10 10000)],
    rw 0x44 0 1 0 1 0x20000000 0x0 false [fd 31 1 .ro .any, fd 30 1 .ro .any, fd 29 1 .ro .any, fd 28 1 .ro .any, fd 27 1 .ro .any, fd 26 1 .ro .any, fd 0 16 .ro .any],
    rw 0x48 0 1 0 1 0x0 0x0 true [fd 0 32 .ro .any],
    rw 0x4c 0 1 0 1 0x0 0x0 false [fd 0 32 .ro .any],
    rw 0x50 0 1 0 1 0x0 0x0 true [fd 0 32 .ro .any],
    rw 0x54 0 1 0 1 0x0 0x0 false [fd 0 32 .ro .any],
    rw 0x58 0 1 0 1 0x0 0x0 false [fd 16 16 .ro .any, fd 0 16 .ro .any],
    rw 0x5c 0 1 0 1 0x0 0x0 false [fd 0 32 .ro .any],
    rw 0x60 0 1 0 1 0x0 0x0 false [fd 0 15 .ro .any],
    rw 0x64 0 1 0 1 0x0 0x0 false [fd 31 1 .ro .any, fd 30 1 .ro .any, fd 29 1 .ro .any],
    rw 0x80 16 4 0 1 0x0 0x0 false [fd 8 8 .rw .any, fd 0 3 .rw (.range 0 5)],
    rw 0x84 16 4 0 1 0x0 0x0 false [fd 0 32 .ro .any]] ++
  [
    rw 0x88 16 4 0 1 0x0 0x0 false [fd 0 32 .ro .any],
    rw 0x8c 16 4 0 1 0x0 0x0 false [fd 31 1 .ro .any, fd 28 3 .ro .any, fd 16 8 .ro .any, fd 8 8 .ro .any, fd 0 8 .ro .any]]

end Sys2Proof.Machine
end

