-- ==== Sys2Proof/Machine/RegTabHost.lean ====
section
/-! DEFINITION. The register tables of the host pages, field by field as spec/ gives them. -/

namespace Sys2Proof.Machine

open RegForm

/-- Registers of page SYS (spec/22_power_reset_boot.md, R504). -/
def regTabSYS : List RegRow :=
  [
    rw 0x40 0 1 0 1 0x0 0x0 false [fd 16 1 .ro .any, fd 15 1 .ro .any, fd 14 1 .ro .any, fd 13 1 .ro .any, fd 12 1 .ro .any, fd 10 2 .ro .any, fd 8 2 .ro .any, fd 6 2 .ro .any, fd 4 2 .ro .any, fd 2 2 .ro .any],
    rw 0x44 0 1 0 1 0x40800 0x200 false [fd 20 5 .ro .any, fd 18 2 .ro .any, fd 16 2 .ro .any, fd 14 2 .ro .any, fd 12 2 .ro .any, fd 11 1 .ro .any, fd 10 1 .ro .any, fd 9 1 .ro .any, fd 8 1 .ro .any, fd 7 1 .ro .any],
    rw 0x48 0 1 0 1 0x1 0x0 false [fd 0 8 .ro .any],
    rw 0x4c 0 1 0 1 0x0 0x0 false [fd 31 1 .ro .any, fd 30 1 .ro .any, fd 29 1 .ro .any, fd 20 4 .ro .any, fd 16 4 .ro .any, fd 0 16 .ro .any],
    rw 0x50 0 1 0 1 0x3e8 0x0 false [fd 31 1 .ro .any, fd 0 16 .rwl (.range 10 10000)],
    rw 0x54 0 1 0 1 0x0 0x0 false [fd 0 32 .wo .any],
    rw 0x58 0 1 0 1 0x0 0x0 false [fd 0 32 .wo .any],
    rw 0x5c 0 1 0 1 0x0 0x0 false [fd 0 1 .rw .any],
    rw 0x60 0 1 0 1 0x0 0x0 false [fd 31 1 .ro .any, fd 16 1 .ro .any, fd 0 16 .ro .any]]

/-- Registers of page PMU (spec/22_power_reset_boot.md, R505). -/
def regTabPMU : List RegRow :=
  [
    rw 0x40 0 1 0 1 0x640067 0x0 false [fd 16 10 .rwl (.range 10 1000), fd 0 8 .rwl (.range 95 107)],
    rw 0x44 0 1 0 1 0x0 0x0 false [fd 31 1 .ro .any, fd 30 1 .ro .any, fd 29 1 .ro .any, fd 28 1 .ro .any, fd 0 16 .ro .any],
    rw 0x48 0 1 0 1 0x0 0x0 false [fd 16 16 .ro .any, fd 0 16 .ro .any],
    rw 0x4c 0 1 0 1 0x0 0x0 false [fd 31 1 .ro .any, fd 30 1 .ro .any, fd 0 16 .ro .any],
    rw 0x50 0 1 0 1 0x1f4 0x0 false [fd 0 16 .rw .any],
    rw 0x54 0 1 0 1 0x0 0x0 false [fd 0 4 .ro .any]]

/-- Registers of page CLK (spec/22_power_reset_boot.md, R506). -/
def regTabCLK : List RegRow :=
  [
    rw 0x40 0 1 0 1 0xc 0x0 false [fd 0 4 .rwl (.range 3 12)],
    rw 0x44 0 1 0 1 0x0 0x0 false [fd 16 16 .ro .any, fd 7 1 .ro .any, fd 6 1 .ro .any, fd 5 1 .ro .any, fd 4 1 .ro .any, fd 0 4 .ro .any],
    rw 0x48 0 1 0 1 0x0 0x0 false [fd 16 4 .ro .any, fd 0 16 .ro .any]]

/-- Registers of page EVC (spec/21_events_and_monitors.md, R481). -/
def regTabEVC : List RegRow :=
  [
    rw 0x40 0 1 0 1 0x0 0x0 false [fd 0 32 .ro .any],
    rw 0x44 0 1 0 1 0x0 0x0 false [fd 0 32 .rw .any],
    rw 0x48 0 1 0 1 0x0 0x0 false [fd 0 32 .w1c .any],
    rw 0x4c 0 1 0 1 0x8 0x0 false [fd 16 16 .ro .any, fd 8 8 .ro .any, fd 0 4 .rw .any],
    rw 0x100 16 4 0 1 0x10 0x0 false [fd 0 5 .rw (.range 0 16)],
    rw 0x104 16 4 0 1 0x0 0x0 false [fd 31 1 .ro .any, fd 8 4 .ro .any, fd 0 8 .ro .any],
    rw 0x108 16 4 0 1 0x0 0x0 false [fd 0 8 .wo .any],
    rw 0x10c 16 4 0 1 0x10 0x0 false [fd 16 5 .ro .any, fd 0 5 .ro .any],
    rw 0x400 4 256 0 1 0x8 0x0 false [fd 31 1 .rw .any, fd 24 4 .rw .any, fd 16 2 .rw .any, fd 9 1 .ro .any, fd 8 1 .ro .any, fd 0 4 .ro .any]]

/-- Registers of page MON (spec/21_events_and_monitors.md, R482). -/
def regTabMON : List RegRow :=
  [
    rw 0x40 0 1 0 1 0x0 0x0 false [fd 31 1 .wo .any, fd 30 1 .wo .any, fd 0 16 .wo .any],
    rw 0x44 0 1 0 1 0x0 0x0 false [fd 0 16 .w1c .any],
    rw 0x48 0 1 0 1 0x0 0x0 true [fd 0 32 .ro .any],
    rw 0x4c 0 1 0 1 0x0 0x0 false [fd 0 32 .ro .any],
    rw 0x400 192 16 0 1 0x0 0x0 false [fd 31 1 .rw .any, fd 30 1 .rw .any, fd 29 1 .rw .any, fd 28 1 .rw .any, fd 20 4 .rw (.range 0 3), fd 8 8 .rw .any, fd 0 8 .rw .any],
    rw 0x404 192 16 0 1 0x0 0x0 false [fd 0 32 .rw .any],
    rw 0x408 192 16 0 1 0x1 0x0 false [fd 0 32 .rw (.range 1 16777215)],
    rw 0x40c 192 16 0 1 0x7fffffff 0x0 false [fd 0 32 .rw .any],
    rw 0x410 192 16 0 1 0x0 0x0 true [fd 0 32 .ro .any],
    rw 0x414 192 16 0 1 0x0 0x0 false [fd 0 32 .ro .any],
    rw 0x418 192 16 0 1 0x0 0x0 true [fd 0 32 .ro .any],
    rw 0x41c 192 16 0 1 0x0 0x0 false [fd 0 32 .ro .any]] ++
  [
    rw 0x420 192 16 0 1 0x7fffffff 0x0 false [fd 0 32 .ro .any],
    rw 0x424 192 16 0 1 0x80000000 0x0 false [fd 0 32 .ro .any],
    rw 0x428 192 16 0 1 0x0 0x0 true [fd 0 32 .ro .any],
    rw 0x42c 192 16 0 1 0x0 0x0 false [fd 0 32 .ro .any],
    rw 0x430 192 16 0 1 0x0 0x0 false [fd 16 16 .ro .any, fd 0 16 .ro .any],
    rw 0x440 192 16 4 32 0x0 0x0 false [fd 0 32 .ro .any]]

/-- Registers of page MMU (spec/20_memory_and_dma.md, R463). -/
def regTabMMU : List RegRow :=
  [
    rw 0x40 0 1 0 1 0x0 0x0 false [fd 31 1 .wo .any, fd 29 2 .wo .any, fd 0 6 .wo .any],
    rw 0x44 0 1 0 1 0x0 0x0 false [fd 12 20 .rw .any],
    rw 0x48 0 1 0 1 0x0 0x0 false [fd 31 1 .ro .any],
    rw 0x4c 0 1 0 1 0x0 0x0 false [fd 16 16 .ro .any, fd 0 5 .ro .any],
    rw 0x50 0 1 0 1 0x0 0x0 false [fd 0 32 .ro .any],
    rw 0x54 0 1 0 1 0x0 0x0 false [fd 31 1 .ro .any, fd 30 1 .ro .any, fd 24 6 .ro .any, fd 20 4 .ro .any],
    rw 0x58 0 1 0 1 0x0 0x0 false [fd 0 1 .wo .any],
    rw 0x5c 0 1 0 1 0x0 0x0 false [fd 16 16 .ro .any, fd 0 9 .ro .any],
    rw 0x400 16 36 0 1 0x0 0x0 false [fd 14 18 .rw .any, fd 0 1 .rw .any],
    rw 0x404 16 36 0 1 0x0 0x0 false [fd 16 16 .ro .any]]

/-- Registers of page DMA (spec/20_memory_and_dma.md, R465). -/
def regTabDMA : List RegRow :=
  [
    rw 0x40 0 1 0 1 0x0 0x0 false [fd 0 32 .w1c .any],
    rw 0x44 0 1 0 1 0x0 0x0 false [fd 0 32 .ro .any],
    rw 0x48 0 1 0 1 0x0 0x0 false [fd 0 32 .ro .any],
    rw 0x4c 0 1 0 1 0x0 0x0 false [fd 0 32 .ro .any],
    rw 0x400 64 32 0 1 0x700 0x0 false [fd 8 3 .rw .any, fd 0 1 .rw .any],
    rw 0x404 64 32 0 1 0x0 0x0 true [fd 0 32 .rw (.mask 4294967264)],
    rw 0x408 64 32 0 1 0x0 0x0 false [fd 0 32 .rw (.mask 4294967264)],
    rw 0x40c 64 32 0 1 0x0 0x0 false [fd 16 16 .rw .any, fd 0 16 .rw (.range 0 4096)],
    rw 0x410 64 32 0 1 0x0 0x0 false [fd 0 16 .ro .any],
    rw 0x414 64 32 0 1 0x0 0x0 false [fd 29 3 .ro .any, fd 24 4 .ro .any, fd 0 16 .ro .any],
    rw 0x418 64 32 0 1 0x0 0x0 true [fd 0 32 .ro .any],
    rw 0x41c 64 32 0 1 0x0 0x0 false [fd 0 32 .ro .any]] ++
  [
    rw 0x420 64 32 0 1 0x0 0x0 false [fd 0 32 .ro .any],
    rw 0x424 64 32 0 1 0x0 0x0 true [fd 0 32 .ro .any],
    rw 0x428 64 32 0 1 0x0 0x0 false [fd 0 32 .ro .any],
    rw 0x42c 64 32 0 1 0x0 0x0 true [fd 0 32 .ro .any],
    rw 0x430 64 32 0 1 0x0 0x0 false [fd 0 32 .ro .any],
    rw 0x434 64 32 0 1 0x0 0x0 false [fd 0 32 .ro .any],
    rw 0x438 64 32 0 1 0x0 0x0 false [fd 1 1 .wo .any, fd 0 1 .wo .any]]

/-- Registers of page MEM (spec/20_memory_and_dma.md, R467). -/
def regTabMEM : List RegRow :=
  [
    rw 0x40 0 1 0 1 0xa03c03c 0x0 false [fd 24 8 .rw (.range 1 255), fd 12 12 .rw (.range 1 1440), fd 0 12 .rw (.range 1 1440)],
    rw 0x44 0 1 0 1 0x0 0x0 false [fd 0 3 .ro .any],
    rw 0x48 0 1 0 1 0x0 0x0 false [fd 24 8 .ro .any, fd 16 8 .ro .any, fd 8 8 .ro .any, fd 0 8 .ro .any],
    rw 0x4c 0 1 0 1 0x0 0x0 false [fd 0 8 .ro .any, fd 8 8 .ro .any, fd 16 8 .ro .any, fd 24 8 .ro .any],
    rw 0x50 0 1 0 1 0x0 0x0 false [fd 1 1 .wo .any, fd 0 1 .wo .any],
    rw 0x54 0 1 0 1 0x10 0x0 false [fd 0 8 .rw (.range 1 255)],
    rw 0x58 0 1 0 1 0x0 0x0 false [fd 0 32 .ro .any],
    rw 0x5c 0 1 0 1 0x0 0x0 false [fd 31 1 .ro .any, fd 26 2 .ro .any, fd 25 1 .ro .any, fd 8 6 .ro .any, fd 0 7 .ro .any],
    rw 0x60 0 1 0 1 0x0 0x0 false [fd 0 32 .ro .any],
    rw 0x64 0 1 0 1 0x0 0x0 false [fd 31 1 .ro .any, fd 26 2 .ro .any, fd 25 1 .ro .any, fd 8 6 .ro .any, fd 0 7 .ro .any, fd 24 1 .ro .any],
    rw 0x68 0 1 0 1 0x0 0x0 false [fd 16 16 .ro .any, fd 0 16 .ro .any],
    rw 0x70 0 1 0 1 0x0 0x0 false [fd 2 30 .rwl .any]] ++
  [
    rw 0x74 0 1 0 1 0x0 0x0 false [fd 31 1 .wo .any, fd 30 1 .ro .any, fd 0 7 .rwl .any]]

/-- Registers of page BAR (spec/19_barrier.md, R441). -/
def regTabBAR : List RegRow :=
  [
    rw 0x40 0 1 0 1 0x64 0x0 false [fd 0 10 .rw (.range 10 1000)],
    rw 0x44 0 1 0 1 0x0 0x0 false [fd 31 1 .ro .any, fd 30 1 .ro .any, fd 4 4 .ro .any, fd 0 4 .ro .any],
    rw 0x48 0 1 0 1 0x0 0x0 true [fd 0 32 .rw .any],
    rw 0x4c 0 1 0 1 0x0 0x0 false [fd 0 32 .rw .any],
    rw 0x50 0 1 0 1 0x0 0x0 false [fd 16 16 .rw .any, fd 0 16 .rw (.range 0 4096)],
    rw 0x54 0 1 0 1 0x0 0x0 false [fd 0 16 .ro .any],
    rw 0x58 0 1 0 1 0x0 0x0 true [fd 0 32 .rw .any],
    rw 0x5c 0 1 0 1 0x0 0x0 false [fd 0 32 .rw .any],
    rw 0x60 0 1 0 1 0x0 0x0 false [fd 16 16 .rw .any, fd 0 16 .rw (.range 0 4096)],
    rw 0x64 0 1 0 1 0x0 0x0 false [fd 0 16 .ro .any],
    rw 0x68 0 1 0 1 0x0 0x0 false [fd 16 16 .ro .any, fd 0 16 .ro .any],
    rw 0x6c 0 1 0 1 0x0 0x0 false [fd 24 8 .ro .any, fd 16 8 .ro .any, fd 8 8 .ro .any, fd 0 8 .ro .any]] ++
  [
    rw 0x70 0 1 0 1 0x0 0x0 false [fd 0 16 .ro .any]]

/-- Registers of page TIME (spec/09_time.md, R219). -/
def regTabTIME : List RegRow :=
  [
    rw 0x40 0 1 0 1 0x640000 0x0 false [fd 16 8 .rw (.range 1 250), fd 8 1 .rw .any, fd 4 1 .rw .any, fd 0 1 .rw .any],
    rw 0x44 0 1 0 1 0x0 0x0 false [fd 0 32 .ro .any],
    rw 0x48 0 1 0 1 0x0 0x0 false [fd 0 32 .rw .any],
    rw 0x4c 0 1 0 1 0x0 0x0 false [fd 0 32 .rw .any],
    rw 0x50 0 1 0 1 0x0 0x0 false [fd 1 1 .wo .any, fd 0 1 .wo .any],
    rw 0x100 16 8 0 1 0x0 0x0 false [fd 8 8 .rw .any, fd 0 3 .rw (.range 0 5)],
    rw 0x104 16 8 0 1 0x0 0x0 false [fd 0 32 .ro .any],
    rw 0x108 16 8 0 1 0x0 0x0 false [fd 0 32 .ro .any],
    rw 0x10c 16 8 0 1 0x0 0x0 false [fd 31 1 .ro .any, fd 28 3 .ro .any, fd 16 8 .ro .any, fd 8 8 .ro .any, fd 0 8 .ro .any],
    rw 0x400 64 2 0 1 0x0 0x0 true [fd 0 32 .ro .any],
    rw 0x404 64 2 0 1 0x0 0x0 false [fd 0 32 .ro .any],
    rw 0x408 64 2 0 1 0x0 0x0 false [fd 0 32 .rw .any]] ++
  [
    rw 0x40c 64 2 0 1 0x4 0x0 false [fd 0 8 .rw .any],
    rw 0x410 64 2 0 1 0x100 0x0 false [fd 9 1 .rw .any, fd 8 1 .rw .any, fd 4 4 .rw .any, fd 0 3 .rw (.range 0 3)],
    rw 0x414 64 2 0 1 0x3640032 0x0 false [fd 24 8 .rw (.range 2 15), fd 16 8 .rw (.range 1 250), fd 0 16 .rw (.range 10 10000)],
    rw 0x418 64 2 0 1 0x186a0 0x0 false [fd 0 32 .rw (.range 1000 1000000000)],
    rw 0x41c 64 2 0 1 0x0 0x0 false [fd 0 32 .ro .any],
    rw 0x420 64 2 0 1 0x20000000 0x0 false [fd 31 1 .ro .any, fd 30 1 .ro .any, fd 29 1 .ro .any, fd 28 1 .ro .any, fd 27 1 .ro .any, fd 0 16 .ro .any],
    rw 0x424 64 2 0 1 0x0 0x0 true [fd 0 32 .ro .any],
    rw 0x428 64 2 0 1 0x0 0x0 false [fd 0 32 .ro .any]]

/-- Registers of page SRM (spec/17_strongroom.md, R411). -/
def regTabSRM : List RegRow :=
  [
    rw 0x40 0 1 0 1 0x80000000 0x800ff07f false [fd 31 1 .ro .any, fd 30 1 .ro .any, fd 16 4 .ro .any, fd 12 4 .ro .any, fd 8 2 .ro .any, fd 0 7 .ro .any],
    rw 0x44 0 1 0 1 0x0 0x0 false [fd 0 7 .ro .any],
    rw 0x48 0 1 0 1 0x0 0x0 false [fd 0 1 .wo .any],
    rw 0x4c 0 1 0 1 0x0 0x0 false [fd 3 1 .wo .any, fd 2 1 .wo .any, fd 0 2 .wo .any],
    rw 0x50 4 8 0 1 0x0 0x0 false [fd 0 32 .rw .any],
    rw 0x70 0 1 0 1 0xff000000 0x0 false [fd 24 8 .rw .any, fd 16 6 .rw (.range 1 63), fd 12 4 .rw (.range 0 7), fd 8 3 .rw (.range 0 4), fd 0 7 .rw .any],
    rw 0x74 0 1 0 1 0x0 0x0 false [fd 0 1 .wo .any],
    rw 0x78 4 4 0 1 0x0 0x0 false [fd 0 32 .rw .any],
    rw 0x88 0 1 0 1 0x0 0x0 false [fd 7 1 .wo .any, fd 0 6 .wo .any],
    rw 0x8c 0 1 0 1 0x0 0x0 false [fd 7 1 .wo .any, fd 0 6 .wo .any],
    rw 0x90 0 1 0 1 0x0 0x0 false [fd 31 1 .wo .any, fd 20 4 .rw (.range 1 9), fd 8 6 .rw .any, fd 0 8 .rw .any],
    rw 0x94 0 1 0 1 0x0 0x0 true [fd 0 32 .rw .any]] ++
  [
    rw 0x98 0 1 0 1 0x0 0x0 false [fd 0 32 .rw .any],
    rw 0x9c 0 1 0 1 0x0 0x0 true [fd 0 32 .rw .any],
    rw 0xa0 0 1 0 1 0x0 0x0 false [fd 0 32 .rw .any],
    rw 0xa4 0 1 0 1 0x0 0x0 false [fd 0 16 .rw (.range 1 65535)],
    rw 0xa8 0 1 0 1 0x0 0x0 false [fd 31 1 .ro .any, fd 16 8 .ro .any, fd 0 16 .ro .any],
    rw 0xac 0 1 0 1 0x0 0x0 false [fd 31 1 .ro .any, fd 16 8 .ro .any, fd 0 6 .ro .any],
    rw 0xb0 0 1 0 1 0x0 0x0 false [fd 8 4 .rw .any, fd 0 6 .rw .any],
    rw 0xb4 0 1 0 1 0x0 0x0 false [fd 0 32 .ro .any],
    rw 0xb8 0 1 0 1 0x0 0x0 false [fd 16 16 .ro .any, fd 0 16 .ro .any],
    rw 0x400 16 64 0 1 0x0 0xfff77f07 false [fd 24 8 .ro .any, fd 20 4 .ro .any, fd 16 3 .ro .any, fd 8 7 .ro .any, fd 0 3 .ro .any],
    rw 0x404 16 64 0 1 0x0 0xffffffff false [fd 0 32 .ro .any],
    rw 0x408 16 64 0 1 0x0 0xffff0000 false [fd 16 16 .ro .any, fd 0 16 .ro .any]] ++
  [
    rw 0x40c 16 64 0 1 0x0 0xffff0000 false [fd 16 16 .ro .any]]

/-- Registers of page DBK (spec/18_daybook.md, R428). -/
def regTabDBK : List RegRow :=
  [
    rw 0x40 0 1 0 1 0x105000 0x0 false [fd 16 16 .rwl (.range 0 112), fd 8 8 .rwl (.range 50 95)],
    rw 0x44 0 1 0 1 0x0 0x0 false [fd 31 1 .ro .any, fd 30 1 .ro .any, fd 29 1 .ro .any, fd 28 1 .ro .any, fd 0 7 .ro .any],
    rw 0x48 0 1 0 1 0x0 0xffffffff true [fd 0 32 .ro .any],
    rw 0x4c 0 1 0 1 0x0 0xffffffff false [fd 0 32 .ro .any],
    rw 0x50 0 1 0 1 0x0 0x3fff false [fd 0 14 .ro .any],
    rw 0x54 0 1 0 1 0x0 0xffffffff true [fd 0 32 .ro .any],
    rw 0x58 0 1 0 1 0x0 0xffffffff false [fd 0 32 .ro .any],
    rw 0x5c 0 1 0 1 0x0 0x1ffff false [fd 0 17 .ro .any],
    rw 0x60 0 1 0 1 0x0 0x0 false [fd 0 32 .rw .any],
    rw 0x64 0 1 0 1 0x0 0x0 false [fd 0 32 .rw .any],
    rw 0x70 0 1 0 1 0x80000000 0x0 false [fd 16 16 .rw (.range 32768 65535), fd 8 6 .rw (.range 0 32), fd 0 1 .rw .any],
    rw 0x74 0 1 0 1 0x0 0x0 false [fd 0 1 .wo .any]] ++
  [
    rw 0x78 0 1 0 1 0x0 0x0 false [fd 31 1 .ro .any, fd 16 8 .ro .any],
    rw 0x7c 0 1 0 1 0x0 0x0 true [fd 0 32 .ro .any],
    rw 0x80 0 1 0 1 0x0 0x0 false [fd 0 32 .ro .any],
    rw 0x84 4 8 0 1 0x0 0x0 false [fd 0 32 .rw .any],
    rw 0xa4 0 1 0 1 0x0 0x0 true [fd 0 32 .ro .any],
    rw 0xa8 0 1 0 1 0x0 0x0 false [fd 0 32 .ro .any],
    rw 0xac 0 1 0 1 0x0 0x0 false [fd 0 32 .ro .any],
    rw 0xb0 0 1 0 1 0x0 0x0 false [fd 16 16 .ro .any, fd 0 16 .ro .any]]

/-- Registers of page LANE (spec/13_lanes_and_stacking.md, R327). -/
def regTabLANE : List RegRow :=
  [
    rw 0x40 0 1 0 1 0x0 0x0 false [fd 16 2 .rwl (.range 0 2), fd 12 2 .rwl .any, fd 8 1 .rwl .any, fd 4 1 .rw .any, fd 0 1 .wo .any],
    rw 0x44 0 1 0 1 0x802 0x0 false [fd 8 5 .rwl .any, fd 0 4 .rwl .any],
    rw 0x48 0 1 0 1 0x80000000 0x0 false [fd 31 1 .rwl .any, fd 0 8 .rwl .any],
    rw 0x4c 0 1 0 1 0xff00 0x0 false [fd 31 1 .ro .any, fd 30 1 .ro .any, fd 29 1 .ro .any, fd 28 1 .ro .any, fd 24 4 .ro .any, fd 8 8 .ro .any, fd 0 7 .ro .any],
    rw 0x50 0 1 0 1 0x0 0x0 false [fd 16 16 .ro .any, fd 0 16 .ro .any],
    rw 0x54 0 1 0 1 0x0 0x0 false [fd 16 16 .ro .any, fd 0 16 .ro .any],
    rw 0x58 0 1 0 1 0x0 0x0 false [fd 0 32 .ro .any]]

/-- Registers of page LINK (spec/13_lanes_and_stacking.md, R329). -/
def regTabLINK : List RegRow :=
  [
    rw 0x40 0 1 0 1 0x640a08 0x0 false [fd 16 16 .rwl (.range 10 1000), fd 8 8 .rwl (.range 2 100), fd 0 4 .rwl (.range 1 15)],
    rw 0x44 0 1 0 1 0x0 0x0 false [fd 16 16 .ro .any, fd 0 16 .ro .any],
    rw 0x48 0 1 0 1 0x0 0x0 false [fd 16 16 .ro .any, fd 0 16 .ro .any],
    rw 0x4c 0 1 0 1 0x0 0x0 false [fd 0 32 .ro .any],
    rw 0x400 16 4 0 1 0x0 0x0 false [fd 0 8 .ro .any],
    rw 0x404 16 4 0 1 0x0 0x0 false [fd 0 32 .ro .any],
    rw 0x408 16 4 0 1 0x0 0x0 false [fd 0 32 .ro .any],
    rw 0x40c 16 4 0 1 0x0 0x0 false [fd 16 16 .ro .any, fd 0 16 .ro .any]]

/-- Registers of page STK (spec/13_lanes_and_stacking.md, R331). -/
def regTabSTK : List RegRow :=
  [
    rw 0x40 0 1 0 1 0x0 0x0 false [fd 0 32 .rwl .any],
    rw 0x44 0 1 0 1 0x0 0x0 false [fd 16 16 .rwl (.mask 65472), fd 0 16 .rwl (.mask 65472)],
    rw 0x48 0 1 0 1 0x0 0x0 false [fd 16 4 .ro .any, fd 8 4 .ro .any, fd 0 4 .ro .any],
    rw 0x4c 0 1 0 1 0xff 0x0 false [fd 31 1 .ro .any, fd 0 8 .ro .any],
    rw 0x50 0 1 0 1 0x0 0x0 false [fd 16 16 .ro .any, fd 0 4 .ro .any],
    rw 0x410 16 15 0 1 0x0 0x0 false [fd 0 32 .rwl .any],
    rw 0x414 16 15 0 1 0x0 0x0 false [fd 31 1 .ro .any, fd 16 4 .ro .any, fd 0 2 .ro .any]]

/-- Registers of page RED (spec/14_redundancy.md, R351). -/
def regTabRED : List RegRow :=
  [
    rw 0x40 0 1 0 1 0x30a38 0x0 false [fd 16 8 .rwl (.range 3 15), fd 8 8 .rwl (.range 1 100), fd 4 4 .rwl .any, fd 3 1 .rwl .any],
    rw 0x44 0 1 0 1 0x7d00000 0x0 false [fd 16 16 .rwl (.range 100 10000)],
    rw 0x48 0 1 0 1 0x0 0x0 false [fd 31 1 .ro .any, fd 30 1 .ro .any, fd 29 1 .ro .any, fd 28 1 .ro .any, fd 27 1 .ro .any, fd 26 1 .ro .any, fd 25 1 .ro .any, fd 24 1 .ro .any, fd 20 4 .ro .any, fd 16 4 .ro .any, fd 8 8 .ro .any, fd 0 8 .ro .any],
    rw 0x4c 0 1 0 1 0x0 0x0 false [fd 0 32 .ro .any],
    rw 0x50 0 1 0 1 0x0 0x0 true [fd 0 32 .ro .any],
    rw 0x54 0 1 0 1 0x0 0x0 false [fd 0 32 .ro .any],
    rw 0x58 0 1 0 1 0x0 0x0 true [fd 0 32 .ro .any],
    rw 0x5c 0 1 0 1 0x0 0x0 false [fd 0 32 .ro .any],
    rw 0x60 0 1 0 1 0x0 0x0 false [fd 16 16 .ro .any, fd 0 16 .ro .any],
    rw 0x64 0 1 0 1 0x0 0x0 false [fd 16 16 .ro .any, fd 0 16 .ro .any],
    rw 0x68 0 1 0 1 0xffff 0x0 false [fd 16 16 .ro .any, fd 0 16 .ro .any],
    rw 0x6c 0 1 0 1 0x0 0x0 false [fd 16 16 .ro .any, fd 0 16 .ro .any]] ++
  [
    rw 0x70 0 1 0 1 0x0 0x0 false [fd 16 16 .ro .any, fd 0 16 .ro .any],
    rw 0x74 0 1 0 1 0x0 0x0 true [fd 0 32 .ro .any],
    rw 0x78 0 1 0 1 0x0 0x0 false [fd 0 32 .ro .any],
    rw 0x7c 0 1 0 1 0x0 0x0 false [fd 0 32 .rwl .any],
    rw 0x80 0 1 0 1 0x0 0x0 false [fd 2 1 .wo .any, fd 1 1 .wo .any, fd 0 1 .wo .any],
    rw 0x400 16 8 0 1 0x0 0x0 false [fd 0 32 .rwl (.mask 4294963200)],
    rw 0x404 16 8 0 1 0x0 0x0 false [fd 0 32 .rwl (.mask 4294963200)],
    rw 0x408 16 8 0 1 0x0 0x0 false [fd 0 1 .rwl .any]]

/-- Registers of page FCTR (spec/04_factor.md, R88). -/
def regTabFCTR : List RegRow :=
  [
    rw 0x40 0 1 0 1 0x40a 0x0 false [fd 17 1 .rwl .any, fd 16 1 .rwl .any, fd 8 8 .rwl (.range 1 32), fd 0 8 .rwl (.range 2 100)],
    rw 0x44 0 1 0 1 0x0 0x0 false [fd 0 17 .rwl (.range 0 100000)],
    rw 0x48 0 1 0 1 0x0 0x0 false [fd 0 16 .rwl .any],
    rw 0x4c 0 1 0 1 0x321388 0x0 false [fd 16 16 .rwl (.range 20 500), fd 0 16 .rwl (.range 1000 60000)],
    rw 0x50 0 1 0 1 0x0 0x0 false [fd 0 17 .rwl .any],
    rw 0x54 0 1 0 1 0xa07d0 0x0 false [fd 16 8 .rwl (.range 0 50), fd 0 16 .rwl (.range 500 60000)],
    rw 0x58 0 1 0 1 0x320c81e 0x0 false [fd 20 12 .rwl .any, fd 8 12 .rwl .any, fd 0 8 .rwl .any],
    rw 0x5c 0 1 0 1 0x204 0x0 false [fd 8 4 .rwl (.range 1 15), fd 0 4 .rwl (.range 2 15)],
    rw 0x60 0 1 0 1 0x0 0x0 false [fd 0 32 .ro .any],
    rw 0x64 0 1 0 1 0x0 0x0 false [fd 16 16 .ro .any, fd 8 8 .ro .any, fd 0 8 .ro .any],
    rw 0x68 0 1 0 1 0x0 0x0 false [fd 0 17 .ro .any],
    rw 0x6c 0 1 0 1 0x0 0x0 false [fd 0 17 .ro .any]] ++
  [
    rw 0x70 0 1 0 1 0x0 0x0 false [fd 0 17 .ro .any],
    rw 0x74 0 1 0 1 0x0 0x0 false [fd 0 17 .ro .any],
    rw 0x78 0 1 0 1 0x0 0x0 false [fd 0 16 .ro .any],
    rw 0x7c 0 1 0 1 0x0 0x0 false [fd 31 1 .ro .any, fd 30 1 .ro .any, fd 8 4 .ro .any, fd 0 2 .ro .any],
    rw 0x80 4 12 0 1 0x0 0x0 false [fd 16 16 .rwl .any, fd 0 16 .rwl .any],
    rw 0xc0 4 16 0 1 0x0 0x0 false [fd 0 16 .rwl (.range 0 30000)],
    rw 0x100 4 12 0 1 0x1001f00 0x0 false [fd 31 1 .ro .any, fd 30 1 .ro .any, fd 29 1 .ro .any, fd 16 9 .ro .any, fd 8 5 .ro .any],
    rw 0x130 0 1 0 1 0x0 0x0 false [fd 0 12 .wo .any],
    rw 0x140 4 16 0 1 0x0 0x0 false [fd 31 1 .ro .any, fd 28 2 .ro .any, fd 24 4 .ro .any, fd 0 12 .ro .any],
    rw 0x400 32 16 0 1 0x0 0x0 false [fd 31 1 .rwl .any, fd 24 4 .rwl .any],
    rw 0x404 32 16 0 1 0x0 0x0 false [fd 0 17 .rwl .any],
    rw 0x408 32 16 0 1 0x0 0x0 false [fd 0 17 .ro .any]] ++
  [
    rw 0x40c 32 16 0 1 0x0 0x0 false [fd 0 17 .ro .any],
    rw 0x410 32 16 0 1 0x0 0x0 false [fd 0 8 .ro .any]]

/-- Registers of page BOOK (spec/04_factor.md, R90). -/
def regTabBOOK : List RegRow :=
  [
    rw 0x40 0 1 0 1 0x0 0x0 false [fd 0 8 .rw .any],
    rw 0x44 0 1 0 1 0x0 0x0 false [fd 16 16 .ro .any, fd 0 16 .ro .any],
    rw 0x48 0 1 0 1 0x0 0x0 false [fd 16 16 .ro .any, fd 0 16 .ro .any],
    rw 0x4c 0 1 0 1 0x0 0x0 false [fd 28 4 .ro .any, fd 16 3 .ro .any, fd 0 16 .ro .any],
    rw 0x50 0 1 0 1 0x0 0x0 false [fd 16 16 .ro .any, fd 0 13 .ro .any],
    rw 0x54 0 1 0 1 0x0 0x0 false [fd 0 32 .ro .any],
    rw 0x60 0 1 0 1 0x0 0x0 false [fd 24 8 .rw .any, fd 16 4 .rw .any, fd 13 3 .rw .any],
    rw 0x64 0 1 0 1 0x0 0x0 false [fd 16 16 .rw .any, fd 0 16 .rw .any],
    rw 0x68 0 1 0 1 0x0 0x0 false [fd 16 16 .rw .any, fd 8 8 .rw .any],
    rw 0x6c 0 1 0 1 0x0 0x0 false [fd 0 32 .rw .any],
    rw 0x70 0 1 0 1 0x0 0x0 false [fd 0 1 .wo .any],
    rw 0x74 0 1 0 1 0x0 0x0 false [fd 31 1 .ro .any, fd 28 3 .ro .any, fd 24 4 .ro .any]] ++
  [
    rw 0x78 0 1 0 1 0x0 0x0 false [fd 0 32 .ro .any],
    rw 0x7c 0 1 0 1 0x0 0x0 false [fd 24 8 .wo .any, fd 20 4 .wo .any, fd 0 1 .wo .any],
    rw 0x400 32 16 0 1 0x0 0x0 false [fd 24 8 .ro .any, fd 20 4 .ro .any, fd 16 4 .ro .any, fd 13 3 .ro .any, fd 4 4 .ro .any, fd 0 4 .ro .any],
    rw 0x404 32 16 0 1 0x0 0x0 false [fd 16 16 .ro .any, fd 0 16 .ro .any],
    rw 0x408 32 16 0 1 0x0 0x0 false [fd 16 16 .ro .any, fd 8 8 .ro .any, fd 4 4 .ro .any],
    rw 0x40c 32 16 0 1 0x0 0x0 false [fd 0 32 .ro .any],
    rw 0x410 32 16 0 1 0x0 0x0 false [fd 0 32 .ro .any],
    rw 0x414 32 16 0 1 0x0 0x0 false [fd 0 32 .ro .any],
    rw 0x418 32 16 0 1 0x0 0x0 false [fd 16 16 .ro .any, fd 0 16 .ro .any],
    rw 0x41c 32 16 0 1 0x0 0x0 false [fd 0 32 .ro .any]]

/-- Registers of page TRUNK (spec/05_trunks_and_contactors.md, R113). -/
def regTabTRUNK : List RegRow :=
  [
    rw 0x40 0 1 0 1 0xc80028 0x0 false [fd 16 10 .rwl (.range 50 1000), fd 0 9 .rwl (.range 10 400)],
    rw 0x44 0 1 0 1 0x141e1405 0x0 false [fd 24 8 .rwl (.range 5 100), fd 16 8 .rwl (.range 5 100), fd 8 8 .rwl (.range 2 100), fd 0 8 .rwl (.range 1 50)],
    rw 0x48 0 1 0 1 0x2052814 0x0 false [fd 24 8 .rwl (.range 1 5), fd 16 8 .rwl (.range 2 20), fd 8 8 .rwl (.range 5 200), fd 0 8 .rwl (.range 2 100)],
    rw 0x4c 0 1 0 1 0x201050a 0x0 false [fd 24 8 .rwl (.range 1 10), fd 16 8 .rwl (.range 1 5), fd 8 8 .rwl (.range 1 20), fd 0 8 .rwl (.range 1 50)],
    rw 0x50 0 1 0 1 0x145a0000 0x0 false [fd 24 8 .rwl (.range 1 255), fd 16 8 .rwl (.range 50 100)],
    rw 0x54 0 1 0 1 0x0 0x0 false [fd 0 24 .rwl .any],
    rw 0x58 0 1 0 1 0x0 0x0 false [fd 0 16 .ro .any],
    rw 0x5c 0 1 0 1 0x0 0x0 false [fd 0 16 .wo .any],
    rw 0x60 0 1 0 1 0x0 0x0 false [fd 31 1 .wo .any, fd 0 5 .wo .any],
    rw 0x64 0 1 0 1 0x0 0x0 false [fd 24 5 .wo .any, fd 0 24 .wo .any],
    rw 0x68 0 1 0 1 0x0 0x0 false [fd 16 16 .ro .any, fd 8 8 .ro .any, fd 0 8 .ro .any],
    rw 0x6c 0 1 0 1 0xffc000 0x0 false [fd 28 4 .ro .any, fd 24 2 .ro .any, fd 19 5 .ro .any, fd 14 5 .ro .any, fd 0 14 .ro .any]] ++
  [
    rw 0x80 8 12 0 1 0x0 0x0 false [fd 7 1 .rwl .any, fd 0 4 .rwl .any, fd 15 1 .rwl .any, fd 8 4 .rwl .any, fd 23 1 .rwl .any, fd 16 4 .rwl .any, fd 31 1 .rwl .any, fd 24 4 .rwl .any],
    rw 0x84 8 12 0 1 0x0 0x0 false [fd 7 1 .rwl .any, fd 0 4 .rwl .any, fd 15 1 .rwl .any, fd 8 4 .rwl .any, fd 23 1 .rwl .any, fd 16 4 .rwl .any, fd 31 1 .rwl .any, fd 24 4 .rwl .any],
    rw 0x400 16 24 0 1 0x0 0x0 false [fd 0 24 .rwl .any],
    rw 0x404 16 24 0 1 0x0 0xffffff false [fd 0 24 .ro .any],
    rw 0x408 16 24 0 1 0x0 0xe0 false [fd 7 1 .ro .any, fd 6 1 .ro .any, fd 5 1 .ro .any, fd 0 3 .ro .any],
    rw 0x40c 16 24 0 1 0x0 0xffff false [fd 0 16 .ro .any]]

/-- Registers of page ETH (spec/13_lanes_and_stacking.md, R333). -/
def regTabETH : List RegRow :=
  [
    rw 0x40 0 1 0 1 0x1 0x0 false [fd 1 1 .rw .any, fd 0 1 .rw .any],
    rw 0x44 0 1 0 1 0x0 0x0 false [fd 0 32 .rw .any],
    rw 0x48 0 1 0 1 0x0 0x0 false [fd 0 16 .rw .any],
    rw 0x4c 0 1 0 1 0x0 0x0 true [fd 0 32 .rw (.mask 4294967264)],
    rw 0x50 0 1 0 1 0x0 0x0 false [fd 0 32 .rw (.mask 4294967264)],
    rw 0x54 0 1 0 1 0x0 0x0 false [fd 16 16 .rw .any, fd 0 16 .rw (.range 0 4096)],
    rw 0x58 0 1 0 1 0x0 0x0 false [fd 0 16 .ro .any],
    rw 0x5c 0 1 0 1 0x0 0x0 true [fd 0 32 .rw (.mask 4294967264)],
    rw 0x60 0 1 0 1 0x0 0x0 false [fd 0 32 .rw (.mask 4294967264)],
    rw 0x64 0 1 0 1 0x0 0x0 false [fd 16 16 .rw .any, fd 0 16 .rw (.range 0 4096)],
    rw 0x68 0 1 0 1 0x0 0x0 false [fd 0 16 .ro .any],
    rw 0x6c 0 1 0 1 0x0 0x0 false [fd 31 1 .ro .any]] ++
  [
    rw 0x70 0 1 0 1 0x0 0x0 false [fd 16 16 .ro .any, fd 0 16 .ro .any],
    rw 0x74 0 1 0 1 0x0 0x0 false [fd 16 16 .ro .any, fd 0 16 .ro .any]]

end Sys2Proof.Machine
end

