-- ==== Sys2Proof/Machine/Tab.lean ====
section
/-!
DEFINITION. Sparse tables with strictly rising keys in which no entry equals what its key reads as when unlisted: one
canonical form, so that equal contents are equal data. Registers, memory and per-index block state are such tables.
-/

namespace Sys2Proof.Tab

variable {α : Type}

/-- The value at a key; `d` says what an unlisted key reads as. -/
def at' (d : Nat → α) : Tab α → Nat → α
  | [], k => d k
  | (j, v) :: t, k => if k = j then v else at' d t k

/-- The table without a key. -/
def drop (k : Nat) : Tab α → Tab α
  | [] => []
  | (j, v) :: t => if k = j then drop k t else (j, v) :: drop k t

/-- The table with a key listed with a value. -/
def list (k : Nat) (x : α) : Tab α → Tab α
  | [] => [(k, x)]
  | (j, v) :: t =>
    if k = j then (k, x) :: t else if k < j then (k, x) :: (j, v) :: t else (j, v) :: list k x t

/-- Write a value at a key, keeping the canonical form. -/
def put [DecidableEq α] (d : Nat → α) (t : Tab α) (k : Nat) (x : α) : Tab α :=
  if x = d k then drop k t else list k x t

/-- Keys strictly rising, all above a bound. -/
def rising : Nat → Tab α → Bool
  | _, [] => true
  | lo, (j, _) :: t => decide (lo ≤ j) && rising (j + 1) t

/-- The canonical form. -/
def wf [DecidableEq α] (d : Nat → α) (t : Tab α) : Bool :=
  rising 0 t && t.all (fun e => decide (e.2 ≠ d e.1))

/-- The table restricted to the keys a test admits. -/
def keep (p : Nat → Bool) (t : Tab α) : Tab α := t.filter (fun e => p e.1)

end Sys2Proof.Tab
end

