-- ==== Sys2Proof/Machine/RegTab.lean ====
section
/-!
DEFINITION. The two page maps (R36, R37), the header every page has (R25), and the lookup of a register by its key:
side * 2^20 + page index * 0x1000 + offset.
-/

namespace Sys2Proof.Machine

open RegForm

/-- The host page map (R36). -/
def hostPages : List PageRow :=
  [
  { side := 0, base := 0x0, n := 1, events := 6, first := 0, alwaysOn := true, sealable := false, stride := 0x0, count := 0, rows := regTabSYS },
  { side := 0, base := 0x1, n := 1, events := 4, first := 6, alwaysOn := true, sealable := false, stride := 0x0, count := 0, rows := regTabPMU },
  { side := 0, base := 0x2, n := 1, events := 6, first := 10, alwaysOn := true, sealable := false, stride := 0x0, count := 0, rows := regTabCLK },
  { side := 0, base := 0x8, n := 1, events := 0, first := 0, alwaysOn := true, sealable := false, stride := 0x4, count := 256, rows := regTabEVC },
  { side := 0, base := 0xc, n := 1, events := 16, first := 208, alwaysOn := false, sealable := false, stride := 0xc0, count := 16, rows := regTabMON },
  { side := 0, base := 0x10, n := 1, events := 8, first := 16, alwaysOn := false, sealable := false, stride := 0x10, count := 36, rows := regTabMMU },
  { side := 0, base := 0x11, n := 1, events := 16, first := 24, alwaysOn := false, sealable := false, stride := 0x40, count := 32, rows := regTabDMA },
  { side := 0, base := 0x14, n := 1, events := 8, first := 40, alwaysOn := true, sealable := false, stride := 0x0, count := 0, rows := regTabMEM },
  { side := 0, base := 0x18, n := 1, events := 16, first := 48, alwaysOn := true, sealable := false, stride := 0x0, count := 0, rows := regTabBAR },
  { side := 0, base := 0x20, n := 1, events := 16, first := 64, alwaysOn := true, sealable := false, stride := 0x40, count := 2, rows := regTabTIME }] ++
  [
  { side := 0, base := 0x28, n := 1, events := 8, first := 80, alwaysOn := true, sealable := false, stride := 0x10, count := 64, rows := regTabSRM },
  { side := 0, base := 0x30, n := 1, events := 8, first := 88, alwaysOn := true, sealable := false, stride := 0x0, count := 0, rows := regTabDBK },
  { side := 0, base := 0x40, n := 16, events := 2, first := 96, alwaysOn := false, sealable := false, stride := 0x0, count := 0, rows := regTabLANE },
  { side := 0, base := 0x50, n := 1, events := 8, first := 128, alwaysOn := false, sealable := false, stride := 0x10, count := 4, rows := regTabLINK },
  { side := 0, base := 0x58, n := 1, events := 8, first := 136, alwaysOn := false, sealable := false, stride := 0x10, count := 16, rows := regTabSTK },
  { side := 0, base := 0x60, n := 1, events := 16, first := 144, alwaysOn := true, sealable := false, stride := 0x10, count := 8, rows := regTabRED },
  { side := 0, base := 0x80, n := 1, events := 16, first := 160, alwaysOn := false, sealable := false, stride := 0x20, count := 16, rows := regTabFCTR },
  { side := 0, base := 0x81, n := 1, events := 8, first := 176, alwaysOn := false, sealable := false, stride := 0x20, count := 16, rows := regTabBOOK },
  { side := 0, base := 0x88, n := 1, events := 8, first := 184, alwaysOn := false, sealable := false, stride := 0x10, count := 24, rows := regTabTRUNK },
  { side := 0, base := 0x90, n := 2, events := 8, first := 192, alwaysOn := false, sealable := false, stride := 0x0, count := 0, rows := regTabETH }]

/-- The field page map (R37). -/
def fieldPages : List PageRow :=
  [
  { side := 1, base := 0x0, n := 1, events := 2, first := 120, alwaysOn := true, sealable := false, stride := 0x4, count := 64, rows := regTabFSYS },
  { side := 1, base := 0x1, n := 1, events := 1, first := 122, alwaysOn := true, sealable := false, stride := 0x0, count := 0, rows := regTabFPMU },
  { side := 1, base := 0x8, n := 1, events := 0, first := 0, alwaysOn := true, sealable := false, stride := 0x4, count := 128, rows := regTabFEVC },
  { side := 1, base := 0xc, n := 1, events := 1, first := 123, alwaysOn := false, sealable := false, stride := 0xc0, count := 16, rows := regTabFMON },
  { side := 1, base := 0x18, n := 1, events := 2, first := 124, alwaysOn := true, sealable := false, stride := 0x4, count := 32, rows := regTabFBAR },
  { side := 1, base := 0x20, n := 3, events := 8, first := 0, alwaysOn := false, sealable := false, stride := 0x20, count := 8, rows := regTabMOD },
  { side := 1, base := 0x30, n := 1, events := 12, first := 24, alwaysOn := false, sealable := false, stride := 0x40, count := 16, rows := regTabCE },
  { side := 1, base := 0x38, n := 1, events := 4, first := 36, alwaysOn := false, sealable := false, stride := 0x8, count := 64, rows := regTabLUT },
  { side := 1, base := 0x40, n := 1, events := 8, first := 40, alwaysOn := false, sealable := true, stride := 0x40, count := 7, rows := regTabMTR },
  { side := 1, base := 0x41, n := 8, events := 2, first := 48, alwaysOn := false, sealable := true, stride := 0x4, count := 10, rows := regTabSNS }] ++
  [
  { side := 1, base := 0x50, n := 1, events := 6, first := 64, alwaysOn := false, sealable := true, stride := 0x10, count := 153, rows := regTabCH },
  { side := 1, base := 0x51, n := 1, events := 4, first := 72, alwaysOn := false, sealable := true, stride := 0x4, count := 512, rows := regTabTRF },
  { side := 1, base := 0x52, n := 1, events := 4, first := 76, alwaysOn := false, sealable := true, stride := 0x10, count := 8, rows := regTabDMD },
  { side := 1, base := 0x53, n := 1, events := 2, first := 70, alwaysOn := false, sealable := true, stride := 0x10, count := 16, rows := regTabFSRM },
  { side := 1, base := 0x60, n := 4, events := 4, first := 80, alwaysOn := false, sealable := false, stride := 0x10, count := 4, rows := regTabVP },
  { side := 1, base := 0x70, n := 1, events := 8, first := 96, alwaysOn := false, sealable := false, stride := 0x10, count := 64, rows := regTabMESH },
  { side := 1, base := 0x78, n := 1, events := 8, first := 104, alwaysOn := false, sealable := false, stride := 0x20, count := 48, rows := regTabLSW },
  { side := 1, base := 0x7c, n := 1, events := 8, first := 112, alwaysOn := false, sealable := false, stride := 0x20, count := 64, rows := regTabTHM },
  { side := 1, base := 0xa0, n := 1, events := 2, first := 126, alwaysOn := true, sealable := false, stride := 0x0, count := 0, rows := regTabFTIME }]

/-- The header registers of every page, offsets 0x000 to 0x03F (R25, R27, R31, R33, R34), apart from PAGE_ID and
PAGE_CAP, whose words follow from the page. EVT_CLR holds nothing of its own (R25: reset '—'); that a read of it gives 0
is the model's choice (DESIGN CHOICE, notes/assumptions/37.md). -/
def headerRows (p : PageRow) : List RegRow :=
  let en := if p.alwaysOn || p.sealable then 1 else 0
  [ rw 0x00 0 1 0 1 0 0 false [fd 24 8 .ro .any, fd 8 8 .ro .any, fd 0 8 .ro .any],
    rw 0x04 0 1 0 1 0x100 0 false [fd 8 8 .ro .any, fd 0 8 .ro .any],
    rw 0x08 0 1 0 1 (p.stride * 0x100000 + p.count) 0 false [fd 20 12 .ro .any, fd 0 16 .ro .any],
    rw 0x0C 0 1 0 1 en (if p.sealable then 1 else 0) false [fd 2 1 .rw .any, fd 1 1 .wo .any, fd 0 1 .rw .any],
    rw 0x10 0 1 0 1 en 0 false [fd 16 9 .ro .any, fd 8 8 .ro .any, fd 7 1 .w1c .any, fd 4 1 .ro .any,
      fd 3 1 .ro .any, fd 2 1 .ro .any, fd 1 1 .ro .any, fd 0 1 .ro .any],
    rw 0x20 0 1 0 1 0 0 false [fd 0 32 .ro .any],
    rw 0x24 0 1 0 1 0 0 false [fd 0 32 .rw (.mask (2 ^ p.events - 1))],
    rw 0x28 0 1 0 1 0 0 false [fd 0 32 .wo .any],
    rw 0x2C 0 1 0 1 8 0 false
      (if p.side = 0 then [fd 0 4 .rw .any] else [fd 8 1 .rw .any, fd 0 4 .rw .any]),
    rw 0x30 0 1 0 1 0 0 false [fd 0 32 .wo .any],
    rw 0x34 0 1 0 1 (if p.sealable then 2 else 0) 0 false [fd 16 16 .ro .any, fd 1 1 .ro .any, fd 0 1 .ro .any] ]

/-- The pages of a side. -/
def pagesOf (side : Nat) : List PageRow := if side = 0 then hostPages else fieldPages

/-- The page a page key names, with its instance number: none for an index the maps do not list. -/
def pageAt (pg : Nat) : Option (PageRow × Nat) :=
  let idx := pg % 0x100000 / 0x1000
  match (pagesOf (pg / 0x100000)).find? (fun p => decide (p.base ≤ idx ∧ idx < p.base + p.n)) with
  | none => none
  | some p => some (p, idx - p.base)

/-- The instance of a row at an offset: first and second index. -/
def RegRow.index (r : RegRow) (o : Nat) : Option (Nat × Nat) :=
  if o < r.off then none
  else if r.st2 = 0 then
    if r.st = 0 then (if o = r.off then some (0, 0) else none)
    else if (o - r.off) % r.st = 0 ∧ (o - r.off) / r.st < r.cnt then some ((o - r.off) / r.st, 0) else none
  else
    let i := (o - r.off) / r.st
    let d := (o - r.off) % r.st
    if i < r.cnt ∧ d % r.st2 = 0 ∧ d / r.st2 < r.cnt2 then some (i, d / r.st2) else none

/-- The row of a page at an offset, with the instance's first index. -/
def rowAt (p : PageRow) (o : Nat) : Option (RegRow × Nat) :=
  ((if o < 0x40 then headerRows p else p.rows).findSome? fun r =>
    match r.index o with
    | some (i, _) => some (r, i)
    | none => none)

/-- The receive buffers of a lane per class, which CLS.CRED shows (R313). -/
def classBuffers (c : Nat) : Nat :=
  match c with
  | 0 => 8
  | 1 => 8
  | 2 => 16
  | _ => 32

/-- Rights after reset of one field page index in the permission table: reads for every listed page (R437). -/
def permReset (j : Nat) : Nat :=
  (List.range 8).foldl (fun w i =>
    match pageAt (0x100000 + (8 * j + i) * 0x1000) with
    | some _ => w + 16 ^ i
    | none => w) 0

/-- The word a register holds after power-on reset, by its key. Registers the tables do not list read 0 (R22). -/
def resetWord (a : Nat) : Word :=
  let pg := a / 0x1000 * 0x1000
  let o := a % 0x1000
  match pageAt pg with
  | none => 0
  | some (p, inst) =>
    if o = 0 then BitVec.ofNat 32 ((if p.side = 0 then 0x48000000 else 0x46000000) + (p.base + inst) * 0x100 + inst)
    else match rowAt p o with
      | none => 0
      | some (r, i) =>
        if p.side = 1 ∧ p.base = 0x20 ∧ r.off = 0x400 then BitVec.ofNat 32 (i * 8192)
        else if p.side = 1 ∧ p.base = 0x18 ∧ r.off = 0x400 then BitVec.ofNat 32 (permReset i)
        else if p.side = 0 ∧ p.base = 0x50 ∧ r.off = 0x400 then BitVec.ofNat 32 (classBuffers i)
        else if p.side = 1 ∧ p.base = 0x08 ∧ r.off = 0x400 ∧ 64 ≤ i ∧ i < 80 then BitVec.ofNat 32 (r.rst + 0x10000)
        else BitVec.ofNat 32 r.rst

end Sys2Proof.Machine
end

