-- ==== Sys2Proof/Machine/Ops.lean ====
section
/-!
DEFINITION. The named operations over registers, memory and outputs that every meaning is built from.
-/

namespace Sys2Proof.Machine

open Sys2Proof.Num

/-- The value of a field in a register word. -/
def Fld.of (F : Fld) (x : Word) : Nat := (x >>> F.lo).toNat % 2 ^ F.w

/-- A register word with a field replaced by the low bits of a value. -/
def Fld.ins (F : Fld) (x : Word) (v : Nat) : Word :=
  (x &&& ~~~ BitVec.ofNat 32 ((2 ^ F.w - 1) * 2 ^ F.lo)) ||| BitVec.ofNat 32 (v % 2 ^ F.w * 2 ^ F.lo)

/-- The stored word of a register, by key. -/
def wordOf (b : Blk) (a : Nat) : Word := Tab.at' resetWord b.regs a

/-- Store a register word. -/
def setWord (b : Blk) (a : Nat) (v : Word) : Blk := { b with regs := Tab.put resetWord b.regs a v }

/-- The value of a field. -/
def rd (b : Blk) (F : Fld) : Nat := F.of (wordOf b F.a)

/-- Store a field; higher bits of the value are dropped. -/
def wr (b : Blk) (F : Fld) (v : Nat) : Blk := setWord b F.a (F.ins (wordOf b F.a) v)

/-- A one-bit field as a truth value. -/
def isOn (b : Blk) (F : Fld) : Bool := decide (rd b F ≠ 0)

/-- Store a one-bit field. -/
def wrB (b : Blk) (F : Fld) (v : Bool) : Blk := wr b F (b2n v)

/-- The signed value of a field. -/
def rdI (b : Blk) (F : Fld) : Int := toInt F.w (rd b F)

/-- Store a signed value, wrapping. -/
def wrI (b : Blk) (F : Fld) (v : Int) : Blk := wr b F (ofInt F.w v)

/-- Store a signed value, saturating at the field's limits. -/
def wrS (b : Blk) (F : Fld) (v : Int) : Blk := wr b F (ofInt F.w (satS F.w v))

/-- Store a count, saturating at the field's limit. -/
def wrU (b : Blk) (F : Fld) (v : Nat) : Blk := wr b F (satU F.w v)

/-- Add to a saturating counter. -/
def incSat (b : Blk) (F : Fld) (n : Nat := 1) : Blk := wr b F (satU F.w (rd b F + n))

/-- Add to a wrapping counter. -/
def incWrap (b : Blk) (F : Fld) (n : Nat := 1) : Blk := wr b F (rd b F + n)

/-- A 64-bit pair, by the field of its low word (R24: the low word comes first). -/
def rd64 (b : Blk) (F : Fld) : Nat := (wordOf b F.a).toNat + 2 ^ 32 * (wordOf b (F.a + 4)).toNat

/-- Store a 64-bit pair, wrapping. -/
def wr64 (b : Blk) (F : Fld) (v : Nat) : Blk :=
  setWord (setWord b F.a (BitVec.ofNat 32 v)) (F.a + 4) (BitVec.ofNat 32 (v / 2 ^ 32))

/-- A bit of a field. -/
def rdBit (b : Blk) (F : Fld) (i : Nat) : Bool := (rd b F).testBit i

/-- Store a bit of a field. -/
def wrBit (b : Blk) (F : Fld) (i : Nat) (v : Bool) : Blk := wr b F (Num.setBit (rd b F) i v)

/-- Append a message to what the module has sent. -/
def emit (b : Blk) (m : Msg) : Blk := { b with io := { b.io with out := b.io.out ++ [m] } }

/-- The answer to the access just made. -/
def answer (b : Blk) (r : Resp) : Blk := { b with io := { b.io with resp := r } }

/-- The free value at the present counter; `spend` advances the counter. -/
def freeVal (b : Blk) : Nat := Config.freeValue b.io.free

/-- Advance the counter of the free values. -/
def spend (b : Blk) : Blk := { b with io := { b.io with free := b.io.free + 1 } }

/-- Apply an operation if a condition holds. -/
def when (c : Bool) (f : Blk → Blk) (b : Blk) : Blk := if c then f b else b

/-- Apply an operation for each element of a list, in order. -/
def forEach {α : Type} (l : List α) (f : α → Blk → Blk) (b : Blk) : Blk := l.foldl (fun b x => f x b) b

/-! Header fields of a page, by page key (R25). -/

def hFRZ (pg : Nat) : Fld := ⟨pg + 0x0C, 2, 1⟩
def hEN (pg : Nat) : Fld := ⟨pg + 0x0C, 0, 1⟩
def hREJCNT (pg : Nat) : Fld := ⟨pg + 0x10, 8, 8⟩
def hWRREJ (pg : Nat) : Fld := ⟨pg + 0x10, 7, 1⟩
def hBUSY (pg : Nat) : Fld := ⟨pg + 0x10, 1, 1⟩
def hENABLED (pg : Nat) : Fld := ⟨pg + 0x10, 0, 1⟩
def hRAW (pg : Nat) : Fld := ⟨pg + 0x20, 0, 32⟩
def hEVEN (pg : Nat) : Fld := ⟨pg + 0x24, 0, 32⟩
def hFWD (pg : Nat) : Fld := ⟨pg + 0x2C, 8, 1⟩
def hPRIO (pg : Nat) : Fld := ⟨pg + 0x2C, 0, 4⟩

/-- Whether a page's block is enabled (R28). -/
def enabled (b : Blk) (pg : Nat) : Bool := isOn b (hEN pg)

/-- A rejected write (R534): WR_REJ sets and REJ_CNT increments, saturating at 255. -/
def reject (b : Blk) (pg : Nat) : Blk := wrB (incSat b (hREJCNT pg)) (hWRREJ pg) true

/-! Events (R31, R32, R472). -/

/-- The field pages with their first event number and events per instance, page by page. -/
def fieldEventPages : List (Nat × Nat × Nat) :=
  fieldPages.flatMap fun p =>
    (List.range p.n).map fun k => (0x100000 + (p.base + k) * 0x1000, p.first + k * p.events, p.events)

/-- The raw state of the host summaries 224-255: bit k is the OR of the raw bits of field events 4k to 4k+3 that their
page forwards: FWD set and the event enabled (R32). -/
def fwdRaw (b : Blk) : Nat :=
  fieldEventPages.foldl (fun acc e =>
    if isOn b (hFWD e.1) then
      (bitsOf e.2.2 (rd b (hRAW e.1) &&& rd b (hEVEN e.1))).foldl (fun a k => a ||| 2 ^ ((e.2.1 + k) / 4)) acc
    else acc) 0

/-- The field event number of a bit of a field page. -/
def fieldEventNo (pg k : Nat) : Nat :=
  match fieldEventPages.find? (fun e => e.1 == pg) with
  | some e => e.2.1 + k
  | none => 0

/-- Set an event bit whatever EN says: the paths that do not depend on EN (R28). An edge of a forwarded field event sends
EVT_FWD (R472). -/
def raiseHw (pg k : Nat) (b : Blk) : Blk :=
  let was := rdBit b (hRAW pg) k
  let b := wrBit b (hRAW pg) k true
  if 0x100000 ≤ pg ∧ !was ∧ isOn b (hFWD pg) ∧ rdBit b (hEVEN pg) k then
    emit b (.evtFwd (fieldEventNo pg k) (fwdRaw b))
  else b

/-- Raise an event of a page's block; a disabled block raises none (R28). -/
def raise (pg k : Nat) (b : Blk) : Blk := if enabled b pg then raiseHw pg k b else b

/-! Time stamps (R200). -/

/-- A host domain: 0 TA, 1 TB. -/
def domOf (b : Blk) (d : Nat) : DomSt := if d = 0 then b.time.ta else b.time.tb

/-- Replace a host domain. -/
def setDom (d : Nat) (x : DomSt) (b : Blk) : Blk :=
  if d = 0 then { b with time := { b.time with ta := x } } else { b with time := { b.time with tb := x } }

/-- A field copy: 0 TA, 1 TB. -/
def copyOf (b : Blk) (d : Nat) : CopySt := if d = 0 then b.time.fa else b.time.fb

/-- Replace a field copy. -/
def setCopy (d : Nat) (x : CopySt) (b : Blk) : Blk :=
  if d = 0 then { b with time := { b.time with fa := x } } else { b with time := { b.time with fb := x } }

/-- E of a host domain in ns: 0 TA, 1 TB. -/
def eHost (b : Blk) (d : Nat) : Nat := (domOf b d).e / 2 ^ 32 % 2 ^ 64

/-- E of a field copy in ns. -/
def eField (b : Blk) (d : Nat) : Nat := (copyOf b d).e / 2 ^ 32 % 2 ^ 64

/-- E of the followed domain on the field side (R212). -/
def eFollow (b : Blk) : Nat := eField b b.time.fdom

/-- The legal-time domain as the host shows it. -/
def legalDom (b : Blk) : Nat := rd b SYS.MODE.LEGAL_DOM

/-! Daybook requests (R417, R418). -/

/-- Queue a hardware record of host origin; once sealed every request is refused (R422). -/
def hostRecord (code : Nat) (perm : Bool) (payload : List Byte) (b : Blk) : Blk :=
  if isOn b DBK.DSTAT.SEALED then b else
    let d := legalDom b
    let r : DbReq :=
      { code := code, perm := perm, time := eHost b d, payload := payload, noTime := !isOn b (TIME.DOM.STAT.SET d) }
    let q := b.daybook.queue ++ [r]
    wrU { b with daybook := { b.daybook with queue := q } } DBK.DSTAT.QUEUE q.length

/-- Send a record of field origin across the barrier as DBK_ENTRY (R433). -/
def fieldRecord (code : Nat) (payload : List Byte) (b : Blk) : Blk := emit b (.dbkEntry code payload)

/-! Memory (R15, R17). Host addresses are their own keys; field addresses follow from 2^32, the metrology core's TCM
from 3 * 2^32. -/

/-- The memory windows of R17. -/
inductive Region where
  | bootRom | hostSram | hostPages | daybook | bootFlash | dram
  | tcm | fieldSram | fieldFlash | fieldMram | fieldPages
deriving DecidableEq, Repr

/-- The window an address of a side's map lies in; none outside the windows. -/
def regionAt (side : Side) (a : Nat) : Option Region :=
  match side with
  | .hostSide =>
    if a < 0x10000 then some .bootRom
    else if 0x10000000 ≤ a ∧ a < 0x10400000 then some .hostSram
    else if 0x20000000 ≤ a ∧ a < 0x20100000 then some .hostPages
    else if 0x30000000 ≤ a ∧ a < 0x30800000 then some .daybook
    else if 0x40000000 ≤ a ∧ a < 0x42000000 then some .bootFlash
    else if 0x80000000 ≤ a ∧ a < 0xE0000000 then some .dram
    else none
  | .fieldSide =>
    if a < 0x40000 then some .tcm
    else if 0x40000000 ≤ a ∧ a < 0x40200000 then some .fieldSram
    else if 0x50000000 ≤ a ∧ a < 0x50800000 then some .fieldFlash
    else if 0x58000000 ≤ a ∧ a < 0x58200000 then some .fieldMram
    else if 0x60000000 ≤ a ∧ a < 0x60100000 then some .fieldPages
    else none

/-- The memory key of an address as an initiator reaches it: the TCM is private to its core. -/
def memKey (i : Init) (a : Nat) : Nat :=
  match i.side with
  | .hostSide => a
  | .fieldSide => if a < 0x40000 ∧ i = .met then 3 * 2 ^ 32 + a else 2 ^ 32 + a

/-- What a byte of memory that nothing has written reads as: 0xFF in the two flashes (erased), 0 elsewhere
(notes/assumptions/4.md). -/
def memDefault (k : Nat) : Byte :=
  if 0x40000000 ≤ k ∧ k < 0x42000000 then 0xFF
  else if 2 ^ 32 + 0x50000000 ≤ k ∧ k < 2 ^ 32 + 0x50800000 then 0xFF
  else 0

/-- One byte of memory. -/
def memByte (b : Blk) (k : Nat) : Byte := Tab.at' memDefault b.mem k

/-- Store one byte. -/
def setByte (b : Blk) (k : Nat) (v : Byte) : Blk := { b with mem := Tab.put memDefault b.mem k v }

/-- `n` bytes from a key on. -/
def memBytes (b : Blk) (k n : Nat) : List Byte := (List.range n).map fun i => memByte b (k + i)

/-- A little-endian value of `n` bytes. -/
def memLE (b : Blk) (k n : Nat) : Nat := ofLE (memBytes b k n)

/-- The check mark of the word a key lies in. -/
def markOf (b : Blk) (k : Nat) : Mark := Tab.at' (fun _ => Mark.clean) b.memory.marks (k / 4)

/-- Set the check mark of the word a key lies in. -/
def setMark (b : Blk) (k : Nat) (m : Mark) : Blk :=
  { b with memory := { b.memory with marks := Tab.put (fun _ => Mark.clean) b.memory.marks (k / 4) m } }

/-- Store bytes from a key on, byte by byte, without touching check marks. -/
def putBytes (k : Nat) (l : List Byte) (b : Blk) : Blk :=
  match l with
  | [] => b
  | x :: t => putBytes (k + 1) t (setByte b k x)

/-- The memory's canonical form: keys strictly rising, no byte listed that reads as its default. -/
abbrev Memory.wf (m : List Host.Cell) : Prop := Tab.wf memDefault m = true

/-- The register map's canonical form. -/
abbrev Regs.wf (r : Tab Word) : Prop := Tab.wf resetWord r = true

/-! The form of every meaning. -/

/-- What every meaning answers. -/
abbrev Out := Host.Outcome State Fault Refusal

/-- Run an operation on the block of a state; the queue is left as it is. -/
def run (f : Blk → Blk) (s : State) : Out := .next { s with blk := f s.blk }

/-! The pair (chapter 14). -/

/-- The module belongs to a pair (R43). -/
def paired (b : Blk) : Bool := rd b SYS.MODE.PAIR == 1 || rd b SYS.MODE.PAIR == 2

/-- This twin is active: one that asserts PAIR_FAIL_OUT has given up (R346), whether or not its host has heard of it. -/
def isActive (b : Blk) : Bool := isOn b SYS.MODE.ACTIVE && b.red.fail.isNone

end Sys2Proof.Machine
end

