-- ==== Sys2Proof/Machine/ModOps.lean ====
section
/-!
DEFINITION. The phase modulators (chapter 6): the operations the sequencer, the loops and the stops share.
-/

namespace Sys2Proof.Machine

open Sys2Proof.Num

/-- A modulator. -/
def modOf (b : Blk) (g : Nat) : ModSt := match g with
  | 0 => b.mod0
  | 1 => b.mod1
  | _ => b.mod2

/-- Replace a modulator. -/
def setMod (g : Nat) (x : ModSt) (b : Blk) : Blk := match g with
  | 0 => { b with mod0 := x }
  | 1 => { b with mod1 := x }
  | _ => { b with mod2 := x }

/-- This device's position in its stack. -/
def myPos (b : Blk) : Nat := rd b SYS.MODE.POS

/-- The stack group index of a local group (R52). -/
def gIdx (b : Blk) (g : Nat) : Nat := 3 * myPos b + g

/-- The trunk the plan puts a stack group on (R128); 16 none. -/
def planTrunk (b : Blk) (k : Nat) : Nat :=
  ((List.range 16).find? fun t => (rd b (FCTR.TRUNK_PLAN.GRP_MASK t)).testBit k).getD 16

/-- The active phases of a group (R117). -/
def phAct (b : Blk) (g : Nat) : Nat :=
  let en := rd b (MOD.PHASES.PH_EN g)
  en - (en &&& rd b (MOD.GSTAT.PH_FAULT g))

/-- The number of active phases. -/
def nAct (b : Blk) (g : Nat) : Nat := popcount 8 (phAct b g)

/-- The module may carry power: valid straps on both sides, and joined once (R44, R46, R495). -/
def mayPower (b : Blk) : Bool :=
  !isOn b SYS.STRAP.STRAP_ERR && !isOn b FSYS.STRAP.STRAP_ERR && decide (rd b SYS.MODE.SITE_STATE ≠ 0)

/-- Whether GATE_EN of a group is present (R115, R138). -/
def gateOn (b : Blk) (g : Nat) : Bool := decide ((modOf b g).gate = 0) && enabled b (pgMOD g) && mayPower b

/-- The clamp of the sequencer: 4 × ZERO_I in steps 2 to 7 of a transfer (R116). -/
def modClamp (b : Blk) (g : Nat) : Nat := if (modOf b g).clamp then 4 * rd b TRUNK.ZERO.ZERO_I else 65535

/-- The applied reference of a group (R116); nothing earlier is replayed once GATE_EN returns (R138). -/
def applied (b : Blk) (g : Nat) : Nat :=
  if gateOn b g && !(modOf b g).hold then min (rd b (MOD.IGPK.CMD g)) (modClamp b g) else 0

/-- The slope in 0.1 A/µs (R123). -/
def modSlope (b : Blk) (g : Nat) : Nat :=
  if isOn b (MOD.GCTL.SLOPE_MODE g) then
    (rd b (MOD.SLOPE.K_SLOPE g) * rd b (MOD.MEAS.VGRP g) + 2 ^ 19) / 2 ^ 20
  else rd b (MOD.SLOPE.SLOPE g)

/-- Whether a group may switch (R136). -/
def maySwitch (b : Blk) (g : Nat) : Bool :=
  enabled b (pgMOD g) && (modOf b g).calDone && decide (rd b (MOD.SCALE.FS_I g) ≠ 0) &&
    decide (rd b (MOD.SCALE.VG_FS g) ≠ 0) && decide (rd b (MOD.LIMIT.IPK_MAX g) ≠ 0) && decide (modSlope b g ≠ 0) && gateOn b g &&
    !isOn b (MOD.GSTAT.PF_STOP g) &&
    (decide (rd b (MOD.GCTL.SYNC_SEL g) = 0) || isOn b (MOD.GSTAT.LOCKED g) || isOn b (MOD.GSTAT.HOLDOVER g))

/-- Whether the device reports a group available (R136). -/
def grpAvail (b : Blk) (g : Nat) : Bool := maySwitch b g && decide (rd b (MOD.GSTAT.PH_FAULT g) = 0)

/-- Every PWM output of a group goes low. -/
def pwmLow (g : Nat) (b : Blk) : Blk := setMod g { modOf b g with pwmh := 0, pwml := 0, step := [] } b

/-- GATE_EN of a group is removed for a cause (R138). -/
def gateRemove (g cause : Nat) (b : Blk) : Blk :=
  let was := decide ((modOf b g).gate = 0)
  let b := pwmLow g b
  let b := setMod g { modOf b g with gate := (modOf b g).gate ||| 2 ^ cause, hold := true, quiet := true } b
  let b := wrB b (MOD.GSTAT.HW_OFF g) (decide ((modOf b g).gate % 16 ≠ 0))
  if was then raise (pgMOD g) 7 b else b

/-- A cause of removal clears; GATE_EN returns with the last one (R138). -/
def gateRestore (g cause : Nat) (b : Blk) : Blk :=
  let x := modOf b g
  let b := setMod g { x with gate := Num.setBit x.gate cause false } b
  wrB b (MOD.GSTAT.HW_OFF g) (decide ((modOf b g).gate % 16 ≠ 0))

/-- Put the sequencer's clamp on or off a group (R116). -/
def setClamp (g : Nat) (on : Bool) (b : Blk) : Blk :=
  wrB (setMod g { modOf b g with clamp := on } b) (MOD.GSTAT.CLAMPED g) on

/-- Block a local group: it is not assigned until GRP_ARM (R62). -/
def blockGroup (g : Nat) (b : Blk) : Blk := wrB b (FCTR.GRP_STAT.BLOCKED (gIdx b g)) true

/-- Whether a group is at zero current (R98). -/
def zeroCurrent (b : Blk) (g : Nat) : Bool :=
  decide (rd b (MOD.MEAS.IGRP g) ≤ min (rd b TRUNK.ZERO.ZERO_I) (rd b (FCTR.GRP_RATE.I_RATE (gIdx b g)) / 100))

/-- Two cycle numbers compared modulo 2^32 (R20): the first is at or after the second. -/
def cycAfter (x y : Nat) : Bool := decide ((x + 2 ^ 32 - y % 2 ^ 32) % 2 ^ 32 < 2 ^ 31)

/-- The port-loop cycle that runs now (R20), its low 32 bits. -/
def cycleNow (b : Blk) : Nat := eFollow b / (max 1 (rd b CE.PLOOP.PERIOD_US) * 1000) % 2 ^ 32

/-- The first cycle number is older than the second (R20). -/
def cycOlder (x y : Nat) : Bool :=
  let d := (y + 2 ^ 32 - x % 2 ^ 32) % 2 ^ 32
  decide (1 ≤ d ∧ d < 2 ^ 31)

/-! Page locks (R33). -/

/-- The lock of a page. -/
def lockOf (b : Blk) (pg : Nat) : LockSt := Tab.at' (fun _ => {}) b.acc.locks pg

/-- Replace the lock of a page. -/
def setLock (b : Blk) (pg : Nat) (l : LockSt) : Blk :=
  { b with acc := { b.acc with locks := Tab.put (fun _ => {}) b.acc.locks pg l } }

/-- Whether an initiator may write RWL fields of a page: it completed the unlock sequence and the window is open. -/
def unlockedFor (b : Blk) (i : Init) (pg : Nat) : Bool :=
  (lockOf b pg).win == some i && decide (0 < (lockOf b pg).remain)


end Sys2Proof.Machine
end

