-- ==== Sys2Proof/Machine/LaneOps.lean ====
section
/-!
DEFINITION. Sending on the lanes (chapter 13): classes, credits, sequence numbers, and the routes a message takes.
-/

namespace Sys2Proof.Machine

open Sys2Proof.Num

/-- The deterministic pages (chapter 14), host first, in ascending page index. -/
def detPages : List Nat :=
  [pgFCTR, pgBOOK, pgTRUNK, pgMOD 0, pgMOD 1, pgMOD 2, pgCE, pgLUT, pgMTR] ++ (List.range 8).map pgSNS ++
    [pgCH, pgTRF, pgDMD] ++ (List.range 4).map pgVP ++ [pgMESH, pgLSW, pgTHM]

def detPage (pg : Nat) : Bool := detPages.contains pg

/-- This module's site address (R312): stack, position, twin. -/
def siteAddr (b : Blk) : Nat :=
  rd b SYS.MODE.STACK % 16 * 16 + rd b SYS.MODE.POS * 4 + (if rd b SYS.MODE.PAIR = 2 then 2 else 0)

def laneOf (b : Blk) (n : Nat) : LaneSt := Tab.at' (fun _ => {}) b.lanes.lane n
def setLane (n : Nat) (x : LaneSt) (b : Blk) : Blk :=
  { b with lanes := { b.lanes with lane := Tab.put (fun _ => {}) b.lanes.lane n x } }

/-- Whether a lane carries frames. -/
def laneUp (b : Blk) (n : Nat) : Bool := isOn b (LANE.STAT.UP n)

/-- Whether a lane is named in HLANES (R322). -/
def isUplink (b : Blk) (n : Nat) : Bool := decide (rd b SYS.MODE.POS = 0 ∧ rd b SYS.MODE.ROLE ≠ 0) && rdBit b STK.HLANES.UP n
def isDownlink (b : Blk) (n : Nat) : Bool :=
  decide (rd b SYS.MODE.POS = 0 ∧ rd b SYS.MODE.ROLE ≠ 0) && rdBit b STK.HLANES.DOWN n

/-- The lanes of R317 between positions of the stack. -/
def isStackLane (b : Blk) (n : Nat) : Bool :=
  decide (rd b SYS.MODE.ROLE ≠ 0) && (decide (n < 4) || decide (10 ≤ n ∧ n < 14)) &&
    decide (n % 10 ≠ rd b SYS.MODE.POS) && !isUplink b n && !isDownlink b n

/-- The live direct lanes to a position, to both its twins. -/
def lanesTo (b : Blk) (p : Nat) : List Nat := [p, 10 + p].filter fun n => isStackLane b n && laneUp b n

/-- The same, fast enough for RT frames (R315). -/
def rtLanesTo (b : Blk) (p : Nat) : List Nat := (lanesTo b p).filter fun n => !isOn b (LANE.STAT.RATE_LOW n)

/-- The first queued frame of a class that a lane may send, with the rest of the queue: a credit of the class is held; a
slow lane carries no RT frame (R313 to R315). -/
def laneNext (b : Blk) (n : Nat) : Option (Nat × LaneItem × List (Nat × LaneItem)) :=
  let x := laneOf b n
  ([0, 1, 2, 3].find? fun c =>
    decide (0 < x.credits.getD c 0) && x.queue.any fun e => e.1 == c).bind fun c =>
      (x.queue.find? fun e => e.1 == c).map fun e => (c, e.2, x.queue.erase e)

/-- A relayed frame under a new SEQ and one hop fewer, its CRC renewed (R312). -/
def relayBytes (f : List Byte) (seq : Nat) : List Byte :=
  let body := (f.take 1 ++ le 1 ((f.getD 1 0).toNat - 1) ++ (f.drop 2).take 2 ++ le 2 seq ++ f.drop 6)
  let body := body.take (body.length - 4)
  body ++ le 4 (Crc.crc32 body)

/-- What a lane item is on the wire. -/
def laneMsg (n c seq : Nat) (t : LaneItem) : Msg := match t with
  | .own dst m => .laneTx n c seq dst m
  | .raw f => .laneRaw n (relayBytes f seq)

/-- A lane sends while frames are queued and credits are held: RT first, then SYNC, MGMT and BULK (R313, R314). -/
def lanePump : Nat → Nat → Blk → Blk
  | 0, _, b => b
  | k + 1, n, b =>
    if !laneUp b n then b else
    match laneNext b n with
    | none => b
    | some (c, t, q) =>
      let x := laneOf b n
      let seq := x.txSeq.getD c 0
      let un := if 2 ≤ c then x.unacked ++ [(c, seq, t)] else x.unacked
      let x := { x with
        queue := q, unacked := un, credits := x.credits.set c (x.credits.getD c 0 - 1),
        txSeq := x.txSeq.set c ((seq + 1) % 65536) }
      lanePump k n (incWrap (emit (setLane n x b) (laneMsg n c seq t)) (LINK.CLS.TX.FRAMES c))

/-- Send what a lane may. -/
def laneGo (n : Nat) (b : Blk) : Blk := lanePump (laneOf b n).queue.length n b

/-- Queue a frame on a lane and send what may be sent. A standby transmits only on L4 and L5 (R341); a slow lane carries
no RT frame (R315). -/
def laneQueue (n c : Nat) (t : LaneItem) (b : Blk) : Blk :=
  if (paired b && !isActive b && decide (n ≠ 4 ∧ n ≠ 5)) || (c == 0 && isOn b (LANE.STAT.RATE_LOW n)) then b
  else
    let x := laneOf b n
    laneGo n (setLane n { x with queue := x.queue ++ [(c, t)] } b)

/-- The lanes a MGMT or BULK frame for an address takes, and whether it goes through a relay (R320, R322): the partner on L4
and L5; a position of the stack on its direct lanes, else through the lowest position that has live lanes to both ends;
another stack through the stack master, and from there down or up. A report held tells which lanes its position has. -/
def route (b : Blk) (addr : Nat) : List Nat × Bool :=
  let own := siteAddr b
  let same := decide (addr / 16 = own / 16)
  let me := rd b SYS.MODE.POS
  let p := if same then addr / 4 % 4 else 0
  if p = me then
    (if same then [4, 5].filter (laneUp b)
     else
       let d := Tab.at' (fun _ => 0) b.lanes.down (addr / 16)
       if d ≠ 0 ∧ laneUp b (d - 1) then [d - 1]
       else (List.range 16).filter fun n => isUplink b n && laneUp b n, false)
  else
    let direct := lanesTo b p
    if !direct.isEmpty then (direct, false)
    else
      let reaches := fun r =>
        let rep := Tab.at' (fun _ => ({} : Report)) b.factor.reports r
        rep.grps.isEmpty || rep.reaches p
      match (List.range 4).find? fun r => r != p && r != me && !(lanesTo b r).isEmpty && reaches r with
      | some r => ((lanesTo b r).take 1, true)
      | none => ([], false)

/-- Send a message of class MGMT or BULK to an address; with no lane it waits (R326). A module sends itself nothing. -/
def sendTo (addr c : Nat) (m : Msg) (b : Blk) : Blk :=
  if rd b SYS.MODE.ROLE = 0 ∧ !paired b then b
  else if addr / 4 = siteAddr b / 4 ∧ !paired b then b
  else
    let r := route b addr
    let b := when r.2 (raise pgLINK 6) b
    if r.1.isEmpty then { b with lanes := { b.lanes with wait := b.lanes.wait ++ [(c, addr, m)] } }
    else forEach r.1 (fun n b => laneQueue n c (.own addr m) b) b

/-- The address of a position of this stack, of the manager, of a stack's master. -/
def posAddr (b : Blk) (p : Nat) : Nat := siteAddr b / 16 * 16 + 4 * p
def toPos (p c : Nat) (m : Msg) (b : Blk) : Blk :=
  if p = rd b SYS.MODE.POS then b else sendTo (posAddr b p) c m b
def toManager (m : Msg) (b : Blk) : Blk := if rd b SYS.MODE.ROLE = 1 then sendTo 0 2 m b else b
def toStack (s : Nat) (m : Msg) (b : Blk) : Blk := if s = siteAddr b / 16 then b else sendTo (16 * s) 2 m b

/-- To every other position of the stack on the direct lanes; to one whose report is held and whose direct lanes are down,
through a relay (R320). -/
def toMembers (m : Msg) (b : Blk) : Blk :=
  forEach (List.range 4) (fun p b =>
    let known := !(Tab.at' (fun _ => ({} : Report)) b.factor.reports p).grps.isEmpty
    if p = rd b SYS.MODE.POS then b
    else if (lanesTo b p).isEmpty && known && !(route b (posAddr b p)).1.isEmpty then sendTo (posAddr b p) 2 m b
    else forEach (lanesTo b p) (fun n b => laneQueue n 2 (.own 0xFD m) b) b) b

/-- To the partner on both lockstep lanes (R337). -/
def toPartner (c : Nat) (m : Msg) (b : Blk) : Blk :=
  if paired b then
    forEach [4, 5] (fun n b =>
      if laneUp b n && !isOn b (LANE.STAT.RATE_LOW n) then laneQueue n c (.own 0xFF m) b else b) b
  else b

/-- An RT frame on the direct lanes to positions of the stack, this device's own apart (R319). -/
def sendRt (ps : List Nat) (m : Msg) (b : Blk) : Blk :=
  forEach ((List.range 4).filter fun p => ps.contains p && p != rd b SYS.MODE.POS) (fun p b =>
    forEach (rtLanesTo b p) (fun n b => laneQueue n 0 (.own 0xFF m) b) b) b

/-- To each device that holds a group of a trunk's K_t, by the plan in force (R319). -/
def toTrunks (ts : List Nat) (m : Msg) (b : Blk) : Blk :=
  sendRt (ts.flatMap fun t => (bitsOf 12 (rd b (FCTR.TRUNK_PLAN.GRP_MASK t))).map (· / 3)) m b

/-- To the owner of a trunk, and during a handover to the old owner beside the new one (R319). -/
def toOwner (t : Nat) (m : Msg) (b : Blk) : Blk :=
  let o := Tab.at' (fun _ => (0, 0, 0)) b.lanes.old t
  let cyc := cycleNow b
  let old := if o.1 ≠ 0 ∧ (o.2.2 + 2 ^ 32 - cyc) % 2 ^ 32 < 2 ^ 31 then [o.1 - 1] else []
  sendRt ((if isOn b (FCTR.TRUNK_PLAN.OWNED t) then [rd b (FCTR.TRUNK_PLAN.OWNER_POS t)] else []) ++ old) m b

/-- The messages that waited for a lane are sent again (R326). -/
def laneFlush (b : Blk) : Blk :=
  let l := b.lanes.wait
  forEach l (fun e b => sendTo e.2.1 e.1 e.2.2 b) { b with lanes := { b.lanes with wait := [] } }

/-- The present tick of the deterministic domain (R338), its low 32 bits. -/
def tickNow (b : Blk) : Nat := eHost b b.time.hostFdom / 1000 % 2 ^ 32

/-- The active of a pair sends an asynchronous input's ticket (R340): released LAG ticks after its arrival, on the active
too. Use lists and digests are for the standby alone. -/
def ticketed (src : Nat) (content : List Byte) (b : Blk) (input : Option Input := none) : Blk :=
  if paired b && isActive b then
    let m : Msg := .ticket ((tickNow b + rd b RED.CTL.LAG) % 2 ^ 32) b.red.tseq src content
    let b := incWrap (toPartner 1 m (emit b m)) RED.TKT_STAT.TICKETS
    let own : Ticket := { release := (tickNow b + rd b RED.CTL.LAG) % 2 ^ 32, tseq := b.red.tseq, src := src, content := content, input := input }
    { b with red := { b.red with
        tseq := (b.red.tseq + 1) % 2 ^ 16, tickets := b.red.tickets ++ if src = 0x0E ∨ src = 0x0F then [] else [own] } }
  else b

/-- Whether an asynchronous input enters the deterministic domain at once: the active of a pair holds it until its release
tick (R340). What comes to a standby as a command is a ticket released, or its own input while it is out of step
(notes/assumptions/35.md). -/
def takesNow (b : Blk) : Bool := !(paired b && isActive b)

/-- An asynchronous input of a source, `f` its effect: on the active of a pair it is ticketed and held (R340). -/
def runIn (src : Nat) (i : Input) (f : Blk → Blk) (s : State) : Out :=
  run (fun b => if takesNow b then f b else ticketed src [] b (some i)) s

end Sys2Proof.Machine
end

