-- ==== Sys2Proof/Machine/RedOps.lean ====
section
/-!
DEFINITION. A pair's synchronism, health and failure (R335, R343, R346), which every chapter's operations may meet.
-/

namespace Sys2Proof.Machine

open Sys2Proof.Num

/-- The firmware regions that are part of the domain (R351): base and size. -/
def regions (b : Blk) : List (Nat × Nat) :=
  ((List.range 8).filter fun r => isOn b (RED.REGION.RCTL.EN r)).map fun r =>
    (rd b (RED.REGION.BASE.BASE r), rd b (RED.REGION.SIZE.SIZE r))

/-- Whether a host address lies in a region. -/
def inRegion (b : Blk) (a : Nat) : Bool := (regions b).any fun r => decide (r.1 ≤ a ∧ a < r.1 + r.2)

def setRed (x : RedSt) (b : Blk) : Blk := { b with red := x }

/-- PEER_SYNC in both places that show it. -/
def setSync (v : Bool) (b : Blk) : Blk := wrB (wrB b SYS.MODE.PEER_SYNC v) RED.PSTAT.PEER_SYNC v

/-- ACTIVE in both places that show it. -/
def setActive (v : Bool) (b : Blk) : Blk := wrB (wrB b SYS.MODE.ACTIVE v) RED.PSTAT.ACTIVE v

def inSync (b : Blk) : Bool := isOn b SYS.MODE.PEER_SYNC

/-- The standby becomes unsynchronised (R343); during verification the transfer goes on to its limit. -/
def unsync (cause : Nat) (b : Blk) : Blk :=
  if !paired b || !inSync b then b
  else
    let b := raise pgRED 2 (wr (setSync false b) RED.PSTAT.UNSYNC_CAUSE cause)
    emit { b with red := { b.red with tickets := [], expect := Option.none } } (.syncLost cause)

/-- A port's state beyond its registers. -/
def vpOf (b : Blk) (n : Nat) : VpSt := Tab.at' (fun _ => {}) b.vp n

/-- Replace it. -/
def setVp (n : Nat) (x : VpSt) (b : Blk) : Blk := { b with vp := Tab.put (fun _ => {}) b.vp n x }

/-- How CP_OUT is driven (R261, R263, R264): only the active of a pair drives it (R280); a disabled block leaves it at high
impedance, the safe state taken for it (DESIGN CHOICE, notes/assumptions/27.md). After a takeover it follows with the other
outputs (R348 step 5). -/
def cpDrive (b : Blk) (n : Nat) : CpDrive :=
  if !enabled b (pgVP n) || (paired b && (!isActive b || b.red.outDue)) then .highZ
  else
    match rd b (VP.VCTL.TYPE n) with
    | 0 => if isOn b (VP.VCTL.OFF_LVL n) then .level (-120) else .highZ
    | 1 =>
      match rd b (VP.CP_CTL.CP_MODE n) with
      | 0 => .level 120
      | 1 => .pwm (rd b (VP.CP_CTL.DUTY n))
      | _ => .level (-120)
    | _ => .level (rdI b (VP.MCS_CTL.DRV n))

/-- CP_OUT takes the drive the registers ask for. -/
def showPilot (n : Nat) (b : Blk) : Blk :=
  let d := cpDrive b n
  if d = (vpOf b n).cp then b else emit (setVp n { vpOf b n with cp := d } b) (.cpOut n d)

/-- This twin is healthy (R335). -/
def healthy (b : Blk) : Bool :=
  b.red.fail.isNone && !b.bar.hostLost && decide (b.boot.field.lost = 0) && b.bar.peerHealthy

/-- The lands this twin drives (R335). -/
def driveLands (b : Blk) : Blk :=
  let ok := healthy b
  let b := forEach (List.range 4) showPilot b
  emit b (.pairLands ok b.red.fail.isSome (ok && isActive b && mayPower b))

/-- The device's stack has joined the site; a paired module that is active starts ACT_OUT (R46). -/
def joinSite (b : Blk) : Blk := when (paired b) driveLands (wr b SYS.MODE.SITE_STATE 1)

/-- The host shows what its field side asserts (R346): by barrier message, so not while either side is lost to the other
(R4); the event and the Daybook record come once. -/
def showFail (b : Blk) : Blk :=
  match b.red.fail with
  | none => b
  | some (cause, told) =>
    if b.bar.hostLost || b.bar.fieldLost || b.boot.host.held then b
    else
      let b := wr (wrB b RED.PSTAT.OWN_FAIL true) RED.PSTAT.FAIL_CAUSE cause
      let b := setRed { b.red with fail := some (cause, true) } (setSync false (setActive false b))
      if told then b else raise pgRED 12 (hostRecord 0x0021 true (le 1 cause) b)

/-- This twin asserts PAIR_FAIL_OUT for a cause and gives up the outputs (R346). -/
def failAssert (cause : Nat) (b : Blk) : Blk :=
  if !paired b || b.red.fail.isSome then b
  else driveLands (showFail (setRed { b.red with fail := some (cause, false) } b))

/-- A transfer that runs fails (R345). -/
def transferFail (b : Blk) : Blk :=
  let st := rd b RED.PSTAT.XSTATE
  if st = 0 ∨ st = 6 then b
  else
    let b := wrB (wr (wr b RED.PSTAT.XSTATE 6) RED.PSTAT.UNSYNC_CAUSE 10) RED.PSTAT.CATCHUP false
    raise pgRED 9 (setRed { b.red with roundsDone := false } b)

/-- Whether the cause of this twin's failure has cleared. -/
def causeCleared (b : Blk) : Bool :=
  match rd b RED.PSTAT.FAIL_CAUSE with
  | 1 => !b.bar.hostLost
  | 2 => !b.bar.fieldLost && b.bar.peerHealthy
  | 3 => decide (b.boot.field.lost = 0)
  | 6 => !isOn b FPMU.PFSTAT.WARN
  | _ => true

/-- The seal states of the twins decide who is active where they differ. -/
def sealParity (b : Blk) : Blk :=
  if !paired b then b
  else match b.red.peerSealed with
    | none => b
    | some p =>
      if p = b.acc.sealed then b
      else driveLands (setActive b.acc.sealed (unsync 9 b))

/-- A firmware write to a deterministic page waits for its release tick (R342) on the active and on a standby in step. The
unlock sequence is part of the write it serves. -/
def lateWrite (b : Blk) (a : Nat) : Bool :=
  let pg := a / 0x1000 * 0x1000
  paired b && detPage pg && decide ((a % 0x1000 = 0x0C ∨ 0x20 ≤ a % 0x1000) ∧ a % 0x1000 ≠ 0x30) && (isActive b || inSync b)

end Sys2Proof.Machine
end

