-- ==== Sys2Proof/Machine/Guards.lean ====
section
/-!
DEFINITION. The block rules that refuse a register write whatever its value's form (R534): the write is rejected. Each
page's rules say whether the write of value `v` to the field at lowest bit `lo` of the register with key `a` is admitted.
-/

namespace Sys2Proof.Machine

open Sys2Proof.Num

/-- The instance an array register's key names, by the array's first key and stride. -/
def instOf (a base stride : Nat) : Nat := (a - base) / stride

/-- The register offset of a key within its page. -/
def offOf (a : Nat) : Nat := a % 0x1000

/-- The offset of an instance register within its instance. -/
def inInst (a stride : Nat) : Nat := (offOf a - 0x400) % stride

/-- MMU: INV.GO while an invalidation runs is rejected (R453). -/
def ruleMMU (b : Blk) (a lo v : Nat) : Bool :=
  !(decide (a = MMU.INV.GO.a ∧ lo = 31 ∧ v = 1) && isOn b MMU.INV_STAT.BUSY)

/-- DMA: a change of RING_BASE or SIZE while EN = 1, RESUME or SKIP on a channel that is not faulted, SKIP after a
descriptor access fault, RESUME with EN = 0 (R459, R460, R462). -/
def ruleDMA (b : Blk) (a lo v : Nat) : Bool :=
  if offOf a < 0x400 then true else
    let c := instOf a (DMA.CH.CFG.EN 0).a 0x40
    let o := inInst a 0x40
    let F : Fld := ⟨a, lo, if o = 0x0C then 16 else 32⟩
    let en := isOn b (DMA.CH.CFG.EN c)
    if (o = 0x04 ∨ o = 0x08) ∨ (o = 0x0C ∧ lo = 0) then !(en && decide (v ≠ rd b F))
    else if o = 0x38 ∧ v = 1 then
      decide (rd b (DMA.CH.CSTAT.STATE c) = 4) &&
        (if lo = 1 then en else decide (rd b (DMA.CH.CSTAT.CAUSE c) ≠ 4))
    else true

/-- MEM: INJ.GO is accepted only while MEM is unlocked and no injection is armed (R448). -/
def ruleMEM (b : Blk) (unl : Bool) (a lo v : Nat) : Bool :=
  if a = MEM.INJ.GO.a ∧ lo = 31 ∧ v = 1 then unl && !isOn b MEM.INJ.ARMED
  else true

/-- The events a core holds in service, innermost first. -/
def svcOf (b : Blk) (core : Nat) : List (Nat × Nat) := Tab.at' (fun _ => []) b.events.svc core

/-- EVC and FEVC: COMPLETE must name the innermost event in service on its core (R471); on FEVC the TGT rules of R470 and
the writers of R473. -/
def ruleEVC (b : Blk) (i : Init) (field : Bool) (a lo v : Nat) : Bool :=
  let o := offOf a
  let inner (core : Nat) : Bool := match svcOf b core with
    | [] => false
    | e :: _ => e.1 == v
  if 0x100 ≤ o ∧ o < 0x140 then
    let c := (o - 0x100) / 0x10
    let done := decide (o % 0x10 = 8)
    if field then
      (if i = .host then false
       else if i = .met then decide (c = 1 ∧ (o % 0x10 = 0 ∨ o % 0x10 = 8)) else true) &&
        (!done || inner (4 + c))
    else !done || inner c
  else if field ∧ i = .met then false
  else if field ∧ 0x400 ≤ o ∧ lo = 16 then
    let n := (o - 0x400) / 4
    if 64 ≤ n ∧ n < 80 then v == 1 else if 40 ≤ n ∧ n < 64 then true else v == 0
  else true

/-- MON and FMON: MCFG, BASE, WIDTH and LIMIT are not written while EN = 1, except by a write that clears EN (R476). -/
def ruleMON (b : Blk) (a v full : Nat) : Bool :=
  let o := offOf a
  if o < 0x400 ∨ 0x0C < (o - 0x400) % 0xC0 then true
  else
    let base := a - (o - 0x400) % 0xC0
    !isOn b ⟨base, 31, 1⟩ || (decide ((o - 0x400) % 0xC0 = 0) && !full.testBit 31)

/-- Whether any trunk of the plan in force has an owner (R208, R214). -/
def anyOwned (b : Blk) : Bool := (List.range 16).any fun t => isOn b (FCTR.TRUNK_PLAN.OWNED t)

/-- TIME: the addend belongs to the servo under SRC 2 and 3 (R203); STEP_GO while a step is not yet mirrored, or of the
followed domain while a trunk has an owner (R204, R214). -/
def ruleTIME (b : Blk) (a lo v full : Nat) : Bool :=
  let o := offOf a
  if 0x400 ≤ o ∧ (inInst a 0x40 = 0x08 ∨ inInst a 0x40 = 0x0C) then
    decide (rd b (TIME.DOM.SRC.SRC ((o - 0x400) / 0x40)) < 2)
  else if o = 0x50 ∧ lo = 0 ∧ v = 1 then
    !((domOf b 0).stepDue.isSome || (domOf b 1).stepDue.isSome) &&
      !(decide (full / 2 % 2 = b.time.hostFdom) && anyOwned b)
  else true

/-- FTIME: a write that changes FDOM needs AGREE and both copies locked (R212). -/
def ruleFTIME (b : Blk) (a lo v : Nat) : Bool :=
  if a = FTIME.FCTL.FDOM.a ∧ lo = 16 then
    decide (v = rd b FTIME.FCTL.FDOM) ||
      (isOn b FTIME.FSTAT.AGREE && isOn b FTIME.FSTAT.A_LOCK && isOn b FTIME.FSTAT.B_LOCK)
  else true

/-- LSW: OUT is firmware's only where OWNER = 0, PWM only on loads that allow it, no start during a power-fail warning
(R354, R356, R368); MODE changes only while off (R40); PAR is written, whatever its value, only on even channels, while
both channels are off and firmware's (R355); UV_REL above UV_TH (R372). -/
def ruleLSW (b : Blk) (a lo v full : Nat) : Bool :=
  let o := offOf a
  if o < 0x400 then true
  else
    let n := (o - 0x400) / 0x20
    let r := inInst a 0x20
    let off := fun m => let x := Tab.at' (fun _ => ({} : LswCh)) b.lsw.ch m; !x.live && !x.retry
    if r = 4 then
      decide (rd b (LSW.CH.STAT.OWNER n) = 0) &&
        (lo ≠ 0 || decide (1000 ≤ v) || decide (rd b (LSW.CH.CFG.LOAD n) ≠ 2 ∧ rd b (LSW.CH.CFG.LOAD n) ≠ 3)) &&
        !(decide (lo = 31 ∧ v = 1) && !isOn b (LSW.CH.OUT.ON n) && isOn b FPMU.PFSTAT.WARN)
    else if r = 0 ∧ lo = 19 then v == rd b (LSW.CH.CFG.MODE n) || off n
    else if r = 0 ∧ lo = 31 then
      n % 2 == 0 && off n && off (n + 1) && rd b (LSW.CH.STAT.OWNER n) == 0 &&
        (rd b (LSW.CH.STAT.OWNER (n + 1)) == 0 || rd b (LSW.CH.STAT.OWNER (n + 1)) == 5)
    else true

/-- Whether an input of this device that stopped a trunk is still asserted (R108, R109): the trunk cannot be released. -/
def stopBarred (b : Blk) (t : Nat) : Bool :=
  (decide (t / 4 = rd b SYS.MODE.POS) && isOn b (VP.VSTAT.ESTOP (t % 4))) ||
    ((List.range 4).any (fun n => isOn b (VP.VSTAT.SITE_ESTOP n)) && b.trunk.siteMask.testBit t)

/-- Reach slot `r` of a group's slots, a byte each: its VALID bit and trunk. -/
def slotByte (all r : Nat) : Nat := all / 256 ^ r % 256 &&& 0x8F

/-- A valid reach slot names the trunk of another valid one (R93). -/
def slotTwice (all r : Nat) : Bool :=
  decide (128 ≤ slotByte all r) && (List.range 8).any fun q => q != r && slotByte all q == slotByte all r

/-- The slots a write of reach slots leaves: one that would name another's trunk keeps its old value, and with it any that
the old value meets (R93). Each round puts back at least one of the four slots written. -/
def reachSettle (old : Nat) : Nat → Nat → Nat
  | 0, all => all
  | n + 1, all =>
    reachSettle old n (sumN ((List.range 8).map fun r =>
      256 ^ r * slotByte (if slotTwice all r then old else all) r))

/-- TRUNK: WELD_CLR and OPS_PRESET only while unlocked and under R104 and R112; STOP_CLR while no input of this device
stops the trunk (R109), trunk by trunk; no reach slot of a group with a coil energised changes (R93); COIL_EN gives no
channel a second driver (R354), and takes none from a coil that is not off. -/
def ruleTRUNK (b : Blk) (unl : Bool) (a lo v full : Nat) : Bool :=
  let o := offOf a
  let pos := rd b SYS.MODE.POS
  let reach := fun k r => (wordOf b ((TRUNK.REACH_LO.T0 k).a + 4 * (r / 4))).toNat / 256 ^ (r % 4) % 256
  let ch := fun c => Tab.at' (fun _ => ({} : LswCh)) b.lsw.ch c
  if o = 0x60 ∧ lo = 31 ∧ v = 1 then
    let c := full % 32
    let k := 3 * pos + c / 8
    let s := reach k (c % 8)
    unl && decide (c < 24) && !isOn b (FCTR.GRP_STAT.XFER k) && decide (128 ≤ s) &&
      !(rd b TRUNK.TSTOP.STOPPED).testBit (s % 16)
  else if o = 0x64 then
    let c := full / 2 ^ 24 % 32
    unl && decide (c < 24) && !((ch c).drvOn && rd b (LSW.CH.STAT.OWNER c) == 1)
  else if o = 0x5C then v == 0 || (bitsOf 16 v).any fun t => !stopBarred b t
  else if 0x80 ≤ o ∧ o < 0xE0 then
    let k := (o - 0x80) / 8
    decide (k / 3 ≠ pos) || !((List.range 8).any fun r =>
      (ch (8 * (k % 3) + r)).drvOn && rd b (LSW.CH.STAT.OWNER (8 * (k % 3) + r)) == 1)
  else if o = 0x54 then
    (List.range 24).all fun c =>
      v.testBit c == (rd b TRUNK.COIL_EN.EN).testBit c ||
        if v.testBit c then
          rd b (LSW.CH.STAT.OWNER c) == 1 || (rd b (LSW.CH.STAT.OWNER c) == 0 && !(ch c).live && !(ch c).retry)
        else !(ch c).live && !(ch c).retry
  else true

/-- MOD: the fields of R137 are written only while APPLIED = 0, ARM under R135, no SYNC_SEL 0 on a paired device (R139). -/
def ruleMOD (b : Blk) (a lo v : Nat) : Bool :=
  let g := a / 0x1000 % 0x100 - 0x20
  let o := offOf a
  let idle := decide (applied b g = 0)
  if o = 0x78 then
    if lo = 8 then
      v == 0 || (decide (rd b (FCTR.GRP_STAT.TRUNK (gIdx b g)) = 31) && decide (rd b (MOD.GSTAT.PH_FAULT g) = 0))
    else v == 0 || (idle && decide ((modOf b g).desat &&& v = 0))
  else if o = 0x40 ∧ lo = 4 then
    idle && !(v == 0 && decide (rd b SYS.MODE.PAIR ≠ 0))
  else if (o = 0x40 ∧ lo = 7) ∨ o = 0x58 ∨ o = 0x74 then idle
  else true

/-- Whether a load-switch channel may be given a driver other than firmware (R354, R371). -/
def chanFree (b : Blk) (n : Nat) : Bool :=
  let x := Tab.at' (fun _ => ({} : LswCh)) b.lsw.ch n
  decide (48 ≤ n) || (rd b (LSW.CH.STAT.OWNER n) == 0 && !x.live && !x.retry)

/-- CE: reserved slots (R143), the Factor's slots, the trunk of a cooling loop (R159), one driver per channel (R354), the
slots a tune may name (R163). -/
def ruleCE (b : Blk) (i : Init) (a lo v full : Nat) : Bool :=
  let o := offOf a
  let kind := fun s => rd b (CE.SLOT.CFG.KIND s)
  if o = 0x50 then
    (List.range 16).all fun s =>
      v.testBit s == (rd b CE.SLOT_RES.RES).testBit s || (if v.testBit s then kind s != 1 else kind s < 2)
  else if o = 0xE8 ∧ lo = 0 ∧ v = 1 then
    let s := rd b CE.TUNE.SLOT
    decide (2 ≤ kind s) &&
      !(decide (rd b (CE.SLOT.CFG.SAT_ACT s) = 1 ∧ rd b (CE.SLOT.STATE.PSTATE s) = 5)) &&
      decide (rd b CE.TUNE_STAT.STATE ≠ 1)
  else if 0xA0 ≤ o ∧ o < 0xE0 ∧ o % 16 = 8 ∧ lo < 16 then
    let n := (o - 0xA8) / 16
    let runs := (List.range 16).any fun s => kind s == 2 && rd b (CE.SLOT.BIND.TRUNK s) % 4 == n
    !runs || v == rd b ⟨a, lo, 8⟩ || chanFree b v
  else if 0x400 ≤ o then
    let s := (o - 0x400) / 0x40
    let r := inInst a 0x40
    if r = 0 ∨ r = 4 ∨ r = 8 then
      kind s != 1 &&
        (if r = 0 ∧ lo = 0 ∧ v ≠ kind s then
          (if v = 2 then
            let n := rd b (CE.SLOT.BIND.TRUNK s) % 4
            chanFree b (rd b (CE.COOL.COUT.PUMP n)) && chanFree b (rd b (CE.COOL.COUT.VALVE n))
          else if v = 3 then chanFree b (rd b (CE.SLOT.IO.OUT_CH s)) else true)
        else if r = 8 ∧ lo = 24 ∧ kind s = 3 then v == rd b ⟨a, 24, 8⟩ || chanFree b v
        else true)
    else if r = 0x34 then
      kind s != 1 && (v == 31 || (decide (v < 16) && decide (v / 4 = rd b SYS.MODE.POS))) &&
        (kind s != 2 || v % 4 == rd b (CE.SLOT.BIND.TRUNK s) % 4 ||
          (chanFree b (rd b (CE.COOL.COUT.PUMP (v % 4))) && chanFree b (rd b (CE.COOL.COUT.VALVE (v % 4)))))
    else true
  else true

/-- THM: a MASK write that would place a channel in two neighbourhoods (R379). -/
def ruleTHM (b : Blk) (a v : Nat) : Bool :=
  let lo := (THM.NBH.MASK_LO.MASK 0).a
  if lo ≤ a ∧ a < lo + 256 ∧ a % 16 < 8 then
    (List.range 16).all fun h => h == (a - lo) / 16 || (wordOf b (lo + 16 * h + a % 16)).toNat &&& v == 0
  else true

/-- SRM and FSRM: an operation asked for while one runs (R29, R405); anchors and floor (R408, R409, R413). -/
def ruleSRM (b : Blk) (i : Init) (unl : Bool) (pg a lo v full : Nat) : Bool :=
  let off := a - pg
  let field := decide (pg = pgFSRM)
  let open' := !field || !b.acc.sealed
  if !field ∧ off = 0x90 then !(isOn b SRM.OP_STAT.BUSY && decide (lo = 31 ∧ v = 1))
  else if off = 0x48 then open' && unl
  else if off = 0x4C then
    open' && (!full.testBit 2 || (unl &&
      !rdBit b (if field then FSRM.STAT.ANCH_PROG else SRM.STAT.ANCH_PROG) (full % 4)))
  else if field ∧ off = 0x7C then open' && i == .met
  else true

/-- MTR: CAL_COMMIT is accepted only while unsealed (R181, R196). -/
def ruleMTR (b : Blk) (a : Nat) : Bool := a != MTR.CAL_COMMIT.GO.a || !b.acc.sealed

/-- FBAR: MBX_DATA and GO are refused while BUSY (R438); PERM only by the control core (R437). -/
def ruleFBAR (b : Blk) (i : Init) (a : Nat) : Bool :=
  let o := offOf a
  if o = 0x80 ∨ (0x100 ≤ o ∧ o < 0x200) then !isOn b FBAR.MBX_STAT.BUSY
  else if 0x400 ≤ o then i == .ctrl
  else true

/-- VP: TYPE only while idle (R40, R261), the lock's channels (R265, R354), CMD (R265), LOCK_CLR and DROP_CLR (R265,
R266). -/
def ruleVP (b : Blk) (a lo v full : Nat) : Bool :=
  let n := a / 0x1000 % 4
  let o := offOf a
  let site := 16 * (if rd b SYS.MODE.ROLE = 0 then 0 else rd b SYS.MODE.STACK) + 4 * rd b SYS.MODE.POS + n
  let ordered := (List.range 16).any fun k =>
    let st := (Tab.at' (fun _ => ({} : Order)) b.factor.book (16 * site + k)).state
    st == 1 || st == 2
  let lock := full / 2 ^ 16 % 256
  let unlock := full / 2 ^ 24
  let mine := fun c => c == rd b (VP.VCTL.LOCK_CH n) || c == rd b (VP.VCTL.UNLOCK_CH n)
  if o = 0x40 ∧ lo = 0 then
    v == rd b (VP.VCTL.TYPE n) || v == 3 || (!isOn b (VP.VSTAT.PLUG n) && !ordered)
  else if o = 0x40 ∧ 16 ≤ lo then
    !(decide (lock = 0xFF ∧ unlock ≠ 0xFF)) && (mine v || chanFree b v)
  else if o = 0x54 ∧ lo = 31 then
    v == rd b (VP.LOCK.CMD n) || (if v = 1 then isOn b (VP.VSTAT.PLUG n) else !isOn b (VP.VSTAT.LIVE n))
  else if o = 0xA8 ∧ lo = 2 then v == 0 || decide (rd b (VP.VSTAT.LOCKED n) = rd b (VP.LOCK.CMD n))
  else if o = 0xA8 ∧ lo = 0 then v == 0 || decide (rd b (VP.VSTAT.HOLD n) = 0)
  else true

/-- MESH: MASK only while the block is disabled (R287). -/
def ruleMESH (b : Blk) (a : Nat) : Bool := !(decide (0x100 ≤ offOf a ∧ offOf a < 0x174) && enabled b pgMESH)

/-- ETH: a ring changes only while the block is disabled (R333). -/
def ruleETH (b : Blk) (pg a lo v : Nat) : Bool :=
  let o := offOf a
  let ring := (0x4C ≤ o ∧ o < 0x58) ∨ (0x5C ≤ o ∧ o < 0x68)
  !(decide ring && decide (o % 0x10 ≠ 4 ∨ lo = 0) && enabled b pg &&
    decide (v ≠ rd b ⟨a, lo, if o % 0x10 = 4 then 16 else 32⟩))

/-- RED: ARM under R345 and R346. -/
def ruleRED (b : Blk) (a lo v : Nat) : Bool :=
  if a = RED.ARM.FORCE.a then
    v == 0 ||
      (if lo = 0 then isActive b && inSync b
       else if lo = 2 then
         isOn b RED.PSTAT.OWN_FAIL && causeCleared b
       else true)
  else true

/-- CLK: STEP is not written in reduced mode (R506). -/
def ruleCLK (b : Blk) (a : Nat) : Bool := !(decide (a = CLK.CORE_CFG.STEP.a) && isOn b PMU.PFSTAT.REDUCED)

/-- BAR: a ring with descriptors is changed only to give it none (R441; notes/assumptions/34.md). -/
def ruleBAR (b : Blk) (a lo v : Nat) : Bool :=
  let o := offOf a
  let rx := 0x48 ≤ o ∧ o < 0x54
  let tx := 0x58 ≤ o ∧ o < 0x64
  if !(decide rx || decide tx) then true
  else
    let size := rd b (if rx then BAR.RX_RING.SIZE else BAR.TX_RING.SIZE)
    let isSize := decide ((o = 0x50 ∨ o = 0x60) ∧ lo = 0)
    if decide (o = 0x50 ∨ o = 0x60) && !isSize then true
    else
      decide (size = 0) || (if isSize then v == size || v == 0 else v == rd b ⟨a, 0, 32⟩)

/-- Whether a transfer of TRUNK runs or a coil is energised (R28). Step 13, the retest of a welded coil, is no transfer. -/
def trunkBusy (b : Blk) : Bool :=
  ([b.trunk.g0, b.trunk.g1, b.trunk.g2].any fun x => decide (x.step ≠ 0 ∧ x.step ≠ 13)) ||
    (List.range 24).any fun c =>
      (Tab.at' (fun _ => ({} : LswCh)) b.lsw.ch c).drvOn && rd b (LSW.CH.STAT.OWNER c) == 1

/-- Whether a block holds work that may end only in order (R28). -/
def holdsWork (b : Blk) (pg : Nat) : Bool :=
  if pg = pgTRUNK then trunkBusy b
  else if pgMOD 0 ≤ pg ∧ pg ≤ pgMOD 2 then decide (0 < applied b ((pg - pgMOD 0) / 0x1000))
  else if pg = pgCE ∨ pg = pgLUT then (List.range 16).any fun s => rd b (CE.SLOT.CFG.KIND s) != 0
  else if pg = pgLSW then
    (List.range 48).any fun n =>
      let x := Tab.at' (fun _ => ({} : LswCh)) b.lsw.ch n
      x.live || x.retry
  else if pgVP 0 ≤ pg ∧ pg ≤ pgVP 3 then
    let n := (pg - pgVP 0) / 0x1000
    let site := 16 * (if rd b SYS.MODE.ROLE = 0 then 0 else rd b SYS.MODE.STACK) + 4 * rd b SYS.MODE.POS + n
    isOn b (VP.VSTAT.PLUG n) || (List.range 16).any fun k =>
      let st := (Tab.at' (fun _ => ({} : Order)) b.factor.book (16 * site + k)).state
      st == 1 || st == 2
  else if pg = pgFCTR ∨ pg = pgBOOK then isOn b FCTR.BOOK_CTL.RUN
  else false

/-- PAGE_CTL: EN and SRST of a sealed page (R29); EN to 0 while work is held (R28); EN of a lane with a strap error (R323);
SRST of DMA while a channel runs (R462). -/
def ruleCtl (b : Blk) (pg lo v : Nat) : Bool :=
  let sealedPage := b.acc.sealed && (match pageAt pg with
    | some (p, _) => p.sealable
    | none => false)
  let lane := decide (pgLANE 0 ≤ pg ∧ pg ≤ pgLANE 15)
  if lo = 0 then
    !sealedPage && !(decide (v = 0) && enabled b pg && holdsWork b pg) && !(lane && isOn b SYS.STRAP.STRAP_ERR)
  else if lo = 1 then
    !sealedPage && !(decide (v = 1 ∧ pg = pgDMA) && (List.range 32).any fun c =>
      rd b (DMA.CH.CSTAT.STATE c) == 1 || rd b (DMA.CH.CSTAT.STATE c) == 2)
  else true

/-- Whether the rules of the block allow the write of a value to the field of a register at a lowest bit;
`full` is the whole word written; `unl` says that the page is unlocked for it. -/
def blockRule (b : Blk) (i : Init) (unl : Bool) (a lo v full : Nat) : Bool :=
  let pg := a / 0x1000 * 0x1000
  if a % 0x1000 = 0x0C then ruleCtl b pg lo v
  else if pg = pgMMU then ruleMMU b a lo v
  else if pg = pgDMA then ruleDMA b a lo v
  else if pg = pgMEM then ruleMEM b unl a lo v
  else if pg = pgEVC then ruleEVC b i false a lo v
  else if pg = pgFEVC then ruleEVC b i true a lo v
  else if pg = pgMON ∨ pg = pgFMON then ruleMON b a v full
  else if pg = pgTIME then ruleTIME b a lo v full
  else if pg = pgFTIME then ruleFTIME b a lo v
  else if pg = pgLSW then ruleLSW b a lo v full
  else if pg = pgTRUNK then ruleTRUNK b unl a lo v full
  else if pgMOD 0 ≤ pg ∧ pg ≤ pgMOD 2 then ruleMOD b a lo v
  else if pg = pgCE then ruleCE b i a lo v full
  else if pg = pgTHM then ruleTHM b a v
  else if pg = pgSRM ∨ pg = pgFSRM then ruleSRM b i unl pg a lo v full
  else if pg = pgMTR then ruleMTR b a
  else if pg = pgFBAR then ruleFBAR b i a
  else if pgVP 0 ≤ pg ∧ pg ≤ pgVP 3 then ruleVP b a lo v full
  else if pg = pgMESH then ruleMESH b a
  else if pgETH 0 ≤ pg ∧ pg ≤ pgETH 1 then ruleETH b pg a lo v
  else if pg = pgRED then ruleRED b a lo v
  else if pg = pgCLK then ruleCLK b a
  else if pg = pgBAR then ruleBAR b a lo v
  else true

/-- Ranges that depend on another field: a value outside them leaves the field as it was (R6). -/
def keepRule (b : Blk) (a lo v full : Nat) : Bool :=
  if a = LSW.RAIL.UV_REL.a ∧ lo = 16 then
    let th := full / 2 ^ 24 % 256
    decide ((if 120 ≤ th ∧ th ≤ 180 then th else rd b LSW.RAIL.UV_TH) < v)
  else if (TRUNK.REACH_LO.T0 0).a ≤ a ∧ a < (TRUNK.REACH_LO.T0 12).a then
    let k := (a - (TRUNK.REACH_LO.T0 0).a) / 8
    let hi := (a - (TRUNK.REACH_LO.T0 0).a) / 4 % 2
    let old := (wordOf b (TRUNK.REACH_LO.T0 k).a).toNat + 2 ^ 32 * (wordOf b ((TRUNK.REACH_LO.T0 k).a + 4)).toNat
    let all := if hi = 0 then old / 2 ^ 32 * 2 ^ 32 + full else old % 2 ^ 32 + 2 ^ 32 * full
    let r := 4 * hi + lo / 8
    slotByte (reachSettle old 4 all) r == slotByte all r
  else if pgMOD 0 ≤ a ∧ a < pgMOD 3 ∧ offOf a = 0x44 then
    let g := a / 0x1000 % 0x100 - 0x20
    decide (rd b (MOD.GCTL.SYNC_SEL g) ≠ 4) || decide (if lo = 0 then v % 4 = 0 else v = 0)
  else if pgMOD 0 ≤ a ∧ a < pgMOD 3 ∧ offOf a = 0x40 ∧ lo = 4 ∧ v = 4 then
    let g := a / 0x1000 % 0x100 - 0x20
    decide (rd b (MOD.PERIOD.PER g) % 4 = 0 ∧ rd b (MOD.PERIOD.PER_FINE g) = 0)
  else if (CE.SLOT.CFG.KIND 0).a ≤ a ∧ a < (CE.SLOT.CFG.KIND 16).a ∧ (a - (CE.SLOT.CFG.KIND 0).a) % 64 = 0 ∧ lo = 0 then
    v = 0 || ((v == 2 || v == 3) && (rd b CE.SLOT_RES.RES).testBit ((a - (CE.SLOT.CFG.KIND 0).a) / 64))
  else if (CE.COOL.COUT.PUMP 0).a ≤ a ∧ a < (CE.COOL.COUT.PUMP 4).a ∧ (a - (CE.COOL.COUT.PUMP 0).a) % 16 = 0 ∧ lo = 16 then
    decide (v ≤ full / 2 ^ 24)
  else if (CE.COOL.CDER.T_DER 0).a ≤ a ∧ a < (CE.COOL.CDER.T_DER 4).a ∧ (a - (CE.COOL.CDER.T_DER 0).a) % 16 = 0 ∧ lo = 0 then
    decide (toInt 16 v < toInt 16 (full / 2 ^ 16))
  else if pgTHM + 0x400 ≤ a ∧ a < pgTHM + 0xC00 ∧ a % 32 = 0 ∧ lo = 28 then decide (full / 2 ^ 30 ≠ 2 ∨ v < 3)
  else if pgTHM + 0x80 ≤ a ∧ a < pgTHM + 0xB0 ∧ a % 16 = 4 ∧ lo = 16 then
    let td := toInt 16 full
    decide (td < toInt 16 v)
  else if (MTR.PULSE.PCFG.SRC 0).a ≤ a ∧ a < (MTR.PULSE.PCFG.SRC 5).a ∧ a % 16 = 0 ∧ lo = 12 then
    decide (v ≤ if a < (MTR.PULSE.PCFG.SRC 4).a then 2 else 5)
  else if a = DMD.DCFG.MODE.a ∧ lo < 16 then
    let s := full / 2 ^ 6 % 64
    let n := full / 2 ^ 12 % 16
    if full.testBit 0 then [1, 2, 3, 4, 5, 6, 10, 12, 15, 20, 30, 60].contains s && decide (1 ≤ n ∧ n * s ≤ 60)
    else [5, 10, 15, 30, 60].contains s && n == 1
  else if a = MESH.ADAPT.UP_DB.a ∧ lo = 16 then
    let dn := full / 2 ^ 8 % 256
    decide ((if dn ≤ 19 then dn else rd b MESH.ADAPT.DOWN_DB) < v)
  else if pgLANE 0 ≤ a ∧ a < pgLANE 15 + 0x1000 ∧ offOf a = 0x40 ∧ lo = 16 then
    let rate := full / 2 ^ 12 % 4
    v == 0 || (decide (pgLANE 14 ≤ a) && ((v == 1 && rate == 2) || (v == 2 && rate == 0)))
  else if pgLANE 0 ≤ a ∧ a < pgLANE 15 + 0x1000 ∧ offOf a = 0x44 then decide (full % 16 + full / 2 ^ 8 % 32 ≤ 31)
  else if a = STK.HLANES.UP.a then decide (full % 2 ^ 16 &&& full / 2 ^ 16 = 0)
  else if pgRED + 0x400 ≤ a ∧ a < pgRED + 0x480 ∧ a % 16 = 0 then decide (v % 4096 = 0)
  else if pgRED + 0x400 ≤ a ∧ a < pgRED + 0x480 ∧ a % 16 = 4 then
    let r := (a - (pgRED + 0x400)) / 16
    decide (v % 4096 = 0) &&
      decide (sumN (((List.range 8).filter (· != r)).map fun q => rd b (RED.REGION.SIZE.SIZE q)) + v ≤ 64 * 2 ^ 20)
  else if a % 0x1000 = 0x0C ∧ lo = 0 then
    match pageAt (a / 0x1000 * 0x1000) with
    | some (p, _) => !(p.alwaysOn && v == 0)
    | none => true
  else true

end Sys2Proof.Machine
end

