-- ==== Sys2Proof/Machine/Operands.lean ====
section
/-!
DEFINITION. How a register write is judged and stored: access types (R8, R534), reserved encodings (R6), lock (R33),
seal (R35), permission (R437), soft reset in progress (R29) and the block rules (Guards.lean). One path serves every
command that writes a register.
-/

namespace Sys2Proof.Machine

open Sys2Proof.Num

/-- The value stored for a written one: none for a reserved encoding, which leaves the field as it was (R6). A field stated
as aligned (DMA RING_BASE.IOVA, FSYS.FL_ADDR, RED REGION.BASE and SIZE) keeps the bits above its alignment and drops the
ones below: DESIGN CHOICE (notes/assumptions/11.md), since R6 names no reserved encoding there. -/
def Chk.take (c : Chk) (w v : Nat) : Option Nat :=
  match c with
  | .any => some v
  | .range lo hi => if lo ≤ v ∧ v ≤ hi then some v else none
  | .srange lo hi => if lo ≤ toInt w v ∧ toInt w v ≤ hi then some v else none
  | .rangeOr hi x => if v ≤ hi ∨ v = x then some v else none
  | .mask m => some (v &&& m)

/-- Whether a page is sealable (R34). -/
def sealable (pg : Nat) : Bool := match pageAt pg with
  | some (p, _) => p.sealable
  | none => false

/-- Whether a page belongs to the metrology core alone: CH, TRF, DMD, FSRM (R10). -/
def metOnly (pg : Nat) : Bool := pg == pgCH || pg == pgTRF || pg == pgDMD || pg == pgFSRM

/-- The host's rights on a field page: a bit of the permission table (R437). -/
def permBit (b : Blk) (pg k : Nat) : Bool :=
  let idx := pg % 0x100000 / 0x1000
  ((wordOf b (pgFBAR + 0x400 + 4 * (idx / 8))).toNat / 16 ^ (idx % 8)).testBit k

/-- What a write came to: the block, the accepted bits, and the status a REG_RSP would give: 0 done, 1 access error,
2 permission, 3 seal, 4 lock, BUSY or block rule (R436). -/
structure Wrote where
  blk : Blk
  mask : Nat
  status : Nat
deriving DecidableEq, Repr

/-- The rule for one field: 0 accepted, 2-4 rejected with that status, 9 ignored. The control core writes no RWX field of a
sealable page, sealed or not (R35). `unl`: the page was unlocked for this write when it was issued. -/
def fieldRule (b : Blk) (i : Init) (unl : Bool) (pg off : Nat) (f : FieldRow) (v full : Nat) : Nat :=
  let host := decide (i = .host)
  let open' := unl || unlockedFor b i pg
  match f.acc with
  | .ro => 9
  | .rwc => 4
  | .rwl =>
    if host && !permBit b pg 1 then 2
    else if !open' then 4
    else if blockRule b i open' (pg + off) f.lo v full then 0 else 4
  | .rwx =>
    if b.acc.sealed ∨ (i = .ctrl ∧ sealable pg) then 3
    else if host && !permBit b pg 3 then 2
    else if blockRule b i open' (pg + off) f.lo v full then 0 else 4
  | _ =>
    if host && !permBit b pg 1 then 2
    else if blockRule b i open' (pg + off) f.lo v full then 0 else 4

/-- One field of a write applied to the word being built: (word, accepted bits, status). -/
def fieldStep (b : Blk) (i : Init) (unl : Bool) (pg off : Nat) (v : Word) (acc : Word × Nat × Nat) (f : FieldRow) :
    Word × Nat × Nat :=
  let F : Fld := ⟨0, f.lo, f.w⟩
  let nv := F.of v
  let st := fieldRule b i unl pg off f nv v.toNat
  if st = 9 then acc
  else if st ≠ 0 then (acc.1, acc.2.1, if acc.2.2 = 0 then st else acc.2.2)
  else
    let bits := (2 ^ f.w - 1) * 2 ^ f.lo
    match f.acc with
    | .wo => (acc.1, acc.2.1 ||| bits, acc.2.2)
    | .w1c => (F.ins acc.1 (F.of acc.1 - (F.of acc.1 &&& nv)), acc.2.1 ||| bits, acc.2.2)
    | _ => match if keepRule b (pg + off) f.lo nv v.toNat then f.chk.take f.w nv else none with
      | some x => (F.ins acc.1 x, acc.2.1 ||| bits, acc.2.2)
      | none => acc

/-- Where an initiator's wide-read shadow of a page is held: one for each initiator and page (R24). -/
def shadowKey (i : Init) (pg : Nat) : Nat := pg / 0x1000 * 8 + i.num

/-- An initiator's wide-read shadow of a page. -/
def shadowOf (b : Blk) (i : Init) (pg : Nat) : Option Shadow :=
  Tab.at' (fun _ => Option.none) b.acc.shadows (shadowKey i pg)

/-- Replace it. -/
def setShadow (i : Init) (pg : Nat) (x : Option Shadow) (b : Blk) : Blk :=
  { b with acc := { b.acc with shadows := Tab.put (fun _ => Option.none) b.acc.shadows (shadowKey i pg) x } }

/-- Any access by an initiator discards its wide-read shadow of the page (R24). -/
def dropShadow (i : Init) (pg : Nat) (b : Blk) : Blk := setShadow i pg Option.none b

/-- What a frozen page displays for a register, where the page is frozen (R30). -/
def heldWord (b : Blk) (a : Nat) : Option Word :=
  ((Tab.at' (fun _ => []) b.acc.frozen (a / 0x1000 * 0x1000)).find? fun e => e.1 == a % 0x1000).map (·.2)

/-- A write to a register of the page cancels an unlock sequence (R33) and discards the initiator's shadow. -/
def touchPage (i : Init) (pg : Nat) (b : Blk) : Blk :=
  let l := lockOf b pg
  dropShadow i pg (setLock b pg { l with seq := Option.none })

/-- The pages that reject every host write while sealed, and the control core's writes to the metrology core's pages
(R10, R35); the status, or 0. -/
def pageRule (b : Blk) (i : Init) (pg off : Nat) : Nat :=
  if i = .ctrl ∧ metOnly pg then 1
  else if i = .host ∧ sealable pg ∧ b.acc.sealed then 3
  else if i = .host ∧ pg = pgFBAR ∧ 0x400 ≤ off then 2
  else if isOn b (hBUSY pg) ∧ 0x40 ≤ off then 4
  else 0

/-- Whether a page is one of the calibration block: MTR, SNS0 to SNS7 (R181). -/
def calPage (pg : Nat) : Bool := decide (pgMTR ≤ pg ∧ pg ≤ pgSNS 7)

/-- A write that changes an RWX field of the calibration block clears CAL_OK (R181). -/
def calTouch (pg : Nat) (r : RegRow) (old new : Word) (b : Blk) : Blk :=
  if calPage pg ∧ (r.fields.any fun f => f.acc == .rwx && Fld.of ⟨0, f.lo, f.w⟩ old != Fld.of ⟨0, f.lo, f.w⟩ new) then
    wrB b MTR.CAL_STAT.CAL_OK false
  else b

/-- The write of a word to a register of the initiator's side (R21, R22): judged field by field, stored where accepted, rejections counted (R534). -/
def storeWord (b : Blk) (i : Init) (unl : Bool) (pg off : Nat) (v : Word) : Wrote :=
  if i.side.key ≠ pg / 0x100000 * 0x100000 then { blk := answer b .busError, mask := 0, status := 1 } else
  match pageAt pg with
  | none => { blk := answer b .busError, mask := 0, status := 1 }
  | some (p, _) =>
    let b := touchPage i pg b
    let st := pageRule b i pg off
    if st = 1 then
      { blk := answer (raise pgFSYS 1 (reject b pg)) .busError, mask := 0, status := 1 }
    else if st ≠ 0 then { blk := answer (reject b pg) .rejected, mask := 0, status := st }
    else if pg = pgRED ∧ 0x40 ≤ off ∧ !paired b then { blk := answer b .accepted, mask := 0, status := 0 }
    else match rowAt p off with
      | none => { blk := answer b .accepted, mask := 0, status := 0 }
      | some (r, _) =>
        let w := wordOf b (pg + off)
        let res := r.fields.foldl (fieldStep b i unl pg off v) (w, 0, 0)
        let b := calTouch pg r w res.1 (setWord b (pg + off) res.1)
        if res.2.2 = 0 then { blk := answer b .accepted, mask := res.2.1, status := 0 }
        else { blk := answer (reject b pg) .rejected, mask := res.2.1, status := res.2.2 }

/-- A write followed by what the register does on a write: the action sees the accepted bits of the word written, and
runs only if some field was accepted. -/
def writeNow (i : Init) (unl : Bool) (a : Nat) (v : Word) (act : Nat → Blk → Blk) (b : Blk) : Blk :=
  let r := storeWord b i unl (a / 0x1000 * 0x1000) (a % 0x1000) v
  if r.mask = 0 then r.blk else act (v.toNat &&& r.mask) r.blk

/-- A firmware write to a deterministic page of a pair (R342): judged at once, it waits for its release tick. The active
tickets it; a standby keeps its own to be matched with the active's ticket. A refused write is refused at once. -/
def writeLate (i : Init) (unl : Bool) (a : Nat) (v : Word) (b : Blk) (same : Nat := 0)
    (rsp : Option (Nat × Nat × Nat) := none) : Blk :=
  let pg := a / 0x1000 * 0x1000
  let r := storeWord b i unl pg (a % 0x1000) v
  if r.mask = 0 then r.blk
  else
    let b := { touchPage i pg b with io := r.blk.io }
    let unl := unl || unlockedFor b i pg
    let rel := (tickNow b + 10 * rd b RED.CTL.WR_LAG) % 2 ^ 32
    let w : LateWrite := { release := rel, tseq := b.red.tseq, a := a, v := v, init := i, unl := unl, same := same, rsp := rsp }
    if isActive b then
      let m : Msg := .ticket rel b.red.tseq 1 (le 2 (pg / 0x1000) ++ le 2 (a % 0x1000) ++ le 4 v.toNat ++ le 1 i.num)
      let b := incWrap (toPartner 1 m (emit b m)) RED.TKT_STAT.TICKETS
      setRed { b.red with tseq := (b.red.tseq + 1) % 2 ^ 16, writes := b.red.writes ++ [w] } b
    else setRed { b.red with mine := b.red.mine ++ [w] } b

/-- A write by firmware, with what the register does on it. -/
def writeAct (i : Init) (unl : Bool) (a : Nat) (v : Word) (act : Nat → Blk → Blk) (b : Blk) : Blk :=
  if lateWrite b a then writeLate i unl a v b else writeNow i unl a v act b

end Sys2Proof.Machine
end

