-- ==== Sys2Proof/Machine/Memory.lean ====
section
/-!
DEFINITION. Memory reads and writes under SECDED and poison (R15, R16, R445 to R448), the scrubbers, the system MMU
(R449 to R453).
-/

namespace Sys2Proof.Machine

open Sys2Proof.Num

/-- What a checked read of a word delivers: corrected with a syndrome, uncorrectable, of another address, poison. -/
inductive Checked where
  | good
  | corrected (synd : Nat)
  | bad
  | mismatch
  | poisoned
deriving DecidableEq, Repr

/-- The decoder's verdict on a mark (R15, R448): one inverted check bit is corrected, two are uncorrectable; for three or
more the spec gives no verdict, and a free value decides. -/
def checkMark (b : Blk) (m : Mark) : Checked :=
  match m with
  | .clean => .good
  | .poison => .poisoned
  | .otherAddr => .mismatch
  | .flipped n =>
    if popcount 7 n = 0 then .good
    else if popcount 7 n = 1 then .corrected n
    else if popcount 7 n = 2 then .bad
    else if freeVal b % 2 = 0 then .corrected n else .bad

/-- Whether the verdict on a mark was a free one. -/
def checkIsFree (m : Mark) : Bool :=
  match m with
  | .flipped n => decide (3 ≤ popcount 7 n)
  | _ => false

/-- The memory code of MEM for a host address (R467). -/
def memCode (k : Nat) : Nat :=
  match regionAt .hostSide k with
  | some .hostSram => 0
  | some .dram => 1
  | some .daybook => 2
  | _ => 3

/-- The bits of CE_CNT or UE_CNT that count a memory. -/
def memCnt (ue : Bool) (m : Nat) : Fld := ⟨(if ue then MEM.UE_CNT.SRAM else MEM.CE_CNT.SRAM).a, 8 * m, 8⟩

/-- Log a correctable error (R447). -/
def logCE (k ini synd : Nat) (scrub : Bool) (b : Blk) : Blk :=
  let m := memCode k
  let b := incSat b (memCnt false m)
  let b := when (isOn b MEM.CE_INFO.VALID) (raise pgMEM 6) b
  let b := setWord b MEM.CE_LOG.ADDR.a (BitVec.ofNat 32 k)
  let b := wrB (wr (wrB (wr (wr b MEM.CE_INFO.MEM m) MEM.CE_INFO.INIT ini) MEM.CE_INFO.SCRUB scrub)
    MEM.CE_INFO.SYND synd) MEM.CE_INFO.VALID true
  let b := raise pgMEM 0 b
  if rd b MEM.CE_TH.TH ≤ rd b (memCnt false m) ∧ !b.memory.thGiven.testBit m then
    raise pgMEM 4 { b with memory := { b.memory with thGiven := b.memory.thGiven ||| 2 ^ m } }
  else b

/-- Log an uncorrectable error or an address mismatch (R447); in a firmware region it fails a twin of a pair (R346). -/
def logUE (k ini synd : Nat) (scrub mismatch : Bool) (b : Blk) : Blk :=
  let m := memCode k
  let b := incSat b (memCnt true m)
  let b := when (isOn b MEM.UE_INFO.VALID) (raise pgMEM 6) b
  let b := setWord b MEM.UE_LOG.ADDR.a (BitVec.ofNat 32 k)
  let b := wrB (wr (wrB (wr (wr b MEM.UE_INFO.MEM m) MEM.UE_INFO.INIT ini) MEM.UE_INFO.SCRUB scrub)
    MEM.UE_INFO.SYND synd) MEM.UE_INFO.VALID true
  let b := wrB b MEM.UE_INFO.MISMATCH mismatch
  let b := raise pgMEM (if mismatch then 2 else 1) b
  if inRegion b k then failAssert 4 b else b

/-- What a read of one word comes to. -/
structure Read1 where
  blk : Blk
  val : Nat
  poisoned : Bool
deriving DecidableEq, Repr

/-- The syndrome a mark shows: the inverted check bits. -/
def markSynd (m : Mark) : Nat := match m with
  | .flipped n => n % 128
  | _ => 0

/-- A checked read of the word a memory key lies in (R15). Errors of host memory are logged in MEM; errors of field
memory raise FSYS event 121. A corrected word is rewritten. -/
def readWordAt (b : Blk) (key ini : Nat) : Read1 :=
  let k := key / 4 * 4
  let mk := markOf b k
  let v := memLE b k 4
  let host := decide (k < 2 ^ 32)
  let c := checkMark b mk
  let b := when (checkIsFree mk) spend b
  match c with
  | .good => { blk := b, val := v, poisoned := false }
  | .corrected sy =>
    let b := setMark b k .clean
    { blk := if host then logCE k ini sy false b else raise pgFSYS 1 b, val := v, poisoned := false }
  | .bad =>
    { blk := if host then logUE k ini (markSynd mk) false false b else raise pgFSYS 1 b, val := v, poisoned := true }
  | .mismatch =>
    { blk := if host then logUE k ini 0 false true b else raise pgFSYS 1 b, val := v, poisoned := true }
  | .poisoned =>
    { blk := if host then incSat b MEM.POISON.READS else b, val := v, poisoned := true }

/-- A full-word write: fresh check bits, or the armed injection (R445, R448). -/
def writeWordAt (key : Nat) (v : Nat) (b : Blk) : Blk :=
  let k := key / 4 * 4
  let b := putBytes k (le 4 v) b
  if isOn b MEM.INJ.ARMED ∧ k = rd b MEM.INJ_ADDR.ADDR * 4 then
    setMark (wrB b MEM.INJ.ARMED false) k (.flipped (rd b MEM.INJ.FLIP))
  else setMark b k .clean

/-- Whether a mark makes its word uncorrectable: two check bits inverted or more, or a word of another address. -/
def markBad (m : Mark) : Bool :=
  match m with
  | .clean => false
  | .poison => false
  | .otherAddr => true
  | .flipped n => decide (2 ≤ popcount 7 n)

/-- A write of part of a word (R445): a poisoned word stays poisoned and the write is counted; a word that was
uncorrectable stays so (DEDUCED from R15: the rest of it is still unsound). -/
def writePartAt (key : Nat) (l : List Byte) (b : Blk) : Blk :=
  let k := key / 4 * 4
  match markOf b k with
  | .poison =>
    let b := putBytes key l b
    if k < 2 ^ 32 then incSat b MEM.POISON.WR_MERGE else b
  | mk =>
    let b := putBytes key l b
    if markBad mk then b
    else if isOn b MEM.INJ.ARMED ∧ k = rd b MEM.INJ_ADDR.ADDR * 4 then
      setMark (wrB b MEM.INJ.ARMED false) k (.flipped (rd b MEM.INJ.FLIP))
    else setMark b k .clean

/-- Write bytes from a key on, word by word; `n` bounds the number of words. -/
def writeBytesAt : Nat → Nat → List Byte → Blk → Blk
  | 0, _, _, b => b
  | n + 1, key, l, b =>
    match l with
    | [] => b
    | _ =>
      let room := 4 - key % 4
      let part := l.take room
      let b := if part.length = 4 then writeWordAt key (ofLE part) b else writePartAt key part b
      writeBytesAt n (key + part.length) (l.drop room) b

/-- Write bytes from a key on. -/
def writeMem (key : Nat) (l : List Byte) (b : Blk) : Blk := writeBytesAt (l.length + 1) key l b

/-- What a read of several bytes comes to: the bytes, and the key of the first poisoned word. -/
structure ReadN where
  blk : Blk
  bytes : List Byte
  bad : Option Nat
deriving DecidableEq, Repr

/-- A checked read of `n` words from a word-aligned key on. -/
def readWords : Nat → Nat → Nat → Blk → ReadN
  | 0, _, _, b => { blk := b, bytes := [], bad := none }
  | n + 1, k, ini, b =>
    let r := readWordAt b k ini
    let t := readWords n (k + 4) ini r.blk
    { blk := t.blk, bytes := le 4 r.val ++ t.bytes, bad := if r.poisoned then some k else t.bad }

/-- A checked read of `n` bytes from a key on. -/
def readMem (b : Blk) (key n ini : Nat) : ReadN :=
  let k := key / 4 * 4
  let r := readWords ((key + n - k + 3) / 4) k ini b
  { r with bytes := (r.bytes.drop (key - k)).take n }

/-! The system MMU. -/

/-- A translation: the block after it, the physical address, the cause of the fault or 0 (R452). -/
structure Xlat where
  blk : Blk
  phys : Nat
  cause : Nat
deriving DecidableEq, Repr

/-- What a leaf's target admits (R451): 0, or the cause of the fault. -/
def targetCause (phys : Nat) (write : Bool) : Nat :=
  match regionAt .hostSide phys with
  | some .hostSram => 0
  | some .dram => 0
  | some .bootRom => if write then 5 else 0
  | some .bootFlash => if write then 5 else 0
  | some .daybook => if write then 5 else 0
  | _ => 9

/-- Whether a table may lie at an address (R451). -/
def tableOk (a : Nat) : Bool :=
  match regionAt .hostSide a with
  | some .hostSram => true
  | some .dram => true
  | _ => false

/-- One page-table entry, read as two checked words: (block, entry, poisoned). -/
def readEntry (b : Blk) (a s : Nat) : Blk × Nat × Bool :=
  let lo := readWordAt b a (8 + s)
  let hi := readWordAt lo.blk (a + 4) (8 + s)
  (hi.blk, lo.val + 2 ^ 32 * hi.val, lo.poisoned || hi.poisoned)

/-- The reserved bits of an entry. -/
def entryReserved (e : Nat) : Bool := decide (e / 16 % 256 ≠ 0 ∨ e / 2 ^ 32 ≠ 0)

/-- The walk of the tables (R450): (block, physical base, page bits, R, W, cause). -/
def walk (b : Blk) (s iova : Nat) : Blk × Nat × Nat × Bool × Bool × Nat :=
  let a1 := rd b (MMU.STR.ROOT.ROOT s) * 0x4000 + 8 * (iova / 2 ^ 21)
  if !tableOk a1 then (b, 0, 12, false, false, 7) else
  let (b, e, p) := readEntry b a1 s
  if p then (b, 0, 12, false, false, 8)
  else if !e.testBit 0 then (b, 0, 12, false, false, 3)
  else if entryReserved e then (b, 0, 12, false, false, 6)
  else if e.testBit 3 then
    if e / 2 ^ 12 % 2 ^ 9 ≠ 0 then (b, 0, 21, false, false, 6)
    else (b, e / 2 ^ 21 % 2 ^ 11 * 2 ^ 21, 21, e.testBit 1, e.testBit 2, 0)
  else
    let a2 := e / 2 ^ 12 % 2 ^ 20 * 2 ^ 12 + 8 * (iova / 2 ^ 12 % 512)
    if !tableOk a2 then (b, 0, 12, false, false, 7) else
    let (b, e, p) := readEntry b a2 s
    if p then (b, 0, 12, false, false, 8)
    else if !e.testBit 0 then (b, 0, 12, false, false, 4)
    else if entryReserved e then (b, 0, 12, false, false, 6)
    else if !e.testBit 3 then (b, 0, 12, false, false, 6)
    else (b, e / 2 ^ 12 % 2 ^ 20 * 2 ^ 12, 12, e.testBit 1, e.testBit 2, 0)

/-- Put an IOTLB in force, and show how many entries it holds (R463). -/
def setTlb (b : Blk) (t : List TlbEntry) : Blk :=
  wr { b with memory := { b.memory with tlb := t } } MMU.TLB_STAT.USED t.length

/-- The address a translation gives, with the permissions of its leaf and the limits on its target (R450, R451). -/
def tlbUse (iova : Nat) (write : Bool) (e : TlbEntry) (b : Blk) : Xlat :=
  let phys := e.phys + iova % 2 ^ e.bits
  if (write && !e.w) || (!write && !e.r) then { blk := b, phys := phys, cause := 5 }
  else { blk := b, phys := phys, cause := targetCause phys write }

/-- Translate an IOVA for a stream (R449 to R451, R453). The IOTLB keeps its entries most recently used first. -/
def translate (b : Blk) (s iova : Nat) (write : Bool) : Xlat :=
  if !isOn b (MMU.STR.ROOT.EN s) then { blk := b, phys := 0, cause := 1 }
  else if 2 ^ 32 ≤ iova then { blk := b, phys := 0, cause := 2 }
  else
    match b.memory.tlb.find? (fun e => e.stream == s && e.vpn == iova / 2 ^ e.bits) with
    | some e => tlbUse iova write e (setTlb b (e :: b.memory.tlb.erase e))
    | none =>
      let b := incWrap b MMU.TLB_STAT.MISSES
      let (b, base, bits, r, w, c) := walk b s iova
      if c ≠ 0 then { blk := b, phys := 0, cause := c }
      else
        let e : TlbEntry := { stream := s, vpn := iova / 2 ^ bits, bits := bits, phys := base, r := r, w := w }
        let x := tlbUse iova write e b
        if x.cause = 0 then { x with blk := setTlb x.blk ((e :: x.blk.memory.tlb).take 256) } else x

/-- Show the oldest fault-queue entry (R463). -/
def showFaults (b : Blk) : Blk :=
  let q := b.memory.faults
  let b := wr b MMU.FQ_STAT.COUNT q.length
  match q with
  | [] => setWord (setWord b MMU.FQ_ADDR.IOVA.a 0) MMU.FQ_INFO.VALID.a 0
  | e :: _ =>
    let b := setWord b MMU.FQ_ADDR.IOVA.a (BitVec.ofNat 32 e.iova)
    wr (wr (wrB (wrB b MMU.FQ_INFO.VALID true) MMU.FQ_INFO.WRITE e.write) MMU.FQ_INFO.STREAM e.stream)
      MMU.FQ_INFO.CAUSE e.cause

/-- Report a translation fault (R452). -/
def mmuFault (s iova : Nat) (write : Bool) (cause : Nat) (b : Blk) : Blk :=
  let b := incSat b (MMU.STR.SSTAT.FAULTS s)
  let b := when (decide (cause = 8)) (raise pgMMU 3) b
  if b.memory.faults.length < 16 then
    let q := b.memory.faults ++ [{ iova := iova % 2 ^ 32, write := write, stream := s, cause := cause }]
    raise pgMMU 0 (showFaults { b with memory := { b.memory with faults := q } })
  else raise pgMMU 1 (incSat b MMU.FQ_STAT.OVF)

/-- What a stream's read comes to: bytes; a fault cause and the faulting IOVA; the IOVA of the first poisoned word. -/
structure StreamRead where
  blk : Blk
  bytes : List Byte
  cause : Nat
  at' : Nat
  bad : Option Nat
deriving DecidableEq, Repr

/-- Translate every page of a range before any byte moves: (block, cause, faulting IOVA); `n` bounds the pages. -/
def translateAll : Nat → Blk → Nat → Nat → Nat → Bool → Blk × Nat × Nat × List (Nat × Nat)
  | 0, b, _, _, _, _ => (b, 0, 0, [])
  | n + 1, b, s, iova, len, write =>
    if len = 0 then (b, 0, 0, []) else
    let part := min len (4096 - iova % 4096)
    let x := translate b s iova write
    if x.cause ≠ 0 then (mmuFault s iova write x.cause x.blk, x.cause, iova, [])
    else
      let (b, c, f, l) := translateAll n x.blk s (iova + part) (len - part) write
      (b, c, f, (x.phys, part) :: l)

/-- One page's part of a stream's read, behind what was read before it. -/
def streamPart (s iova : Nat) (acc : StreamRead) (e : Nat × Nat) : StreamRead :=
  let r := readMem acc.blk e.1 e.2 (8 + s)
  let off := acc.bytes.length
  { blk := r.blk, bytes := acc.bytes ++ r.bytes, cause := 0, at' := 0,
    bad := match acc.bad with
      | some x => some x
      | none => match r.bad with
        | some k => some (iova + off + k - e.1)
        | none => none }

/-- A stream's read of `len` bytes. -/
def streamRead (b : Blk) (s iova len : Nat) : StreamRead :=
  let (b, c, f, l) := translateAll (len / 4096 + 2) b s iova len false
  if c ≠ 0 then { blk := b, bytes := [], cause := c, at' := f, bad := none }
  else
    l.foldl (streamPart s iova) { blk := b, bytes := [], cause := 0, at' := 0, bad := none }

/-- A stream's write of bytes: (block, cause, faulting IOVA). Nothing is written if any page faults. -/
def streamWrite (b : Blk) (s iova : Nat) (l : List Byte) : Blk × Nat × Nat :=
  let (b, c, f, ps) := translateAll (l.length / 4096 + 2) b s iova l.length true
  if c ≠ 0 then (b, c, f)
  else
    ((ps.foldl (fun (acc : Blk × List Byte) e => (writeMem e.1 (acc.2.take e.2) acc.1, acc.2.drop e.2)) (b, l)).1, 0, 0)

/-! The commands of MMU and MEM. -/

/-- What a load of at most 8 bytes delivers: a word, or two of them for 8 bytes. -/
def loaded (l : List Byte) : Resp :=
  let v := ofLE l
  if l.length = 8 then .double (BitVec.ofNat 32 v) (BitVec.ofNat 32 (v / 2 ^ 32)) else .value (BitVec.ofNat 32 v)

/-- A core's load or fetch of `n` bytes of memory (R15 to R17), at any address: every word touched is read checked, a
consumed poisoned word takes the precise access exception, and an address outside the windows ends in a bus error. -/
def doMemoryRead (i : Init) (addr n : Nat) (fetch : Bool) (b : Blk) : Blk :=
  let r := regionAt i.side addr
  if r = none ∨ r = some .hostPages ∨ r = some .fieldPages ∨ regionAt i.side (addr + n - 1) ≠ r then answer b .busError
  else
    let x := readMem b (memKey i addr) n i.num
    if x.bad.isSome then
      let b := when (decide (i.side = .hostSide)) (raise pgMEM 5) x.blk
      answer b (if fetch then .fetchAccess else .loadAccess)
    else answer x.blk (loaded x.bytes)

/-- The memories with scrubbers (R446): first key and size in bytes. 0 host SRAM, 1 LPDDR4X, 2 Daybook MRAM, 3 field
SRAM, 4 and 5 the TCMs of the control and metrology cores, 6 field MRAM. -/
def scrubRange (m : Nat) : Nat × Nat :=
  match m with
  | 0 => (0x10000000, 0x400000)
  | 1 => (0x80000000, 0x60000000)
  | 2 => (0x30000000, 0x800000)
  | 3 => (2 ^ 32 + 0x40000000, 0x200000)
  | 4 => (2 ^ 32, 0x40000)
  | 5 => (3 * 2 ^ 32, 0x40000)
  | _ => (2 ^ 32 + 0x58000000, 0x200000)

/-- A scrubber reads its next word (R446): a single-bit error is corrected; an uncorrectable word or one of another
address is stored poisoned and logged; a word that holds poison is not logged again. -/
def doScrubRead (m : Nat) (b : Blk) : Blk :=
  let (base, size) := scrubRange m
  let pos := Tab.at' (fun _ => 0) b.memory.scrubPos m
  let k := base + pos
  let host := decide (k < 2 ^ 32)
  let mk := markOf b k
  let c := checkMark b mk
  let b := when (checkIsFree mk) spend b
  let b := match c with
    | .good => b
    | .poisoned => b
    | .corrected sy =>
      let b := setMark b k .clean
      if host then logCE k 4 sy true b else raise pgFSYS 1 b
    | .bad =>
      let b := setMark b k .poison
      if host then logUE k 4 (markSynd mk) true false b else raise pgFSYS 1 b
    | .mismatch =>
      let b := setMark b k .poison
      if host then logUE k 4 0 true true b else raise pgFSYS 1 b
  if pos + 4 < size then
    { b with memory := { b.memory with scrubPos := Tab.put (fun _ => 0) b.memory.scrubPos m (pos + 4) } }
  else
    let b := { b with memory := { b.memory with scrubPos := Tab.put (fun _ => 0) b.memory.scrubPos m 0 } }
    if m < 3 then
      let late := b.memory.passLate.testBit m
      let b := wrBit b MEM.SSTAT.LATE m late
      { b with memory := { b.memory with passLate := Num.setBit b.memory.passLate m false } }
    else b

/-- A pass has not ended by the end of its period (R446). -/
def doScrubPassLate (m : Nat) (b : Blk) : Blk :=
  let b := { b with memory := { b.memory with passLate := Num.setBit b.memory.passLate m true } }
  raise pgMEM 3 (wrBit b MEM.SSTAT.LATE m true)

/-- INJ.GO arms an injection (R448). -/
def actInj (v : Nat) (b : Blk) : Blk := if v.testBit 31 then wrB b MEM.INJ.ARMED true else b

/-- CNT_CLR clears the error counts (R447, R467). -/
def actCntClr (v : Nat) (b : Blk) : Blk :=
  let b := if v.testBit 0 then
      { setWord b MEM.CE_CNT.SRAM.a 0 with memory := { b.memory with thGiven := 0 } } else b
  if v.testBit 1 then setWord b MEM.UE_CNT.SRAM.a 0 else b

/-- The IOTLB entries an invalidation covers (R453). -/
def invMatch (scope stream page : Nat) (e : TlbEntry) : Bool :=
  match scope with
  | 0 => true
  | 1 => e.stream == stream
  | _ => e.stream == stream && e.vpn == page * 2 ^ 12 / 2 ^ e.bits

/-- MMU.INV.GO (R453): the entries of the scope leave the IOTLB and BUSY sets. SCOPE 3 is reserved and does nothing. -/
def actInvalidate (v : Nat) (b : Blk) : Blk :=
  let scope := v / 2 ^ 29 % 4
  let stream := v % 64
  if v.testBit 31 ∧ scope ≠ 3 then
    let page := rd b MMU.INV_ADDR.PAGE
    let b := setTlb b (b.memory.tlb.filter fun e => !invMatch scope stream page e)
    wrB { b with memory := { b.memory with inv := some (scope, stream, page) } } MMU.INV_STAT.BUSY true
  else b

/-- No matching entry remains and every access that used one has completed (R453). -/
def doInvalidateDone (b : Blk) : Blk :=
  match b.memory.inv with
  | none => b
  | some (scope, stream, page) =>
    let b := setTlb b (b.memory.tlb.filter fun e => !invMatch scope stream page e)
    raise pgMMU 2 (wrB { b with memory := { b.memory with inv := none } } MMU.INV_STAT.BUSY false)

/-- FQ_POP removes the oldest fault-queue entry (R463). -/
def actFqPop (v : Nat) (b : Blk) : Blk :=
  if v.testBit 0 then showFaults { b with memory := { b.memory with faults := b.memory.faults.tail } } else b

def execScrubRead (m : Fin 7) (s : State) : Out := run (doScrubRead m.val) s

def execScrubPassLate (m : Fin 3) (s : State) : Out := run (doScrubPassLate m.val) s

def execInjGo (i : Init) (v : Word) (s : State) : Out :=
  run (writeAct i false MEM.INJ.GO.a (v ||| 0x80000000) actInj) s

def execMmuInvalidate (i : Init) (v : Word) (s : State) : Out :=
  run (writeAct i false MMU.INV.GO.a (v ||| 0x80000000) actInvalidate) s

def execMmuInvalidateDone (s : State) : Out := run doInvalidateDone s

def execFqPop (i : Init) (s : State) : Out := run (writeAct i false MMU.FQ_POP.GO.a 1 actFqPop) s

end Sys2Proof.Machine
end

