-- ==== Sys2Proof/Machine/Dma.lean ====
section
/-!
DEFINITION. The host DMA engine (R455 to R460): descriptors, beats, pre-emption, faults, RESUME and SKIP. A beat is
read, translated and written within one command; a channel keeps no further beats in flight.
-/

namespace Sys2Proof.Machine

open Sys2Proof.Num

/-- A channel's descriptor being served. -/
def dmaDesc (b : Blk) (c : Nat) : DmaDesc := Tab.at' (fun _ => {}) b.memory.dma c

/-- Replace it. -/
def setDesc (c : Nat) (d : DmaDesc) (b : Blk) : Blk :=
  { b with memory := { b.memory with dma := Tab.put (fun _ => {}) b.memory.dma c d } }

/-- Put a channel into a state, and show it in ACTIVE and FAULTED (R465). -/
def dmaState (c st : Nat) (b : Blk) : Blk :=
  let b := wr b (DMA.CH.CSTAT.STATE c) st
  wrBit (wrBit b DMA.ACTIVE.CH c (decide (st = 1 ∨ st = 2))) DMA.FAULTED.CH c (decide (st = 4))

/-- Save a channel's context: the ring index, the bytes done and the resume descriptor (R458). -/
def dmaSave (c : Nat) (b : Blk) : Blk :=
  let d := dmaDesc b c
  let b := wr b (DMA.CH.CSTAT.DESC c) (rd b (DMA.CH.HEAD.HEAD c))
  let b := wr b (DMA.CH.BYTES.BYTES c) d.done
  let b := wr64 b (DMA.CH.RES_SRC.IOVA c) (if d.ctl.testBit 13 then d.src else d.src + d.done)
  let b := wr64 b (DMA.CH.RES_DST.IOVA c) (d.dst + d.done)
  wr b (DMA.CH.RES_LEN.LEN c) (d.len - d.done)

/-- The IOVA of the descriptor at HEAD. -/
def dmaAt (b : Blk) (c : Nat) : Nat := rd64 b (DMA.CH.RING_BASE.IOVA c) + 32 * rd b (DMA.CH.HEAD.HEAD c)

/-- Whether a channel is ready (R455, R457): enabled and not faulted, with a descriptor held or queued; a FENCE
descriptor waits for every descriptor queued before it. -/
def dmaReady (b : Blk) (c : Nat) : Bool :=
  let d := dmaDesc b c
  let fenced := d.held && !d.started && d.ctl.testBit 12 &&
    decide (b.memory.order.head? ≠ some (c, rd b (DMA.CH.HEAD.HEAD c)))
  enabled b pgDMA && isOn b (DMA.CH.CFG.EN c) && decide (rd b (DMA.CH.CSTAT.STATE c) ≠ 4) && !fenced &&
    (d.held || (decide (rd b (DMA.CH.RING.SIZE c) ≠ 0) && decide (rd b (DMA.CH.HEAD.HEAD c) ≠ rd b (DMA.CH.RING.TAIL c))
      && !b.memory.noFetch))

/-- The channel chosen at a beat boundary (R457): the highest priority, round robin from the one after the last
served. -/
def dmaChoose (b : Blk) : Option Nat :=
  let order := (List.range 32).map fun k => (b.memory.served + 1 + k) % 32
  bestBy (fun x y => decide (rd b (DMA.CH.CFG.PRIO x) < rd b (DMA.CH.CFG.PRIO y))) (order.filter (dmaReady b))

/-- A fault stops the channel with its context saved (R459). -/
def dmaStop (c cause faddr : Nat) (poison : Bool) (b : Blk) : Blk :=
  let b := dmaState c 4 (dmaSave c b)
  let b := wr64 (wr b (DMA.CH.CSTAT.CAUSE c) cause) (DMA.CH.FADDR.IOVA c) faddr
  raise pgDMA (if poison then 2 else 1) b

/-- Write a descriptor's STATUS and BYTES back: none on a fault of the write-back, which stops the channel with CAUSE 4. -/
def dmaWriteBack (c status : Nat) (clearOwn : Bool) (b : Blk) : Blk × Bool :=
  let d := dmaDesc b c
  let at0 := dmaAt b c
  let (b, x, f) := streamWrite b c (at0 + 22) (le 2 status ++ le 4 d.done)
  if x ≠ 0 then (dmaStop c 4 f false b, false)
  else if clearOwn then
    let (b, x, f) := streamWrite b c (at0 + 20) (le 2 (d.ctl % 2 ^ 15))
    if x ≠ 0 then (dmaStop c 4 f false b, false) else (b, true)
  else (b, true)

/-- Leave a descriptor that is written back: HEAD advances, and an empty ring is reported (R455, R466). -/
def dmaAdvance (c : Nat) (b : Blk) : Blk :=
  let h := rd b (DMA.CH.HEAD.HEAD c)
  let size := rd b (DMA.CH.RING.SIZE c)
  let h' := if size = 0 then h else (h + 1) % size
  let b := setDesc c {} (wr b (DMA.CH.HEAD.HEAD c) h')
  let b := { b with memory := { b.memory with order := b.memory.order.erase (c, h) } }
  let b := dmaState c 0 b
  when (decide (h' = rd b (DMA.CH.RING.TAIL c))) (raise pgDMA 3) b

/-- A descriptor's last beat is written: write back, clear OWN, advance (R455). -/
def dmaDone (c : Nat) (b : Blk) : Blk :=
  let irq := (dmaDesc b c).ctl.testBit 14
  let (b, ok) := dmaWriteBack c 0x8000 true b
  if ok then
    let b := if irq then raise pgDMA 0 (wrBit b DMA.DONE.CH c true) else b
    dmaAdvance c b
  else b

/-- Fetch the descriptor at HEAD (R455): its fields are held, or the channel stops with CAUSE 4 or 5; a malformed
descriptor is fetched again on RESUME. -/
def dmaFetch (c : Nat) (b : Blk) : Blk :=
  let r := streamRead b c (dmaAt b c) 32
  let b := r.blk
  if r.cause ≠ 0 then dmaStop c 4 r.at' false b
  else match r.bad with
    | some a => dmaStop c 4 a false b
    | none =>
      let f := fun o n => ofLE ((r.bytes.drop o).take n)
      let ctl := f 20 2
      if ctl.testBit 15 then
        let d : DmaDesc := { held := true, src := f 0 8, dst := f 8 8, len := f 16 4, ctl := ctl }
        let b := setDesc c d b
        if d.len = 0 ∨ 16777216 < d.len ∨ ctl % 2 ^ 12 ≠ 0 ∨ f 28 4 ≠ 0 ∨ f 22 2 % 2 ^ 12 ≠ 0 then
          let (b, ok) := dmaWriteBack c 0x4000 false b
          if ok then setDesc c { d with held := false } (dmaStop c 5 0 false b) else b
        else b
      else b

/-- A beat fails: the status is written back and the channel stops (R459). -/
def dmaFail (c cause faddr : Nat) (poison : Bool) (b : Blk) : Blk :=
  let (b, ok) := dmaWriteBack c (if poison then 0x6000 else 0x4000) false b
  if ok then dmaStop c cause faddr poison b else b

/-- Issue one beat of a channel that holds a descriptor (R456). -/
def dmaMove (c : Nat) (b : Blk) : Blk :=
  let d := dmaDesc b c
  let b := setDesc c { d with started := true } (dmaState c 1 b)
  if d.done = d.len then dmaDone c b
  else
    let n := min (64 - (d.dst + d.done) % 64) (d.len - d.done)
    let fill := d.ctl.testBit 13
    let src := d.src + d.done
    let r : StreamRead :=
      if fill then
        { blk := b, bytes := (List.range n).map fun i => BitVec.ofNat 8 (d.src / 256 ^ ((d.done + i) % 4)),
          cause := 0, at' := 0, bad := none }
      else streamRead b c src n
    if r.cause ≠ 0 then dmaFail c 1 r.at' false r.blk
    else match r.bad with
      | some a => dmaFail c 3 a true r.blk
      | none =>
        let (b, x, f) := streamWrite r.blk c (d.dst + d.done) r.bytes
        if x ≠ 0 then dmaFail c 2 f false b
        else
          let b := setDesc c { d with started := true, done := d.done + n } (incWrap b DMA.BEATS.COUNT)
          if d.done + n = d.len then dmaDone c b else b

/-- A beat boundary (R456, R457): the channel served before is pre-empted if another is chosen, and the chosen one
issues its next beat. -/
def doDmaBeat (b : Blk) : Blk :=
  match dmaChoose b with
  | none => b
  | some c =>
    let p := b.memory.served
    let b := if p ≠ c ∧ rd b (DMA.CH.CSTAT.STATE p) = 1 ∧ (dmaDesc b p).held then
        dmaState p 2 (dmaSave p b) else b
    let b := { b with memory := { b.memory with served := c } }
    let b := if (dmaDesc b c).held then b else dmaFetch c b
    if (dmaDesc b c).held ∧ rd b (DMA.CH.CSTAT.STATE c) ≠ 4 ∧ dmaReady b c then dmaMove c b else b

/-- RING.TAIL queues descriptors (R455): the order of queueing is kept for FENCE. -/
def actDmaTail (c old : Nat) (b : Blk) : Blk :=
  let size := rd b (DMA.CH.RING.SIZE c)
  let new := rd b (DMA.CH.RING.TAIL c)
  if size = 0 then b else
    let n := (new + size - old % size) % size
    let l := (List.range n).map fun k => (c, (old + k) % size)
    { b with memory := { b.memory with order := b.memory.order ++ l } }

/-- A write of CFG: EN written to 0 pauses a channel that holds a descriptor, and EN back to 1 lets it continue (R458);
a faulted channel stays faulted (R462). -/
def actDmaCfg (c : Nat) (b : Blk) : Blk :=
  let st := rd b (DMA.CH.CSTAT.STATE c)
  if isOn b (DMA.CH.CFG.EN c) then (if st = 3 then dmaState c 2 b else b)
  else if (st = 1 ∨ st = 2) ∧ (dmaDesc b c).held then raise pgDMA 4 (dmaState c 3 (dmaSave c b))
  else b

/-- CMD (R459): RESUME continues a faulted channel from its resume descriptor, SKIP abandons the descriptor. -/
def actDmaCmd (c v : Nat) (b : Blk) : Blk :=
  if v.testBit 1 then dmaState c (if (dmaDesc b c).held then 2 else 0) (wr b (DMA.CH.CSTAT.CAUSE c) 0)
  else if v.testBit 0 then
    let b := wr b (DMA.CH.CSTAT.CAUSE c) 0
    let (b, ok) := dmaWriteBack c 0x1000 true b
    if ok then dmaAdvance c b else b
  else b

def execDmaQueue (i : Init) (c : Fin 32) (v : Word) (s : State) : Out :=
  run (fun b => writeAct i false (DMA.CH.RING.TAIL c.val).a v
    (fun _ => actDmaTail c.val (rd b (DMA.CH.RING.TAIL c.val))) b) s

def execDmaBeat (s : State) : Out := run doDmaBeat s

def execResume (i : Init) (c : Fin 32) (s : State) : Out :=
  run (writeAct i false (DMA.CH.CMD.RESUME c.val).a 2 (actDmaCmd c.val)) s

def execSkip (i : Init) (c : Fin 32) (s : State) : Out :=
  run (writeAct i false (DMA.CH.CMD.RESUME c.val).a 1 (actDmaCmd c.val)) s

end Sys2Proof.Machine
end

