-- ==== Sys2Proof/Machine/Daybook.lean ====
section
/-!
DEFINITION. The Daybook (chapter 18): record format, queue and commit, power-up and sealing, release, mirror, cold read.
-/

namespace Sys2Proof.Machine

open Sys2Proof.Num

/-- A BULK frame to the Daybook's mirror (R82, R424). -/
def toMirror (m : Msg) (b : Blk) : Blk :=
  let b := emit b m
  if isOn b FCTR.MIRROR.PARTNER then toPartner 3 m b
  else sendTo (rd b FCTR.MIRROR.STACK % 16 * 16 + rd b FCTR.MIRROR.POS * 4) 3 m b

/-- A record's 64 bytes (R416). -/
def recordBytes (flags seq time code origin : Nat) (payload : List Byte) : List Byte :=
  let p := payload.take 32
  let body := le 2 0x4442 ++ le 1 flags ++ le 1 p.length ++ le 8 seq ++ le 8 time ++ le 2 code ++ le 1 origin ++
    le 5 0 ++ p ++ le (32 - p.length) 0
  body ++ le 4 (Crc.crc32 body)

/-- Memory keys of permanent slot k, copies A and B, and of rolling slot j (R415). -/
def permA (k : Nat) : Nat := 0x30000000 + 64 * k
def permB (k : Nat) : Nat := 0x30080000 + 64 * k
def rollAt (j : Nat) : Nat := 0x30100000 + 64 * j

/-- The words of `n` bytes from a word-aligned key on whose marks pass. -/
def marksAll (b : Blk) (k n : Nat) (p : Mark → Bool) : Bool := (List.range ((n + 3) / 4)).all fun w => p (markOf b (k + 4 * w))

/-- A read by the Daybook controller under SECDED (R15). The spec gives it no initiator number in the error log: a free
value. -/
def dbRead (b : Blk) (k n : Nat) : ReadN :=
  readMem (if marksAll b k n (· == .clean) then b else spend b) k n (freeVal b % 64)

/-- Whether a slot holds a record with a good CRC, no word of it uncorrectable or poisoned (R15, R419). -/
def slotGood (b : Blk) (k : Nat) : Bool :=
  let r := memBytes b k 64
  marksAll b k 64 (fun m => !markBad m && m != .poison) &&
    decide (ofLE (r.take 2) = 0x4442) && decide (Crc.crc32 (r.take 60) = ofLE (r.drop 60))

/-- The slots at these keys are read under SECDED: what is correctable is corrected (R15). -/
def dbScan (l : List Nat) (b : Blk) : Blk := forEach l (fun k b => (dbRead b k 64).blk) b

/-- The SEQ of a permanent slot as the controller reads it, from copy B where copy A's is not sound (R15, R420). -/
def permSeq (k : Nat) (b : Blk) : Blk × Nat :=
  let r := dbRead b (permA k + 4) 8
  if r.bad.isNone then (r.blk, ofLE r.bytes)
  else
    let r := dbRead r.blk (permB k + 4) 8
    (r.blk, ofLE r.bytes)

/-- The SEQ of a slot. -/
def slotSeq (b : Blk) (k : Nat) : Nat := memLE b (k + 4) 8

/-- Whether a slot's record is of this module's own origin: not mirrored from another device. -/
def slotOwn (b : Blk) (k : Nat) : Bool := !((memByte b (k + 2)).getLsbD 1)

/-- Write a record to the next rolling slot (R419). -/
def writeRolling (r : List Byte) (b : Blk) : Blk :=
  let j := rd b DBK.R_NEXT.SLOT
  wr (writeMem (rollAt j) r b) DBK.R_NEXT.SLOT (if j + 1 = 114688 then 0 else j + 1)

/-- Show the SEQ of the oldest unreleased permanent record. -/
def showOldest (b : Blk) : Blk :=
  if rd b DBK.P_USED.USED = 0 then wr64 b DBK.P_OLDEST.SEQ (rd64 b DBK.NEXT_SEQ.SEQ)
  else
    let r := permSeq b.daybook.pHead b
    wr64 r.1 DBK.P_OLDEST.SEQ r.2

/-- Commit one record (R416, R419, R420): SEQ first, then the slot, then copy B of a permanent record. -/
def commitRecord (r : DbReq) (b : Blk) : Blk :=
  let seq := rd64 b DBK.NEXT_SEQ.SEQ
  let b := wr64 b DBK.NEXT_SEQ.SEQ (seq + 1)
  let used := rd b DBK.P_USED.USED
  let beyond := r.perm && decide (8192 ≤ used)
  let flags := b2n r.perm + 4 * b2n beyond + 8 * b2n r.noTime + 16 * b2n r.field
  let bytes := recordBytes flags seq r.time r.code (siteAddr b) r.payload
  let b :=
    if r.perm ∧ !beyond then
      let k := (b.daybook.pHead + used) % 8192
      let b := writeMem (permB k) bytes (writeMem (permA k) bytes b)
      let b := wr b DBK.P_USED.USED (used + 1)
      if rd b DBK.DCTL.PWARN_PCT * 8192 ≤ (used + 1) * 100 ∧ !b.daybook.warned then
        raise pgDBK 1 { b with daybook := { b.daybook with warned := true } }
      else b
    else
      let b := writeRolling bytes b
      if beyond then raise pgDBK 2 (wrB b DBK.DSTAT.PFULL true) else b
  let b := showOldest b
  let b := if r.fw then raise pgDBK 0 (wr64 b DBK.WR_SEQ.SEQ seq) else b
  if isOn b FCTR.MIRROR.VALID then toMirror (.mirrorRecord bytes) b else b

/-- The queue's head is committed; on an empty queue a sealing Daybook writes its seal record (R419, R422). -/
def doDaybookCommit (b : Blk) : Blk :=
  match b.daybook.queue with
  | r :: t =>
    let b := commitRecord r { b with daybook := { b.daybook with queue := t } }
    wrU b DBK.DSTAT.QUEUE t.length
  | [] =>
    if b.daybook.sealing then
      let d := legalDom b
      let seq := rd64 b DBK.NEXT_SEQ.SEQ
      let r : DbReq :=
        { code := 0x0040, perm := true, time := eHost b d, payload := le 2 b.daybook.sealCount, noTime := !isOn b (TIME.DOM.STAT.SET d) }
      let b := commitRecord r b
      let b := { b with daybook := { b.daybook with sealing := false, lastSeal := seq } }
      raise pgDBK 6 (wrB b DBK.DSTAT.SEALED true)
    else b

/-- A record of the firmware requests refused, written with the next power-up or seal record (R418). -/
def recordDropped (b : Blk) : Blk :=
  if b.daybook.dropped = 0 then b
  else
    let n := b.daybook.dropped
    hostRecord 0x0060 false (le 2 n) { b with daybook := { b.daybook with dropped := 0 } }

/-- A host power-fail warning starts the sealing (R422). -/
def daybookSeal (b : Blk) : Blk :=
  if isOn b DBK.DSTAT.SEALED ∨ b.daybook.sealing then b
  else
    let n := b.daybook.queue.length
    let b := recordDropped b
    wrB { b with daybook := { b.daybook with sealing := true, sealCount := n } } DBK.DSTAT.COPYING false

/-- The slots of a region of the MRAM that hold a byte. -/
def slotsWithin (b : Blk) (base n : Nat) : List Nat :=
  (b.mem.filterMap fun e => if base ≤ e.1 ∧ e.1 < base + 64 * n then some ((e.1 - base) / 64) else none).eraseDups

/-- Repair one permanent slot (R421). Where both copies are good and differ, copy A stands (DESIGN CHOICE, log 12). -/
def repairSlot (k : Nat) (b : Blk) : Blk :=
  let ga := slotGood b (permA k)
  let gb := slotGood b (permB k)
  let same := decide (memBytes b (permA k) 64 = memBytes b (permB k) 64)
  if ga && gb && same then b
  else if ga then incSat (writeMem (permB k) (memBytes b (permA k) 64) b) DBK.ERR.REPAIRED
  else if gb then incSat (writeMem (permA k) (memBytes b (permB k) 64) b) DBK.ERR.REPAIRED
  else incSat (writeMem (permB k) (le 64 0) (writeMem (permA k) (le 64 0) b)) DBK.ERR.CRC_BAD

/-- The Daybook at power-up, before firmware runs (R421). -/
def daybookPowerUp (b : Blk) : Blk :=
  let r0 := rd b DBK.ERR.REPAIRED
  let c0 := rd b DBK.ERR.CRC_BAD
  let perm := (slotsWithin b 0x30000000 8192 ++ slotsWithin b 0x30080000 8192).eraseDups
  let rolls := slotsWithin b 0x30100000 114688
  let b := dbScan (perm.map permA ++ perm.map permB ++ rolls.map rollAt) b
  let b := forEach perm repairSlot b
  let roll := rolls.filter fun j => slotGood b (rollAt j) && slotOwn b (rollAt j)
  let b := match bestBy (fun x y => decide (slotSeq b (rollAt y) < slotSeq b (rollAt x))) roll with
    | none => b
    | some j => wr b DBK.R_NEXT.SLOT (if j + 1 = 114688 then 0 else j + 1)
  let seqs := roll.map (fun j => slotSeq b (rollAt j)) ++
    (perm.filter fun k => slotGood b (permA k)).map fun k => slotSeq b (permA k)
  let next := seqs.foldl (fun m x => max m (x + 1)) (rd64 b DBK.NEXT_SEQ.SEQ)
  let b := wr64 b DBK.NEXT_SEQ.SEQ next
  let n := (rd b DBK.ERR.REPAIRED - r0) + (rd b DBK.ERR.CRC_BAD - c0)
  let b := when (decide (n ≠ 0)) (raise pgDBK 5) b
  let b := recordDropped b
  hostRecord 0x0041 false
    (le 4 (rd b SYS.RST_CAUSE.CAUSE) ++ le 8 b.daybook.lastSeal ++ le 4 (rd b DBK.ERR.REPAIRED - r0)) b

/-- WR_GO: firmware's request is queued, or refused when only reserved entries remain or the Daybook seals (R418,
R422). -/
def actWrGo (v : Nat) (b : Blk) : Blk :=
  if !v.testBit 0 then b
  else if isOn b DBK.DSTAT.SEALED ∨ b.daybook.sealing then raise pgDBK 7 (wr b DBK.WR_STAT.RESULT 3)
  else if 48 ≤ b.daybook.queue.length then
    let b := { b with daybook := { b.daybook with dropped := b.daybook.dropped + 1 } }
    raise pgDBK 7 (wr b DBK.WR_STAT.RESULT 2)
  else
    let d := legalDom b
    let data := (List.range 8).flatMap fun i => le 4 (rd b (DBK.WR_DATA.DATA i))
    let r : DbReq :=
      { code := rd b DBK.WR_HDR.CODE, perm := isOn b DBK.WR_HDR.PERM, fw := true, time := eHost b d,
        noTime := !isOn b (TIME.DOM.STAT.SET d), payload := data.take (rd b DBK.WR_HDR.LEN) }
    let q := b.daybook.queue ++ [r]
    let b := { b with daybook := { b.daybook with queue := q } }
    wr (wrU b DBK.DSTAT.QUEUE q.length) DBK.WR_STAT.RESULT 0

/-- The codes hardware writes from a field entry under their own number, and whether they are permanent (R417). -/
def fieldCode (code : Nat) : Option Bool :=
  match code with
  | 0x0001 => some true
  | 0x0002 => some true
  | 0x0003 => some false
  | 0x0030 => some true
  | _ => none

/-- DBK_ENTRY: a field-origin record is queued (R417). -/
def doDbkEntry (code time : Nat) (payload : List Byte) (b : Blk) : Blk :=
  if isOn b DBK.DSTAT.SEALED then b
  else
    let r : DbReq :=
      { code := if (fieldCode code).isSome then code else 0x0031, perm := (fieldCode code).getD false, field := true,
        time := time, noTime := !isOn b (TIME.DOM.STAT.SET (legalDom b)), payload := payload }
    let q := b.daybook.queue ++ [r]
    wrU { b with daybook := { b.daybook with queue := q } } DBK.DSTAT.QUEUE q.length

/-- Free the permanent slots, in ring order, whose SEQ is at or below a bound; `n` bounds their number. -/
def freeSlots : Nat → Nat → Blk → Blk
  | 0, _, b => b
  | n + 1, bound, b =>
    let used := rd b DBK.P_USED.USED
    let r := permSeq b.daybook.pHead b
    let b := r.1
    if used = 0 ∨ bound < r.2 then b
    else
      let b := wr b DBK.P_USED.USED (used - 1)
      freeSlots n bound { b with daybook := { b.daybook with pHead := (b.daybook.pHead + 1) % 8192 } }

/-- A write of REL_HI releases permanent records (R423). A value at or above NEXT_SEQ leaves the field as it was. -/
def doRelease (i : Init) (v : Word) (b : Blk) : Blk :=
  let bound := rd b DBK.REL_LO.SEQ + 2 ^ 32 * v.toNat
  if i.side = .hostSide ∧ rd64 b DBK.NEXT_SEQ.SEQ ≤ bound then answer (touchPage i pgDBK b) .accepted
  else writeAct i false DBK.REL_HI.SEQ.a v (fun _ b =>
    let b := showOldest (freeSlots 8192 bound b)
    let below := decide (rd b DBK.P_USED.USED * 100 < rd b DBK.DCTL.PWARN_PCT * 8192)
    let b := if rd b DBK.P_USED.USED < 8192 then wrB b DBK.DSTAT.PFULL false else b
    { b with daybook := { b.daybook with warned := b.daybook.warned && !below } }) b

/-- A mirror stores a received record in its rolling region with FLAGS[1] set and acknowledges it (R424); from a power-fail
warning on it takes none (R422). -/
def doMirrorRx (r : List Byte) (b : Blk) : Blk :=
  if isOn b DBK.DSTAT.SEALED ∨ b.daybook.sealing then b
  else
  let flags := ((r.getD 2 0) ||| 2).toNat
  let body := (r.take 2 ++ [BitVec.ofNat 8 flags] ++ r.drop 3).take 60
  let b := writeRolling (body ++ le 4 (Crc.crc32 body)) b
  let m : Msg := .mirrorAck (r.getD 22 0).toNat (ofLE ((r.drop 4).take 8))
  sendTo (r.getD 22 0).toNat 3 m (emit (incWrap b DBK.MIR_RX.COUNT) m)

/-- The mirror's acknowledgement (R424, R425). -/
def doMirrorAck (seq : Nat) (b : Blk) : Blk :=
  let wait := match b.daybook.copyWait with
    | some q => if q ≤ seq then none else some q
    | none => none
  let b := { b with daybook := { b.daybook with copyWait := wait } }
  wr64 b DBK.MIR_ACK.SEQ (max (rd64 b DBK.MIR_ACK.SEQ) seq)

/-- Whether the mirror is reachable (DSTAT.MIR_UP). -/
def mirrorUp (b : Blk) : Bool :=
  isOn b FCTR.MIRROR.VALID && (if isOn b FCTR.MIRROR.PARTNER then laneUp b 4 || laneUp b 5
    else !(route b (rd b FCTR.MIRROR.STACK % 16 * 16 + rd b FCTR.MIRROR.POS * 4)).1.isEmpty)

/-- A mirror lost or regained raises DBK event 3 (R429). -/
def showMirror (b : Blk) : Blk :=
  let up := mirrorUp b
  if up = b.daybook.mirUp then b else raise pgDBK 3 { b with daybook := { b.daybook with mirUp := up } }

/-- The newest own-origin rolling records, at most `n`, by memory key, oldest first: the ring read from its next slot
round (R425). -/
def newestRolling (b : Blk) (n : Nat) : List Nat :=
  let own := (slotsWithin b 0x30100000 114688).filter fun j => slotGood b (rollAt j) && slotOwn b (rollAt j)
  let next := rd b DBK.R_NEXT.SLOT
  let ring := own.filter (next ≤ ·) ++ own.filter (· < next)
  (ring.drop (ring.length - n)).map rollAt

/-- One record of a full copy: a frame that would carry a word poisoned, or found uncorrectable on reading, is dropped and
counted (R15, R16). -/
def copyRecord (k : Nat) (b : Blk) : Blk :=
  let r := dbRead b k 64
  if r.bad.isSome then raise pgLINK 4 (incSat r.blk LINK.DROPS.POISON) else toMirror (.mirrorRecord r.bytes) r.blk

/-- Start a full copy to the mirror (R425): every unreleased permanent record, then the newest rolling ones, each group
in SEQ order. -/
def startFullCopy (b : Blk) : Blk :=
  let used := rd b DBK.P_USED.USED
  let perm := (List.range used).map fun k => permA ((b.daybook.pHead + k) % 8192)
  let roll := newestRolling b (rd b DBK.DCTL.COPY_N * 1024)
  let last := (perm ++ roll).getLast?.map (slotSeq b)
  let b := wrB { b with daybook := { b.daybook with copyWait := last } } DBK.DSTAT.COPYING true
  forEach (perm ++ roll) copyRecord b

/-- FULL_COPY_DONE: the mirror has acknowledged the last record of step 2 (R425). -/
def doFullCopyDone (b : Blk) : Blk :=
  if isOn b DBK.DSTAT.COPYING ∧ b.daybook.copyWait.isNone then raise pgDBK 4 (wrB b DBK.DSTAT.COPYING false) else b

/-- Cold-read READ (R426): bytes from an offset in the Daybook, wrapping at its end. -/
def doColdRead (addr n : Nat) (b : Blk) : Blk :=
  emit b (.coldBytes ((List.range n).map fun i => memByte b (0x30000000 + (addr + i) % 0x800000)))

/-- Cold-read IDENT (R426). -/
def doColdIdent (b : Blk) : Blk :=
  emit b (.coldBytes (le 2 0x4442 ++ le 1 1 ++ le 1 0 ++ le 8 b.daybook.identity ++ le 4 0))

def execDbkEntry (code : BitVec 16) (time : BitVec 64) (payload : List Byte) (s : State) : Out :=
  run (doDbkEntry code.toNat time.toNat payload) s

def execDaybookWrite (i : Init) (v : Word) (s : State) : Out := run (writeAct i false DBK.WR_GO.GO.a v actWrGo) s

def execDaybookRelease (i : Init) (v : Word) (s : State) : Out := run (doRelease i v) s

def execMirrorRecordRx (rec : List Byte) (s : State) : Out := run (doMirrorRx rec) s

def execMirrorAck (seq : BitVec 64) (s : State) : Out := run (doMirrorAck seq.toNat) s

def execFullCopyDone (s : State) : Out := run doFullCopyDone s

def execColdRead (addr : BitVec 23) (n : Nat) (s : State) : Out := run (doColdRead addr.toNat n) s

def execColdIdent (s : State) : Out := run doColdIdent s

end Sys2Proof.Machine
end

