-- ==== Sys2Proof/Machine/Crypto.lean ====
section
/-!
DEFINITION. The cryptographic functions the spec names by their standards: SHA-256, HMAC and HKDF (RFC 5869), AES and
GCM, ECDSA and ECDH on P-256 with the nonces of RFC 6979 (chapters 10, 17). Their content is those standards'
(notes/assumptions/5.md).
-/

namespace Sys2Proof.Machine.Crypto

open Sys2Proof.Num

/-! SHA-256. -/

def shaK : List Word :=
  [0x428a2f98, 0x71374491, 0xb5c0fbcf, 0xe9b5dba5, 0x3956c25b, 0x59f111f1, 0x923f82a4, 0xab1c5ed5] ++
  [0xd807aa98, 0x12835b01, 0x243185be, 0x550c7dc3, 0x72be5d74, 0x80deb1fe, 0x9bdc06a7, 0xc19bf174] ++
  [0xe49b69c1, 0xefbe4786, 0x0fc19dc6, 0x240ca1cc, 0x2de92c6f, 0x4a7484aa, 0x5cb0a9dc, 0x76f988da] ++
  [0x983e5152, 0xa831c66d, 0xb00327c8, 0xbf597fc7, 0xc6e00bf3, 0xd5a79147, 0x06ca6351, 0x14292967] ++
  [0x27b70a85, 0x2e1b2138, 0x4d2c6dfc, 0x53380d13, 0x650a7354, 0x766a0abb, 0x81c2c92e, 0x92722c85] ++
  [0xa2bfe8a1, 0xa81a664b, 0xc24b8b70, 0xc76c51a3, 0xd192e819, 0xd6990624, 0xf40e3585, 0x106aa070] ++
  [0x19a4c116, 0x1e376c08, 0x2748774c, 0x34b0bcb5, 0x391c0cb3, 0x4ed8aa4a, 0x5b9cca4f, 0x682e6ff3] ++
  [0x748f82ee, 0x78a5636f, 0x84c87814, 0x8cc70208, 0x90befffa, 0xa4506ceb, 0xbef9a3f7, 0xc67178f2]

/-- The eight working words. -/
structure Sha where
  a : Word := 0x6a09e667
  b : Word := 0xbb67ae85
  c : Word := 0x3c6ef372
  d : Word := 0xa54ff53a
  e : Word := 0x510e527f
  f : Word := 0x9b05688c
  g : Word := 0x1f83d9ab
  h : Word := 0x5be0cd19
deriving DecidableEq, Repr

/-- One round: a schedule word and a round constant. -/
def shaRound (s : Sha) (w k : Word) : Sha :=
  let s1 := s.e.rotateRight 6 ^^^ s.e.rotateRight 11 ^^^ s.e.rotateRight 25
  let ch := (s.e &&& s.f) ^^^ (~~~ s.e &&& s.g)
  let t1 := s.h + s1 + ch + k + w
  let s0 := s.a.rotateRight 2 ^^^ s.a.rotateRight 13 ^^^ s.a.rotateRight 22
  let maj := (s.a &&& s.b) ^^^ (s.a &&& s.c) ^^^ (s.b &&& s.c)
  { a := t1 + s0 + maj, b := s.a, c := s.b, d := s.c, e := s.d + t1, f := s.e, g := s.f, h := s.g }

/-- The rounds over the constants left, the schedule's next 16 words in a window. -/
def shaRounds : List Word → List Word → Sha → Sha
  | [], _, s => s
  | k :: ks, win, s =>
    let w := win.headD 0
    let x1 := win.getD 1 0
    let x14 := win.getD 14 0
    let s0 := x1.rotateRight 7 ^^^ x1.rotateRight 18 ^^^ (x1 >>> 3)
    let s1 := x14.rotateRight 17 ^^^ x14.rotateRight 19 ^^^ (x14 >>> 10)
    shaRounds ks (win.drop 1 ++ [s1 + win.getD 9 0 + s0 + w]) (shaRound s w k)

/-- One 64-byte block. -/
def shaBlock (s : Sha) (blk : List Byte) : Sha :=
  let win := (List.range 16).map fun i => BitVec.ofNat 32 (ofBE ((blk.drop (4 * i)).take 4))
  let t := shaRounds shaK win s
  { a := s.a + t.a, b := s.b + t.b, c := s.c + t.c, d := s.d + t.d,
    e := s.e + t.e, f := s.f + t.f, g := s.g + t.g, h := s.h + t.h }

/-- The blocks of a padded message, `n` of them. -/
def shaBlocks : Nat → List Byte → Sha → Sha
  | 0, _, s => s
  | n + 1, l, s => shaBlocks n (l.drop 64) (shaBlock s (l.take 64))

/-- SHA-256 of a message. -/
def sha256 (m : List Byte) : List Byte :=
  let n := m.length
  let pad := m ++ [(0x80 : Byte)] ++ List.replicate ((119 - n % 64) % 64) 0 ++ be 8 (8 * n)
  let s := shaBlocks (pad.length / 64) pad {}
  [s.a, s.b, s.c, s.d, s.e, s.f, s.g, s.h].flatMap fun w => be 4 w.toNat

/-- HMAC-SHA-256. -/
def hmac (key msg : List Byte) : List Byte :=
  let k0 := if 64 < key.length then sha256 key else key
  let k := k0 ++ List.replicate (64 - k0.length) 0
  sha256 (k.map (· ^^^ 0x5c) ++ sha256 (k.map (· ^^^ 0x36) ++ msg))

/-- The blocks of the HKDF expansion: `n` of them from counter `c`. -/
def hkdfBlocks (prk info : List Byte) : Nat → Nat → List Byte → List Byte
  | 0, _, _ => []
  | n + 1, c, prev =>
    let t := hmac prk (prev ++ info ++ [BitVec.ofNat 8 c])
    t ++ hkdfBlocks prk info n (c + 1) t

/-- HKDF-SHA-256 with an empty salt: `n` bytes. -/
def hkdf (ikm info : List Byte) (n : Nat) : List Byte :=
  (hkdfBlocks (hmac (List.replicate 32 0) ikm) info ((n + 31) / 32) 1 []).take n

/-! AES. -/

/-- Multiplication by x in GF(2^8). -/
def xtime (a : Byte) : Byte := if a.getLsbD 7 then (a <<< 1) ^^^ 0x1b else a <<< 1

/-- Multiplication in GF(2^8), over the low `k` bits of the second factor. -/
def gmulAux : Nat → Byte → Byte → Byte → Byte
  | 0, _, _, r => r
  | k + 1, a, b, r => gmulAux k (xtime a) (b >>> 1) (if b.getLsbD 0 then r ^^^ a else r)

def gmul (a b : Byte) : Byte := gmulAux 8 a b 0

/-- The inverse, x^254, 0 for 0. -/
def ginv (a : Byte) : Byte :=
  let a2 := gmul a a
  let a4 := gmul a2 a2
  let a8 := gmul a4 a4
  let a16 := gmul a8 a8
  let a32 := gmul a16 a16
  let a64 := gmul a32 a32
  let a128 := gmul a64 a64
  gmul a128 (gmul a64 (gmul a32 (gmul a16 (gmul a8 (gmul a4 a2)))))

/-- SubBytes of one byte. -/
def sbox (a : Byte) : Byte :=
  let i := ginv a
  i ^^^ i.rotateLeft 1 ^^^ i.rotateLeft 2 ^^^ i.rotateLeft 3 ^^^ i.rotateLeft 4 ^^^ 0x63

/-- Exclusive or of byte lists, as long as the first. -/
def xorL : List Byte → List Byte → List Byte
  | [], _ => []
  | a :: s, [] => a :: s
  | a :: s, b :: t => (a ^^^ b) :: xorL s t

/-- The key schedule: words from index `i` on, `n` of them, appended to those given. -/
def expandKey (nk : Nat) : Nat → Nat → Byte → List (List Byte) → List (List Byte)
  | 0, _, _, ws => ws
  | n + 1, i, rc, ws =>
    let prev := ws.getLastD []
    let t := if i % nk = 0 then
        xorL ((prev.drop 1 ++ prev.take 1).map sbox) [rc]
      else if nk = 8 ∧ i % nk = 4 then prev.map sbox else prev
    expandKey nk n (i + 1) (if i % nk = 0 then xtime rc else rc) (ws ++ [xorL (ws.getD (i - nk) []) t])

/-- The round keys of a 16- or 32-byte key, 16 bytes each. -/
def roundKeys (key : List Byte) : List (List Byte) :=
  let nk := key.length / 4
  let w0 := (List.range nk).map fun i => (key.drop (4 * i)).take 4
  let total := 4 * (nk + 7)
  let ws := expandKey nk (total - nk) nk 1 w0
  (List.range (nk + 7)).map fun r => ((ws.drop (4 * r)).take 4).flatten

/-- ShiftRows of the 16 bytes in column order. -/
def shiftRows (s : List Byte) : List Byte :=
  (List.range 16).map fun i => s.getD ((i + 4 * (i % 4)) % 16) 0

/-- MixColumns. -/
def mixColumns (s : List Byte) : List Byte :=
  (List.range 16).map fun i =>
    let c := i / 4 * 4
    let x := fun k => s.getD (c + (i + k) % 4) 0
    xtime (x 0) ^^^ (xtime (x 1) ^^^ x 1) ^^^ x 2 ^^^ x 3

/-- The rounds after the first key addition. -/
def aesRounds : List (List Byte) → List Byte → List Byte
  | [], s => s
  | [k], s => xorL (shiftRows (s.map sbox)) k
  | k :: ks, s => aesRounds ks (xorL (mixColumns (shiftRows (s.map sbox))) k)

/-- Encryption of one block under round keys. -/
def aesBlock (rks : List (List Byte)) (s : List Byte) : List Byte :=
  match rks with
  | [] => s
  | k :: ks => aesRounds ks (xorL s k)

/-! GCM, with 12-byte IVs. -/

/-- The GHASH product, over the low `k` bits left of the first factor (bit 127 is the first coefficient). -/
def ghMulAux (x : BitVec 128) : Nat → BitVec 128 → BitVec 128 → BitVec 128
  | 0, _, z => z
  | k + 1, v, z =>
    let z := if x.getLsbD k then z ^^^ v else z
    ghMulAux x k (if v.getLsbD 0 then (v >>> 1) ^^^ (0xE1#128 <<< (120 : Nat)) else v >>> 1) z

/-- GHASH over padded data, `n` blocks. -/
def ghash (h : BitVec 128) : Nat → List Byte → BitVec 128 → BitVec 128
  | 0, _, y => y
  | n + 1, l, y => ghash h n (l.drop 16) (ghMulAux (y ^^^ BitVec.ofNat 128 (ofBE (l.take 16))) 128 h 0)

/-- Padding to whole blocks. -/
def pad16 (l : List Byte) : List Byte := l ++ List.replicate ((16 - l.length % 16) % 16) 0

/-- Counter-mode keystream: `n` blocks from a counter on. -/
def ctrStream (rks : List (List Byte)) (iv : List Byte) : Nat → Nat → List Byte
  | 0, _ => []
  | n + 1, c => aesBlock rks (iv ++ be 4 c) ++ ctrStream rks iv n (c + 1)

/-- The counter-mode transformation of data. -/
def gcmCtr (rks : List (List Byte)) (iv d : List Byte) : List Byte :=
  xorL d (ctrStream rks iv ((d.length + 15) / 16) 2)

/-- The tag over additional data and ciphertext. -/
def gcmTag (rks : List (List Byte)) (iv aad ct : List Byte) : List Byte :=
  let h := BitVec.ofNat 128 (ofBE (aesBlock rks (List.replicate 16 0)))
  let d := pad16 aad ++ pad16 ct ++ be 8 (8 * aad.length) ++ be 8 (8 * ct.length)
  xorL (be 16 (ghash h (d.length / 16) d 0).toNat) (aesBlock rks (iv ++ be 4 1))

/-- Encryption: ciphertext and tag. -/
def gcmSeal (key iv aad pt : List Byte) : List Byte :=
  let rks := roundKeys key
  let ct := gcmCtr rks iv pt
  ct ++ gcmTag rks iv aad ct

/-- Decryption: none where the tag fails. -/
def gcmOpen (key iv aad ct tag : List Byte) : Option (List Byte) :=
  let rks := roundKeys key
  if gcmTag rks iv aad ct = tag then some (gcmCtr rks iv ct) else none

/-! P-256. -/

def pP : Nat := 0xffffffff00000001000000000000000000000000ffffffffffffffffffffffff
def pN : Nat := 0xffffffff00000000ffffffffffffffffbce6faada7179e84f3b9cac2fc632551
def pB : Nat := 0x5ac635d8aa3a93e7b3ebbd55769886bc651d06b0cc53b0f63bce3c3e27d2604b
def pGx : Nat := 0x6b17d1f2e12c4247f8bce6e563a440f277037d812deb33a0f4a13945d898c296
def pGy : Nat := 0x4fe342e2fe1a7f9b8ee7eb4a7c0f9e162bce33576b315ececbb6406837bf51f5

/-- Power modulo m, over the low `k` bits of the exponent. -/
def powMod (m : Nat) : Nat → Nat → Nat → Nat → Nat
  | 0, _, _, r => r
  | k + 1, x, e, r => powMod m k (x * x % m) (e / 2) (if e % 2 = 1 then r * x % m else r)

/-- Inverse modulo a prime below 2^256. -/
def invMod (m x : Nat) : Nat := powMod m 256 (x % m) (m - 2) 1

/-- A point in Jacobian coordinates; z = 0 is the identity. -/
structure Pt where
  x : Nat
  y : Nat
  z : Nat
deriving DecidableEq, Repr

/-- The difference modulo p. -/
def subP (a b : Nat) : Nat := (a + pP - b % pP) % pP

/-- Doubling. -/
def Pt.dbl (p : Pt) : Pt :=
  let zz := p.z * p.z % pP
  let m := 3 * subP p.x zz * ((p.x + zz) % pP) % pP
  let yy := p.y * p.y % pP
  let s := 4 * p.x * yy % pP
  let x := subP (m * m % pP) (2 * s)
  { x := x, y := subP (m * subP s x % pP) (8 * yy * yy), z := 2 * p.y * p.z % pP }

/-- Addition. -/
def Pt.add (p q : Pt) : Pt :=
  if p.z = 0 then q else if q.z = 0 then p
  else
    let z1 := p.z * p.z % pP
    let z2 := q.z * q.z % pP
    let u1 := p.x * z2 % pP
    let u2 := q.x * z1 % pP
    let s1 := p.y * z2 * q.z % pP
    let s2 := q.y * z1 * p.z % pP
    if u1 = u2 then (if s1 = s2 then p.dbl else { x := 1, y := 1, z := 0 })
    else
      let h := subP u2 u1
      let r := subP s2 s1
      let hh := h * h % pP
      let hhh := h * hh % pP
      let v := u1 * hh % pP
      let x := subP (subP (r * r % pP) hhh) (2 * v)
      { x := x, y := subP (r * subP v x % pP) (s1 * hhh), z := h * p.z * q.z % pP }

/-- k · P, over the low `n` bits of k from the highest. -/
def mulPt (p : Pt) (k : Nat) : Nat → Pt
  | 0 => { x := 1, y := 1, z := 0 }
  | n + 1 =>
    let q := (mulPt p (k / 2) n).dbl
    if k % 2 = 1 then q.add p else q

/-- Affine coordinates; none for the identity. -/
def Pt.affine (p : Pt) : Option (Nat × Nat) :=
  if p.z % pP = 0 then none
  else
    let i := invMod pP p.z
    some (p.x * i * i % pP, p.y * i * i * i % pP)

/-- The base point. -/
def pG : Pt := { x := pGx, y := pGy, z := 1 }

/-- Whether coordinates are a point of the curve. -/
def onCurve (x y : Nat) : Bool :=
  decide (x < pP ∧ y < pP ∧ y * y % pP = subP (x * x * x + pB) (3 * x))

/-- The public point x ‖ y of a scalar. -/
def pubOf (d : Nat) : List Byte := match (mulPt pG d 256).affine with
  | some (x, y) => be 32 x ++ be 32 y
  | none => []

/-- Verification of r ‖ s over a 32-byte hash under x ‖ y. -/
def ecdsaVerify (pub hash sig : List Byte) : Bool :=
  let x := ofBE (pub.take 32)
  let y := ofBE ((pub.drop 32).take 32)
  let r := ofBE (sig.take 32)
  let s := ofBE ((sig.drop 32).take 32)
  if pub.length ≠ 64 ∨ sig.length ≠ 64 ∨ !onCurve x y ∨ r = 0 ∨ pN ≤ r ∨ s = 0 ∨ pN ≤ s then false
  else
    let w := invMod pN s
    let p := mulPt pG (ofBE hash * w % pN) 256
    let q := mulPt { x := x, y := y, z := 1 } (r * w % pN) 256
    match (p.add q).affine with
    | some (px, _) => px % pN == r
    | none => false

/-- The search for a nonce of RFC 6979, `n` tries at most. -/
def nonceLoop : Nat → List Byte → List Byte → (Nat → Bool) → Nat
  | 0, _, _, _ => 0
  | n + 1, k, v, good =>
    let v := hmac k v
    if good (ofBE v) then ofBE v
    else
      let k := hmac k (v ++ [(0 : Byte)])
      nonceLoop n k (hmac k v) good

/-- r and s for a nonce; zeros where the nonce does not serve. -/
def signWith (d h k : Nat) : Nat × Nat :=
  if k = 0 ∨ pN ≤ k then (0, 0)
  else match (mulPt pG k 256).affine with
    | some (x, _) =>
      let r := x % pN
      (r, invMod pN k * (h + r * d) % pN)
    | none => (0, 0)

/-- ECDSA of a 32-byte hash with the nonce of RFC 6979: r ‖ s. -/
def ecdsaSign (d : Nat) (hash : List Byte) : List Byte :=
  let h := ofBE hash
  let x := be 32 d ++ be 32 (h % pN)
  let v0 := List.replicate 32 (1 : Byte)
  let k1 := hmac (List.replicate 32 0) (v0 ++ [(0 : Byte)] ++ x)
  let v1 := hmac k1 v0
  let k2 := hmac k1 (v1 ++ [(1 : Byte)] ++ x)
  let v2 := hmac k2 v1
  let k := nonceLoop 64 k2 v2 fun c => let rs := signWith d h c; rs.1 ≠ 0 && rs.2 ≠ 0
  let rs := signWith d h k
  be 32 rs.1 ++ be 32 rs.2

/-- The x-coordinate of ECDH; none where the peer is no point of the curve. -/
def ecdh (d : Nat) (pub : List Byte) : Option (List Byte) :=
  let x := ofBE (pub.take 32)
  let y := ofBE ((pub.drop 32).take 32)
  if pub.length ≠ 64 ∨ !onCurve x y then none
  else (mulPt { x := x, y := y, z := 1 } d 256).affine.map fun q => be 32 q.1

end Sys2Proof.Machine.Crypto
end

