-- ==== Sys2Proof/Machine/Flags.lean ====
section
/-!
DEFINITION. Events from the pages to the cores (R31, R32, R469 to R473) and the latency monitors (R474 to R479).
-/

namespace Sys2Proof.Machine

open Sys2Proof.Num

/-- The host pages with their first event number and events per instance. -/
def hostEventPages : List (Nat × Nat × Nat) :=
  hostPages.flatMap fun p => (List.range p.n).map fun k => ((p.base + k) * 0x1000, p.first + k * p.events, p.events)

/-- The page of an event number of a side: its key and the event's bit. -/
def eventPage (field : Bool) (n : Nat) : Option (Nat × Nat) :=
  ((if field then fieldEventPages else hostEventPages).findSome? fun e =>
    if e.2.1 ≤ n ∧ n < e.2.1 + e.2.2 then some (e.1, n - e.2.1) else none)

/-- Whether an event is pending (R469, R472): its raw and its enable bit are both set. -/
def pendingEv (b : Blk) (field : Bool) (n : Nat) : Bool :=
  if !field && decide (224 ≤ n) then rdBit b EVC.FWD_RAW.RAW (n - 224) && rdBit b EVC.FWD_EN.EN (n - 224)
  else match eventPage field n with
    | some (pg, k) => rdBit b (hRAW pg) k && rdBit b (hEVEN pg) k
    | none => false

/-- The event register of an event number. -/
def evReg (field : Bool) (n : Nat) : Nat := (if field then pgFEVC else pgEVC) + 0x400 + 4 * n

/-- The effective priority of an event (R470). -/
def effPrio (b : Blk) (field : Bool) (n : Nat) : Nat :=
  if isOn b ⟨evReg field n, 31, 1⟩ then rd b ⟨evReg field n, 24, 4⟩
  else if !field && decide (224 ≤ n) then rd b EVC.FWD_CFG.PRIO
  else match eventPage field n with
    | some (pg, _) => rd b (hPRIO pg)
    | none => 8

/-- The core an event targets (R470). -/
def evTarget (b : Blk) (field : Bool) (n : Nat) : Nat := rd b ⟨evReg field n, 16, if field then 1 else 2⟩

/-- Whether some core of a side holds an event in service. -/
def inService (b : Blk) (field : Bool) (n : Nat) : Bool :=
  (if field then [4, 5] else [0, 1, 2, 3]).any fun c => (svcOf b c).any fun e => e.1 == n

/-- The CORE register block of a core. -/
def coreReg (field : Bool) (c : Nat) : Nat := (if field then pgFEVC else pgEVC) + 0x100 + 0x10 * c

/-- A core's current level (R471). -/
def curLevel (b : Blk) (field : Bool) (c : Nat) : Nat := rd b ⟨coreReg field c + 0xC, 0, 5⟩

/-- The events a core may claim, in rising number (R471). -/
def eligible (b : Blk) (field : Bool) (c : Nat) : List Nat :=
  let lim := min (rd b ⟨coreReg field c, 0, 5⟩) (curLevel b field c)
  (List.range (if field then 128 else 256)).filter fun n =>
    pendingEv b field n && evTarget b field n == c && !inService b field n && decide (effPrio b field n < lim)

/-- Put a core's in-service list in force and show its depth and level. -/
def setSvc (field : Bool) (c cur : Nat) (l : List (Nat × Nat)) (b : Blk) : Blk :=
  let b := { b with events := { b.events with svc := Tab.put (fun _ => []) b.events.svc (if field then 4 + c else c) l } }
  wr (wr b ⟨coreReg field c + 0xC, 16, 5⟩ l.length) ⟨coreReg field c + 0xC, 0, 5⟩ cur

/-- A read of CORE.CLAIM (R471): FRZ does not affect it; during a soft reset it reads zero and claims nothing (R29). -/
def doClaim (i : Init) (c : Nat) (b : Blk) : Blk :=
  let field := decide (i.side = .fieldSide)
  let pg := if field then pgFEVC else pgEVC
  let b := dropShadow i pg b
  if i = .host ∨ (field ∧ 2 ≤ c) ∨ isOn b (hBUSY pg) then answer b (.value 0)
  else match bestBy (fun x y => decide (effPrio b field x < effPrio b field y)) (eligible b field c) with
    | none => answer b (.value 0)
    | some n =>
      let p := effPrio b field n
      let b := setSvc field c p ((n, curLevel b field c) :: svcOf b (if field then 4 + c else c)) b
      answer b (.value (BitVec.ofNat 32 (2 ^ 31 + p * 256 + n)))

/-- What an accepted write of COMPLETE does (R471): the innermost event leaves service and CUR is restored. -/
def actComplete (field : Bool) (c : Nat) (b : Blk) : Blk :=
  match svcOf b (if field then 4 + c else c) with
  | [] => b
  | e :: l => setSvc field c e.2 l b

/-- EVT_CLR clears raw bits; an event occurring in the same cycle wins (R31). -/
def actEvtClr (pg v same : Nat) (b : Blk) : Blk :=
  let raw := rd b (hRAW pg)
  let b := wr b (hRAW pg) (raw - (raw &&& v))
  forEach (bitsOf 32 same) (fun k => raiseHw pg k) b

/-- The events a page implements, as a mask. -/
def eventMask (pg : Nat) : Nat := match pageAt pg with
  | some (p, _) => 2 ^ p.events - 1
  | none => 0

def doEventClear (i : Init) (p : Nat) (v : Word) (same : Word) (b : Blk) : Blk :=
  let pg := i.side.key + p * 0x1000
  let ev := same.toNat &&& eventMask pg
  let ev := if enabled b pg then ev else 0
  if lateWrite b (pg + 0x28) then writeLate i false (pg + 0x28) v b ev
  else
    let r := storeWord b i false pg 0x28 v
    actEvtClr pg (v.toNat &&& r.mask) ev r.blk

/-- The lowest forwarded raw event (R472). -/
def firstForwarded (b : Blk) : Option Nat :=
  fieldEventPages.findSome? fun e =>
    if isOn b (hFWD e.1) then
      match bitsOf e.2.2 (rd b (hRAW e.1) &&& rd b (hEVEN e.1)) with
      | [] => none
      | k :: _ => some (e.2.1 + k)
    else none

/-- The repeat sent every 1 ms while any forwarded raw bit is set (R472). -/
def doEvtFwdRepeat (b : Blk) : Blk :=
  match firstForwarded b with
  | none => b
  | some n => emit b (.evtFwd n (fwdRaw b))

/-- EVT_FWD received by the host: each summary bit it shows set is set (R472). -/
def doEvtFwd (ev raw : Nat) (b : Blk) : Blk :=
  let b := wr b EVC.FWD_RAW.RAW (rd b EVC.FWD_RAW.RAW ||| raw)
  wr (incWrap b EVC.FWD_CFG.RX_CNT) EVC.FWD_CFG.LAST ev

/-- FWD_CLR clears the host's copy only (R472). -/
def actFwdClr (v : Nat) (b : Blk) : Blk :=
  let raw := rd b EVC.FWD_RAW.RAW
  wr b EVC.FWD_RAW.RAW (raw - (raw &&& v))

/-! Monitors. -/

/-- A monitor's accumulators. -/
def monOf (b : Blk) (field : Bool) (m : Nat) : MonAcc := Tab.at' (fun _ => {}) b.events.mons (if field then 16 + m else m)

/-- Replace them. -/
def setMon (field : Bool) (m : Nat) (x : MonAcc) (b : Blk) : Blk :=
  { b with events := { b.events with mons := Tab.put (fun _ => {}) b.events.mons (if field then 16 + m else m) x } }

/-- The register block of a monitor. -/
def monReg (field : Bool) (m : Nat) : Nat := (if field then pgFMON else pgMON) + 0x400 + 0xC0 * m

/-- The bin of a sample (R475). -/
def monBin (log : Bool) (base width x : Int) : Nat :=
  if x < base then 0
  else
    let top : Nat → Int := fun k => if log then base + width * (2 ^ k - 1) else base + k * width
    match (List.range 31).find? (fun k => decide (1 ≤ k ∧ x < top k)) with
    | some k => k
    | none => 31

/-- The stamp of a monitor: TDOM's domain on the host, the followed domain on the field side (R474). -/
def monNow (b : Blk) (field : Bool) (m : Nat) : Nat :=
  if field then eFollow b else eHost b (rd b ⟨monReg false m, 28, 1⟩)

/-- A sample enters an enabled monitor (R475, R476); `re` is how often the event pair restarted before it. -/
def monTake (field : Bool) (m : Nat) (x : Int) (re : Nat) (b : Blk) : Blk :=
  let r := monReg field m
  let pg := if field then pgFMON else pgMON
  let a := monOf b field m
  if !enabled b pg || !isOn b ⟨r, 31, 1⟩ then b
  else if a.count = 2 ^ 48 - 1 then b
  else
    let k := monBin (isOn b ⟨r, 29, 1⟩) (rdI b ⟨r + 4, 0, 32⟩) (rd b ⟨r + 8, 0, 32⟩) x
    let lim := rdI b ⟨r + 0xC, 0, 32⟩
    let breach := if isOn b ⟨r, 30, 1⟩ then decide (x < lim) else decide (lim < x)
    let a' : MonAcc :=
      { count := a.count + 1, sum := satS 64 (a.sum + x), least := min a.least x,
        most := max a.most x, mostAt := if a.most < x then monNow b field m else a.mostAt,
        restarts := satU 16 (a.restarts + re), limCnt := if breach then satU 16 (a.limCnt + 1) else a.limCnt,
        bins := Tab.put (fun _ => 0) a.bins k (satU 32 (Tab.at' (fun _ => 0) a.bins k + 1)) }
    let b := setMon field m a' b
    if breach then raise pg (if field then 0 else m) (wrBit b ⟨pg + 0x44, 0, 16⟩ m true) else b

/-- The probes whose values are times the model does not keep: barrier RT latency and forwarding, the MMU's walk, the DMA's
service latency (R478, R479). MONITOR_SAMPLE brings their samples (DESIGN CHOICE, notes/assumptions/10.md). -/
def timedProbe (field : Bool) (a : Nat) : Bool := if field then a == 4 else a == 1 || a == 2 || a == 5 || a == 6

/-- MONITOR_SAMPLE: a sample of an event pair, an event interval, or a probe whose value the command brings (R474); off,
reserved sources and reserved probes take none. -/
def doMonitorSample (field : Bool) (m : Nat) (x : Int) (re : Nat) (b : Blk) : Blk :=
  let src := rd b ⟨monReg field m, 20, 4⟩
  if src = 1 ∨ src = 2 ∨ (src = 3 ∧ timedProbe field (rd b ⟨monReg field m, 8, 8⟩)) then monTake field m x re b else b

/-- A probe fires (R478, R479): every monitor of the side whose source is the probe, and its instance where it has one,
takes the sample. -/
def probe (field : Bool) (code : Nat) (inst : Option Nat) (x : Int) (b : Blk) : Blk :=
  forEach (List.range 16) (fun m b =>
    let r := monReg field m
    if rd b ⟨r, 20, 4⟩ = 3 ∧ rd b ⟨r, 8, 8⟩ = code ∧ inst.all (rd b ⟨r, 0, 8⟩ == ·) then monTake field m (satS 32 x) 0 b
    else b) b

/-- One word of a snapshot, `o` bytes into a monitor's registers. -/
def snapWord (r o v : Nat) (b : Blk) : Blk := setWord b (r + o) (BitVec.ofNat 32 v)

/-- Copy one monitor's accumulators into the registers firmware reads (R477). -/
def snapOne (field clr : Bool) (m : Nat) (b : Blk) : Blk :=
  let r := monReg field m
  let a := monOf b field m
  let b := snapWord r 0x14 (a.count / 2 ^ 32) (snapWord r 0x10 a.count b)
  let s := ofInt 64 a.sum
  let b := snapWord r 0x1C (s / 2 ^ 32) (snapWord r 0x18 s b)
  let b := snapWord r 0x24 (ofInt 32 a.most) (snapWord r 0x20 (ofInt 32 a.least) b)
  let b := snapWord r 0x2C (a.mostAt / 2 ^ 32) (snapWord r 0x28 a.mostAt b)
  let b := snapWord r 0x30 (a.restarts * 2 ^ 16 + a.limCnt) b
  let b := forEach (List.range 32) (fun k => snapWord r (0x40 + 4 * k) (Tab.at' (fun _ => 0) a.bins k)) b
  if clr then setMon field m {} b else b

/-- SNAP.GO (R477). -/
def actSnap (field : Bool) (v : Nat) (b : Blk) : Blk :=
  if v.testBit 31 then
    let pg := if field then pgFMON else pgMON
    let now := if field then eFollow b else eHost b 0
    let b := wr64 b ⟨pg + 0x48, 0, 32⟩ now
    forEach (bitsOf 16 v) (snapOne field (v.testBit 30)) b
  else b

/-- A write of MCFG that sets EN from 0 to 1 returns the accumulators to their reset values (R476). -/
def actMonCfg (field : Bool) (m : Nat) (wasOn : Bool) (b : Blk) : Blk :=
  if !wasOn && isOn b ⟨monReg field m, 31, 1⟩ then setMon field m {} b else b

def execEventClear (i : Init) (p : BitVec 8) (v : Word) (same : Word) (s : State) : Out :=
  run (doEventClear i p.toNat v same) s

def execEvtFwdRepeat (s : State) : Out := run doEvtFwdRepeat s

def execFwdClear (i : Init) (v : Word) (s : State) : Out := run (writeAct i false EVC.FWD_CLR.CLR.a v actFwdClr) s

def execEventClaim (i : Init) (c : Fin 4) (s : State) : Out := run (doClaim i c.val) s

def execEventComplete (i : Init) (c : Fin 4) (ev : BitVec 8) (s : State) : Out :=
  let field := decide (i.side = .fieldSide)
  run (writeAct i false (coreReg field c.val + 8) (ev.setWidth 32) (fun _ => actComplete field c.val)) s

def execMonitorSample (field : Bool) (m : Fin 16) (x : BitVec 32) (re : BitVec 16) (s : State) : Out :=
  run (doMonitorSample field m.val x.toInt re.toNat) s

def execSnap (i : Init) (v : Word) (s : State) : Out :=
  let field := decide (i.side = .fieldSide)
  run (writeAct i false ((if field then pgFMON else pgMON) + 0x40) v (actSnap field)) s

end Sys2Proof.Machine
end

