-- ==== Sys2Proof/Machine/Lsw.lean ====
section
/-!
DEFINITION. The load-switch channels (chapter 15): drivers, starts, protection, retries, latches, PWM with supply
compensation, rails and the loss of a switch die.
-/

namespace Sys2Proof.Machine

open Sys2Proof.Num

/-- Whether the island clock of a page's block runs (R491): MET of the metrology front end, PLC of the mesh, HK of the
housekeeping ADC, ETH of the MACs. The loss of CTRL or PWM acts through its reset and the gates. -/
def clocked (b : Blk) (pg : Nat) : Bool :=
  if pg = pgMTR then !b.boot.field.lost.testBit 2
  else if pg = pgMESH then !b.boot.field.lost.testBit 3
  else if pg = pgTHM then !b.boot.field.lost.testBit 4
  else if pg = pgETH 0 ∨ pg = pgETH 1 then !b.boot.host.lost.testBit 3
  else true

/-- Act only while a page's block is enabled and its island has its clock: a disabled block takes no input into its state
(R28), and the loss of an island's clock stops its blocks (R491). -/
def gated (pg : Nat) (f : Blk → Blk) (b : Blk) : Blk :=
  if enabled b pg && clocked b pg && !(pg == pgCH && isOn b FSYS.BOOT_STAT.MET_FAIL) then f b else b

/-- A channel. -/
def lswOf (b : Blk) (n : Nat) : LswCh := Tab.at' (fun _ => {}) b.lsw.ch n

/-- Replace a channel. -/
def setLsw (n : Nat) (x : LswCh) (b : Blk) : Blk :=
  { b with lsw := { b.lsw with ch := Tab.put (fun _ => {}) b.lsw.ch n x } }

/-- The channel whose settings and counters govern a channel: the even one of a paralleled pair (R355). -/
def lswLead (b : Blk) (n : Nat) : Nat := if n % 2 = 1 ∧ isOn b (LSW.CH.CFG.PAR (n - 1)) then n - 1 else n

/-- The channels switched in one action with a channel (R355). -/
def lswPair (b : Blk) (n : Nat) : List Nat :=
  let k := lswLead b n
  if k % 2 = 0 ∧ isOn b (LSW.CH.CFG.PAR k) then [k, k + 1] else [n]

/-- The rail and switch die of a channel (R353). -/
def railOf (n : Nat) : Nat := n / 24

/-- The channels of a rail. -/
def railChans (r : Nat) : List Nat := (List.range 24).map fun k => 24 * r + k

/-- A switch die's hold (R369). -/
def holdOf (b : Blk) (d : Nat) : Nat := if d = 0 then b.lsw.hold0 else b.lsw.hold1

/-- Put a switch die's hold in force. -/
def setHold (d v : Nat) (b : Blk) : Blk :=
  if d = 0 then { b with lsw := { b.lsw with hold0 := v } } else { b with lsw := { b.lsw with hold1 := v } }

def lswUV (r : Nat) : Fld := if r = 0 then LSW.RSTAT.UV0 else LSW.RSTAT.UV1
def lswFRZ (r : Nat) : Fld := if r = 0 then LSW.RSTAT.FRZ0 else LSW.RSTAT.FRZ1
def lswLINK (d : Nat) : Fld := if d = 0 then LSW.RSTAT.LINK0 else LSW.RSTAT.LINK1
def lswLOSS (d : Nat) : Fld := if d = 0 then LSW.DIE.LOSS0 else LSW.DIE.LOSS1
def lswV (r : Nat) : Fld := if r = 0 then LSW.RMEAS.V_LS0 else LSW.RMEAS.V_LS1

/-- A power-fail warning stands on the field side (R489). -/
def pfWarn (b : Blk) : Bool := isOn b FPMU.PFSTAT.WARN

/-- A channel is off: its output is disabled and no retry is pending (R40). -/
def lswOff (b : Blk) (n : Nat) : Bool := !(lswOf b n).live && !(lswOf b n).retry

/-- Set a CAUSE bit of a channel; LSW event bit `k` is the OR over the channels (R373). -/
def lswCause (k n : Nat) (b : Blk) : Blk := raise pgLSW k (wrBit b (LSW.CH.CAUSE.CAUSE n) k true)

/-- What the driver of a channel commands (R354). -/
def lswCmd (b : Blk) (n : Nat) : Bool :=
  let k := lswLead b n
  if rd b (LSW.CH.STAT.OWNER k) = 0 then isOn b (LSW.CH.OUT.ON k) else (lswOf b k).drvOn

/-- Whether a channel runs coil economy (R366). -/
def lswEcon (b : Blk) (n : Nat) : Bool := isOn b (LSW.CH.CFG.ECON n) && decide (rd b (LSW.CH.CFG.LOAD n) = 2)

/-- The duty commanded for a channel, in 0.1 % (R354, R366). -/
def lswDuty (b : Blk) (n : Nat) : Nat :=
  let k := lswLead b n
  if lswEcon b k then 10 * rd b LSW.COIL.HOLD_DUTY
  else if rd b (LSW.CH.STAT.OWNER k) = 0 then rd b (LSW.CH.OUT.DUTY k) else (lswOf b k).drvDuty

/-- The first profile stage from `j` on with a duration (R357). -/
def lswStage (b : Blk) (n j : Nat) : Option Nat :=
  let p := rd b (LSW.CH.CFG.PROFILE n)
  let d : Nat → Nat := fun k => rd b (if k = 0 then LSW.PROF.STG0.D0 p else if k = 1 then LSW.PROF.STG1.D1 p else LSW.PROF.STG2.D2 p)
  (List.range 3).find? fun k => decide (j ≤ k ∧ d k ≠ 0)

/-- The limiter's setting in 0.1 A and the output slew in V/ms of a start (R357, R358): stage 0 to 2 of the profile, 3 the
burst window. -/
def lswLimit (b : Blk) (n stage : Nat) : Nat × Nat :=
  let p := rd b (LSW.CH.CFG.PROFILE n)
  match stage with
  | 0 => (rd b (LSW.PROF.STG0.L0 p), rd b (LSW.PROF.PCTL.SLEW p))
  | 1 => (rd b (LSW.PROF.STG1.L1 p), 0)
  | 2 => (rd b (LSW.PROF.STG2.L2 p), 0)
  | _ => (rd b (LSW.CH.BURST.BURST_L n), 0)

/-- The effective duty of a channel at a period start (R363 to R365) for a mean rail voltage in 0.1 V. With a mean of 0 the
spec states no quotient: the value is free. -/
def lswEff (b : Blk) (n vr : Nat) : Nat :=
  let k := lswLead b n
  let x := lswOf b n
  let d := lswDuty b n
  if x.pull then 1000
  else if isOn b (LSW.CH.STAT.FROZEN n) || holdOf b (railOf n) == 1 then
    (if x.dutyNew && holdOf b (railOf n) == 0 then d else rd b (LSW.CH.STAT.DUTY_EFF n))
  else if !isOn b (LSW.CH.CFG.COMP k) then d
  else if vr = 0 then (if d = 0 then 0 else freeVal b % 1001)
  else min 1000 (d * rd b LSW.RAIL.V_REF / vr)

/-- A PWM period start of a channel (R363, R364). -/
def lswPeriod (n vr : Nat) (b : Blk) : Blk :=
  let x := lswOf b n
  if !x.live || isOn b (LSW.CH.STAT.INRUSH n) then b
  else
    let eff := lswEff b n vr
    let freq := if lswEcon b (lswLead b n) then 20000 else rd b (LSW.CH.OUT.FREQ (lswLead b n))
    let b := if vr = 0 then spend b else b
    let b := setLsw n { x with duty := lswDuty b n, freq := freq, dutyNew := false } b
    wrB (wr b (LSW.CH.STAT.DUTY_EFF n) eff) (LSW.CH.STAT.OUT_ON n) (decide (eff ≠ 0))

/-- Turn a channel and its partner off. -/
def lswShut (n : Nat) (b : Blk) : Blk :=
  forEach (lswPair b n) (fun c b =>
    let b := setLsw c { lswOf b c with live := false, stage := 4, pull := false } b
    wrB (wrB (wrB b (LSW.CH.STAT.OUT_ON c) false) (LSW.CH.STAT.INRUSH c) false) (LSW.CH.STAT.LIMITING c) false) b

/-- Inrush of a channel and its partner ends: PWM begins (R356). -/
def lswInrushEnd (n : Nat) (b : Blk) : Blk :=
  forEach (lswPair b n) (fun c b =>
    let b := wrB (wrB b (LSW.CH.STAT.INRUSH c) false) (LSW.CH.STAT.LIMITING c) false
    lswPeriod c (rd b (lswV (railOf c))) (setLsw c { lswOf b c with stage := 4 } b)) b

/-- Whether a start may run: the block and its rail and link allow it, no latch, not exhausted, not on. -/
def lswMayStart (b : Blk) (n : Nat) : Bool :=
  enabled b pgLSW && !isOn b (lswUV (railOf n)) && holdOf b (railOf n) == 0 &&
    !isOn b (LSW.CH.STAT.EXHAUSTED (lswLead b n)) &&
    (lswPair b n).all fun c => !isOn b (LSW.CH.STAT.THERM_LATCH c) && !(lswOf b c).live

/-- A start: the inrush of the channel's mode (R356 to R358). -/
def lswStart (n : Nat) (b : Blk) : Blk :=
  if !lswMayStart b n then b
  else
    let k := lswLead b n
    let burst := isOn b (LSW.CH.CFG.MODE k)
    let first := lswStage b k 0
    let stage := if burst then 3 else first.getD 4
    let l := lswLimit b k stage
    let b := forEach (lswPair b n) (fun c b =>
      let b := setLsw c
        { lswOf b c with
          live := true, retry := false, stage := stage, pull := lswEcon b k, lim := l.1, slew := l.2 } b
      let b := wrB (wrB b (LSW.CH.STAT.OUT_ON c) true) (LSW.CH.STAT.INRUSH c) true
      wr (wrB b (LSW.CH.STAT.LIMITING c) false) (LSW.CH.STAT.DUTY_EFF c) 1000) b
    if !burst && first.isNone then lswInrushEnd n b else b

/-- A fresh start where the driver still commands on. -/
def lswRestart (n : Nat) (b : Blk) : Blk := if lswCmd b n && !(lswOf b (lswLead b n)).retry then lswStart n b else b

/-- A trip (R359, R360): CAUSE bit `k`, the count, and the retry or exhaustion, on the even channel's counters of a pair. -/
def lswTrip (k n : Nat) (b : Blk) : Blk :=
  let m := lswLead b n
  let b := lswCause k n (lswShut n b)
  let r := rd b (LSW.CH.STAT.RETRY m) + 1
  let b := incSat (wrU b (LSW.CH.STAT.RETRY m) r) (LSW.CH.CNT.TRIPS m)
  if r ≤ rd b (LSW.CH.RETRY.N_RETRY m) then setLsw m { lswOf b m with retry := true } b
  else lswCause 3 m (wrB (setLsw m { lswOf b m with retry := false } b) (LSW.CH.STAT.EXHAUSTED m) true)

/-- The driver's command takes effect (R360): on starts an off channel; off cancels a pending retry. -/
def lswFollow (n : Nat) (b : Blk) : Blk :=
  let k := lswLead b n
  if holdOf b (railOf n) ≠ 0 then b
  else if lswCmd b n then (if (lswOf b k).retry then b else lswStart n b)
  else forEach (lswPair b n) (fun c b => setLsw c { lswOf b c with retry := false } b) (lswShut n b)

/-- A driver other than firmware commands a channel (R354). -/
def lswDrive (n : Nat) (on : Bool) (duty : Nat) (b : Blk) : Blk :=
  let x := lswOf b n
  let b := setLsw n { x with drvOn := on, drvDuty := duty, dutyNew := x.dutyNew || decide (duty ≠ x.drvDuty) } b
  if on && x.live then b else lswFollow n b

/-- Whether a driver may be given a channel (R354, R371): it exists, is off, and is firmware's or the same driver's. -/
def lswFree (b : Blk) (o n : Nat) : Bool :=
  decide (n < 48) && (rd b (LSW.CH.STAT.OWNER n) == o || (rd b (LSW.CH.STAT.OWNER n) == 0 && lswOff b n))

/-- Make a driver the driver of a channel, its command off. -/
def lswOwn (o n : Nat) (b : Blk) : Blk :=
  wr (setLsw n { lswOf b n with drvOn := false, drvDuty := 1000 } b) (LSW.CH.STAT.OWNER n) o

/-- What an accepted write of OUT by firmware does. -/
def actLswOut (n : Nat) (b : Blk) : Blk :=
  let x := lswOf b n
  let b := setLsw n { x with dutyNew := true } b
  if lswCmd b n && x.live then b else gated pgLSW (lswFollow n) b

/-- What an accepted write of CFG does: PAR gives the odd channel its owner (R355). -/
def actLswCfg (n : Nat) (b : Blk) : Blk :=
  if n % 2 = 1 then b
  else if isOn b (LSW.CH.CFG.PAR n) then wr b (LSW.CH.STAT.OWNER (n + 1)) 5
  else if rd b (LSW.CH.STAT.OWNER (n + 1)) = 5 then wr b (LSW.CH.STAT.OWNER (n + 1)) 0
  else b

/-- Release of a thermal latch (R361, R362). -/
def lswRelease (n : Nat) (b : Blk) : Blk :=
  let b := lswCause 2 n (wrB b (LSW.CH.STAT.THERM_LATCH n) false)
  lswRestart n b

/-- Whether a channel's junction has cooled for release (R361). -/
def lswCooled (b : Blk) (n : Nat) : Bool :=
  decide (rdI b (LSW.CH.MEAS.TJ n) ≤ 10 * ((rd b (LSW.CH.CFG.TJ_LIM n) : Int) - rd b LSW.RAIL.TJ_HYS))

/-- A write of ARM (R360, R361). -/
def actLswArm (v : Nat) (b : Blk) : Blk :=
  let n := v % 64
  if 48 ≤ n then b
  else
    let m := lswLead b n
    let b := if v.testBit 6 then
        let was := isOn b (LSW.CH.STAT.EXHAUSTED m)
        let b := wrB (wr b (LSW.CH.STAT.RETRY m) 0) (LSW.CH.STAT.EXHAUSTED m) false
        if was then lswRestart m b else b
      else b
    if v.testBit 7 && isOn b (LSW.CH.STAT.THERM_LATCH n) && lswCooled b n then lswRelease n b else b

/-- The end of a start's last window: it has failed on a channel, or the other of its pair, whose limiter still acts (R355,
R357, R358). -/
def lswJudge (n : Nat) (b : Blk) : Blk :=
  match (n :: lswPair b n).find? fun c => isOn b (LSW.CH.STAT.LIMITING c) with
  | some c => lswTrip 1 c b
  | none => lswInrushEnd n b

/-- INRUSH_STAGE_END (R357). -/
def doStageEnd (n : Nat) (b : Blk) : Blk :=
  let k := lswLead b n
  if !isOn b (LSW.CH.STAT.INRUSH n) || isOn b (LSW.CH.CFG.MODE k) then b
  else match lswStage b k ((lswOf b n).stage + 1) with
    | some j =>
      let l := lswLimit b k j
      forEach (lswPair b n) (fun c b => setLsw c { lswOf b c with stage := j, lim := l.1, slew := l.2 } b) b
    | none => lswJudge n b

/-- BURST_END (R358). -/
def doBurstEnd (n : Nat) (b : Blk) : Blk :=
  if !isOn b (LSW.CH.STAT.INRUSH n) || !isOn b (LSW.CH.CFG.MODE (lswLead b n)) then b
  else lswJudge n b

/-- LIMITER_RELEASE (R358). -/
def doLimiterRelease (n : Nat) (b : Blk) : Blk :=
  if !isOn b (LSW.CH.STAT.INRUSH n) then b
  else
    let b := wrB b (LSW.CH.STAT.LIMITING n) false
    if isOn b (LSW.CH.CFG.MODE (lswLead b n)) && (lswPair b n).all (fun c => !isOn b (LSW.CH.STAT.LIMITING c)) then
      lswInrushEnd n b
    else b

/-- CHANNEL_OVERCURRENT (R359): after inrush, a current in mA that has lasted OC_US. -/
def doOvercurrent (n cur : Nat) (b : Blk) : Blk :=
  if (lswOf b n).live && !isOn b (LSW.CH.STAT.INRUSH n) && decide (100 * rd b (LSW.CH.CFG.I_OC n) < cur) then lswTrip 1 n b else b

/-- The compensation of a rail freezes (R365). -/
def lswFreeze (r : Nat) (b : Blk) : Blk :=
  forEach (railChans r) (fun c b => lswCause 7 c (wrB b (LSW.CH.STAT.FROZEN c) true)) (wrB b (lswFRZ r) true)

/-- CHANNEL_SHORT (R359, R365). -/
def doShort (n : Nat) (b : Blk) : Blk :=
  if (lswOf b n).live then lswFreeze (railOf n) (lswTrip 0 n b) else b

/-- CHANNEL_RETRY (R360, R362, R368, R369). -/
def doRetry (n : Nat) (b : Blk) : Blk :=
  let m := lswLead b n
  if !(lswOf b m).retry || pfWarn b || !lswMayStart b m then b
  else if lswCmd b m then lswStart m (setLsw m { lswOf b m with retry := false } b)
  else setLsw m { lswOf b m with retry := false } b

/-- RETRY_RESET (R360). -/
def doRetryReset (n : Nat) (b : Blk) : Blk :=
  if (lswOf b n).live then wr b (LSW.CH.STAT.RETRY (lswLead b n)) 0 else b

/-- THERMAL_LATCH at a junction temperature in 0.1 °C (R361, R362). -/
def doThermalLatch (n tj : Nat) (b : Blk) : Blk :=
  let b := wr b (LSW.CH.MEAS.TJ n) tj
  if isOn b (LSW.CH.STAT.THERM_LATCH n) || decide (toInt 16 tj < 10 * (rd b (LSW.CH.CFG.TJ_LIM n) : Int)) then b
  else
    let b := wrB (lswShut n b) (LSW.CH.STAT.THERM_LATCH n) true
    incSat (lswCause 2 n b) (LSW.CH.CNT.LATCHES (lswLead b n))

/-- THERMAL_RELEASE at a junction temperature in 0.1 °C (R361). -/
def doThermalRelease (n tj : Nat) (b : Blk) : Blk :=
  let b := wr b (LSW.CH.MEAS.TJ n) tj
  if isOn b (LSW.CH.STAT.THERM_LATCH n) && lswCooled b n && !isOn b (LSW.CH.CFG.TLATCH n) then lswRelease n b else b

/-- COMP_FREEZE_END (R365). -/
def doFreezeEnd (r : Nat) (b : Blk) : Blk :=
  forEach (railChans r) (fun c b => wrB b (LSW.CH.STAT.FROZEN c) false) (wrB b (lswFRZ r) false)

/-- COIL_PULL_END (R366). -/
def doPullEnd (n : Nat) (b : Blk) : Blk :=
  let x := lswOf b n
  if x.pull then lswPeriod n (rd b (lswV (railOf n))) (setLsw n { x with pull := false } b) else b

/-- OPEN_LOAD (R356): a current in mA that has lasted OPEN_MS; no open-load test on a capacitive load. -/
def doOpenLoad (n cur : Nat) (b : Blk) : Blk :=
  if (lswOf b n).live && !isOn b (LSW.CH.STAT.INRUSH n) && decide (rd b (LSW.CH.CFG.LOAD (lswLead b n)) ≠ 3) &&
      decide (cur < rd b LSW.OPEN.OPEN_MA) then
    lswCause 4 n (wrB b (LSW.CH.STAT.OPEN n) true)
  else b

/-- RAIL_UNDERVOLTAGE (R367, R371): the rail in 0.1 V has been below UV_TH for 100 µs. -/
def doRailUV (r v : Nat) (b : Blk) : Blk :=
  let b := wr b (lswV r) v
  if rd b LSW.RAIL.UV_TH ≤ v then b
  else
    let on := (railChans r).filter fun c => (lswOf b c).live
    let b := forEach on (lswCause 5) (wrB b (lswUV r) true)
    forEach (railChans r) (fun c b => lswShut c (setLsw c { lswOf b c with retry := false } b)) b

/-- RAIL_RECOVER (R367): the rail in 0.1 V has been at UV_REL or above for 1 ms. -/
def doRailRecover (r v : Nat) (b : Blk) : Blk :=
  let b := wr b (lswV r) v
  if v < rd b LSW.RAIL.UV_REL ∨ !isOn b (lswUV r) then b
  else forEach (railChans r) lswRestart (wrB b (lswUV r) false)

/-- SWITCH_DIE_REPORT (R356, R357, R369). -/
def doDieReport (d vls : Nat) (l : List ChanRep) (b : Blk) : Blk :=
  let b := wr b (lswV d) vls
  forEach ((List.range 24).zip l) (fun p b =>
    let n := 24 * d + p.1
    let r := p.2
    let b := wr (wr b (LSW.CH.MEAS.I n) r.cur.toNat) (LSW.CH.MEAS.TJ n) r.tj.toNat
    let b := wrB b (LSW.CH.STAT.LIMITING n) (r.limiting && isOn b (LSW.CH.STAT.INRUSH n))
    let b := wrB b (LSW.CH.STAT.HOLDING n) false
    if isOn b (LSW.CH.STAT.OUT_ON n) && decide (rd b LSW.OPEN.OPEN_MA ≤ r.cur.toNat) then
      wrB b (LSW.CH.STAT.OPEN n) false
    else b) (wrB b (lswLINK d) true)

/-- SWITCH_HOLD_EXPIRE (R348, R369): every channel of the die turns off, 10 ms after the link was lost, or after a twin
asserted PAIR_FAIL_OUT. -/
def doHoldExpire (d : Nat) (b : Blk) : Blk :=
  if holdOf b d = 1 then forEach (railChans d) lswShut (setHold d 2 b)
  else if b.red.fail.isSome then forEach (railChans d) lswShut b
  else b

/-- SWITCH_DIE_LOST (R369). -/
def doDieLost (d : Nat) (b : Blk) : Blk :=
  let b := incSat (wrB b (lswLINK d) false) (lswLOSS d)
  forEach (railChans d) (lswCause 6) b

/-- SWITCH_LINK_RETURN (R369): the channel states are read first; held channels continue under their drivers, the
others start afresh where commanded on; pending retries remain. -/
def doLinkReturn (d : Nat) (b : Blk) : Blk :=
  let held := decide (holdOf b d = 1)
  let b := forEach (railChans d) (lswCause 6) (setHold d 0 (wrB b (lswLINK d) true))
  forEach (railChans d) (fun c b =>
    if (lswOf b c).live then
      let b := wrB b (LSW.CH.STAT.HOLDING c) held
      if lswCmd b c then b else lswFollow c b
    else lswRestart c b) b

def execChannelStart (c : Fin 48) (s : State) : Out := run (lswRestart c.val) s

def execLimiterRelease (c : Fin 48) (s : State) : Out := run (gated pgLSW (doLimiterRelease c.val)) s

def execChannelRetry (c : Fin 48) (s : State) : Out := run (gated pgLSW (doRetry c.val)) s

def execRetryReset (c : Fin 48) (s : State) : Out := run (gated pgLSW (doRetryReset c.val)) s

def execRearm (i : Init) (c : BitVec 6) (s : State) : Out :=
  run (writeAct i false LSW.ARM.CH.a (BitVec.ofNat 32 (0x40 + c.toNat)) actLswArm) s

def execThermalRelease (c : Fin 48) (tj : BitVec 16) (s : State) : Out :=
  run (gated pgLSW (doThermalRelease c.val tj.toNat)) s

def execThermClr (i : Init) (c : BitVec 6) (s : State) : Out :=
  run (writeAct i false LSW.ARM.CH.a (BitVec.ofNat 32 (0x80 + c.toNat)) actLswArm) s

def execPwmPeriodStart (c : Fin 48) (vrail : BitVec 16) (s : State) : Out :=
  run (gated pgLSW (lswPeriod c.val vrail.toNat)) s

def execCompFreezeEnd (r : Fin 2) (s : State) : Out := run (gated pgLSW (doFreezeEnd r.val)) s

def execCoilPullEnd (c : Fin 48) (s : State) : Out := run (gated pgLSW (doPullEnd c.val)) s

def execOpenLoad (x : ChanSense) (s : State) : Out :=
  run (gated pgLSW (doOpenLoad x.chan.val x.cur.toNat)) s

def execRailRecover (x : RailSense) (s : State) : Out :=
  run (gated pgLSW (doRailRecover x.rail.val x.volt.toNat)) s

def enterSwitchDieReport (d : Fin 2) (vls : BitVec 16) (chans : List ChanRep) : Blk → Blk :=
  gated pgLSW (doDieReport d.val vls.toNat chans)

def execSwitchDieReport (d : Fin 2) (vls : BitVec 16) (chans : List ChanRep) (s : State) : Out :=
  runIn 10 (.switchDieReport d vls chans) (enterSwitchDieReport d vls chans) s

/-- The die holds its channels as they are (R369). -/
def execSwitchDieHold (d : Fin 2) (s : State) : Out := run (setHold d.val 1) s

def execSwitchDieLost (d : Fin 2) (s : State) : Out := run (gated pgLSW (doDieLost d.val)) s

def execSwitchLinkReturn (d : Fin 2) (s : State) : Out := run (gated pgLSW (doLinkReturn d.val)) s

end Sys2Proof.Machine
end

