-- ==== Sys2Proof/Machine/Trunk.lean ====
section
/-!
DEFINITION. Trunks and contactors (chapter 5): the trunk sequencer's transfers, its interlocks, the proofs of open and
closed contacts, trunk stops and wear.
-/

namespace Sys2Proof.Machine

open Sys2Proof.Num

/-- A local group's transfer. -/
def xferOf (b : Blk) (g : Nat) : XferSt := match g with
  | 0 => b.trunk.g0
  | 1 => b.trunk.g1
  | _ => b.trunk.g2

/-- Replace a local group's transfer. -/
def setXfer (g : Nat) (x : XferSt) (b : Blk) : Blk := match g with
  | 0 => { b with trunk := { b.trunk with g0 := x } }
  | 1 => { b with trunk := { b.trunk with g1 := x } }
  | _ => { b with trunk := { b.trunk with g2 := x } }

/-- The byte of reach slot `r` of stack group `k` (R92). -/
def reachByte (b : Blk) (k r : Nat) : Nat :=
  (wordOf b ((TRUNK.REACH_LO.T0 k).a + 4 * (r / 4))).toNat / 256 ^ (r % 4) % 256

/-- The trunk reach slot `r` of stack group `k` names; 16 for an empty slot or no slot. -/
def reachTrunk (b : Blk) (k r : Nat) : Nat :=
  if r < 8 ∧ 128 ≤ reachByte b k r then reachByte b k r % 16 else 16

/-- The reach slot by which a local group's enabled coil joins it to a trunk (R94); 8 none. -/
def slotTo (b : Blk) (g t : Nat) : Nat :=
  ((List.range 8).find? fun r => reachTrunk b (gIdx b g) r == t && (rd b TRUNK.COIL_EN.EN).testBit (8 * g + r)).getD 8

/-- The trunk of a transfer's reach slot. -/
def trunkOf (b : Blk) (g r : Nat) : Nat := reachTrunk b (gIdx b g) r

/-- A trunk's voltage as last received on the RT class, in 0.1 V (R99). -/
def trunkV (b : Blk) (t : Nat) : Nat := Tab.at' (fun _ => 0) b.trunk.volt t

/-- A coil is energised (R96). -/
def coilOn (b : Blk) (c : Nat) : Bool := (lswOf b c).drvOn && decide (rd b (LSW.CH.STAT.OWNER c) = 1)

/-- Show a coil's state: 0 open, 1 closing, 2 closed, 3 opening, 4 testing, 5 held after stop (R113). -/
def coilState (c st : Nat) (b : Blk) : Blk := wr b (TRUNK.COIL.STAT.STATE c) st

/-- A coil's operation count takes a value; its wear warning is given once (R111). -/
def coilOps (c ops : Nat) (b : Blk) : Blk :=
  let b := wr b (TRUNK.COIL.OPS.OPS c) ops
  let rated := rd b (TRUNK.COIL.CFG.N_RATED c)
  if rated ≠ 0 ∧ rated * rd b TRUNK.WEAR.WARN_PCT ≤ 100 * ops ∧ !isOn b (TRUNK.COIL.STAT.WARNED c) then
    raise pgTRUNK 6 (wrB b (TRUNK.COIL.STAT.WARNED c) true)
  else b

/-- Operations of a coil are counted and committed before its output changes (R110). -/
def coilCount (c n : Nat) (b : Blk) : Blk := coilOps c (satU 24 (rd b (TRUNK.COIL.OPS.OPS c) + n)) b

/-- Energise a coil: one operation (R110). -/
def coilEnergise (c : Nat) (b : Blk) : Blk :=
  let b := coilState c 1 (coilCount c 1 b)
  let b := { b with trunk := { b.trunk with coilMram := Num.setBit b.trunk.coilMram c true } }
  lswDrive c true 1000 b

/-- De-energise a coil: `n` operations (R110). -/
def coilDrop (c n : Nat) (b : Blk) : Blk :=
  let b := coilState c 3 (coilCount c n b)
  let b := { b with trunk := { b.trunk with coilMram := Num.setBit b.trunk.coilMram c false } }
  lswDrive c false 1000 b

/-- LAST_XFER and its counters at the end of a transfer (R113). -/
def xferResult (g res : Nat) (b : Blk) : Blk :=
  let x := xferOf b g
  let b := wr (wr b TRUNK.LAST_XFER.RESULT res) TRUNK.LAST_XFER.GROUP g
  let from' := trunkOf b g x.src
  let dst := trunkOf b g x.dst
  let b := wr b TRUNK.LAST_XFER.FROM (if from' = 16 then 31 else from')
  let b := wr b TRUNK.LAST_XFER.TO (if dst = 16 then 31 else dst)
  wrU b TRUNK.LAST_XFER.DUR_MS ((b.time.clk - x.start) / 1000000)

/-- The retest of a welded coil begins (R104): V_src is its trunk's voltage now. -/
def weldRetest (g c : Nat) (b : Blk) : Blk :=
  let b := coilState c 4 b
  setXfer g { xferOf b g with step := 13, coil := c, due := 24, vsrc := trunkV b (trunkOf b g (c % 8)) } b

/-- A group's transfer ends: XFER clears and the clamp with it; a weld retest that was waiting begins. -/
def xferEnd (g : Nat) (b : Blk) : Blk :=
  let x := xferOf b g
  let b := setXfer g { closedAt := x.closedAt, proven := x.proven } b
  let b := setClamp g false (wrB b (FCTR.GRP_STAT.XFER (gIdx b g)) false)
  if x.due < 24 then weldRetest g x.due b else b

/-- The end of a group's transfer on a trunk is told to the stack (R100, R153): 1 in the close check of a dead trunk, 2
joined, 3 not joined. -/
def tellEnd (g t phase : Nat) (b : Blk) : Blk :=
  let m : Msg := .grpStatus (gIdx b g) (rd b (FCTR.GRP_STAT.DERATE (gIdx b g))) t phase
  if t < 16 then sendRt [0, 1, 2, 3] m (emit b m) else b

/-! The group's voltage reference (R99, R101, R102): it slews at MATCH_SLEW towards its target; in 10^-5 of 0.1 V. -/

/-- The reference moved on to now. -/
def vNow (b : Blk) (x : XferSt) : Nat :=
  let step := rd b TRUNK.MATCH.MATCH_SLEW * (b.time.clk - x.vAt)
  let goal := 100000 * x.vtgt
  if x.vref < goal then min goal (x.vref + step) else max goal (x.vref - step)

/-- A new target of the reference, from where it stands. -/
def vToward (g v : Nat) (b : Blk) : Blk :=
  let x := xferOf b g
  setXfer g { x with vref := vNow b x, vtgt := v, vAt := b.time.clk } b

/-- The reference stands at the group's voltage. -/
def vFrom (g v : Nat) (b : Blk) : Blk := setXfer g { xferOf b g with vref := 100000 * v, vtgt := v, vAt := b.time.clk } b

/-- The present trunk of a local group, 31 none. -/
def setTrunk (g t : Nat) (b : Blk) : Blk := wr b (FCTR.GRP_STAT.TRUNK (gIdx b g)) t

/-- A group's ramp weight (R153). -/
def setWeight (k t mode : Nat) (b : Blk) : Blk :=
  { b with ce := { b.ce with weight := Tab.put (fun _ => {}) b.ce.weight k { trunk := t, mode := mode } } }

/-- A transfer that fails without marking a coil (R105). -/
def xferFail (g res : Nat) (b : Blk) : Blk :=
  let t := trunkOf b g (xferOf b g).dst
  let b := xferEnd g (incSat (xferResult g res b) TRUNK.XFER_STAT.FAILS)
  raise pgTRUNK 1 (tellEnd g t 3 b)

/-- A coil is found welded (R103): its mark, BLOCKED, the record with V_src and the final group voltage, event 186. -/
def weldFound (g c vsrc vg : Nat) (b : Blk) : Blk :=
  let b := incSat (wrB (coilState c 0 b) (TRUNK.COIL.STAT.WELDED c) true) TRUNK.XFER_STAT.WELDS
  let b := blockGroup g b
  let b := hostRecord 0x0010 true (le 1 c ++ le 4 vsrc ++ le 4 vg) b
  raise pgTRUNK 2 b

/-- Step 5 begins (R99): the group slews towards the destination's voltage. -/
def xferMatch (g : Nat) (b : Blk) : Blk :=
  let b := vToward g (trunkV b (trunkOf b g (xferOf b g).dst)) b
  setClamp g true (setXfer g { xferOf b g with step := 5, matched := false } b)

/-- The probe voltage of a divergence test of `vsrc` on the way to trunk `dst`; 16 none (R101). -/
def probeV (b : Blk) (vsrc dst : Nat) : Nat :=
  let pct := rd b TRUNK.MATCH.DIV_PCT
  let vd := trunkV b dst
  if dst < 16 ∧ 2 * pct * vsrc ≤ 100 * (((vd : Int) - vsrc).natAbs) then vd
  else
    let p := vsrc * (100 - 2 * pct) / 100
    if p < 1500 then vsrc * (100 + 2 * pct) / 100 else p

/-- A divergence test against trunk `t` begins on the way to trunk `dst` (R101): V_src is the trunk's voltage now, and the
group, from its own voltage, slews towards V_probe under its clamp. -/
def divTest (g t dst : Nat) (b : Blk) : Blk :=
  let v := trunkV b t
  let b := vToward g (probeV b v dst) (vFrom g (rd b (MOD.MEAS.VGRP g)) b)
  setClamp g true (setXfer g { xferOf b g with vsrc := v } b)

/-- A transfer from one reach slot to another starts at a plan's adoption (R99, R100); 8 is no slot. A group that no
divergence test has proven free since power-up starts with that test, against its destination (R107). -/
def xferStart (g src dst rank : Nat) (b : Blk) : Blk :=
  let x := xferOf b g
  let x' : XferSt :=
    { x with
      src := src, dst := dst, rank := rank, start := b.time.clk, matched := false, dead := false, proof := false,
      silent := false, due := 24 }
  let b := wrB b (FCTR.GRP_STAT.XFER (gIdx b g)) true
  if src < 8 then
    if zeroCurrent b g then
      setClamp g true (setWeight (gIdx b g) (trunkOf b g src) 2 (setXfer g { x' with step := 2 } b))
    else setXfer g { x' with step := 1 } b
  else if !x.proven then divTest g (trunkOf b g dst) 16 (setXfer g { x' with step := 4 } b)
  else xferMatch g (vFrom g (rd b (MOD.MEAS.VGRP g)) (setXfer g x' b))

/-- The source contact opens under the sequencer, to be proven open with no transfer: after a stop or a trip (R109,
R134). -/
def proofStart (g r : Nat) (b : Blk) : Blk :=
  let b := coilDrop (8 * g + r) 1 b
  setXfer g { xferOf b g with step := 3, src := r, dst := 8, proof := true, start := b.time.clk, silent := false } b

/-- XFER_SHIFT_END (R99): step 1 ends. -/
def doShiftEnd (g : Nat) (b : Blk) : Blk :=
  let x := xferOf b g
  if x.step = 1 then
    let b := setWeight (gIdx b g) (trunkOf b g x.src) 2 b
    setClamp g true (setXfer g { x with step := 2 } b)
  else b

/-- XFER_ZERO_HELD (R99): step 2 ends, the source coil is de-energised. -/
def doZeroHeld (g : Nat) (b : Blk) : Blk :=
  let x := xferOf b g
  if x.step = 2 ∧ zeroCurrent b g then
    let b := setWeight (gIdx b g) (trunkOf b g x.dst) 2 b
    setXfer g { x with step := 3 } (coilDrop (8 * g + x.src) 1 b)
  else b

/-- XFER_ZERO_TIMEOUT (R105): the group stays on its trunk, its share restored. -/
def doZeroTimeout (g : Nat) (b : Blk) : Blk :=
  let x := xferOf b g
  if x.step = 1 ∨ x.step = 2 then setWeight (gIdx b g) (trunkOf b g x.src) 3 (xferFail g 2 b) else b

/-- XFER_OPEN_END (R101, R103): the divergence test begins, after an opening or repeated after a failure to close. -/
def doOpenEnd (g : Nat) (b : Blk) : Blk :=
  let x := xferOf b g
  if x.step = 3 then
    divTest g (trunkOf b g x.src) (trunkOf b g x.dst) (coilState (8 * g + x.src) 4 (setXfer g { x with step := 4 } b))
  else if x.step = 8 then
    divTest g (trunkOf b g x.dst) 16 (coilState (8 * g + x.dst) 4 (setXfer g { x with step := 9 } b))
  else b

/-- Whether a group voltage has left the voltage of trunk `t` by DIV_PCT % of V_src (R101). -/
def diverged (b : Blk) (vg t vsrc : Nat) : Bool :=
  decide (rd b TRUNK.MATCH.DIV_PCT * vsrc ≤ 100 * (((vg : Int) - trunkV b t).natAbs))

/-- The trunk a divergence test runs against: the source, or the destination before a first close (R107). -/
def testTrunk (b : Blk) (g : Nat) : Nat :=
  let x := xferOf b g
  trunkOf b g (if x.src < 8 then x.src else x.dst)

/-- The contact under test is proven open (R101): step 5, or the end of a transfer with no destination. -/
def provenOpen (g : Nat) (b : Blk) : Blk :=
  let x := xferOf b g
  let b := if x.src < 8 then coilState (8 * g + x.src) 0 b else b
  let b := setTrunk g 31 (setXfer g { x with proven := true } b)
  if x.proof then xferEnd g (setWeight (gIdx b g) 16 2 b)
  else if x.dst < 8 then xferMatch g b
  else
    let b := incSat (xferResult g 1 b) TRUNK.XFER_STAT.XFERS
    raise pgTRUNK 0 (xferEnd g (setWeight (gIdx b g) 16 2 b))

/-- XFER_DIVERGED with the group voltage in 0.1 V; without a trunk voltage the step waits (R99). -/
def doDiverged (g vg : Nat) (b : Blk) : Blk :=
  let x := xferOf b g
  if x.step = 4 ∧ !x.silent ∧ diverged b vg (testTrunk b g) x.vsrc then provenOpen g (vFrom g vg b) else b

/-- XFER_DIV_TIMEOUT (R103): the coil is welded. -/
def doDivTimeout (g : Nat) (b : Blk) : Blk :=
  let x := xferOf b g
  if x.step = 4 then
    let c := 8 * g + (if x.src < 8 then x.src else x.dst)
    let b := setTrunk g (testTrunk b g) (weldFound g c x.vsrc (rd b (MOD.MEAS.VGRP g)) b)
    let b := if x.proof then b else tellEnd g (trunkOf b g x.dst) 3 (xferResult g 6 b)
    xferEnd g b
  else b

/-- Whether a group voltage matches a trunk's (R96, R99). -/
def vMatch (b : Blk) (vg t : Nat) : Bool :=
  decide (100 * (((vg : Int) - trunkV b t).natAbs) ≤ rd b TRUNK.MATCH.MATCH_PCT * trunkV b t)

/-- A trunk is dead (R97). -/
def deadTrunk (b : Blk) (t : Nat) : Bool := decide (trunkV b t < 600)

/-- Whether a group at a voltage may close onto a trunk (R96, R97). -/
def mayClose (b : Blk) (vg t : Nat) : Bool := if deadTrunk b t then decide (vg < 600) else vMatch b vg t

/-- XFER_MATCHED with the group voltage. -/
def doMatched (g vg : Nat) (b : Blk) : Blk :=
  let x := xferOf b g
  if x.step = 5 ∧ !x.silent ∧ mayClose b vg (trunkOf b g x.dst) then setXfer g { x with matched := true } b else b

/-- XFER_MATCH_TIMEOUT (R105): the group is free. -/
def doMatchTimeout (g : Nat) (b : Blk) : Blk :=
  if (xferOf b g).step = 5 then setWeight (gIdx b g) 16 2 (xferFail g 3 b) else b

/-- A transfer of lower rank onto the same trunk, of this device or another of the stack, has not finished its close check
or failed (R100). -/
def rankWaits (b : Blk) (g : Nat) : Bool :=
  let x := xferOf b g
  let t := trunkOf b g x.dst
  ((List.range 3).any fun h =>
    let y := xferOf b h
    decide (h ≠ g ∧ 1 ≤ y.step ∧ y.step ≤ 7 ∧ y.rank < x.rank ∧ trunkOf b h y.dst = t ∧ t < 16)) ||
    b.trunk.ranks.any fun e => decide (e.1 / 3 ≠ myPos b ∧ e.2.1 = t ∧ e.2.2 < x.rank)

/-- An owner handover on a trunk has not reached cycle h + 1 (R80, R106). -/
def handWaits (b : Blk) (t : Nat) : Bool :=
  let o := Tab.at' (fun _ => (0, 0, 0)) b.lanes.old t
  let k := cycleNow b
  decide (o.1 ≠ 0) && !cycAfter k ((o.2.2 + 1) % 2 ^ 32)

/-- XFER_COIL_ENERGISE with the group voltage (R96, R97, R99, R100): a wait keeps the match; a request that breaks an
interlock is refused, and one outside the match band goes back to step 5. -/
def doCoilEnergise (g vg : Nat) (b : Blk) : Blk :=
  let x := xferOf b g
  let t := trunkOf b g x.dst
  if x.step ≠ 5 ∨ !x.matched ∨ x.silent ∨ !mayPower b then b
  else if rankWaits b g || handWaits b t then b
  else if !mayClose b vg t then raise pgTRUNK 7 (setXfer g { x with matched := false } b)
  else if (List.range 8).any (fun r => coilOn b (8 * g + r) || isOn b (TRUNK.COIL.STAT.WELDED (8 * g + r))) then
    raise pgTRUNK 7 b
  else setXfer g { x with step := 6 } (coilEnergise (8 * g + x.dst) b)

/-- XFER_CLOSE_END (R102): the close check begins once a trunk voltage is fresh: on a live trunk the group's reference rises
by CLOSE_PCT % of the trunk voltage last received; on a dead one the group carries the precharge ramp (R153). -/
def doCloseEnd (g : Nat) (b : Blk) : Blk :=
  let x := xferOf b g
  if x.step = 6 ∧ !x.silent then
    let t := trunkOf b g x.dst
    let dead := deadTrunk b t
    let b := coilState (8 * g + x.dst) 4 (setXfer g { x with step := 7, dead := dead } b)
    if dead then tellEnd g t 1 (setWeight (gIdx b g) t 0 b)
    else vToward g (trunkV b t * (100 + rd b TRUNK.CLOSE.CLOSE_PCT) / 100) b
  else b

/-- A contact is proven closed: step 8 (R99). -/
def provenClosed (g : Nat) (b : Blk) : Blk :=
  let x := xferOf b g
  let t := trunkOf b g x.dst
  let b := coilState (8 * g + x.dst) 2 (setTrunk g t b)
  let b := setXfer g { x with closedAt := some b.time.clk } (incSat (xferResult g 1 b) TRUNK.XFER_STAT.XFERS)
  let b := setWeight (gIdx b g) t (if b.bar.hostLost then 2 else 3) b
  raise pgTRUNK 0 (xferEnd g (tellEnd g t 2 b))

/-- A contact failed to close (R103): its coil is de-energised and T_OPEN_MS runs before the test is repeated. -/
def failedToClose (g : Nat) (b : Blk) : Blk :=
  let x := xferOf b g
  let b := coilDrop (8 * g + x.dst) 1 b
  let b := setWeight (gIdx b g) 16 2 b
  raise pgTRUNK 3 (setXfer g { x with step := 8 } b)

/-- XFER_CLOSE_CHECK_END with the mean group current of the second half in 0.1 A (R102). -/
def doCloseCheckEnd (g i : Nat) (b : Blk) : Blk :=
  let x := xferOf b g
  if x.step = 7 ∧ !x.dead ∧ !x.silent then (if 2 * rd b TRUNK.ZERO.ZERO_I ≤ i then provenClosed g b else failedToClose g b) else b

/-- XFER_DEAD_CLOSE_END with the group voltage (R102): at 150 V the trunk must have followed. DESIGN CHOICE: MATCH_PCT % is
taken of the group's voltage (notes/assumptions/17.md). -/
def doDeadCloseEnd (g vg : Nat) (b : Blk) : Blk :=
  let x := xferOf b g
  if x.step = 7 ∧ x.dead then
    let t := trunkOf b g x.dst
    if 1500 ≤ vg ∧ 100 * (((vg : Int) - trunkV b t).natAbs) ≤ rd b TRUNK.MATCH.MATCH_PCT * vg then provenClosed g b
    else failedToClose g b
  else b

/-- FAIL_CLOSE_RETEST with the group voltage at the end of the repeated test, against V_src of its start (R101, R103).
DESIGN CHOICE: a failure to close counts in FAILS beside those of R105 (notes/assumptions/17.md). -/
def doFailCloseRetest (g vg : Nat) (b : Blk) : Blk :=
  let x := xferOf b g
  if x.step = 9 then
    let c := 8 * g + x.dst
    let t := trunkOf b g x.dst
    let b := tellEnd g t 3 (incSat b TRUNK.XFER_STAT.FAILS)
    if diverged b vg t x.vsrc then
      xferEnd g (xferResult g 7 (wrB (coilState c 0 (setTrunk g 31 b)) (TRUNK.COIL.STAT.FAIL_CLOSE c) true))
    else xferEnd g (xferResult g 6 (setTrunk g t (weldFound g c x.vsrc vg b)))
  else b

/-- The trunk a group's step concerns (R99). -/
def xferTrunk (b : Blk) (g : Nat) : Nat :=
  let x := xferOf b g
  if x.step = 4 then testTrunk b g else trunkOf b g (if 5 ≤ x.step then x.dst else x.src)

/-- TRUNK_VOLTAGE received (R99): in steps 5 and 6 the group tracks it (R106). -/
def doTrunkVoltage (t v : Nat) (b : Blk) : Blk :=
  let b := { b with trunk := { b.trunk with volt := Tab.put (fun _ => 0) b.trunk.volt t v } }
  forEach (List.range 3) (fun g b =>
    if xferTrunk b g = t then
      let b := setXfer g { xferOf b g with silent := false } b
      if (xferOf b g).step = 5 ∨ (xferOf b g).step = 6 then vToward g v b else b
    else b) b

/-- TRUNK_VOLTAGE_SILENCE (R99): the step's clock stops. -/
def doSilence (g : Nat) (b : Blk) : Blk :=
  let x := xferOf b g
  if 4 ≤ x.step ∧ x.step ≤ 7 then setXfer g { x with silent := true } b else b

/-- The write of WELD_CLR (R104): FAIL_CLOSE clears at once, WELDED after a retest, which waits for a proof of another contact
that runs outside a transfer. -/
def actWeldClr (v : Nat) (b : Blk) : Blk :=
  let c := v % 32
  if !v.testBit 31 || decide (24 ≤ c) || !enabled b pgTRUNK then b
  else
    let b := wrB b (TRUNK.COIL.STAT.FAIL_CLOSE c) false
    if isOn b (TRUNK.COIL.STAT.WELDED c) then
      let g := c / 8
      if (xferOf b g).step = 0 then weldRetest g c b else setXfer g { xferOf b g with due := c } b
    else b

/-- WELD_RETEST_DONE with the group voltage (R104). -/
def doWeldRetest (g vg : Nat) (b : Blk) : Blk :=
  let x := xferOf b g
  if x.step = 13 then
    let b := coilState x.coil 0 b
    let b := if diverged b vg (trunkOf b g (x.coil % 8)) x.vsrc then
        setTrunk g 31 (wrB b (TRUNK.COIL.STAT.WELDED x.coil) false)
      else b
    let b := setXfer g { x with step := 0 } b
    if x.due < 24 then weldRetest g x.due b else b
  else b

/-- The write of OPS_PRESET (R112). -/
def actOpsPreset (v : Nat) (b : Blk) : Blk :=
  let c := v / 2 ^ 24 % 32
  if 24 ≤ c then b
  else
    let old := rd b (TRUNK.COIL.OPS.OPS c)
    let new := v % 2 ^ 24
    hostRecord 0x0012 true (le 1 c ++ le 4 old ++ le 4 new) (coilOps c new b)

/-- The trunks a local group belongs to: its own and those of its transfer (R108). -/
def trunksOf (b : Blk) (g : Nat) : List Nat :=
  let x := xferOf b g
  let own := rd b (FCTR.GRP_STAT.TRUNK (gIdx b g))
  let l := [own, planTrunk b (gIdx b g)]
  let l := if 1 ≤ x.step ∧ x.step ≤ 9 then trunkOf b g x.src :: trunkOf b g x.dst :: l else l
  l.filter (· < 16)

/-- A transfer is aborted with a result (R106): a coil already opened is still proven open. -/
def xferAbort (g res : Nat) (b : Blk) : Blk :=
  let x := xferOf b g
  if x.step = 0 ∨ 9 < x.step ∨ x.proof then b
  else
    let b := tellEnd g (trunkOf b g x.dst) 3 (wrB (xferResult g res b) (FCTR.GRP_STAT.XFER (gIdx b g)) false)
    if (x.step = 3 ∨ x.step = 4) ∧ x.src < 8 then setXfer g { x with dst := 8, proof := true } b
    else if x.step = 8 ∨ x.step = 9 then
      setXfer g { x with step := x.step - 5, src := x.dst, dst := 8, proof := true } b
    else
      let b := if x.step = 6 ∨ x.step = 7 then
          setTrunk g (trunkOf b g x.dst) (coilState (8 * g + x.dst) 2 b)
        else b
      xferEnd g b

/-- A loop of a stopped trunk goes to zero (R166). -/
def stopLoop (i : Nat) (b : Blk) : Blk :=
  let x := Tab.at' (fun _ => {}) b.ce.slots i
  let b := { b with ce := { b.ce with slots := Tab.put (fun _ => {}) b.ce.slots i { x with rel := 0, u := 0 } } }
  wr (wr b (CE.SLOT.OUT.U i) 0) (CE.SLOT.INTEG.I i) 0

/-- A trunk stop acts on this device (R12, R108, R109): gates off, transfers aborted, trunks marked, groups blocked. Only its
first copy acts; the rest are counted. -/
def trunkStop (mask : Nat) (b : Blk) : Blk :=
  let old := rd b TRUNK.TSTOP.STOPPED
  if old ||| mask = old then { b with trunk := { b.trunk with stopCopies := b.trunk.stopCopies + 1 } }
  else
    let new := (old ||| mask) - old
    let b := forEach (List.range 3) (fun g b =>
      if (trunksOf b g).any fun t => new.testBit t then blockGroup g (xferAbort g 4 (gateRemove g 2 b)) else b) b
    let b := forEach (List.range 16) (fun i b =>
      if rd b (CE.SLOT.CFG.KIND i) = 1 ∧ new.testBit (rd b (CE.SLOT.BIND.TRUNK i)) then stopLoop i b else b) b
    raise pgTRUNK 4 (wr b TRUNK.TSTOP.STOPPED (old ||| mask))

/-- A trunk stop goes to every device with a group in K_t of a stopped trunk (R108): of the plan in force, and of the groups
that still leave the trunk. -/
def toStopped (mask : Nat) (b : Blk) : Blk :=
  let m : Msg := .trunkStop mask
  let left := (b.trunk.leaving.filter fun e => e.2 < 16 && mask.testBit e.2).map fun e => e.1 / 3
  let held := (bitsOf 16 mask).flatMap fun t => (bitsOf 12 (rd b (FCTR.TRUNK_PLAN.GRP_MASK t))).map (· / 3)
  sendRt (held ++ left) m (emit b m)

/-- This device builds a trunk stop: it acts at once, and is sent again every 20 µs for 1 ms (R108); a standby sends
it to its partner (R280). -/
def sendStop (mask : Nat) (b : Blk) : Blk :=
  let b := toStopped mask b
  let b := trunkStop mask (if isActive b then b else toPartner 0 (.trunkStop mask) b)
  { b with trunk := { b.trunk with stopMask := b.trunk.stopMask ||| mask, stopLeft := 50 } }

/-- TRUNK_STOP_REPEAT (R108). -/
def doStopRepeat (b : Blk) : Blk :=
  if b.trunk.stopLeft = 0 then b
  else
    let n := b.trunk.stopLeft - 1
    let b := toStopped b.trunk.stopMask b
    { b with trunk := { b.trunk with stopLeft := n, stopMask := if n = 0 then 0 else b.trunk.stopMask } }

/-- The energised coil of a local group; 8 none. -/
def groupCoil (b : Blk) (g : Nat) : Nat := ((List.range 8).find? fun r => coilOn b (8 * g + r)).getD 8

/-- Whether a local group has a coil on a stopped trunk, is tripped (R109, R134), or may carry no power (R44, R495). -/
def stopOpen (b : Blk) (g : Nat) : Bool :=
  (trunksOf b g ++ [reachTrunk b (gIdx b g) (groupCoil b g)]).any (fun t => (rd b TRUNK.TSTOP.STOPPED).testBit t) ||
    isOn b (MOD.GSTAT.TRIPPED g) || !mayPower b

/-- Whether its coil opens once its current is zero: also with the host side lost, after the ramp (R18; DEDUCED,
notes/assumptions/17.md). -/
def mustOpen (b : Blk) (g : Nat) : Bool := stopOpen b g || b.bar.hostLost

/-- STOP_COIL_RELEASE (R109): the coil opens at zero current and is then proven open. -/
def doStopRelease (g : Nat) (b : Blk) : Blk :=
  let r := groupCoil b g
  if r < 8 ∧ mustOpen b g ∧ zeroCurrent b g then proofStart g r b else b

/-- STOP_LIMIT_EXPIRE (R109): the current is not zero; the coil stays energised. -/
def doStopLimit (g : Nat) (b : Blk) : Blk :=
  let r := groupCoil b g
  if r < 8 ∧ stopOpen b g ∧ !zeroCurrent b g then
    let b := coilState (8 * g + r) 5 b
    let b := hostRecord 0x0011 true
      (le 1 (reachTrunk b (gIdx b g) r) ++ le 1 g ++ le 4 (rd b (MOD.MEAS.IGRP g))) b
    raise pgTRUNK 5 b
  else b

/-- The write of STOP_CLR (R109): the trunks are released but those an asserted input still stops, whose bits are rejected;
GATE_EN of groups with no stopped trunk returns. -/
def actStopClr (v : Nat) (b : Blk) : Blk :=
  let old := rd b TRUNK.TSTOP.STOPPED
  let bar := (bitsOf 16 v).filter (stopBarred b)
  let b := if bar.isEmpty then b else answer (reject b pgTRUNK) .rejected
  let b := forEach ((bitsOf 16 v).filter fun t => !bar.contains t) (fun t b => wrBit b TRUNK.TSTOP.STOPPED t false) b
  forEach (List.range 3) (fun g b =>
    if (trunksOf b g).any fun t => (rd b TRUNK.TSTOP.STOPPED).testBit t then b else gateRestore g 2 b) b

/-- A coil that is de-energised whatever its group's current (R110): above zero current it counts a load break. -/
def coilBreak (c : Nat) (b : Blk) : Blk :=
  if zeroCurrent b (c / 8) then coilDrop c 1 b
  else coilDrop c (rd b TRUNK.WEAR.LOAD_WEIGHT) (incSat b (TRUNK.COIL.LOAD_BREAKS.BREAKS c))

/-- A soft reset of TRUNK returns the sequencer's coils to their reset state, de-energised (R29, R107, R110). -/
def coilsFall (b : Blk) : Blk := forEach ((List.range 24).filter (coilOn b)) coilBreak b

/-- A coil whose load switch went off by itself is de-energised (R366, R110); during a closing the contact has failed to
close (R103). -/
def coilLost (c : Nat) (b : Blk) : Blk :=
  let g := c / 8
  let x := xferOf b g
  let b := coilBreak c b
  if (x.step = 6 ∨ x.step = 7) ∧ x.dst = c % 8 then
    raise pgTRUNK 3 (setXfer g { x with step := 8 } (setWeight (gIdx b g) 16 2 b))
  else if x.step = 1 ∨ x.step = 2 then setClamp g true (setXfer g { x with step := 3 } b)
  else
    setXfer g { xferOf b g with step := 3, src := c % 8, dst := 8, proof := true, start := b.time.clk } b

/-- Every coil whose load switch is off although the sequencer commands it on. -/
def coilCheck (b : Blk) : Blk :=
  forEach (List.range 24) (fun c b => if coilOn b c && !(lswOf b c).live then coilLost c b else b) b

/-- COIL_EN takes effect (R95), on a write and as a side leaves its reset: the sequencer becomes or ceases to be the driver.
A coil that is energised stays with the sequencer until it opens. -/
def actCoilEn (b : Blk) : Blk :=
  forEach (List.range 24) (fun c b =>
    let on := (rd b TRUNK.COIL_EN.EN).testBit c
    let o := rd b (LSW.CH.STAT.OWNER c)
    if on ∧ o = 0 then lswOwn 1 c b else if !on ∧ o = 1 ∧ !coilOn b c then lswOwn 0 c b else b) b

/-- COIL_STATE_RECOVERY at power-up (R107). -/
def coilRecover (b : Blk) : Blk :=
  let b := forEach (bitsOf 24 b.trunk.coilMram) (fun c b => coilCount c 1 b) b
  let b := { b with trunk := { b.trunk with coilMram := 0 } }
  forEach (List.range 3) (fun g b =>
    setTrunk g 31 (wrB (setXfer g {} b) (FCTR.GRP_STAT.XFER (gIdx b g)) false)) b

def execXferShiftEnd (g : Fin 3) (s : State) : Out := run (gated pgTRUNK (doShiftEnd g.val)) s

def execXferZeroHeld (g : Fin 3) (s : State) : Out := run (gated pgTRUNK (doZeroHeld g.val)) s

def execXferZeroTimeout (g : Fin 3) (s : State) : Out := run (gated pgTRUNK (doZeroTimeout g.val)) s

def execXferOpenEnd (g : Fin 3) (s : State) : Out := run (gated pgTRUNK (doOpenEnd g.val)) s

def execXferDiverged (g : Fin 3) (vg : BitVec 16) (s : State) : Out :=
  run (gated pgTRUNK (doDiverged g.val vg.toNat)) s

def execXferDivTimeout (g : Fin 3) (s : State) : Out := run (gated pgTRUNK (doDivTimeout g.val)) s

def execXferMatched (g : Fin 3) (vg : BitVec 16) (s : State) : Out :=
  run (gated pgTRUNK (doMatched g.val vg.toNat)) s

def execXferMatchTimeout (g : Fin 3) (s : State) : Out := run (gated pgTRUNK (doMatchTimeout g.val)) s

def execXferCoilEnergise (g : Fin 3) (vg : BitVec 16) (s : State) : Out :=
  run (gated pgTRUNK (doCoilEnergise g.val vg.toNat)) s

def execXferCloseEnd (g : Fin 3) (s : State) : Out := run (gated pgTRUNK (doCloseEnd g.val)) s

def execXferCloseCheckEnd (g : Fin 3) (imean : BitVec 16) (s : State) : Out :=
  run (gated pgTRUNK (doCloseCheckEnd g.val imean.toNat)) s

def execXferDeadCloseEnd (g : Fin 3) (vg : BitVec 16) (s : State) : Out :=
  run (gated pgTRUNK (doDeadCloseEnd g.val vg.toNat)) s

def execFailCloseRetest (g : Fin 3) (vg : BitVec 16) (s : State) : Out :=
  run (gated pgTRUNK (doFailCloseRetest g.val vg.toNat)) s

def execTrunkVoltageSilence (g : Fin 3) (s : State) : Out := run (gated pgTRUNK (doSilence g.val)) s

def execTrunkVoltage (t : Fin 16) (v : BitVec 16) (s : State) : Out :=
  run (gated pgTRUNK (doTrunkVoltage t.val v.toNat)) s

def execWeldClr (i : Init) (v : Word) (s : State) : Out := run (writeAct i false TRUNK.WELD_CLR.GO.a v actWeldClr) s

def execWeldRetestDone (g : Fin 3) (vg : BitVec 16) (s : State) : Out :=
  run (gated pgTRUNK (doWeldRetest g.val vg.toNat)) s

def execOpsPreset (i : Init) (v : Word) (s : State) : Out :=
  run (writeAct i false TRUNK.OPS_PRESET.VALUE.a v actOpsPreset) s

/-- A received trunk stop acts whatever EN says (R28, R108). -/
def execTrunkStop (mask : BitVec 16) (s : State) : Out := run (trunkStop mask.toNat) s

def execTrunkStopRepeat (s : State) : Out := run doStopRepeat s

def execStopLimitExpire (g : Fin 3) (s : State) : Out := run (gated pgTRUNK (doStopLimit g.val)) s

def execStopCoilRelease (g : Fin 3) (s : State) : Out := run (gated pgTRUNK (doStopRelease g.val)) s

def execTrunkStopClear (i : Init) (v : Word) (s : State) : Out :=
  run (writeAct i false TRUNK.STOP_CLR.CLR.a v actStopClr) s

/-! The load-switch commands that can drop a coil (R366). -/

def execChannelOvercurrent (x : ChanSense) (s : State) : Out :=
  run (fun b => coilCheck (gated pgLSW (doOvercurrent x.chan.val x.cur.toNat) b)) s

def execChannelShort (c : Fin 48) (s : State) : Out := run (fun b => coilCheck (gated pgLSW (doShort c.val) b)) s

def execInrushStageEnd (c : Fin 48) (s : State) : Out :=
  run (fun b => coilCheck (gated pgLSW (doStageEnd c.val) b)) s

def execBurstEnd (c : Fin 48) (s : State) : Out := run (fun b => coilCheck (gated pgLSW (doBurstEnd c.val) b)) s

def execThermalLatch (c : Fin 48) (tj : BitVec 16) (s : State) : Out :=
  run (fun b => coilCheck (gated pgLSW (doThermalLatch c.val tj.toNat) b)) s

def execRailUndervoltage (x : RailSense) (s : State) : Out :=
  run (fun b => coilCheck (gated pgLSW (doRailUV x.rail.val x.volt.toNat) b)) s

def execSwitchHoldExpire (d : Fin 2) (s : State) : Out := run (fun b => coilCheck (doHoldExpire d.val b)) s

end Sys2Proof.Machine
end

