-- ==== Sys2Proof/Machine/Mod.lean ====
section
/-!
DEFINITION. The phase modulators' commands (chapter 6): switching periods, alignment, calibration, balancing,
desaturation, trips, and the group commands they apply (R20).
-/

namespace Sys2Proof.Machine

open Sys2Proof.Num

/-- The step of a phase: 0 low side on or idle, 1 low side off, 2 high side on, 3 high side off. -/
def phStep (b : Blk) (g p : Nat) : Nat := Tab.at' (fun _ => 0) (modOf b g).step p

/-- Put a phase into a step with its gate outputs. -/
def setPhase (g p st : Nat) (hi lo : Bool) (b : Blk) : Blk :=
  let x := modOf b g
  setMod g
    { x with
      step := Tab.put (fun _ => 0) x.step p st, pwmh := Num.setBit x.pwmh p hi, pwml := Num.setBit x.pwml p lo } b

/-- The peak reference of an active phase (R117). -/
def phRef (b : Blk) (g p : Nat) : Nat :=
  (((applied b g / max 1 (nAct b g) : Nat) : Int) + rdI b (MOD.PH.PSTAT.TRIM g p)).toNat

/-- What a phase took at its last turn-on. -/
def phSet (b : Blk) (g p : Nat) : PhSet := Tab.at' (fun _ => {}) (modOf b g).ph p

/-- Replace it. -/
def setPh (g p : Nat) (x : PhSet) (b : Blk) : Blk :=
  setMod g { modOf b g with ph := Tab.put (fun _ => {}) (modOf b g).ph p x } b

/-- T_ON_MAX in fine units, of the period in progress (R121). -/
def tonMax (b : Blk) (g : Nat) : Nat :=
  let l := (modOf b g).per
  min (64 * (rd b (MOD.DUTY.DMAX g) * l / 262144)) (l - 64 * rd b (MOD.EDGE.TOFF_MIN g))

/-- TAPS as a phase takes it: 0 while the calibration has failed, when fine codes are treated as 0 (R120). -/
def tapsOf (b : Blk) (g : Nat) : Nat := if isOn b (MOD.GSTAT.CAL_FAIL g) then 0 else rd b (MOD.CAL.TAPS g)

/-- An edge at a distance in fine units: coarse steps and the tap of the fine code (R119, R120). -/
def edgeAt (taps fine : Nat) : Edge := { coarse := fine / 64, tap := fine % 64 * taps / 64 }

/-- The phase start after the group period start, in fine units (R128). -/
def phaseStartAt (b : Blk) (g p : Nat) : Nat :=
  rdivN (rd b (MOD.PH.PTIME.EFF_OFS g p) * (modOf b g).perSet) 65536

/-- A phase takes the settings in force at its turn-on (R121, R137): the slope with VGRP of now (R123). -/
def takeSet (g p : Nat) (b : Blk) : Blk :=
  let taps := tapsOf b g
  let at' := phaseStartAt b g p
  setPh g p
    { slope := modSlope b g, ipkMax := rd b (MOD.LIMIT.IPK_MAX g), fsI := rd b (MOD.SCALE.FS_I g),
      least := max (rd b (MOD.EDGE.LEB g)) (rd b (MOD.EDGE.TON_MIN g)),
      dtHl := 64 * rd b (MOD.DEAD.DT_HL g) + rd b (MOD.DEAD.DT_HL_F g), taps := taps, tonMax := tonMax b g,
      startAt := edgeAt taps at',
      onAt := edgeAt taps (at' + 64 * rd b (MOD.DEAD.DT_LH g) + rd b (MOD.DEAD.DT_LH_F g)),
      maxAt := edgeAt taps (tonMax b g) } b

/-- PHASE_START (R117, R121): ref_p is latched; the phase skips, or takes its settings and drives its low side off. With
APPLIED = 0 the group does not switch, whatever the trims; after GATE_EN has returned it waits for a command above the skip
threshold (R138). -/
def doPhaseStart (g p : Nat) (b : Blk) : Blk :=
  if !(phAct b g).testBit p || !maySwitch b g || pfWarn b then b
  else
    let r := phRef b g p
    let b := wrU b (MOD.PH.PREF.REF g p) r
    if r ≤ rd b (MOD.LIMIT.IPK_SKIP g) ∨ applied b g = 0 ∨ (modOf b g).quiet then wrB b (MOD.PH.PSTAT.SKIP g p) true
    else setPhase g p 1 false false (takeSet g p (wrB b (MOD.PH.PSTAT.SKIP g p) false))

/-- DEAD_TIME_END (R121): the high side goes on, or the low side unless OUT_MODE = 1. After a power-fail warning no phase turns
on (R138). -/
def doDeadTimeEnd (g p : Nat) (b : Blk) : Blk :=
  if phStep b g p = 1 then (if pfWarn b then setPhase g p 0 false false b else setPhase g p 2 true false b)
  else if phStep b g p = 3 then setPhase g p 0 false (!isOn b (MOD.GCTL.OUT_MODE g)) b
  else b

/-- The high side of a phase goes off after an on-time in fine units (R121); the low side follows after DT_HL. -/
def phaseOff (g p ton : Nat) (b : Blk) : Blk :=
  let x := phSet b g p
  let b := setPh g p { x with lowAt := edgeAt x.taps (ton + x.dtHl) } b
  setPhase g p 3 false false (wrU b (MOD.PH.PTIME.TON g p) (ton / 64))

/-- The threshold of a phase's comparator at an on-time in coarse steps, as its DAC's code (R122): min(ref_p − S × t, IPK_MAX),
never below zero, in 1/100 of 0.1 A. DEDUCED: the ramp, updated every 10 ns, stands at the last multiple of 8 coarse steps. -/
def dacCode (b : Blk) (g p ton : Nat) : Nat :=
  let x := phSet b g p
  let thr := min (100 * rd b (MOD.PH.PREF.REF g p) - x.slope * (ton / 8)) (100 * x.ipkMax)
  min 4095 (thr * 4096 / (100 * max 1 x.fsI))

/-- PHASE_PEAK_OFF (R121, R122) at an on-time in coarse steps, with the sensed current as a fraction of full scale in 1/4,096:
from max(LEB, TON_MIN) on, the high side goes off once the current is at or above the threshold. The low side is timed from the
next coarse edge (R119). -/
def doPeakOff (g p ton cur : Nat) (b : Blk) : Blk :=
  let x := phSet b g p
  if phStep b g p = 2 ∧ x.least ≤ ton ∧ 64 * ton ≤ x.tonMax ∧ dacCode b g p ton ≤ cur then
    wrU (phaseOff g p (64 * (ton + 1)) (wrB b (MOD.PH.PSTAT.DLIM g p) false)) (MOD.PH.PTIME.TON g p) ton
  else b

/-- PHASE_TON_MAX (R121). -/
def doTonMax (g p : Nat) (b : Blk) : Blk :=
  if phStep b g p = 2 then
    phaseOff g p (phSet b g p).tonMax (incSat (wrB b (MOD.PH.PSTAT.DLIM g p) true) (MOD.PH.PCNT.DLIM_CNT g p))
  else b

/-- The offsets in force (R128). -/
def modOffsets (g : Nat) (b : Blk) : Blk :=
  let auto := isOn b (MOD.GCTL.AUTO_IL g)
  let k := gIdx b g
  let t := planTrunk b k
  let mask := if t < 16 then rd b (FCTR.TRUNK_PLAN.GRP_MASK t) else 0
  let m := if t < 16 then popcount 12 mask else 1
  let i := if t < 16 then popcount k mask else 0
  let go := if auto then rdivN (65536 * i) (8 * m) % 65536 else rd b (MOD.GOFS.GOFS g)
  let b := wr b (MOD.ALIGN.EFF_OFS g) go
  forEach (List.range 8) (fun p b =>
    wr b (MOD.PH.PTIME.EFF_OFS g p) (go + if auto then p * 8192 else rd b (MOD.PH.PCFG.OFS g p))) b

/-- The command timeout's ramp over one period (R116, R154): I_SLEW of the trunk of the last command applied. -/
def modRamp (g : Nat) (b : Blk) : Blk :=
  let x := modOf b g
  match x.timedOut, x.last with
  | true, some c =>
    let acc := x.rampAcc + rd b (CE.PSLEW.I_SLEW c.trunk) * (x.per * 5 / 256)
    let b := setMod g { x with rampAcc := acc % 1000000 } b
    wr b (MOD.IGPK.CMD g) (rd b (MOD.IGPK.CMD g) - acc / 1000000)
  | _, _ => b

/-- PERIOD_START with the phases' mean currents and the group voltage as measured (R118, R132). -/
def doPeriodStart (g : Nat) (im : List Int) (vg : Int) (b : Blk) : Blk :=
  let x := modOf b g
  let set := 64 * rd b (MOD.PERIOD.PER g) + rd b (MOD.PERIOD.PER_FINE g)
  let b := if set ≠ x.perSet then wrB b (MOD.GSTAT.LOCKED g) false else b
  let b := setMod g
    { x with
      sync :=
        { maxCorr := rd b (MOD.SYNC.MAX_CORR g), lockWin := rd b (MOD.SYNC.LOCK_WIN g), div := rd b (MOD.SYNC.SYNC_DIV g),
          tol := rd b (MOD.SYNC.SYNC_TOL g), loss := rd b (MOD.GCTL.SYNC_LOSS g) }
      perSet := set, per := ((set : Int) - x.corr).toNat, corr := 0, lockRun := if set ≠ x.perSet then 0 else x.lockRun } b
  let fs := rd b (MOD.SCALE.FS_I g)
  let b := forEach ((List.range 8).zip im) (fun e b =>
    wr b (MOD.PH.PREF.I_MEAN g e.1) (clamp 0 fs e.2).toNat) b
  let sum := sumN ((bitsOf 8 (phAct b g)).map fun p => rd b (MOD.PH.PREF.I_MEAN g p))
  let b := wrU (wr b (MOD.MEAS.VGRP g) (clamp 0 (rd b (MOD.SCALE.VG_FS g)) vg).toNat) (MOD.MEAS.IGRP g) sum
  modRamp g (modOffsets g b)

/-- The alignment source is lost (R127): holdover, once. DEDUCED: a group that has never locked to its source does not enter
holdover, since R136 does not offer it (notes/assumptions/18.md). -/
def modLoss (g : Nat) (b : Blk) : Blk :=
  if (modOf b g).wasLocked && !isOn b (MOD.GSTAT.HOLDOVER g) then
    let b := setMod g { modOf b g with valid := 0, lockRun := 0, corr := 0 } b
    raise (pgMOD g) 2 (wrB (wrB b (MOD.GSTAT.LOCKED g) false) (MOD.GSTAT.HOLDOVER g) true)
  else b

/-- An expected edge missing or invalid (R127). -/
def edgeMissing (g : Nat) (b : Blk) : Blk :=
  if rd b (MOD.GCTL.SYNC_SEL g) = 0 then b
  else
    let x := modOf b g
    let b := setMod g { x with miss := x.miss + 1, valid := 0, lockRun := 0 } b
    if x.sync.loss ≤ x.miss + 1 then modLoss g b else b

/-- SYNC_EDGE with the error `e` and the edge's deviation from its expected instant, in fine units (R126, R127). -/
def doSyncEdge (g : Nat) (e dev : Int) (b : Blk) : Blk :=
  if rd b (MOD.GCTL.SYNC_SEL g) = 0 then b
  else
    let x := modOf b g
    let tol := x.sync.tol * x.sync.div * x.perSet
    if tol < dev.natAbs * 1000 then edgeMissing g b
    else
      let b := probe true 6 (some g) e (wrS b (MOD.ALIGN.ERR g) e)
      let ret := isOn b (MOD.GSTAT.HOLDOVER g) && decide (4 ≤ x.valid + 1)
      let b := when ret (fun b => wrB b (MOD.GSTAT.HOLDOVER g) false) b
      let hold := isOn b (MOD.GSTAT.HOLDOVER g)
      let lim : Int := 64 * x.sync.maxCorr
      let run := if hold || ret || decide (64 * x.sync.lockWin < e.natAbs) then 0 else x.lockRun + 1
      let b := setMod g
        { modOf b g with
          miss := 0, valid := x.valid + 1, lockRun := run, corr := if hold then 0 else clamp (-lim) lim e } b
      if 16 ≤ run ∧ !isOn b (MOD.GSTAT.LOCKED g) then
        raise (pgMOD g) 3 (wrB (setMod g { modOf b g with wasLocked := true } b) (MOD.GSTAT.LOCKED g) true)
      else b

/-- What an accepted write of GCTL does: OUT_MODE = 1 holds every PWML low (R121). Another source is not locked to yet, and
with source 0 LOCKED and HOLDOVER read 0 (R127); DESIGN CHOICE for a change between two sources (notes/assumptions/18.md). -/
def actGctl (g src : Nat) (b : Blk) : Blk :=
  let b := if isOn b (MOD.GCTL.OUT_MODE g) then setMod g { modOf b g with pwml := 0 } b else b
  if rd b (MOD.GCTL.SYNC_SEL g) = src then b
  else
    let b := setMod g { modOf b g with wasLocked := false, valid := 0, lockRun := 0, miss := 0, corr := 0 } b
    wrB (wrB b (MOD.GSTAT.LOCKED g) false) (MOD.GSTAT.HOLDOVER g) false

/-- DELAY_CAL_DONE (R120). -/
def doCalDone (g taps : Nat) (b : Blk) : Blk :=
  let b := incWrap (setMod g { modOf b g with calRun := false, calDone := true } b) (MOD.CAL_CNT.CAL_CNT g)
  if 80 ≤ taps ∧ taps ≤ 127 then wrB (wr b (MOD.CAL.TAPS g) taps) (MOD.GSTAT.CAL_FAIL g) false
  else raise (pgMOD g) 6 (wrB b (MOD.GSTAT.CAL_FAIL g) true)

/-- One trim after clamping, with its limit flag and event (R129): clamping sets the flag. DEDUCED: it clears when the trim
leaves the limit, since the register shows "trim at ±TRIM_MAX" (R141). -/
def putTrim (g p : Nat) (t : Int) (b : Blk) : Blk :=
  let mx : Int := rd b (MOD.BAL.TRIM_MAX g)
  let was := isOn b (MOD.PH.PSTAT.TRIM_SAT g p)
  let sat := decide (mx < t ∨ t < -mx) || (was && decide (t = mx ∨ t = -mx))
  let first := sat && !was
  let b := wrB (wrI b (MOD.PH.PSTAT.TRIM g p) (clamp (-mx) mx t)) (MOD.PH.PSTAT.TRIM_SAT g p) sat
  when first (raise (pgMOD g) 5) b

/-- A phase's trim goes back to 0, and with it the flag that it stands at its limit. -/
def dropTrim (g p : Nat) (b : Blk) : Blk :=
  wrB (wr b (MOD.PH.PSTAT.TRIM g p) 0) (MOD.PH.PSTAT.TRIM_SAT g p) false

/-- Trims start at 0 when EN is set (R129). -/
def startTrims (g : Nat) (b : Blk) : Blk := forEach (List.range 8) (dropTrim g) b

/-- A phase that becomes inactive loses its trim (R129). -/
def loseTrims (g : Nat) (b : Blk) : Blk :=
  forEach ((List.range 8).filter fun p => !(phAct b g).testBit p) (dropTrim g) b

/-- BALANCE_STEP (R129, R130). -/
def doBalance (g : Nat) (b : Blk) : Blk :=
  let n := nAct b g
  let igrp := rd b (MOD.MEAS.IGRP g)
  if n = 0 ∨ rd b (MOD.BAL.K_BAL g) = 0 ∨ igrp < rd b (MOD.IMB.BAL_MIN g) ∨ isOn b (MOD.GSTAT.CLAMPED g) ∨ !gateOn b g then b
  else
    let a : Int := (igrp / n : Nat)
    let act := bitsOf 8 (phAct b g)
    let ts := act.map fun p =>
      (p, rdI b (MOD.PH.PSTAT.TRIM g p) +
        fdiv ((rd b (MOD.BAL.K_BAL g) : Int) * (a - rd b (MOD.PH.PREF.I_MEAN g p))) 256)
    let c := fdiv (sumI (ts.map (·.2))) n
    forEach ts (fun e => putTrim g e.1 (e.2 - c)) b

/-- Whether a phase's mean current is out of balance now (R131). -/
def imbalanced (b : Blk) (g p : Nat) : Bool :=
  let igrp := rd b (MOD.MEAS.IGRP g)
  let a := igrp / nAct b g
  decide (nAct b g ≠ 0 ∧ rd b (MOD.IMB.BAL_MIN g) ≤ igrp ∧
    rd b (MOD.IMB.IMB_PCT g) * a < 100 * ((rd b (MOD.PH.PREF.I_MEAN g p) : Int) - a).natAbs)

/-- PHASE_IMBALANCE: the condition has been present, or absent, for IMB_MS up to now (R131). -/
def doImbalance (g p : Nat) (imb : Bool) (b : Blk) : Blk :=
  if imb ≠ imbalanced b g p then b
  else
    let was := isOn b (MOD.PH.PSTAT.IMB g p)
    let b := wrB b (MOD.PH.PSTAT.IMB g p) imb
    when (imb && !was) (raise (pgMOD g) 4) b

/-- A group trips (R134). -/
def modTrip (g : Nat) (b : Blk) : Blk :=
  let b := wrB (gateRemove g 3 b) (MOD.GSTAT.TRIPPED g) true
  blockGroup g (raise (pgMOD g) 1 b)

/-- DESAT_QUALIFY: `low` says that the phase's high side was low throughout the window (R133, R134). -/
def doDesat (g p : Nat) (low : Bool) (b : Blk) : Blk :=
  let b := setPhase g p 0 false false b
  let b := setMod g { modOf b g with desat := Num.setBit (modOf b g).desat p true } b
  if (rd b (MOD.GSTAT.PH_FAULT g)).testBit p then b
  else
    let b := wrB (wrBit b (MOD.GSTAT.PH_FAULT g) p true) (MOD.PH.PSTAT.DESAT g p) true
    let b := when low (fun b => wrB b (MOD.PH.PSTAT.DESAT_OFF g p) true) b
    let b := raise (pgMOD g) 0 (incSat (dropTrim g p b) (MOD.PH.PCNT.DESAT_CNT g p))
    let t := b.time.clk
    match (modOf b g).fault with
    | some f =>
      if t - f ≤ 1000000 * rd b (MOD.DESAT.TRIP_MS g) then modTrip g b
      else setMod g { modOf b g with fault := some t } b
    | none => setMod g { modOf b g with fault := some t } b

/-- The write of ARM (R135). -/
def actModArm (g v : Nat) (b : Blk) : Blk :=
  let b := forEach (bitsOf 8 v) (fun p b =>
    wrB (wrB (wrBit b (MOD.GSTAT.PH_FAULT g) p false) (MOD.PH.PSTAT.DESAT g p) false) (MOD.PH.PSTAT.DESAT_OFF g p) false) b
  let b := if rd b (MOD.GSTAT.PH_FAULT g) = 0 then setMod g { modOf b g with fault := none } b else b
  if v.testBit 8 then gateRestore g 3 (wrB b (MOD.GSTAT.TRIPPED g) false) else b

/-- A command takes effect on a group (R20, R80, R116); its lateness is a probe (R479). -/
def applyCmd (g : Nat) (c : CmdRt) (b : Blk) : Blk :=
  let x := modOf b g
  let stale := match x.last with
    | some l => cycOlder c.cycle l.cycle
    | none => false
  let foreign := match x.only with
    | some (pos, h) => cycAfter c.cycle h && decide (c.owner ≠ pos)
    | none => false
  if stale then incSat b (MOD.CMD_CNT.STALE g)
  else if foreign then b
  else
    let b := setMod g
      { x with
        last := some c, timedOut := false, rampAcc := 0, hold := x.hold && !gateOn b g,
        quiet := x.quiet && !(gateOn b g && decide (rd b (MOD.LIMIT.IPK_SKIP g) < c.ref)) } b
    probe true 1 (some g) c.late (wr b (MOD.IGPK.CMD g) c.ref)

/-- The instant a cycle's command applies, in ns of the followed domain, unwrapped about now (R20, R144). -/
def applyInstant (b : Blk) (cycle : Nat) : Int :=
  let t := max 1 (rd b CE.PLOOP.PERIOD_US) * 1000
  let now := eFollow b / t
  let d := toInt 32 ((cycle + 2 ^ 32 - now % 2 ^ 32) % 2 ^ 32)
  ((now : Int) + d) * t + 2000

/-- A group command arrives for a local group (R20): scheduled, applied late, or discarded as stale. -/
def takeCmd (g : Nat) (c : CmdRt) (b : Blk) : Blk :=
  let x := modOf b g
  let stale := match x.last with
    | some l => cycOlder c.cycle l.cycle
    | none => false
  if stale then incSat b (MOD.CMD_CNT.STALE g)
  else
    let c := { c with late := (eFollow b : Int) - applyInstant b c.cycle }
    if 0 < c.late then applyCmd g c (incSat b (MOD.CMD_CNT.LATE g)) else setMod g { x with cmds := x.cmds ++ [c] } b

/-- A group command for the groups of a mask, lowest index first (R434). -/
def doGroupCommand (cycle trunk mask : Nat) (refs : List Nat) (owner : Nat) (b : Blk) : Blk :=
  forEach ((bitsOf 12 mask).zip refs) (fun e b =>
    if e.1 / 3 = myPos b then
      (if enabled b (pgMOD (e.1 % 3)) then
        takeCmd (e.1 % 3) { cycle := cycle, trunk := trunk, ref := e.2, owner := owner } b
      else b)
    else b) b

/-- GROUP_COMMAND_APPLY (R20): the oldest scheduled command of the group loads IGPK. -/
def doCommandApply (g : Nat) (b : Blk) : Blk :=
  let x := modOf b g
  match x.cmds with
  | [] => b
  | c :: l => applyCmd g c (setMod g { x with cmds := l } b)

/-- GROUP_CMD_TIMEOUT (R20, R116, R154): a group that has applied no command has nothing to ramp. -/
def doCmdTimeout (g : Nat) (b : Blk) : Blk :=
  let x := modOf b g
  if x.last.isSome ∧ !x.timedOut then raise pgCE 6 (setMod g { x with timedOut := true, rampAcc := 0 } b) else b

/-- PF_GATE_REMOVE (R138): the last phase of the group has turned off. -/
def doPfGate (g : Nat) (b : Blk) : Blk :=
  if pfWarn b ∧ !isOn b (MOD.GSTAT.PF_STOP g) then
    let was := decide ((modOf b g).gate ≠ 0)
    let b := wrB (gateRemove g 4 b) (MOD.GSTAT.PF_STOP g) true
    if was then raise (pgMOD g) 7 b else b
  else b

def execPhaseStart (g : Fin 3) (p : Fin 8) (s : State) : Out :=
  run (gated (pgMOD g.val) (doPhaseStart g.val p.val)) s

def execDeadTimeEnd (g : Fin 3) (p : Fin 8) (s : State) : Out :=
  run (gated (pgMOD g.val) (doDeadTimeEnd g.val p.val)) s

def execPhasePeakOff (g : Fin 3) (p : Fin 8) (x : PeakSense) (s : State) : Out :=
  run (gated (pgMOD g.val) (doPeakOff g.val p.val x.ton.toNat x.cur.toNat)) s

def execPhaseTonMax (g : Fin 3) (p : Fin 8) (s : State) : Out :=
  run (gated (pgMOD g.val) (doTonMax g.val p.val)) s

def enterPeriodStart (g : Fin 3) (imean : List Int) (vgrp : Int) : Blk → Blk :=
  gated (pgMOD g.val) (doPeriodStart g.val imean vgrp)

def execPeriodStart (g : Fin 3) (imean : List Int) (vgrp : Int) (s : State) : Out :=
  runIn 7 (.periodStart g imean vgrp) (enterPeriodStart g imean vgrp) s

def execSyncEdge (g : Fin 3) (e dev : BitVec 32) (s : State) : Out :=
  run (gated (pgMOD g.val) (doSyncEdge g.val e.toInt dev.toInt)) s

def execSyncEdgeMissing (g : Fin 3) (s : State) : Out := run (gated (pgMOD g.val) (edgeMissing g.val)) s

/-- A background calibration of the replica line starts (R120); switching goes on. -/
def execDelayLineCal (g : Fin 3) (s : State) : Out :=
  run (gated (pgMOD g.val) fun b => setMod g.val { modOf b g.val with calRun := true } b) s

def execDelayCalDone (g : Fin 3) (taps : BitVec 8) (s : State) : Out :=
  run (gated (pgMOD g.val) (doCalDone g.val taps.toNat)) s

def execBalanceStep (g : Fin 3) (s : State) : Out := run (gated (pgMOD g.val) (doBalance g.val)) s

def execPhaseImbalance (g : Fin 3) (p : Fin 8) (imb : Bool) (s : State) : Out :=
  run (gated (pgMOD g.val) (doImbalance g.val p.val imb)) s

def enterDesatQualify (g : Fin 3) (p : Fin 8) (low : Bool) : Blk → Blk :=
  gated (pgMOD g.val) (doDesat g.val p.val low)

def execDesatQualify (g : Fin 3) (p : Fin 8) (low : Bool) (s : State) : Out :=
  runIn 7 (.desatQualify g p low) (enterDesatQualify g p low) s

/-- The DESAT inputs stand as given when ARM.PH is written (R135). -/
def execPhaseFaultClear (i : Init) (g : Fin 3) (ph desat : BitVec 8) (s : State) : Out :=
  run (fun b => writeAct i false (MOD.ARM.PH g.val).a (ph.setWidth 32) (actModArm g.val)
    (setMod g.val { modOf b g.val with desat := desat.toNat } b)) s

def execTripClear (i : Init) (g : Fin 3) (s : State) : Out :=
  run (writeAct i false (MOD.ARM.PH g.val).a 0x100 (actModArm g.val)) s

def enterGroupCommand (cycle : BitVec 32) (trunk : Fin 16) (mask : BitVec 12) (refs : List (BitVec 16)) (owner : Fin 4) :
    Blk → Blk :=
  doGroupCommand cycle.toNat trunk.val mask.toNat (refs.map BitVec.toNat) owner.val

/-- A group command after its apply instant is no timed input (R339): the active of a pair holds it as any other. -/
def execGroupCommand (cycle : BitVec 32) (trunk : Fin 16) (mask : BitVec 12) (refs : List (BitVec 16)) (owner : Fin 4)
    (s : State) : Out :=
  let f := enterGroupCommand cycle trunk mask refs owner
  if applyInstant s.blk cycle.toNat < (eFollow s.blk : Int) then runIn 4 (.groupCommand cycle trunk mask refs owner) f s
  else run f s

def execGroupCommandApply (g : Fin 3) (s : State) : Out := run (gated (pgMOD g.val) (doCommandApply g.val)) s

def execGroupCmdTimeout (g : Fin 3) (s : State) : Out := run (gated (pgMOD g.val) (doCmdTimeout g.val)) s

def execPfGateRemove (g : Fin 3) (s : State) : Out := run (gated (pgMOD g.val) (doPfGate g.val)) s

end Sys2Proof.Machine
end

