-- ==== Sys2Proof/Machine/Book.lean ====
section
/-!
DEFINITION. The order book (R52 to R63): orders, their states, submissions and withdrawals, and the cut of the book.
-/

namespace Sys2Proof.Machine

open Sys2Proof.Num

/-- The order in a book slot, by 16 * site port + slot. -/
def orderOf (b : Blk) (k : Nat) : Order := Tab.at' (fun _ => {}) b.factor.book k

/-- Replace an order. -/
def setOrder (k : Nat) (o : Order) (b : Blk) : Blk :=
  { b with factor := { b.factor with book := Tab.put (fun _ => {}) b.factor.book k o } }

/-- The slots of a site port. -/
def portSlots (p : Nat) : List Nat := (List.range 16).map fun s => 16 * p + s

/-- The site port of a trunk of this device's stack (R52). -/
def sitePort (b : Blk) (t : Nat) : Nat := 16 * (if rd b SYS.MODE.ROLE = 0 then 0 else rd b SYS.MODE.STACK) + t

/-- Whether a site port is one of this device's four. -/
def ownPort (b : Blk) (p : Nat) : Bool := decide (p / 16 = sitePort b 0 / 16 ∧ p % 16 / 4 = myPos b)

/-- This device is the site's manager, or solo (R43). -/
def isManager (b : Blk) : Bool := decide (rd b SYS.MODE.ROLE = 2 ∨ rd b SYS.MODE.ROLE = 0)

/-- This device is its stack's master (R43). -/
def isMaster (b : Blk) : Bool := decide (myPos b = 0)

/-- This device accepts orders into its own book: the manager, or a stack master in holding or island state (R63, R84). -/
def accepts (b : Blk) : Bool := mayPower b && (isManager b || (isMaster b && decide (2 ≤ rd b SYS.MODE.SITE_STATE)))

/-- Whether an order is PENDING or OPEN. -/
def orderLive (o : Order) : Bool := decide (o.state = 1 ∨ o.state = 2)

/-- A site port is of this device's stack. -/
def ownStack (b : Blk) (p : Nat) : Bool := decide (p / 16 = sitePort b 0 / 16)

/-- Whether a port is withheld (R58): its type is off, its cable limit zero, the device in calibration, its metrology
image missing (R501), or its trunk stopped (R109). -/
def withheld (b : Blk) (p : Nat) : Bool :=
  (ownStack b p && rd b (FCTR.PORT_LIM.I_CABLE (p % 16)) == 0) ||
    (ownPort b p && (rd b (VP.VCTL.TYPE (p % 4)) == 0 || isOn b SYS.MODE.CAL || isOn b FSYS.BOOT_STAT.MET_FAIL ||
      (rd b TRUNK.TSTOP.STOPPED).testBit (p % 16)))

/-- The report of a position. -/
def repOf (b : Blk) (pos : Nat) : Report := Tab.at' (fun _ => {}) b.factor.reports pos

/-- A position has a report in the model. -/
def hasRep (b : Blk) (pos : Nat) : Bool := !(repOf b pos).grps.isEmpty

/-- The bid of a stack. -/
def bidOf (b : Blk) (s : Nat) : Bid := Tab.at' (fun _ => {}) b.factor.bids s

/-- The device of a port is absent from its stack (R83). -/
def portAbsent (b : Blk) (t : Nat) : Bool := decide (t / 4 ≠ myPos b) && !hasRep b (t / 4)

/-- A port of this stack is withheld, as its PORT_LIM or its device's report of the cut says (R53, R58). -/
def portWithheld (b : Blk) (t : Nat) : Bool :=
  rd b (FCTR.PORT_LIM.I_CABLE t) == 0 || (repOf b (t / 4)).withheld.testBit (t % 4)

/-- A site port is withheld: as this stack knows, or as its stack's bid says. -/
def heldBack (b : Blk) (p : Nat) : Bool :=
  if ownStack b p then portWithheld b (p % 16) else (bidOf b (p / 16)).noGrant.testBit (p % 16)

/-- A site port's device is absent (R83): as this stack knows, or as its stack's bid says. -/
def portAway (b : Blk) (p : Nat) : Bool :=
  if ownStack b p then portAbsent b (p % 16) else (bidOf b (p / 16)).absent.testBit (p % 16)

/-- A port may be granted power: neither withheld nor of an absent device (R53, R83). -/
def servable (b : Blk) (p : Nat) : Bool := !heldBack b p && !portAway b p

/-- The cable limit of a port (R53, R57): of this stack's own, or as its stack's bid gives it. -/
def portLim (b : Blk) (p : Nat) : Nat :=
  if ownStack b p then rd b (FCTR.PORT_LIM.I_CABLE (p % 16)) else (bidOf b (p / 16)).lims.getD (p % 16) 30000

/-- The result of R58 for a submission, but for the full port. DESIGN CHOICE: a hardware LIMIT (SRC 1, 2) is accepted on a
withheld port too (notes/assumptions/20.md). -/
def orderCheck (b : Blk) (o : OrderReq) : Nat :=
  if o.kind = 0 ∨ 3 < o.kind ∨ 7 < o.cls then 1
  else if o.kind = 1 ∧ (o.weight < 1 ∨ 255 < o.weight ∨ o.vTgt < 1500 ∨ 12500 < o.vTgt ∨ 30000 < o.iReq ∨ o.iReq < o.iMin)
    then 1
  else if o.src = 0 ∧ withheld b o.port then 3
  else 0

/-- The slot a new order takes (R60): the lowest FREE one, else the closed one with the lowest CLOSED. -/
def slotFor (b : Blk) (p : Nat) : Option Nat :=
  match (portSlots p).find? fun k => (orderOf b k).state == 0 with
  | some k => some k
  | none =>
    bestBy (fun x y => decide ((orderOf b x).closed < (orderOf b y).closed)) ((portSlots p).filter fun k => !orderLive (orderOf b k))

/-- The result of a submission or withdrawal in SUB_STAT (R58, R59, R63). -/
def subResult (res slot seq : Nat) (b : Blk) : Blk :=
  let b := wr (wr (wrB b BOOK.SUB_STAT.BUSY false) BOOK.SUB_STAT.RESULT res) BOOK.SUB_STAT.SLOT slot
  let b := wr b BOOK.SUB_SEQ.SEQ seq
  { b with factor := { b.factor with inFlight := none } }

/-- A refusal counts in REJECTS and raises its event (R59, R91). -/
def countReject (b : Blk) : Blk := raise pgBOOK 1 (incSat b BOOK.BOOK_STAT.REJECTS)

/-- An order is refused (R58, R60): it takes a slot as REJECTED, except with result 4. -/
def orderReject (o : OrderReq) (res : Nat) (b : Blk) : Blk × Nat :=
  let b := countReject b
  if res = 4 then (raise pgBOOK 5 b, 0)
  else match slotFor b o.port with
    | none => (b, 0)
    | some k =>
      (setOrder k { req := o, state := 7, closed := rd b FCTR.CLR_NUM.CLR_NUM } b, k % 16)

/-- The book accepts an order (R60): (block, result, slot, SEQ). -/
def bookAccept (o : OrderReq) (b : Blk) : Blk × Nat × Nat × Nat :=
  let res := if ownPort b o.port then orderCheck b o else if o.kind = 0 ∨ 3 < o.kind then 1 else 0
  let res := if res = 0 ∧ (portSlots o.port).all fun k => orderLive (orderOf b k) then 4 else res
  if res ≠ 0 then
    let r := orderReject o res b
    (r.1, res, r.2, 0)
  else match slotFor b o.port with
    | none => (b, 4, 0, 0)
    | some k =>
      let seq := b.factor.nextSeq
      let b := setOrder k { req := o, state := 1, seq := seq } b
      let b := { b with factor := { b.factor with nextSeq := seq + 1, acts := b.factor.acts ++ [(k, false)] } }
      (raise pgBOOK 0 b, 0, k % 16, seq)

/-- The result of R59 for a withdrawal. DESIGN CHOICE: a closed LIMIT with SRC 1 or 2, to which results 5 and 6 both apply,
gives 6 (notes/assumptions/20.md). -/
def cancelCheck (b : Blk) (p s : Nat) : Nat :=
  let o := orderOf b (16 * p + s)
  if orderLive o && o.req.kind == 2 && decide (o.req.src ≠ 0) then 5 else if !orderLive o then 6 else 0

/-- Submissions and withdrawals wait for the next cut, in order of receipt (R61). -/
def addActs (l : List (Nat × Bool)) (b : Blk) : Blk :=
  { b with factor := { b.factor with acts := b.factor.acts ++ l } }

/-- The book takes a withdrawal for its next cut (R59, R61). -/
def bookCancel (p s : Nat) (b : Blk) : Blk × Nat :=
  match cancelCheck b p s with
  | 0 => (addActs [(16 * p + s, true)] b, 0)
  | r => (countReject b, r)

/-- The withdrawals of a port's live LIMITs of a hardware source. -/
def srcActs (b : Blk) (p src : Nat) : List (Nat × Bool) :=
  ((portSlots p).filter fun k =>
    orderLive (orderOf b k) && (orderOf b k).req.kind == 2 && (orderOf b k).req.src == src).map fun k => (k, true)

/-- An order closes with a state (R60). -/
def closeOrder (k st : Nat) (b : Blk) : Blk :=
  setOrder k { orderOf b k with state := st, closed := rd b FCTR.CLR_NUM.CLR_NUM } b

/-- The open order of a kind of a port; none. -/
def openOrder (b : Blk) (p kind : Nat) : Option Nat :=
  (portSlots p).find? fun k => (orderOf b k).state == 2 && (orderOf b k).req.kind == kind

/-- The groups serving a port were shut down (R62): the open DRAW's fault count, and its end at FAULT_LIMIT. -/
def drawFault (p : Nat) (b : Blk) : Blk :=
  match openOrder b p 1 with
  | none => b
  | some k =>
    let o := orderOf b k
    let b := setOrder k { o with flt := o.flt + 1 } b
    let b := if rd b FCTR.LOOP.FAULT_LIMIT ≤ o.flt + 1 then closeOrder k 6 b else b
    raise pgBOOK 3 b

/-- The site port an order message is about. -/
def orderPort (m : OrderMsg) : Nat := match m with
  | .submit o => o.port
  | .withdraw p _ => p
  | .withdrawSrc p _ => p
  | .fault p => p
  | .block _ => 0

/-- The site address of the device of a site port. -/
def orderHome (p : Nat) : Nat := p / 16 * 16 + p / 4 % 4 * 4

/-- An order message goes on upwards (R62): a member's to its stack master, a stack master's to the manager. -/
def passUp (m : OrderMsg) (b : Blk) : Blk :=
  if accepts b then b else if isMaster b then toManager (.order m) b else toPos 0 2 (.order m) b

/-- The answer to an order message goes back the way it came (R62): to the port's stack, and there to its device. -/
def sendDown (m : OrderMsg) (res slot seq : Nat) (b : Blk) : Blk :=
  let p := orderPort m
  if ownPort b p then b
  else if ownStack b p then sendTo (orderHome p) 2 (.subResult m res slot seq) b
  else toStack (p / 16) (.subResult m res slot seq) b

/-- The answer leaves the book that gave it. -/
def giveResult (m : OrderMsg) (res slot seq : Nat) (b : Blk) : Blk :=
  sendDown m res slot seq (emit b (.subResult m res slot seq))

/-- The book's answer to an order message (R58 to R61). -/
def bookTake (m : OrderMsg) (b : Blk) : Blk := match m with
  | .submit o =>
    let r := bookAccept o b
    giveResult m r.2.1 r.2.2.1 r.2.2.2 r.1
  | .withdraw p s =>
    let r := bookCancel p s b
    giveResult m r.2 s 0 r.1
  | .withdrawSrc p src => giveResult m 0 0 0 (addActs (srcActs b p src) b)
  | .fault _ => b
  | .block _ => b

/-- ORDER_ACCEPT: an order message reaches the manager, or a stack master in holding, which answers it, or a stack master
that passes it on (R58 to R62, R84). A fault is counted by every copy of the book on its way; the groups named as shut down
are blocked on their device (R62). -/
def doOrderAccept (m : OrderMsg) (b : Blk) : Blk := match m with
  | .block mask =>
    forEach ((bitsOf 12 mask).filter fun k => k / 3 == myPos b) (fun k b => wrB b (FCTR.GRP_STAT.BLOCKED k) true) b
  | .fault p => when (isMaster b) (passUp m) (drawFault p b)
  | _ => if accepts b then bookTake m b else if isMaster b then passUp m (emit b (.order m)) else b

/-- The order in the submission registers (R63, R90). -/
def subOrder (b : Blk) : OrderReq :=
  { port := rd b BOOK.SUB_W0.PORT, kind := rd b BOOK.SUB_W0.KIND, cls := rd b BOOK.SUB_W0.CLASS,
    iReq := rd b BOOK.SUB_W1.I_REQ, vTgt := rd b BOOK.SUB_W1.V_TGT, iMin := rd b BOOK.SUB_W2.I_MIN,
    weight := rd b BOOK.SUB_W2.WEIGHT, src := 0, expire := rd b BOOK.SUB_EXP.EXPIRE }

/-- A submission or withdrawal leaves for the manager. -/
def forwardOrder (m : OrderMsg) (b : Blk) : Blk :=
  let b := wrB b BOOK.SUB_STAT.BUSY true
  passUp m (emit { b with factor := { b.factor with inFlight := some m } } (.order m))

/-- SUB_GO (R58, R62, R63): refused here, or forwarded. DESIGN CHOICE: a device that may carry no power (R44, R46) refuses
with result 3 (notes/assumptions/20.md). -/
def actSubGo (v : Nat) (b : Blk) : Blk :=
  if !v.testBit 0 || !enabled b pgBOOK then b
  else
    let o := subOrder b
    let chk := orderCheck b o
    let res := if chk = 1 then 1 else if !ownPort b o.port then 2 else chk
    if res = 0 ∧ mayPower b then forwardOrder (.submit o) b
    else
      let r := orderReject o (if res = 0 then 3 else res) b
      subResult (if res = 0 then 3 else res) r.2 0 r.1

/-- CANCEL (R59). A withdrawal carries no SEQ: DESIGN CHOICE, SUB_SEQ then reads 0 (notes/assumptions/20.md). -/
def actCancel (v : Nat) (b : Blk) : Blk :=
  if !v.testBit 0 || !enabled b pgBOOK then b
  else
    let p := v / 2 ^ 24
    let s := v / 2 ^ 20 % 16
    let res := if !ownPort b p then 2 else cancelCheck b p s
    if res = 0 then forwardOrder (.withdraw p s) b else subResult res s 0 (countReject b)

/-- A copy of the book takes what was answered (R60, R90). -/
def ackOrder (m : OrderMsg) (res slot seq : Nat) (b : Blk) : Blk := match m, res with
  | .submit o, 0 => addActs [(16 * o.port + slot, false)] (setOrder (16 * o.port + slot) { req := o, state := 1, seq := seq } b)
  | .submit _, 4 => b
  | .submit o, _ => setOrder (16 * o.port + slot) { req := o, state := 7, closed := rd b FCTR.CLR_NUM.CLR_NUM } b
  | .withdraw p s, 0 => addActs [(16 * p + s, true)] b
  | .withdrawSrc p src, 0 => addActs (srcActs b p src) b
  | _, _ => b

/-- What an answer raises on the device that asked (R91). -/
def ackEvent (m : OrderMsg) (res : Nat) (b : Blk) : Blk := match m, res with
  | .submit _, 0 => raise pgBOOK 0 b
  | _, 0 => b
  | _, 4 => raise pgBOOK 5 (countReject b)
  | _, _ => countReject b

/-- SUB_RESULT: an answer (R62, R63). The copies of the book on its way show what was acknowledged (R84, R90); on the
port's device it ends the submission it answers, a stack master passes it to the port's device. -/
def doSubResult (m : OrderMsg) (res slot seq : Nat) (b : Blk) : Blk :=
  let b := if accepts b then b else ackOrder m res slot seq b
  if ownPort b (orderPort m) then
    let b := if accepts b then b else ackEvent m res b
    if b.factor.inFlight = some m then subResult res slot seq b else b
  else if isMaster b ∧ !accepts b then sendDown m res slot seq b else b

/-- The hardware enters or withdraws its LIMIT of a source on a port of this device (R56). -/
def hwLimit (n src req : Nat) (b : Blk) : Blk :=
  let m : OrderMsg := .submit { port := sitePort b (4 * myPos b + n), kind := 2, iReq := req, src := src }
  passUp m (emit b (.order m))

def hwWithdraw (n src : Nat) (b : Blk) : Blk :=
  let m : OrderMsg := .withdrawSrc (sitePort b (4 * myPos b + n)) src
  passUp m (emit b (.order m))

/-- The owner tells of the groups it shut down (R62): the port's DRAW counts one fault, in this device's copy of the book,
on the port's device and up to the manager; the groups' devices block them. -/
def tellFault (p mask : Nat) (b : Blk) : Blk :=
  let home := p / 4 % 4
  let b := drawFault p (emit b (.order (.fault p)))
  let b := passUp (.fault p) b
  let b := if home = 0 ∨ home = myPos b then b else sendTo (orderHome p) 2 (.order (.fault p)) b
  forEach ((List.range 4).filter fun q => q != myPos b && mask / 8 ^ q % 8 != 0)
    (fun q b => toPos q 2 (.order (.block mask)) b) (emit b (.order (.block mask)))

/-- One submission or withdrawal takes part in a cut (R61). -/
def cutAct (a : Nat × Bool) (b : Blk) : Blk :=
  let o := orderOf b a.1
  if a.2 then (if orderLive o then closeOrder a.1 4 b else b)
  else if o.state ≠ 1 then b
  else
    let b := if o.req.kind = 2 then b
      else match openOrder b o.req.port o.req.kind with
        | some j => raise pgBOOK 2 (closeOrder j 3 b)
        | none => b
    setOrder a.1 { o with state := 2, clrIn := rd b FCTR.CLR_NUM.CLR_NUM } b

/-- The cut of the book (R61, R64): the acts in order of receipt, then the expiries. -/
def bookCut (b : Blk) : Blk :=
  let acts := b.factor.acts
  let b := { b with factor := { b.factor with acts := [] } }
  let b := forEach acts cutAct b
  let b := forEach (b.factor.book.map (·.1)) (fun k b =>
    let o := orderOf b k
    if o.state = 2 ∧ o.req.expire ≠ 0 ∧ cycAfter (rd b FCTR.CLR_NUM.CLR_NUM) o.req.expire then
      raise pgBOOK 4 (closeOrder k 5 b)
    else b) b
  let seqs := acts.map fun a => if a.2 then 0 else (orderOf b a.1).seq
  wr b BOOK.SEQ_CUT.SEQ_CUT (seqs.foldl max (rd b BOOK.SEQ_CUT.SEQ_CUT))

/-- A port's effective current at a cut (R57). -/
def iEff (b : Blk) (p : Nat) : Nat :=
  match openOrder b p 1 with
  | none => 0
  | some k =>
    ((portSlots p).filter fun j => (orderOf b j).state == 2 && (orderOf b j).req.kind == 2).foldl
      (fun m j => min m (orderOf b j).req.iReq)
      (min (orderOf b k).req.iReq (min (portLim b p) 30000))

/-- The port's open DRAW. -/
def drawOf (b : Blk) (p : Nat) : Option OrderReq := (openOrder b p 1).map fun k => (orderOf b k).req

/-- The port's effective voltage (R57). -/
def vEff (b : Blk) (p : Nat) : Nat := match drawOf b p with
  | some o => o.vTgt
  | none => 0

/-- Power in kW of a current at a voltage, rounded up (R54). -/
def kwOf (i v : Nat) : Nat := (i * v + 99999) / 100000

/-- The current in 0.1 A of a power at a voltage (R54). -/
def ampsOf (kw v : Nat) : Nat := if v = 0 then 0 else kw * 100000 / v

/-- The block with the book as the last cut left it (R55). -/
def atCut (b : Blk) : Blk := { b with factor := { b.factor with book := b.factor.cutBook } }

/-- A port's demand and floor in kW (R57). -/
def demandOf (b : Blk) (p : Nat) : Nat × Nat :=
  match drawOf b p with
  | none => (0, 0)
  | some o => if iEff b p < o.iMin then (0, 0) else (kwOf (iEff b p) o.vTgt, kwOf o.iMin o.vTgt)

/-- GRP_ARM (R62). -/
def actGrpArm (v : Nat) (b : Blk) : Blk :=
  forEach (bitsOf 12 v) (fun k b => wrB b (FCTR.GRP_STAT.BLOCKED k) false) b

/-- Why a port has the grant `g` of a clearing, as REASON says it (R57, R71, R83, R84, R90); `held`: the grant of a stack in
holding. DESIGN CHOICE: R57's "none" for a port with no DRAW open is the table's code 8 (notes/assumptions/20.md). -/
def portReason (b : Blk) (p g : Nat) (held : Bool) : Nat :=
  if drawOf b p = none then 8
  else if heldBack b p then 5
  else if portAway b p then 7
  else if (demandOf b p).1 = 0 then 1
  else if g ≠ 0 then 0
  else if held then 6 else 2

/-- A write of BOOK_CTL that sets RUN (R46, R53): the manager takes stack number 0 and its stack joins. -/
def actBookCtl (b : Blk) : Blk :=
  if isOn b FCTR.BOOK_CTL.RUN ∧ !b.factor.ran then
    let b := { b with factor := { b.factor with ran := true } }
    if rd b SYS.MODE.ROLE = 2 ∧ rd b SYS.MODE.SITE_STATE = 0 then
      toMembers (.stackNumber 0) (emit (joinSite (wr b SYS.MODE.STACK 0)) (.stackNumber 0))
    else b
  else b

def execSubGo (i : Init) (v : Word) (s : State) : Out := run (writeAct i false BOOK.SUB_GO.GO.a v actSubGo) s

def enterOrderAccept (m : OrderMsg) : Blk → Blk := gated pgBOOK (doOrderAccept m)

def execOrderAccept (m : OrderMsg) (s : State) : Out := runIn 3 (.orderAccept m) (enterOrderAccept m) s

def execCancel (i : Init) (v : Word) (s : State) : Out := run (writeAct i false BOOK.CANCEL.GO.a v actCancel) s

def enterSubResult (m : OrderMsg) (res : BitVec 3) (x : BookPlace) : Blk → Blk :=
  gated pgBOOK (doSubResult m res.toNat x.slot.toNat x.seq.toNat)

def execSubResult (m : OrderMsg) (res : BitVec 3) (x : BookPlace) (s : State) : Out :=
  runIn 3 (.subResult m res x) (enterSubResult m res x) s

def execGroupArm (i : Init) (v : Word) (s : State) : Out := run (writeAct i false FCTR.GRP_ARM.ARM.a v actGrpArm) s

def execBookRun (i : Init) (v : Word) (s : State) : Out :=
  run (writeAct i false FCTR.BOOK_CTL.RUN.a v (fun _ => actBookCtl)) s

end Sys2Proof.Machine
end

