-- ==== Sys2Proof/Machine/Ce.lean ====
section
/-!
DEFINITION. The control engine (chapter 7): the loop law, port, cooling and general loops, soft start, short retries,
handover, the gain tables and auto-tune.
-/

namespace Sys2Proof.Machine

open Sys2Proof.Num

/-- A slot. -/
def slotOf (b : Blk) (i : Nat) : SlotSt := Tab.at' (fun _ => {}) b.ce.slots i

/-- Replace a slot. -/
def setSlot (i : Nat) (x : SlotSt) (b : Blk) : Blk :=
  { b with ce := { b.ce with slots := Tab.put (fun _ => {}) b.ce.slots i x } }

/-- A slot's kind and state. -/
def kindOf (b : Blk) (i : Nat) : Nat := rd b (CE.SLOT.CFG.KIND i)
def pstate (b : Blk) (i : Nat) : Nat := rd b (CE.SLOT.STATE.PSTATE i)
def setP (i p : Nat) (b : Blk) : Blk := wr b (CE.SLOT.STATE.PSTATE i) p

/-- A slot's period in µs (R144). -/
def slotT (b : Blk) (i : Nat) : Nat :=
  max 1 (if kindOf b i = 1 then rd b CE.PLOOP.PERIOD_US else rd b (CE.SLOT.CFG.PERIOD_US i))

/-- The number of the cycle in progress of a slot (R144). -/
def slotCycle (b : Blk) (i : Nat) : Nat := eFollow b / (slotT b i * 1000) % 2 ^ 32

/-- The integrator. -/
def slotI (b : Blk) (i : Nat) : Int := rdI b (CE.SLOT.INTEG.I i)

/-- The saturation timer and what it showed start anew (R151). -/
def clearSat (i : Nat) (b : Blk) : Blk :=
  wrB (wrB (wr b (CE.SLOT.SATTIM.SATTIM i) 0) (CE.SLOT.STATE.SAT i) false) (CE.SLOT.STATE.SAT_LONG i) false

/-- A slot becomes free. -/
def freeSlot (i : Nat) (b : Blk) : Blk :=
  let b := setSlot i {} (setP i 0 (wr (clearSat i b) (CE.SLOT.CFG.KIND i) 0))
  wr (wr b (CE.SLOT.BIND.TRUNK i) 31) (CE.SLOT.BIND.SITE_PORT i) 0

/-! The loop law (R148 to R151). -/

/-- The live gain table a loop may use: none where it is invalid or LUT is disabled (R169). -/
def tableOf (b : Blk) (t : Nat) : Option LutLive :=
  if enabled b pgLUT && (rd b LUT.LSTAT.VALID).testBit t then some (Tab.at' (fun _ => {}) b.ce.lut t) else none

/-- The gain table a slot's present cycle uses: the one live at its cycle start (R166, R169). -/
def slotTable (b : Blk) (i t : Nat) : Option LutLive := match (slotOf b i).lutHold with
  | some old => if enabled b pgLUT then old else none
  | none => tableOf b t

/-- A point of a table. -/
def LutLive.pt (l : LutLive) (j : Nat) : Nat × Nat × Nat := l.pts.getD j (0, 0, 0)

/-- The segment index moved up, `n` steps at most (R149). -/
def segUp (l : LutLive) (a : Nat) : Nat → Nat → Nat
  | 0, s => s
  | n + 1, s => if s + 2 < l.pts.length ∧ (l.pt (s + 1)).1 ≤ a then segUp l a n (s + 1) else s

/-- The segment index moved down, `n` steps at most (R149). -/
def segDown (l : LutLive) (a : Nat) : Nat → Nat → Nat
  | 0, s => s
  | n + 1, s => if 0 < s ∧ a + l.hys < (l.pt s).1 then segDown l a n (s - 1) else s

/-- Gains and segment for an error (R149). -/
def gains (l : LutLive) (s0 : Nat) (e : Int) : Int × Int × Nat :=
  let a := min e.natAbs 65535
  let s0 := min s0 (l.pts.length - 2)
  let s := segDown l a 16 (segUp l a 16 s0)
  let p := l.pt s
  let q := l.pt (s + 1)
  let x : Int := min (max a p.1) q.1
  let den : Int := (q.1 : Int) - p.1
  let kp := (p.2.1 : Int) + fdiv (((q.2.1 : Int) - p.2.1) * (x - p.1)) den
  let ki := (p.2.2 : Int) + fdiv (((q.2.2 : Int) - p.2.2) * (x - p.1)) den
  (kp, ki, s)

/-- The output with conditional integration (R150): (u, integrator, suppressed). -/
def piLaw (kp ki e int lo hi : Int) : Int × Int × Bool :=
  let p := fdiv (kp * e) 256
  let v := p + fdiv int 65536
  let stop := decide ((hi ≤ v ∧ 0 < e) ∨ (v ≤ lo ∧ e < 0))
  let n := if stop then int else int + ki * e
  let n := min (max n (lo * 65536)) (hi * 65536)
  let n := clamp (-2147483648) 2147483647 n
  (min (max (p + fdiv n 65536) lo) hi, n, stop)

/-- The saturation timer (R151): `lim` in cycles. Reaching the limit raises the event once; SAT_LONG shows a timer at or past
it (notes/assumptions/18.md). -/
def satBook (i lim : Nat) (sat : Bool) (b : Blk) : Blk :=
  if !sat then clearSat i b
  else
    let old := rd b (CE.SLOT.SATTIM.SATTIM i)
    let b := incSat (wrB b (CE.SLOT.STATE.SAT i) true) (CE.SLOT.SATTIM.SATTIM i)
    if lim ≤ old + 1 then
      when (decide (old < lim ∨ old = 0)) (raise pgCE 4) (wrB b (CE.SLOT.STATE.SAT_LONG i) true)
    else b

/-- One computation of a slot for an error between limits (R148 to R151, R169): the output, integrator and segment. -/
def loopLaw (i t : Nat) (e lo hi : Int) (lim : Nat) (b : Blk) : Blk :=
  let e := clamp (-32767) 32767 e
  let x := slotOf b i
  let b := wrI b (CE.SLOT.OUT.E i) e
  match slotTable b i t with
  | none =>
    let b := wrB b (CE.SLOT.STATE.SAT i) true
    if x.fresh && enabled b pgLUT then raise pgLUT 2 (setSlot i { x with fresh := false } b) else b
  | some l =>
    let g := gains l (rd b (CE.SLOT.STATE.SEG i)) e
    let r := piLaw g.1 g.2.1 e (slotI b i) lo hi
    let b := setSlot i { x with u := r.1.toNat, fresh := false } b
    let b := wrI (wr (wrU b (CE.SLOT.OUT.U i) r.1.toNat) (CE.SLOT.STATE.SEG i) g.2.2) (CE.SLOT.INTEG.I i) r.2.1
    satBook i lim r.2.2 b

/-! Port loops (R152 to R158). -/

/-- The DERATE of a stack group as the owner knows it (R153). -/
def derateOf (b : Blk) (k : Nat) : Nat :=
  if k / 3 = myPos b then rd b (FCTR.GRP_STAT.DERATE k) else Tab.at' (fun _ => 256) b.ce.derate k

/-- A group's ramp weight in 1/256 (R153). -/
def rampW (b : Blk) (k : Nat) : Nat :=
  let w := Tab.at' (fun _ => ({} : GrpW)) b.ce.weight k
  let full := 1000 * rd b TRUNK.TIMES.SHIFT_MS
  match w.mode with
  | 0 => 256
  | 1 => 256 - min 256 (256 * w.el / max 1 full)
  | 2 => 0
  | _ => min 256 (256 * w.el / max 1 full)

/-- The groups a trunk's loop commands. -/
def loopGroups (b : Blk) (t : Nat) : List Nat :=
  (List.range 12).filter fun k => (Tab.at' (fun _ => ({} : GrpW)) b.ce.weight k).trunk == t

/-- A group's limit (R153). -/
def grpLimit (b : Blk) (k : Nat) : Nat := rd b CE.PGAIN.GPK * derateOf b k * rampW b k / 65536

/-- A group's weight (R153). -/
def grpWeight (b : Blk) (k : Nat) : Nat := rd b (FCTR.GRP_RATE.I_RATE k) * derateOf b k * rampW b k / 65536

/-- OUT_MAX of a trunk's loop (R153). -/
def outMax (b : Blk) (t : Nat) : Nat := sumN ((loopGroups b t).map (grpLimit b))

/-- Hand a pool to groups, each up to its room, in order (R153): (group, weight, share, limit). -/
def handPool : Nat → List (Nat × Nat × Nat × Nat) → List (Nat × Nat)
  | _, [] => []
  | pool, (k, w, sh, lim) :: t =>
    let y := if w = 0 then 0 else min pool (lim - sh)
    (k, sh + y) :: handPool (pool - y) t

/-- The groups' shares of an output (R153). -/
def shares (b : Blk) (t u : Nat) : List (Nat × Nat) :=
  let l := (loopGroups b t).map fun k => (k, grpWeight b k, grpLimit b k)
  let w := sumN (l.map (·.2.1))
  if w = 0 then l.map fun e => (e.1, 0)
  else
    let s := l.map fun e => (e.1, e.2.1, min (u * e.2.1 / w) e.2.2, e.2.2)
    handPool (u - sumN (s.map (·.2.2.1))) s

/-- The ramps of a trunk's group weights move on by `us` µs. -/
def rampTick (t us : Nat) (b : Blk) : Blk :=
  forEach (loopGroups b t) (fun k b =>
    let w := Tab.at' (fun _ => ({} : GrpW)) b.ce.weight k
    let el := w.el + us
    let w' : GrpW := if w.mode = 3 ∧ 1000 * rd b TRUNK.TIMES.SHIFT_MS ≤ el then { w with mode := 0, el := 0 } else { w with el := el }
    let w' : GrpW := if w.mode = 1 ∧ k / 3 ≠ myPos b ∧ 1000 * rd b TRUNK.TIMES.SHIFT_MS ≤ el then
        { trunk := planTrunk b k, mode := 2 } else w'
    if w.mode = 1 ∨ w.mode = 3 then { b with ce := { b.ce with weight := Tab.put (fun _ => {}) b.ce.weight k w' } } else b) b

/-- A port loop's state changes; in shadow that of the loop handed over (R147). -/
def setState (i p : Nat) (b : Blk) : Blk :=
  if pstate b i = 6 then setSlot i { slotOf b i with under := p } b else setP i p b

/-- Soft start begins (R156): a port slot's law starts from zero, its targets not reached. -/
def softStart (i : Nat) (b : Blk) : Blk :=
  let x := slotOf b i
  let b := setSlot i
    { x with
      iRef := 0, vRef := 0, iHit := false, vHit := false, shortUs := 0, fresh := true, drop := false, dropFrom := 0,
      dropUs := 0, ramp := false, rampOut := 0, u := 0, misses := 0, under := 0 } b
  let b := wr (wr (wr b (CE.SLOT.INTEG.I i) 0) (CE.SLOT.OUT.U i) 0) (CE.SLOT.REF.I_REF i) 0
  setState i 1 (wr (wr b (CE.SLOT.REF.V_REF i) 0) (CE.SLOT.STATE.TGT_END i) 0)

/-- A placed loop awaits its first measurement to enter soft start (R156). -/
def awaitStart (i : Nat) (b : Blk) : Blk := setP i 0 (softStart i b)

/-- One reference moved towards its target by at most a step, all in 1/1000. -/
def slewTo (ref tgt step : Nat) : Nat :=
  if ref < tgt then min tgt (ref + step) else if tgt < ref then max tgt (ref - step) else ref

/-- The references slew (R154) from the targets of this cycle. -/
def slewRefs (i itgt : Nat) (b : Blk) : Blk :=
  let x := slotOf b i
  let t := rd b (CE.SLOT.BIND.TRUNK i)
  let vtgt := rd b (CE.SLOT.TGT.V_TGT i)
  let us := slotT b i
  let ir := slewTo x.iRef (1000 * itgt) (rd b (CE.PSLEW.I_SLEW t) * us)
  let vr := slewTo x.vRef (1000 * vtgt) (rd b (CE.PSLEW.V_SLEW t) * us)
  let b := setSlot i
    { x with
      iRef := ir, vRef := vr, iHit := x.iHit || decide (ir = 1000 * itgt),
      vHit := x.vHit || decide (vr = 1000 * vtgt) } b
  let b := wr b (CE.SLOT.TGT.I_TGT i) itgt
  let b := if ir = 1000 * itgt ∧ vr = 1000 * vtgt then wr b (CE.SLOT.STATE.TGT_END i) 1 else b
  wr (wr b (CE.SLOT.REF.I_REF i) (ir / 1000)) (CE.SLOT.REF.V_REF i) (vr / 1000)

/-- U and I go to zero. -/
def zeroOut (i : Nat) (b : Blk) : Blk :=
  wr (wr (setSlot i { slotOf b i with u := 0 } b) (CE.SLOT.OUT.U i) 0) (CE.SLOT.INTEG.I i) 0

/-- A short is detected (R158); past RETRY_MAX every group of K_t is shut down (R62). -/
def shortDetect (i : Nat) (b : Blk) : Blk :=
  let t := rd b (CE.SLOT.BIND.TRUNK i)
  let b := raise pgCE 1 (incSat (zeroOut i b) (CE.SLOT.STATE.RETRY i))
  let b := setSlot i { slotOf b i with shortUs := 0, coolUs := 1000 * rd b CE.SSTART.COOLOFF_MS } b
  if rd b CE.SSTART.RETRY_MAX < rd b (CE.SLOT.STATE.RETRY i) then
    let shadow := decide (pstate b i = 6)
    let b := setState i 5 b
    if shadow then b
    else
      let mask := rd b (FCTR.TRUNK_PLAN.GRP_MASK t)
      let b := forEach (bitsOf 12 mask) (fun k b => wrB b (FCTR.GRP_STAT.BLOCKED k) true) b
      tellFault (rd b (CE.SLOT.BIND.SITE_PORT i)) mask (raise pgCE 2 b)
  else setState i 4 b

/-- A ramp of the output to zero at I_SLEW begins or goes on (R18, R155). -/
def rampDown (i : Nat) (b : Blk) : Blk :=
  let x := slotOf b i
  let step := rd b (CE.PSLEW.I_SLEW (rd b (CE.SLOT.BIND.TRUNK i))) * slotT b i
  let out := if x.ramp then x.rampOut - step else 1000 * x.u - step
  let b := setSlot i { x with ramp := true, rampOut := out, u := out / 1000 } b
  setState i 3 (wrU b (CE.SLOT.OUT.U i) (out / 1000))

/-- A cycle without a measurement frame (R155). -/
def measMiss (i : Nat) (b : Blk) : Blk :=
  let x := slotOf b i
  let b := incSat (setSlot i { x with misses := x.misses + 1, shortUs := 0 } b) (CE.SLOT.CNT.MEAS_MISS i)
  if rd b CE.RT_WD.MEAS_LOSS ≤ x.misses + 1 ∧ !x.ramp then raise pgCE 5 (rampDown i b) else b

/-- The law of a port loop on a frame (R148, R152 to R158). -/
def portLaw (i : Nat) (m : MeasFrame) (b : Blk) : Blk :=
  let x := slotOf b i
  let t := rd b (CE.SLOT.BIND.TRUNK i)
  let soft := decide (pstate b i = 1 ∨ (pstate b i = 6 ∧ x.under = 1))
  let b := setSlot i { slotOf b i with iloc := m.iloc } b
  let b := if soft && x.fresh then setSlot i { slotOf b i with vRef := 1000 * m.v, iRef := 0 } b else b
  let b := slewRefs i (min x.grantI m.iloc) b
  let ir := rd b (CE.SLOT.REF.I_REF i)
  let vr := rd b (CE.SLOT.REF.V_REF i)
  let eI : Int := (ir : Int) - m.i
  let eV := fdiv (((vr : Int) - m.v) * rd b CE.PGAIN.KVI) 16
  let b := wrB b (CE.SLOT.STATE.CV i) (decide (eV < eI))
  let b := wrU b (CE.SLOT.LIM.OUT_MAX i) (outMax b t)
  let b := loopLaw i (rd b CE.PLOOP.TABLE) (min eI eV) 0 (outMax b t)
    (rd b CE.PLOOP.PSAT_MS * 1000 / slotT b i) b
  if !soft then b
  else
    let y := slotOf b i
    let us := if 600 ≤ vr ∧ m.v < vr * rd b CE.SSTART.SHORT_PCT / 100 then y.shortUs + slotT b i else 0
    let b := setSlot i { y with shortUs := us } b
    if 0 < us ∧ 1000 * rd b CE.SSTART.SHORT_MS ≤ us then shortDetect i b
    else if y.iHit && y.vHit then
      raise pgCE 0 (wr (setState i 2 b) (CE.SLOT.STATE.RETRY i) 0)
    else b

/-- The drop ramp (R267): N, and the output of its n-th release. -/
def dropN (b : Blk) (i : Nat) : Nat := (20000 + slotT b i - 1) / slotT b i

/-- A placed loop's first measurements (R156): soft start begins at once on a live trunk, on a dead one with the close check
of the first closing group, when a group of the trunk has weight. -/
def beginSoft (i : Nat) (m : MeasFrame) (b : Blk) : Blk :=
  if 600 ≤ m.v ∨ outMax b (rd b (CE.SLOT.BIND.TRUNK i)) ≠ 0 then portLaw i m (setState i 1 b) else b

/-- What a port loop computes on its cycle's frame, by the state it is in, or in shadow the state handed over (R147, R155 to
R158). -/
def portStep (i p : Nat) (m : MeasFrame) (b : Blk) : Blk := match p with
  | 0 => if (slotOf b i).fresh then beginSoft i m b else b
  | 1 => portLaw i m b
  | 2 => portLaw i m b
  | 3 => if (slotOf b i).ramp then rampDown i b else b
  | 4 => setSlot i { slotOf b i with coolUs := (slotOf b i).coolUs - slotT b i } b
  | _ => b

/-- The drop ramp begins with a frame that says DROP (R267). -/
def startDrop (i : Nat) (b : Blk) : Blk :=
  let x := slotOf b i
  let b := setSlot i { x with drop := true, dropFrom := x.rel, dropUs := 0, iRef := 0 } b
  setState i 3 (wr (wr b (CE.SLOT.INTEG.I i) 0) (CE.SLOT.REF.I_REF i) 0)

/-- The frame of the window just closed: one of another cycle has not arrived for this one (R155). -/
def cycleFrame (b : Blk) (i : Nat) : Option MeasFrame :=
  (slotOf b i).meas.filter fun m => m.cycle % 2 ^ 32 == slotCycle b i

/-- The state that governs a port loop: in shadow the one handed over (R147). -/
def govState (b : Blk) (i : Nat) : Nat := if pstate b i = 6 then (slotOf b i).under else pstate b i

/-- A port loop's computation (R145, R152 to R158, R166, R267); after a drop it soft-starts again only with the host side
present (R18). -/
def portCompute (i : Nat) (b : Blk) : Blk :=
  let x := slotOf b i
  let t := rd b (CE.SLOT.BIND.TRUNK i)
  let frame := cycleFrame b i
  let b := rampTick t (slotT b i) b
  let b := wr b (CE.SLOT.CYCLE.CYCLE i) (slotCycle b i)
  let b := match frame with
    | some m => wr (wr b (CE.SLOT.MEAS.V i) m.v) (CE.SLOT.MEAS.I i) m.i
    | none => b
  let b := setSlot i { slotOf b i with meas := none } b
  let p := govState b i
  if pfWarn b then wr (setSlot i { slotOf b i with u := 0 } b) (CE.SLOT.OUT.U i) 0
  else if (rd b TRUNK.TSTOP.STOPPED).testBit t then zeroOut i b
  else if pstate b i = 6 ∧ !x.handSnap then b
  else if x.drop then
    match frame with
    | some m => if x.dropUs ≥ dropN b i ∧ !m.drop ∧ !b.bar.hostLost then portLaw i m (softStart i b) else b
    | none => b
  else match frame with
    | none => if x.ramp then rampDown i b else if (p = 0 ∧ !x.fresh) ∨ p = 5 then b else measMiss i b
    | some m =>
      let b := setSlot i { slotOf b i with misses := 0 } b
      if m.drop then startDrop i b else if x.ramp then rampDown i b else portStep i p m b

/-- The digest of a slot's cycle (R150). -/
def digestOf (b : Blk) (i : Nat) : Nat :=
  Nat.xor ((slotOf b i).u * 65536) (ofInt 16 (fdiv (slotI b i) 65536))

/-- After an abort the old owner keeps the loop, and the groups keep accepting it (R80). -/
def restoreOwner (t : Nat) (b : Blk) : Blk :=
  let o := Tab.at' (fun _ => (0, 0, 0)) b.lanes.old t
  let b := if o.1 = 0 then b
    else wr (wr b (FCTR.TRUNK_PLAN.OWNER_POS t) (o.1 - 1)) (FCTR.TRUNK_PLAN.SLOT t) o.2.1
  let b := { b with lanes := { b.lanes with old := Tab.put (fun _ => (0, 0, 0)) b.lanes.old t (0, 0, 0) } }
  forEach (List.range 3) (fun g b =>
    if planTrunk b (gIdx b g) = t then setMod g { modOf b g with only := none } b else b) b

/-- A shadow owner gives up (R80): the abort goes to every device of the stack. -/
def handAbort (i : Nat) (b : Blk) : Blk :=
  let t := rd b (CE.SLOT.BIND.TRUNK i)
  let m : Msg := .handover t .abort
  raise pgFCTR 10 (restoreOwner t (freeSlot i (sendRt [0, 1, 2, 3] m (emit b m))))

/-- Two digests of one cycle are compared (R80). -/
def digestCheck (i : Nat) (b : Blk) : Blk :=
  let x := slotOf b i
  match x.digMine, x.digPeer with
  | some p, some q =>
    if p.1 = q.1 ∧ p.2 ≠ q.2 then handAbort i b else b
  | _, _ => b

/-- LOOP_COMPUTE of a port slot, with what a handover adds (R80). -/
def portCycle (i : Nat) (b : Blk) : Blk :=
  let b := portCompute i b
  let x := slotOf b i
  let k := slotCycle b i
  let t := rd b (CE.SLOT.BIND.TRUNK i)
  let sh := rd b FCTR.LOOP.SHADOW
  if x.hand = 2 ∧ cycAfter k ((x.handAt + 2 ^ 32 - sh) % 2 ^ 32) then
    toOwner t (.handover t (.digest k (digestOf b i))) (emit b (.handover t (.digest k (digestOf b i))))
  else if x.hand = 1 ∧ x.handSnap then
    digestCheck i (setSlot i { slotOf b i with digMine := some (k, digestOf b i) } b)
  else b

/-! Cooling and general loops (R159 to R162). -/

/-- The highest assayed temperature of a cooling loop's channels; none if no listed channel is valid (R160). -/
def coolInput (b : Blk) (n : Nat) : Option Int :=
  let chans := ([rd b (CE.COOL.CSNS.CH0 n), rd b (CE.COOL.CSNS.CH1 n), rd b (CE.COOL.CSNS.CH2 n),
    rd b (CE.COOL.CSNS.CH3 n)].filter fun c => decide (c < 64)).filter fun c => isOn b (THM.CHN.CSTAT.VALID c)
  match chans.map fun c => rdI b (THM.CHN.CVAL.VAL c) with
  | [] => none
  | y :: l => some (l.foldl max y)

/-- The LIMIT a port's hardware holds for a source: key n for SRC 2, 4 + n for SRC 1. -/
def limOf (b : Blk) (key : Nat) : Option Nat := Tab.at' (fun _ => none) b.ce.lims key

/-- The local current limit of a port (R152), shown in PLOC. -/
def iLoc (b : Blk) (n : Nat) : Nat :=
  let m := rd b (FCTR.PORT_LIM.I_CABLE (4 * myPos b + n))
  min (min m ((limOf b n).getD m)) ((limOf b (4 + n)).getD m)

/-- Enter or withdraw the LIMIT of a source (1 assay, 2 cooling) on a port of this device. -/
def putLim (n src : Nat) (l : Option Nat) (b : Blk) : Blk :=
  let key := if src = 2 then n else 4 + n
  let had := (limOf b key).isSome
  let b := { b with ce := { b.ce with lims := Tab.put (fun _ => none) b.ce.lims key l } }
  let b := wrB b (if src = 2 then CE.PLOC.DER_COOL n else CE.PLOC.DER_ASSAY n) l.isSome
  let b := wrU b (CE.PLOC.I_LOC n) (iLoc b n)
  let b := if had then hwWithdraw n src b else b
  match l with
  | some req => hwLimit n src req b
  | none => b

/-- A loop's request enters: at its first, at 0, and at a change of a sixteenth of the port's limit or more (R162). -/
def coolEnter (n lim req : Nat) (b : Blk) : Blk :=
  match limOf b n with
  | none => raise pgCE 10 (putLim n 2 (some req) b)
  | some old =>
    if (req = 0 ∧ old ≠ 0) ∨ (lim / 16 ≤ ((req : Int) - old).natAbs ∧ req ≠ old) then
      raise pgCE 10 (putLim n 2 (some req) b)
    else b

/-- The derate of a cooling loop at a temperature (R160, R162). -/
def coolDerate (n : Nat) (t : Option Int) (b : Blk) : Blk :=
  let lim := rd b (FCTR.PORT_LIM.I_CABLE (4 * myPos b + n))
  let tder := rdI b (CE.COOL.CDER.T_DER n)
  let tmax := rdI b (CE.COOL.CDER.T_MAX n)
  let lost := isOn b (CE.PLOC.INPUT_LOST n)
  let b := wrB b (CE.PLOC.INPUT_LOST n) t.isNone
  match t with
  | none => coolEnter n lim 0 b
  | some v =>
    if tder ≤ v then
      coolEnter n lim (if tmax ≤ v then 0 else (fdiv ((lim : Int) * (tmax - v)) (max 1 (tmax - tder))).toNat) b
    else if (limOf b n).isSome ∧ (v < tder - 20 ∨ lost) then raise pgCE 11 (putLim n 2 none b)
    else b

/-- A cooling loop's output drives the pump and the valve (R161). -/
def coolDrive (i n : Nat) (b : Blk) : Blk :=
  let u := (slotOf b i).u
  let mn := rd b (CE.COOL.COUT.PUMP_MIN n)
  let mx := rd b (CE.COOL.COUT.PUMP_MAX n)
  let p := rd b (CE.COOL.COUT.PUMP n)
  let v := rd b (CE.COOL.COUT.VALVE n)
  let b := if p < 48 then lswDrive p true (10 * (mn + u * (mx - mn) / 4095)) b else b
  if v < 48 then
    (if 2048 ≤ u then lswDrive v true 1000 b else if u < 1536 then lswDrive v false 1000 b else b)
  else b

/-- A general loop's output drives its channel (R354). -/
def genDrive (i : Nat) (b : Blk) : Blk :=
  let c := rd b (CE.SLOT.IO.OUT_CH i)
  let lo := rd b (CE.SLOT.LIM.OUT_MIN i)
  let hi := rd b (CE.SLOT.LIM.OUT_MAX i)
  if c < 48 then lswDrive c true (if hi ≤ lo then 0 else ((slotOf b i).u - lo) * 1000 / (hi - lo)) b else b

/-! Auto-tune (R163 to R165). -/

/-- The tune ends, restoring normal control from the frozen integrator (R164). -/
def tuneEnd (st cause : Nat) (b : Blk) : Blk :=
  let t := b.ce.tune
  let b := wr (wr b CE.TUNE_STAT.STATE st) CE.TUNE_STAT.CAUSE cause
  let b := if t.started then setP t.slot t.back b else b
  let b := { b with ce := { b.ce with tune := {} } }
  raise pgCE (if st = 2 then 8 else 9) b

/-- The results of a finished tune (R165). -/
def tuneResult (b : Blk) : Blk :=
  let t := b.ce.tune
  let cyc := max 1 (rd b CE.TUNE.CYC)
  let tu := t.sumT / cyc
  let amp := t.sumA / cyc
  let ku := 4 * rd b CE.TUNE.D * 256 * 10000 / (31416 * max 1 amp)
  let kp := ku * 45 / 100
  let ki := kp * 256 * 100 / (83 * max 1 tu)
  let b := wrU (wrU b CE.TUNE_RES.AMP amp) CE.TUNE_RES.TU tu
  let b := wrU (wrU (wrU b CE.TUNE_KU.KU ku) CE.TUNE_SUG.KP_SUG kp) CE.TUNE_SUG.KI_SUG ki
  tuneEnd 2 0 b

/-- One cycle of the slot under tune (R164): the relay, and the oscillations measured. -/
def tuneCycle (i : Nat) (e : Int) (b : Blk) : Blk :=
  let t := b.ce.tune
  let bias := rd b CE.TUNE_BIAS.BIAS
  let d := rd b CE.TUNE.D
  let hys : Int := rd b CE.TUNE_BIAS.HYS
  if 32000 < e.natAbs then tuneEnd 3 3 b
  else
    let high := if hys < e then true else if e < -hys then false else t.high
    let u := if hys < e then bias + d else if e < -hys then bias - d else (slotOf b i).u
    let edge := t.seen && high && !t.high
    let first := !t.seen && decide (hys < e)
    let t1 : TuneSt :=
      { t with started := true, u := u, high := high, seen := t.seen || first, cyc := t.cyc + 1, total := t.total + 1,
               hi := max t.hi e, lo := min t.lo e }
    let t2 : TuneSt := if first then { t1 with cyc := 0, hi := e, lo := e } else t1
    let t3 : TuneSt :=
      if edge then
        let n := t2.oscs + 1
        let keep := decide (2 < n)
        { t2 with
          oscs := n, sumT := if keep then t2.sumT + t2.cyc else t2.sumT,
          sumA := if keep then t2.sumA + ((t2.hi - t2.lo) / 2).toNat else t2.sumA, cyc := 0, hi := e, lo := e }
      else t2
    let b := { b with ce := { b.ce with tune := t3 } }
    let b := wrU (setSlot i { slotOf b i with u := u } b) (CE.SLOT.OUT.U i) u
    let b := wrI b (CE.SLOT.OUT.E i) e
    if edge ∧ 2 + rd b CE.TUNE.CYC ≤ t3.oscs then tuneResult b else b

/-- The tune starts at the next cycle of its slot: the integrator freezes (R164). -/
def tuneBegin (i : Nat) (b : Blk) : Blk :=
  let t := b.ce.tune
  if rd b CE.TUNE_STAT.STATE = 1 ∧ t.slot = i ∧ !t.started then
    let b := { b with ce := { b.ce with tune := { t with started := true, back := pstate b i } } }
    setP i 7 b
  else b

/-- What a SAT_LONG of a cooling or general loop does (R151). -/
def satAct (i : Nat) (b : Blk) : Blk :=
  if isOn b (CE.SLOT.STATE.SAT_LONG i) ∧ rd b (CE.SLOT.CFG.SAT_ACT i) = 1 ∧ pstate b i ≠ 5 then
    let lo := rd b (CE.SLOT.LIM.OUT_MIN i)
    setP i 5 (wr (setSlot i { slotOf b i with u := lo } b) (CE.SLOT.OUT.U i) lo)
  else b

/-- The input of a cooling or general loop now (R160). -/
def localInput (b : Blk) (i : Nat) : Option Int :=
  if kindOf b i = 2 then coolInput b (rd b (CE.SLOT.BIND.TRUNK i) % 4)
  else some (rdI b (THM.CHN.CVAL.VAL (rd b (CE.SLOT.IO.IN_CH i))))

/-- A cooling or general loop's computation on the input taken at its cycle start (R148 to R151, R160 to R164, R166): the
output drives its channels from the next cycle start (R145). -/
def localCompute (i : Nat) (b : Blk) : Blk :=
  let cool := decide (kindOf b i = 2)
  let n := rd b (CE.SLOT.BIND.TRUNK i) % 4
  let b := wr b (CE.SLOT.CYCLE.CYCLE i) (slotCycle b i)
  match (slotOf b i).inp with
  | none => b
  | some inp =>
    if pstate b i = 5 then b
    else
      let b := if cool then coolDerate n inp b else b
      let b := match inp with
        | some v => wrI b (CE.SLOT.MEAS.V i) v
        | none => b
      let lo : Nat := if cool then 0 else rd b (CE.SLOT.LIM.OUT_MIN i)
      let hi : Nat := if cool then 4095 else rd b (CE.SLOT.LIM.OUT_MAX i)
      let b := if cool then wr (wr b (CE.SLOT.LIM.OUT_MIN i) 0) (CE.SLOT.LIM.OUT_MAX i) 4095 else b
      match inp with
      | none => wrU (setSlot i { slotOf b i with u := hi } b) (CE.SLOT.OUT.U i) hi
      | some v =>
        let e := if cool then v - rdI b (CE.COOL.CCFG.T_SET n) else rdI b (CE.SLOT.IO.SET i) - v
        if pfWarn b then b
        else if pstate b i = 7 then tuneCycle i e b
        else satAct i (loopLaw i (rd b (CE.SLOT.CFG.TABLE i)) e lo hi (rd b (CE.SLOT.SAT.SAT_MS i) * 1000 / slotT b i) b)

/-- A cooling or general loop's cycle start (R145, R160, R166): the last output is released to its channels, held in a
power-fail warning; the input of the cycle is taken; a tune begins (R164). -/
def localStart (i : Nat) (b : Blk) : Blk :=
  let b := setSlot i { slotOf b i with rel := (slotOf b i).u, inp := some (localInput b i), lutHold := none } b
  let b := tuneBegin i b
  if pfWarn b then b
  else if kindOf b i = 2 then coolDrive i (rd b (CE.SLOT.BIND.TRUNK i) % 4) b
  else genDrive i b

/-- The slack of a computation before the next cycle start of a slot's period in µs is a probe (R479). -/
def loopSlack (i per : Nat) (b : Blk) : Blk :=
  let t := max 1 per * 1000
  probe true 2 (some i) ((t : Int) - eFollow b % t) b

/-- LOOP_COMPUTE (R145, R147). -/
def doLoopCompute (i : Nat) (b : Blk) : Blk :=
  match kindOf b i with
  | 0 => b
  | 1 => loopSlack i (rd b CE.PLOOP.PERIOD_US) (portCycle i b)
  | _ => loopSlack i (rd b (CE.SLOT.CFG.PERIOD_US i)) (localCompute i b)

/-! Cycle starts (R145). -/

/-- The port's device closes the measurement window of one of its ports and sends the frame (R145, R152, R267). -/
def sendMeas (n : Nat) (b : Blk) : Blk :=
  let w := Tab.at' (fun _ => ((0, 0, 0) : Int × Int × Nat)) b.ce.win n
  let b := { b with ce := { b.ce with win := Tab.put (fun _ => (0, 0, 0)) b.ce.win n (0, 0, 0) } }
  let b := wrU b (CE.PLOC.I_LOC n) (iLoc b n)
  if w.2.2 = 0 ∨ isOn b (SNS.SSTAT.FAULT n) ∨ isOn b (MTR.VCH.VCTL.OVR n) then b
  else
    let t := 4 * myPos b + n
    let v := satU 16 (rdiv w.1 w.2.2).toNat
    let i := satU 16 (rdiv w.2.1 w.2.2).toNat
    let drop := isOn b (VP.VSTAT.DROP n)
    let cyc := cycleNow b
    let m : MeasFrame := { cycle := cyc, v := v, i := i, iloc := iLoc b n, drop := drop }
    let f : Msg := .measFrame t cyc v i (iLoc b n % 2 ^ 15 + if drop then 2 ^ 15 else 0)
    let b := toOwner t f (emit b f)
    forEach (List.range 16) (fun s b =>
      if kindOf b s = 1 ∧ rd b (CE.SLOT.BIND.TRUNK s) = t then setSlot s { slotOf b s with meas := some m } b else b) b

/-- The output a port slot releases for this cycle (R145, R166, R267). -/
def nextOut (i : Nat) (b : Blk) : Blk :=
  let x := slotOf b i
  if pfWarn b then setSlot i { x with rel := 0 } b
  else if x.drop then
    let n := min (x.dropUs + 1) (dropN b i)
    let u := x.dropFrom * (dropN b i - n) / dropN b i
    wrU (setSlot i { x with rel := u, u := u, dropUs := n } b) (CE.SLOT.OUT.U i) u
  else setSlot i { x with rel := x.u } b

/-- A port slot sends its groups their references (R145, R153). -/
def sendCmd (i : Nat) (b : Blk) : Blk :=
  let b := nextOut i b
  let t := rd b (CE.SLOT.BIND.TRUNK i)
  let l := shares b t (slotOf b i).rel
  let mask := ofBits (l.map (·.1))
  let cyc := slotCycle b i
  let b := doGroupCommand cyc t mask (l.map (·.2)) (myPos b) b
  if l.isEmpty then b else toTrunks [t] (.cmdRt t cyc mask (l.map (·.2))) (emit b (.cmdRt t cyc mask (l.map (·.2))))

/-- The state handed over (R80), with all that the shadow's computations depend on (R147). -/
def snapOf (b : Blk) (i : Nat) : LoopSnap :=
  let x := slotOf b i
  { cycle := slotCycle b i, integ := slotI b i, iRef := x.iRef, vRef := x.vRef, seg := rd b (CE.SLOT.STATE.SEG i),
    satTim := rd b (CE.SLOT.SATTIM.SATTIM i), u := x.u, pstate := pstate b i, retry := rd b (CE.SLOT.STATE.RETRY i),
    coolUs := x.coolUs, drop := x.drop, dropFrom := x.dropFrom, dropN := x.dropUs, ramp := x.ramp, rampOut := x.rampOut,
    shortUs := x.shortUs, iHit := x.iHit, vHit := x.vHit }

/-- The targets of a plan come into force at the first cycle that starts at or after its adoption (R152, R154): a changed
I_tgt or V_tgt whose old value had not been reached is superseded. -/
def newTargets (i : Nat) (b : Blk) : Blk :=
  let x := slotOf b i
  match x.tgtNext with
  | none => b
  | some (amps, volts) =>
    let changed := decide (min x.grantI x.iloc ≠ min amps x.iloc ∨ rd b (CE.SLOT.TGT.V_TGT i) ≠ volts)
    let running := decide (1 ≤ pstate b i ∧ pstate b i ≤ 2) && !x.fresh
    let missed := changed && running && decide (rd b (CE.SLOT.STATE.TGT_END i) ≠ 1)
    let b := wr (setSlot i { x with grantI := amps, tgtNext := none } b) (CE.SLOT.TGT.V_TGT i) volts
    if missed then raise pgCE 3 (wr b (CE.SLOT.STATE.TGT_END i) 2)
    else if changed then wr b (CE.SLOT.STATE.TGT_END i) 0 else b

/-- A loop whose lost measurement has taken its output to zero issues no further command (R155). -/
def silentLoop (b : Blk) (i : Nat) : Bool :=
  let x := slotOf b i
  x.ramp && decide (x.u = 0 ∧ x.rel = 0)

/-- An ending loop is done once its output is at zero (R79, R166). -/
def loopDone (b : Blk) (i : Nat) : Bool :=
  let y := slotOf b i
  y.ending && decide (y.rel = 0) &&
    (decide (y.iRef = 0) || y.ramp || y.drop || (rd b TRUNK.TSTOP.STOPPED).testBit (rd b (CE.SLOT.BIND.TRUNK i)))

/-- A port slot's cycle start (R80, R145, R152). -/
def portStart (i : Nat) (b : Blk) : Blk :=
  let b := newTargets i (setSlot i { slotOf b i with lutHold := none } b)
  let x := slotOf b i
  let k := slotCycle b i
  let sh := rd b FCTR.LOOP.SHADOW
  let t := rd b (CE.SLOT.BIND.TRUNK i)
  if x.hand = 1 then
    (if cycAfter k x.handAt then
      (if x.handSnap then
        let b := setSlot i { x with hand := 0 } b
        sendCmd i (raise pgFCTR 9 (setP i x.under b))
      else handAbort i b)
    else if cycAfter k ((x.handAt + 2 ^ 32 - sh) % 2 ^ 32 + 1) ∧ !x.handSnap then handAbort i b
    else b)
  else
    let b := if x.hand = 2 ∧ !x.handSnap ∧ cycAfter k ((x.handAt + 2 ^ 32 - sh) % 2 ^ 32) then
        setSlot i { x with handSnap := true } (toOwner t (.handover t (.state (snapOf b i))) (emit b (.handover t (.state (snapOf b i)))))
      else b
    if x.hand = 2 ∧ cycAfter k x.handAt then freeSlot i b
    else
      let b := if silentLoop b i then b else sendCmd i b
      if loopDone b i then freeSlot i b else b

/-- LOOP_CYCLE_START: the slots whose cycle starts and the local ports whose window closes (R145). -/
def doCycleStart (slots ports : Nat) (b : Blk) : Blk :=
  let b := forEach (bitsOf 4 ports) sendMeas b
  forEach (bitsOf 16 slots) (fun i b =>
    match kindOf b i with
    | 0 => b
    | 1 => portStart i b
    | _ => localStart i b) b

/-- LOOP_DEADLINE_MISS (R146). -/
def doDeadlineMiss (i : Nat) (b : Blk) : Blk :=
  if kindOf b i = 0 then b
  else raise pgCE 7 (incSat (incSat (setSlot i { slotOf b i with u := (slotOf b i).rel } b) (CE.SLOT.CNT.DL_MISS i))
    CE.ENG_STAT.DL_MISS)

/-- COOLOFF_END (R158). -/
def doCooloffEnd (i : Nat) (b : Blk) : Blk :=
  if kindOf b i = 1 ∧ govState b i = 4 ∧ rd b (CE.SLOT.STATE.RETRY i) ≤ rd b CE.SSTART.RETRY_MAX then
    softStart i (setSlot i { slotOf b i with coolUs := 0 } b)
  else b

/-- MEASUREMENT_FRAME received for a trunk (R152). -/
def doMeasFrame (t : Nat) (m : MeasFrame) (b : Blk) : Blk :=
  let after := (eFollow b : Int) - (applyInstant b m.cycle - 2000)
  forEach (List.range 16) (fun s b =>
    if kindOf b s = 1 ∧ rd b (CE.SLOT.BIND.TRUNK s) = t then
      probe true 3 (some s) after (setSlot s { slotOf b s with meas := some m } b)
    else b) b

/-- GROUP_STATUS received (R100, R102, R153): a group's DERATE and how it stands on a trunk: 1 in the close check of a dead
trunk, 2 joined, 3 its transfer ended elsewhere, 0 nothing said. -/
def doGroupStatus (k derate t st : Nat) (b : Blk) : Blk :=
  let b := { b with ce := { b.ce with derate := Tab.put (fun _ => 256) b.ce.derate k derate } }
  let w := Tab.at' (fun _ => ({} : GrpW)) b.ce.weight k
  let b := if 2 ≤ st then
      { b with trunk := { b.trunk with
        ranks := b.trunk.ranks.filter fun e => e.1 != k || e.2.1 != t,
        leaving := Tab.put (fun _ => 16) b.trunk.leaving k 16 } }
    else b
  if w.mode ≠ 2 ∨ k / 3 = myPos b ∨ 16 ≤ t ∨ w.trunk ≠ t then b
  else if st = 1 then setWeight k t 0 b
  else if st = 2 then setWeight k t 3 b
  else b

/-- How a local group stands (R153): 1 in the close check of a dead trunk, 2 joined, else 0; with its trunk. -/
def grpPhase (b : Blk) (g : Nat) : Nat × Nat :=
  let x := xferOf b g
  let t := rd b (FCTR.GRP_STAT.TRUNK (gIdx b g))
  if x.step = 7 ∧ x.dead then (trunkOf b g x.dst, 1)
  else if x.step = 0 ∧ t < 16 then (t, 2)
  else if x.step = 0 then (planTrunk b (gIdx b g), 0)
  else (trunkOf b g x.dst, 0)

/-- The status message of a local group, to the owner of its trunk (R153). -/
def sendStatus (g : Nat) (b : Blk) : Blk :=
  let p := grpPhase b g
  let m : Msg := .grpStatus (gIdx b g) (rd b (FCTR.GRP_STAT.DERATE (gIdx b g))) p.1 p.2
  toOwner p.1 m (emit b m)

/-- GROUP_STATUS_SEND (R153). -/
def doGroupStatusSend (b : Blk) : Blk := forEach (List.range 3) sendStatus b

/-- The slot of a trunk's port loop; 16 none. -/
def slotFor' (b : Blk) (t : Nat) : Nat :=
  ((List.range 16).find? fun i => kindOf b i == 1 && rd b (CE.SLOT.BIND.TRUNK i) == t).getD 16

/-- HANDOVER received (R80). -/
def doHandover (t : Nat) (h : HandItem) (b : Blk) : Blk :=
  let i := slotFor' b t
  let x := slotOf b i
  match h with
  | .state s =>
    if i < 16 ∧ x.hand = 1 then
      let b := setSlot i
        { x with
          iRef := s.iRef, vRef := s.vRef, u := s.u, rel := s.u, coolUs := s.coolUs, drop := s.drop,
          dropFrom := s.dropFrom, dropUs := s.dropN, ramp := s.ramp, rampOut := s.rampOut, shortUs := s.shortUs,
          iHit := s.iHit, vHit := s.vHit, handSnap := true, under := s.pstate, fresh := false } b
      let b := wr (wrI b (CE.SLOT.INTEG.I i) s.integ) (CE.SLOT.STATE.SEG i) s.seg
      let b := wr (wr b (CE.SLOT.SATTIM.SATTIM i) s.satTim) (CE.SLOT.STATE.RETRY i) s.retry
      setP i 6 (wrU b (CE.SLOT.OUT.U i) s.u)
    else b
  | .digest c d =>
    if i < 16 ∧ x.hand = 1 then digestCheck i (setSlot i { x with digPeer := some (c, d) } b) else b
  | .abort =>
    let b := if i < 16 ∧ x.hand = 2 then
        raise pgFCTR 10 (setSlot i { x with hand := 0, handSnap := false } b)
      else b
    restoreOwner t b

/-! Gain tables (R169). -/

/-- The points of a shadow table. -/
def shadowPts (b : Blk) (t : Nat) : List (Nat × Nat × Nat) :=
  (List.range (rd b (LUT.TBL.NPTS t))).map fun j =>
    (rd b (LUT.PT.BP.BP (8 * t + j)), rd b (LUT.PT.GAIN.KP (8 * t + j)), rd b (LUT.PT.GAIN.KI (8 * t + j)))

/-- Breakpoints rise strictly. -/
def risingPts : List (Nat × Nat × Nat) → Bool
  | [] => true
  | [_] => true
  | p :: q :: t => decide (p.1 < q.1) && risingPts (q :: t)

/-- The shadow of a table is valid. -/
def shadowValid (b : Blk) (t : Nat) : Bool :=
  decide (2 ≤ rd b (LUT.TBL.NPTS t) ∧ rd b (LUT.TBL.NPTS t) ≤ 8) && risingPts (shadowPts b t)

/-- A running slot uses a table (R149, R169). -/
def slotUses (b : Blk) (i t : Nat) : Bool :=
  kindOf b i != 0 && (if kindOf b i = 1 then rd b CE.PLOOP.TABLE else rd b (CE.SLOT.CFG.TABLE i)) == t

/-- A write of COMMIT (R169): a slot's cycle in progress keeps the old table. -/
def actLutCommit (v : Nat) (b : Blk) : Blk :=
  if !enabled b pgLUT then b
  else forEach (bitsOf 8 v) (fun t b =>
    if shadowValid b t then
      let l : LutLive := { hys := rd b (LUT.TBL.HYS t), pts := shadowPts b t }
      let old := if (rd b LUT.LSTAT.VALID).testBit t then some (Tab.at' (fun _ => {}) b.ce.lut t) else none
      let b := forEach ((List.range 16).filter fun i => slotUses b i t && (slotOf b i).lutHold.isNone)
        (fun i b => setSlot i { slotOf b i with lutHold := some old } b) b
      let b := { b with ce := { b.ce with lut := Tab.put (fun _ => {}) b.ce.lut t l } }
      raise pgLUT 0 (wrBit b LUT.LSTAT.VALID t true)
    else raise pgLUT 1 b) b

/-- TUNE_GO (R163, R164). -/
def actTuneGo (v : Nat) (b : Blk) : Blk :=
  if !enabled b pgCE then b
  else if v.testBit 1 then (if rd b CE.TUNE_STAT.STATE = 1 then tuneEnd 3 2 b else b)
  else if v.testBit 0 then
    let b := { b with ce := { b.ce with tune := { slot := rd b CE.TUNE.SLOT } } }
    wr (wr b CE.TUNE_STAT.STATE 1) CE.TUNE_STAT.CAUSE 0
  else b

/-- TUNE_TIMEOUT (R164): no full oscillation has completed within 64 * (CYC + 2) * 16 cycles. -/
def doTuneTimeout (b : Blk) : Blk :=
  if rd b CE.TUNE_STAT.STATE = 1 ∧ b.ce.tune.oscs = 0 ∧ 64 * (rd b CE.TUNE.CYC + 2) * 16 ≤ b.ce.tune.total then
    tuneEnd 3 1 b
  else b

/-- An accepted write of a slot's CFG (R143, R151, R354): the loop starts, restarts or ends. -/
def actSlotCfg (i oldKind : Nat) (b : Blk) : Blk :=
  let k := kindOf b i
  let n := rd b (CE.SLOT.BIND.TRUNK i) % 4
  let chans := fun kind => (if kind = 2 then [rd b (CE.COOL.COUT.PUMP n), rd b (CE.COOL.COUT.VALVE n)]
    else if kind = 3 then [rd b (CE.SLOT.IO.OUT_CH i)] else []).filter (· < 48)
  let b := if k ≠ oldKind then forEach (chans oldKind) (fun c b => lswOwn 0 c (lswDrive c false 1000 b)) b else b
  if k = 0 then setP i 0 (setSlot i {} b)
  else
    let b := if k ≠ oldKind then forEach (chans k) (lswOwn k) b else b
    let b := clearSat i b
    if k ≠ oldKind ∨ pstate b i = 5 then
      let lo := if k = 2 then 0 else rd b (CE.SLOT.LIM.OUT_MIN i)
      setP i 2 (wr (wr (setSlot i { fresh := true, u := lo } b) (CE.SLOT.INTEG.I i) 0) (CE.SLOT.OUT.U i) lo)
    else b

def execLoopCycleStart (slots : BitVec 16) (ports : BitVec 4) (s : State) : Out :=
  run (gated pgCE fun b =>
    doCycleStart slots.toNat ports.toNat (when (decide (ports ≠ 0)) (ticketed 14 []) b)) s

def execLoopCompute (i : Fin 16) (s : State) : Out := run (gated pgCE (doLoopCompute i.val)) s

def execLoopDeadlineMiss (i : Fin 16) (s : State) : Out := run (gated pgCE (doDeadlineMiss i.val)) s

def execCooloffEnd (i : Fin 16) (s : State) : Out := run (gated pgCE (doCooloffEnd i.val)) s

def execLutCommit (i : Init) (v : Word) (s : State) : Out :=
  run (writeAct i false LUT.COMMIT.TBL.a v actLutCommit) s

def execTuneGo (i : Init) (s : State) : Out := run (writeAct i false CE.TUNE_GO.GO.a 1 actTuneGo) s

def execTuneAbort (i : Init) (s : State) : Out := run (writeAct i false CE.TUNE_GO.GO.a 2 actTuneGo) s

def execTuneTimeout (s : State) : Out := run (gated pgCE doTuneTimeout) s

def execGroupStatusSend (s : State) : Out := run (gated pgCE doGroupStatusSend) s

def enterMeasurementFrame (t : Fin 16) (cycle : BitVec 32) (v i word : BitVec 16) : Blk → Blk :=
  gated pgCE (doMeasFrame t.val
    { cycle := cycle.toNat, v := v.toNat, i := i.toNat, iloc := word.toNat % 2 ^ 15, drop := word.getLsbD 15 })

/-- A measurement frame of a cycle that is over is no timed input (R339): the active of a pair holds it as any other. -/
def execMeasurementFrame (t : Fin 16) (cycle : BitVec 32) (v i word : BitVec 16) (s : State) : Out :=
  let f := enterMeasurementFrame t cycle v i word
  if cycOlder cycle.toNat (cycleNow s.blk) then runIn 4 (.measurementFrame t cycle v i word) f s else run f s

def execGroupStatus (k : Fin 12) (derate : BitVec 16) (x : GroupPlace) (s : State) : Out :=
  run (gated pgCE (doGroupStatus k.val derate.toNat x.trunk.toNat x.phase.val)) s

def enterHandover (t : Fin 16) (h : HandItem) : Blk → Blk := gated pgCE (doHandover t.val h)

def execHandover (t : Fin 16) (h : HandItem) (s : State) : Out := runIn 3 (.handover t h) (enterHandover t h) s

end Sys2Proof.Machine
end

