-- ==== Sys2Proof/Machine/Factor.lean ====
section
/-!
DEFINITION. The Factor's clearings (R64 to R87): reports, bids, level one and level two, plans and their adoption, lost
peers, managers and stack masters.
-/

namespace Sys2Proof.Machine

open Sys2Proof.Num

/-! Reports (R64). -/

/-- The wear term of a coil in kW (R76, R111). -/
def wearOf (b : Blk) (c : Nat) : Nat :=
  let n := rd b (TRUNK.COIL.CFG.N_RATED c)
  let k := rd b FCTR.COST.K_WEAR
  if n = 0 then k else k * rd b (TRUNK.COIL.OPS.OPS c) / n

/-- The positions of the stack this device reaches by a live direct lane (R321). -/
def livePositions (b : Blk) : Nat :=
  ofBits (myPos b :: ((List.range 4).flatMap fun p => (rtLanesTo b p).map fun n => if 10 ≤ n then 4 + p else p))

/-- The loop slots reported free (R143); none on a degraded barrier (R431) or with the field side lost (R18). -/
def freeSlots' (b : Blk) : Nat :=
  if enabled b pgCE && mayPower b && !isOn b BAR.BSTAT.DEGRADED && !b.bar.fieldLost then
    ofBits ((List.range 16).filter fun i => kindOf b i == 0 && !(rd b CE.SLOT_RES.RES).testBit i)
  else 0

/-- This device's availability report (R64). -/
def ownReport (b : Blk) : Report :=
  let s := b.factor.snap
  { grps := (List.range 3).map fun g =>
      let k := gIdx b g
      { avail := grpAvail b g && !b.bar.fieldLost, blocked := isOn b (FCTR.GRP_STAT.BLOCKED k), xfer := isOn b (FCTR.GRP_STAT.XFER k),
        derate := rd b (FCTR.GRP_STAT.DERATE k), trunk := rd b (FCTR.GRP_STAT.TRUNK k),
        sinceMs := match (xferOf b g).closedAt with
          | some t => (b.time.clk - t) / 1000000
          | none => 2 ^ 32 - 1 },
    wear := (List.range 24).map (wearOf b), slots := freeSlots' b, pFeed := s.1, pPort := s.2.1, eInt := s.2.2.1,
    intId := s.2.2.2 % 65536, lanes := livePositions b,
    coils := if b.factor.differs then 0 else
      ofBits ((bitsOf 24 (rd b TRUNK.COIL_EN.EN)).filter fun c => !isOn b (TRUNK.COIL.STAT.FAIL_CLOSE c)),
    withheld := ofBits ((List.range 4).filter fun n => withheld b (sitePort b 0 + 4 * myPos b + n)) }

/-- A report is stored, its device present (R67, R83): one that comes after BID_DEADLINE counts from the next cut. -/
def storeReport (pos : Nat) (r : Report) (b : Blk) : Blk :=
  let f := b.factor
  let mgr := decide (rd b SYS.MODE.ROLE = 2)
  let was := pos == myPos b || (if mgr then hasRep b pos || f.inbox.any fun e => e.1 == pos
    else (rd b FCTR.PEERS.PRESENT).testBit pos)
  let b := if f.bidDone then { b with factor := { f with inbox := f.inbox ++ [(pos, r)] } }
    else { b with factor := { f with
      reports := Tab.put (fun _ => {}) f.reports pos r, newReports := f.newReports ||| 2 ^ pos } }
  let b := if mgr then b else wr b FCTR.PEERS.PRESENT (rd b FCTR.PEERS.PRESENT ||| 2 ^ pos)
  if was then b else raise pgFCTR 4 b

/-- This device runs level two. -/
def runsTwo (b : Blk) : Bool := isMaster b || b.factor.isolated

/-- The manager, or an isolated member its stack master, is regained: from this cut the site is joined (R87). -/
def deviceReturns (b : Blk) : Blk :=
  if !b.factor.regain then b
  else
    let f := b.factor
    let b := wr { b with factor := { f with regain := false } } SYS.MODE.SITE_STATE 1
    if f.isolated then { b with factor := { b.factor with isolated := false, reports := [], inbox := [], frame := none } }
    else raise pgFCTR 7 b

/-- A period begins: what came for the last clearing is done with, late reports are the previous ones (R67). -/
def newPeriod (b : Blk) : Blk :=
  let f := b.factor
  { b with factor := { f with
      reports := f.inbox.foldl (fun m e => Tab.put (fun _ => {}) m e.1 e.2) f.reports, inbox := [], newReports := 0,
      newBids := 0, frameNew := false, bidDone := false, grantLate := false, planLate := false, cutAt := b.time.clk } }

/-- The snapshot of a cut (R55, R70): the book, and the demand interval on the DMD page. -/
def cutSnap (b : Blk) : Blk :=
  { b with factor := { b.factor with
      cutBook := b.factor.book,
      cutDmd := (rd b DMD.T_REM.MS, rd b DMD.LIM.KW, rd b DMD.T_INT.MS, rd b DMD.INT_NUM.NUM) } }

/-- CLEARING_CUT (R53, R61, R64): every boundary counts; a manager with RUN = 0 runs no clearing. -/
def doCut (b : Blk) : Blk :=
  let b := deviceReturns (newPeriod (incWrap b FCTR.CLR_NUM.CLR_NUM))
  let b := if isManager b && !isOn b FCTR.BOOK_CTL.RUN then b else cutSnap (bookCut b)
  let r := ownReport b
  if runsTwo b then storeReport (myPos b) r b else toPos 0 2 (.report (myPos b) r) (emit b (.report (myPos b) r))

/-! Level two's view of a stack. -/

/-- A group of the stack as reported (R64): its report, of a device present. -/
def grpRep (b : Blk) (k : Nat) : GrpRep :=
  ((Tab.at' (fun _ => ({} : Report)) b.factor.reports (k / 3)).grps).getD (k % 3) {}

/-- A group may be assigned: present, available, not blocked (R68). -/
def usable (b : Blk) (k : Nat) : Bool := hasRep b (k / 3) && (grpRep b k).avail && !(grpRep b k).blocked

/-- The reach slot of a group to a trunk with its coil enabled; 8 none (R94). -/
def repSlot (b : Blk) (k t : Nat) : Nat :=
  ((List.range 8).find? fun r =>
    reachTrunk b k r == t && (repOf b (k / 3)).coils.testBit (8 * (k % 3) + r)).getD 8

/-- A group can feed a trunk (R94, R321). -/
def reaches (b : Blk) (k t : Nat) : Bool :=
  decide (repSlot b k t < 8) && (decide (k / 3 = t / 4) || (repOf b (k / 3)).reaches (t / 4))

/-- The capacity of a group at a voltage in kW (R54). -/
def capOf (b : Blk) (k v : Nat) : Nat :=
  let p := rd b (FCTR.GRP_RATE.P_RATE k)
  let i := rd b (FCTR.GRP_RATE.I_RATE k)
  if p = 0 ∨ i = 0 then 0 else min (p * (grpRep b k).derate / 256) (kwOf i v)

/-- The trunk a group is on, or moves to, before this plan; 16 none (R73 to R75). -/
def standing (b : Blk) (k : Nat) : Nat :=
  let r := grpRep b k
  if !hasRep b (k / 3) then 16
  else if r.xfer then (b.factor.plan.dest.getD k {}).trunk
  else if r.trunk < 16 then r.trunk else 16

/-- The V_EFF of a trunk's port; 0 where it has no open DRAW. -/
def trunkVeff (b : Blk) (t : Nat) : Nat := vEff b (sitePort b t)

/-- The wear cost of a group's coil to a trunk (R76). -/
def wearCost (b : Blk) (k t : Nat) : Nat := (repOf b (k / 3)).wear.getD (8 * (k % 3) + repSlot b k t) 0

/-- Whether a group's dwell is met (R68). -/
def dwellMet (b : Blk) (k : Nat) : Bool := decide (rd b FCTR.DWELL.DWELL_MS ≤ (grpRep b k).sinceMs)

/-- A port with an open PIN. -/
def pinned (b : Blk) (t : Nat) : Bool := (openOrder b (sitePort b t) 3).isSome

/-- The groups of a trunk under an assignment that count towards its capacity (R73). -/
def kSet (b : Blk) (as : List Nat) (t : Nat) : List Nat :=
  (List.range 12).filter fun k => as.getD k 16 == t && usable b k && reaches b k t

/-- Connected capacity of a trunk under an assignment. -/
def kCap (b : Blk) (as : List Nat) (t : Nat) : Nat := sumN ((kSet b as t).map fun k => capOf b k (trunkVeff b t))

/-- The device that holds most groups of a trunk; on a tie the owner, else the lowest position (R74). -/
def homeOf (b : Blk) (ks : List Nat) (t : Nat) : Nat :=
  let cnt := fun p => (ks.filter fun k => k / 3 == p).length
  let own := if isOn b (FCTR.TRUNK_PLAN.OWNED t) then rd b (FCTR.TRUNK_PLAN.OWNER_POS t) else 4
  (bestBy (fun x y => decide (cnt y < cnt x ∨ (cnt x = cnt y ∧ x = own ∧ y ≠ own))) (List.range 4)).getD 0

/-- The voltage at which M_KW counts a group (R65): that of the trunk it now feeds, or 1,250 V where it feeds none or the
trunk's port has no V_EFF (notes/assumptions/20.md). -/
def feedV (b : Blk) (k : Nat) : Nat :=
  let t := (grpRep b k).trunk
  if t < 16 ∧ trunkVeff b t ≠ 0 then trunkVeff b t else 12500

/-- The groups whose reports are missing (R67). -/
def missingReports (b : Blk) : Nat :=
  ((List.range 4).filter fun p => hasRep b p && !b.factor.newReports.testBit p).length

/-- A bid of this stack (R65). -/
def makeBid (b : Blk) : Bid :=
  let ks := (List.range 12).filter (usable b)
  let reps := (List.range 4).filter (hasRep b)
  let as := (List.range 12).map (standing b)
  let cap := fun t =>
    let v := trunkVeff b t
    let l := ((ks.filter fun k => reaches b k t).map fun k => capOf b k v)
    min (sumN ((sortBy (fun x y => decide (y ≤ x)) l).take 8)) (kwOf 30000 v)
  { clr := rd b FCTR.CLR_NUM.CLR_NUM, stack := sitePort b 0 / 16,
    flags := b2n (decide (missingReports b ≠ 0)) + 2 * b2n (decide (2 ≤ rd b SYS.MODE.SITE_STATE)),
    intId := (repOf b (myPos b)).intId,
    mKw := sumN (ks.map fun k => capOf b k (feedV b k)),
    trunkCap := (List.range 16).map cap,
    pPort := sumI (reps.map fun p => (repOf b p).pPort), pFeed := sumI (reps.map fun p => (repOf b p).pFeed),
    eInt := sumN (reps.map fun p => (repOf b p).eInt),
    realised := (List.range 16).map fun t =>
      sumN (((kSet b as t).filter fun k => !(grpRep b k).xfer).map fun k => capOf b k (trunkVeff b t)),
    lims := (List.range 16).map fun t => rd b (FCTR.PORT_LIM.I_CABLE t),
    noGrant := ofBits ((List.range 16).filter (portWithheld b)),
    absent := ofBits ((List.range 16).filter (portAbsent b)) }

/-- The bid on the wire (R65): 88 bytes. -/
def bidFrame (x : Bid) : List Byte :=
  le 4 x.clr ++ le 1 x.stack ++ le 1 x.flags ++ le 2 x.intId ++ le 4 x.mKw ++
    (List.range 16).flatMap (fun t => le 2 (satU 16 (x.trunkCap.getD t 0))) ++ le 4 (ofInt 32 x.pPort) ++
    le 4 (ofInt 32 x.pFeed) ++ le 4 x.eInt ++ (List.range 16).flatMap fun t => le 2 (satU 16 (x.realised.getD t 0))

/-- A number of a frame: `n` bytes from byte `i` on. -/
def frameLE (f : List Byte) (i n : Nat) : Nat := ofLE ((f.drop i).take n)

/-- The bid a frame holds (R65), with what came beside it. -/
def bidFrom (f : List Byte) (lims : List Nat) (noGrant absent : Nat) : Bid :=
  { clr := frameLE f 0 4, stack := frameLE f 4 1, flags := frameLE f 5 1, intId := frameLE f 6 2, mKw := frameLE f 8 4,
    trunkCap := (List.range 16).map fun t => frameLE f (12 + 2 * t) 2, pPort := toInt 32 (frameLE f 44 4),
    pFeed := toInt 32 (frameLE f 48 4), eInt := frameLE f 52 4,
    realised := (List.range 16).map fun t => frameLE f (56 + 2 * t) 2, lims := lims, noGrant := noGrant, absent := absent }

/-- The message a bid travels in. -/
def bidMsg (x : Bid) : Msg := .bid (bidFrame x) x.lims x.noGrant x.absent

/-- The reach map names a group whose device is absent (R89, R92). -/
def namesAbsent (b : Blk) : Bool :=
  (List.range 12).any fun k => !hasRep b (k / 3) && (List.range 8).any fun r => decide (reachTrunk b k r < 16)

/-- A bid is stored on the manager (R65, R83). -/
def storeBid (bd : Bid) (b : Blk) : Blk :=
  let s := bd.stack
  let was := (rd b FCTR.PEERS.PRESENT).testBit s
  let b := { b with factor := { b.factor with
    bids := Tab.put (fun _ => {}) b.factor.bids s bd, newBids := b.factor.newBids ||| 2 ^ s } }
  let b := wr (wrU b (FCTR.ROW.STK_BID.M_KW s) bd.mKw) (FCTR.ROW.STK_AGE.AGE s) 0
  if rd b SYS.MODE.ROLE = 2 then
    let b := wr b FCTR.PEERS.PRESENT (rd b FCTR.PEERS.PRESENT ||| 2 ^ s)
    if was then b else raise pgFCTR 4 b
  else b

/-- BID_DEADLINE (R53, R64, R67): reports that come later do not count in this clearing. -/
def doBidDeadline (b : Blk) : Blk :=
  if !runsTwo b || !isOn b FCTR.BOOK_CTL.RUN then b
  else
    let bd := makeBid (atCut b)
    let n := missingReports b
    let b := wrU { b with factor := { b.factor with bidDone := true } } FCTR.CLR_STAT.STALE n
    let b := when (decide (0 < n)) (raise pgFCTR 2) b
    let b := when (!b.factor.isolated && namesAbsent b) (raise pgFCTR 13) b
    if isManager b || b.factor.isolated then storeBid bd b else toManager (bidMsg bd) (emit b (bidMsg bd))

/-! Level one (R68 to R73). -/

/-- A port in level one: site port, class, demand, floor, weight, SEQ of its DRAW, cap, granted before, share. -/
structure LPort where
  p : Nat
  cls : Nat
  d : Nat
  f : Nat
  w : Nat
  seq : Nat
  cap : Nat
  prev : Bool
  x : Nat := 0
  admitted : Bool := false
deriving DecidableEq, Repr

/-- The stacks that take part: solo and isolated devices their own; the manager those expected and present. -/
def stacksIn (b : Blk) : List Nat :=
  if rd b SYS.MODE.ROLE = 2 then
    (List.range 16).filter fun s => (rd b FCTR.PEERS.PRESENT).testBit s &&
      (s == 0 || isOn b (FCTR.ROW.STK_CFG.PRESENT s))
  else [sitePort b 0 / 16]

/-- The grant a port had before a clearing (R71): on the manager and a solo device the last level one's, on a stack master
the frame's in force, on a member just isolated the plan's. -/
def prevKw (b : Blk) (p : Nat) : Nat :=
  if isManager b then (Tab.at' (fun _ => (0, 0)) b.factor.grants p).1
  else match b.factor.frame with
    | some f => f.grants.getD (p % 16) 0
    | none => (b.factor.plan.trunks.getD (p % 16) {}).kw

/-- The ports of the clearing. -/
def levelPorts (b : Blk) : List LPort :=
  (stacksIn b).flatMap fun s => (List.range 16).filterMap fun t =>
    let p := 16 * s + t
    match openOrder b p 1 with
    | none => none
    | some k =>
      let o := orderOf b k
      let df := demandOf b p
      if df.1 = 0 ∨ !servable b p ∨ (b.factor.isolated ∧ !ownPort b p) then none
      else some
        { p := p, cls := o.req.cls, d := df.1, f := df.2, w := o.req.weight, seq := o.seq,
          cap := (bidOf b s).trunkCap.getD t 0, prev := decide (prevKw b p ≠ 0) }

/-- The constraints of a port: the site at 0, its feed at 1 + f, its stack at 17 + s. -/
def consOf (b : Blk) (p : Nat) : List Nat :=
  [0, 1 + rd b (FCTR.ROW.STK_CFG.FEED (p / 16)), 17 + p / 16]

/-- The largest power cap that leaves a constraint free. -/
def noLimit : Nat := 2 ^ 40

/-- C_port and what it is made of (R70), with T_rem, D_lim, T_int and the interval number of the cut: (P_allow, P_ovh,
C_port, site cap lowered). -/
def portCap (b : Blk) : Nat × Nat × Nat × Bool :=
  let bids := (stacksIn b).map (bidOf b)
  let d := b.factor.cutDmd
  let trem := max d.1 (rd b FCTR.BOOK_CTL.PERIOD)
  let e := sumN ((bids.filter fun x => x.intId == d.2.2.2 % 65536).map fun x => x.eInt)
  let allow := (fdiv ((d.2.1 : Int) * d.2.2.1 - (e : Int) * 3600) trem).toNat
  let ovh := (sumI (bids.map fun x => x.pFeed) - sumI (bids.map fun x => x.pPort)).toNat
  let site := rd b FCTR.SITE_CAP.CAP_KW
  let net : Int := (allow : Int) - rd b FCTR.MARGIN.MARGIN_KW
  (allow, ovh, (min (site : Int) net - ovh).toNat, decide (net < site))

/-- The slacks at the start of level one, by constraint (R68, R84). -/
def slacks0 (b : Blk) (c : Nat) (island : Bool) : List Nat :=
  (List.range 33).map fun j =>
    if j = 0 then c
    else if j < 17 then
      if island ∨ rd b SYS.MODE.ROLE ≠ 2 then noLimit
      else
        let f := j - 1
        let ss := (stacksIn b).filter fun s => rd b (FCTR.ROW.STK_CFG.FEED s) == f
        let ovh := (sumI (ss.map fun s => (bidOf b s).pFeed) - sumI (ss.map fun s => (bidOf b s).pPort)).toNat
        rd b (FCTR.ROW.FEED_CAP.FEED_KW f) - ovh
    else (bidOf b (j - 17)).mKw

/-- Take power from the slacks of a port's constraints. -/
def useSlack (cs : List Nat) (y : Nat) (sl : List Nat) : List Nat :=
  sl.mapIdx fun j s => if cs.contains j then s - y else s

/-- The least slack over a port's constraints. -/
def slackOver (cs : List Nat) (sl : List Nat) : Nat := cs.foldl (fun m j => min m (sl.getD j 0)) noLimit

/-- Floors of a class's ports in order (R71). -/
def allotPorts (b : Blk) : List LPort → List Nat → List LPort × List Nat
  | [], sl => ([], sl)
  | q :: t, sl =>
    let cs := consOf b q.p
    if min q.d q.cap < q.f ∨ slackOver cs sl < q.f then
      let r := allotPorts b t sl
      (q :: r.1, r.2)
    else
      let r := allotPorts b t (useSlack cs q.f sl)
      ({ q with admitted := true } :: r.1, r.2)

/-- The order in which floors are taken within a class (R71). -/
def floorOrder (l : List LPort) : List LPort :=
  sortBy (fun x y => decide ((x.prev ∧ !y.prev) ∨ (x.prev = y.prev ∧ x.seq ≤ y.seq))) l

/-- What a port may still be given above its floor (R72). -/
def LPort.room (q : LPort) : Nat := min q.d q.cap - q.f - q.x

/-- Give each port of a list its step, in order, within slacks (R72). -/
def giveAll (b : Blk) (y : LPort → List Nat → Nat) : List LPort → List Nat → List LPort × List Nat
  | [], sl => ([], sl)
  | q :: t, sl =>
    let n := y q sl
    let r := giveAll b y t (useSlack (consOf b q.p) n sl)
    ({ q with x := q.x + n } :: r.1, r.2)

/-- Sharing above the floors within one class (R72), `n` passes at most: the ports done and the slacks. -/
def shareClass (b : Blk) (clr : Nat) : Nat → List LPort → List Nat → List LPort × List Nat
  | 0, act, sl => (act, sl)
  | n + 1, act, sl =>
    let full := act.filter fun q => q.room == 0
    let act := act.filter fun q => q.room != 0
    if act.isEmpty then (full, sl)
    else
      let wsum := fun j => sumN ((act.filter fun q => (consOf b q.p).contains j).map fun q => q.w)
      let lim := (List.range 33).foldl (fun m j => if wsum j = 0 then m else min m (sl.getD j 0 / wsum j)) noLimit
      if lim = 0 then
        let tight := fun q : LPort => (consOf b q.p).any fun j => decide (sl.getD j 0 / wsum j = 0)
        let key := fun q : LPort => (q.p + 256 - clr % 256) % 256
        let bs := sortBy (fun x y => decide (key x ≤ key y)) (act.filter tight)
        let r := giveAll b (fun q s => min q.w (min q.room (slackOver (consOf b q.p) s))) bs sl
        let r2 := shareClass b clr n (act.filter fun q => !tight q) r.2
        (full ++ r.1 ++ r2.1, r2.2)
      else
        let r := giveAll b (fun q _ => min (lim * q.w) q.room) act sl
        let r2 := shareClass b clr n r.1 r.2
        (full ++ r2.1, r2.2)

/-- All floors, class by class (R71). -/
def admitAll (b : Blk) (ps : List LPort) : Nat → List Nat → List LPort × List Nat
  | 0, sl => ([], sl)
  | n + 1, sl =>
    let c := 8 - (n + 1)
    let r := allotPorts b (floorOrder (ps.filter fun q => q.cls == c)) sl
    let r2 := admitAll b ps n r.2
    (r.1 ++ r2.1, r2.2)

/-- All sharing, class by class (R72). -/
def shareAll (b : Blk) (clr : Nat) (ps : List LPort) : Nat → List Nat → List LPort × List Nat
  | 0, sl => ([], sl)
  | n + 1, sl =>
    let c := 8 - (n + 1)
    let r := shareClass b clr 512 (ps.filter fun q => q.cls == c && q.admitted) sl
    let r2 := shareAll b clr ps n r.2
    (r.1 ++ (ps.filter fun q => q.cls == c && !q.admitted) ++ r2.1, r2.2)

/-- Substitute the bids that are missing (R67). -/
def staleBids (b : Blk) : Blk :=
  let l := (stacksIn b).filter fun s => !b.factor.newBids.testBit s
  let b := forEach l (fun s b => incSat b (FCTR.ROW.STK_AGE.AGE s)) b
  if l.isEmpty then b else raise pgFCTR 2 (wrU b FCTR.CLR_STAT.STALE (missingReports b + l.length))

/-- The shares of a clearing's ports (R71, R72): the ports done and the slacks left. -/
def sharesOf (b : Blk) (c : Nat) (island : Bool) : List LPort × List Nat :=
  let r := admitAll b (levelPorts b) 8 (slacks0 b c island)
  shareAll b (rd b FCTR.CLR_NUM.CLR_NUM) r.1 8 r.2

/-- The grant of a port of level one in kW. -/
def LPort.grant (q : LPort) : Nat := if q.admitted then q.f + q.x else 0

/-- The grants by site port, in kW and in 0.1 A at V_EFF (R54, R73). -/
def grantTab (b : Blk) (l : List LPort) : Tab (Nat × Nat) :=
  l.foldl (fun m q => Tab.put (fun _ => (0, 0)) m q.p (q.grant, min 30000 (ampsOf q.grant (vEff b q.p)))) []

/-- The reasons by site port (R57, R71, R83). -/
def reasonTab (b : Blk) (g : Tab (Nat × Nat)) : Tab Nat :=
  ((stacksIn b).flatMap fun s => (List.range 16).map fun t => 16 * s + t).foldl
    (fun m p => Tab.put (fun _ => 0) m p (portReason b p (Tab.at' (fun _ => (0, 0)) g p).1 false)) []

/-- Whether a feed left a port with less than it asked for (R89). -/
def feedBound (b : Blk) (l : List LPort) (sl : List Nat) : Bool :=
  l.any fun q =>
    let left := sl.getD (1 + rd b (FCTR.ROW.STK_CFG.FEED (q.p / 16))) 0
    if q.admitted then decide (q.room ≠ 0 ∧ left < q.w) else decide (q.f ≤ min q.d q.cap ∧ left < q.f)

/-- Level one (R70 to R73, R84, R85), on the snapshot of the cut: the grants by site port and their reasons. -/
def levelOne (island : Bool) (b : Blk) : Blk :=
  let b := if island then b else staleBids b
  let a := atCut b
  let pc := portCap a
  let c := if island then rd b FCTR.ISLAND.ISLAND_KW else pc.2.2.1
  let b := if island then b else wrU (wrU b FCTR.P_ALLOW.P_ALLOW pc.1) FCTR.P_OVH.P_OVH pc.2.1
  let b := wrU b FCTR.CAP_EFF.CAP_EFF c
  let b := when (!island && pc.2.2.2) (raise pgFCTR 11) b
  let r := sharesOf a c island
  let gr := grantTab a r.1
  let b := when (feedBound a r.1 r.2) (raise pgFCTR 12) b
  let b := wrU b FCTR.GRANTED.GRANTED (sumN (gr.map fun e => e.2.1))
  { b with factor := { b.factor with grants := gr, reasons := reasonTab a gr } }

/-- The grant frame of a stack (R66). -/
def frameFor (b : Blk) (s : Nat) : GrantFrame :=
  let g := (List.range 16).map fun t => (Tab.at' (fun _ => (0, 0)) b.factor.grants (16 * s + t)).1
  { clr := rd b FCTR.CLR_NUM.CLR_NUM, stack := s, seqCut := rd b BOOK.SEQ_CUT.SEQ_CUT, budget := sumN g, grants := g }

/-! Level two (R74 to R79, R82). -/

/-- The capacity below which a trunk gives no group up (R74, R75). -/
def keepKw (b : Blk) (g : Nat) : Nat := (g * (100 + rd b FCTR.DWELL.HYST_PCT) + 99) / 100

/-- A group of a trunk's set is more than its grant needs (R74). -/
def surplus (b : Blk) (as : List Nat) (t g k : Nat) : Bool :=
  g == 0 || decide (keepKw b g ≤ kCap b as t - capOf b k (trunkVeff b t))

/-- Surplus groups of a trunk are released in order while enough capacity remains (R74). -/
def releaseFrom (b : Blk) (t g : Nat) : List Nat → List Nat → List Nat
  | [], as => as
  | k :: l, as =>
    if dwellMet b k && surplus b as t g k then releaseFrom b t g l (as.set k 16)
    else releaseFrom b t g l as

/-- The order in which a trunk's groups are released (R74). -/
def releaseOrder (b : Blk) (t : Nat) (as : List Nat) : List Nat :=
  let home := homeOf b (kSet b as t) t
  sortBy (fun x y =>
    let hx := decide (x / 3 = home)
    let hy := decide (y / 3 = home)
    (!hx && hy) || (hx == hy && (decide (wearCost b y t < wearCost b x t) ||
      (wearCost b x t == wearCost b y t && decide (y ≤ x))))) ((kSet b as t).filter fun k => !(grpRep b k).xfer)

/-- The release of a trunk (R74). -/
def releaseTrunk (b : Blk) (t g : Nat) (as : List Nat) : List Nat :=
  if pinned b t then as else releaseFrom b t g (releaseOrder b t as) as

/-- A release that only a dwell or a PIN stops, in the order of the releases (R74, R89). -/
def releaseBlocked (b : Blk) (t g : Nat) : List Nat → List Nat → Bool
  | [], _ => false
  | k :: l, as =>
    if surplus b as t g k then !dwellMet b k || pinned b t || releaseBlocked b t g l (as.set k 16)
    else releaseBlocked b t g l as

/-- Groups that must leave: blocked or unavailable, or on another device's trunk while isolated (R85), at once; out of
reach after dwell without a PIN (R74). -/
def mustLeave (b : Blk) (as : List Nat) : List Nat :=
  as.mapIdx fun k t =>
    if t < 16 ∧ !(grpRep b k).xfer then
      if !usable b k ∨ (b.factor.isolated ∧ t / 4 ≠ myPos b) then 16
      else if !reaches b k t ∧ dwellMet b k ∧ !pinned b t then 16
      else t
    else t

/-- cost(g, t) in kW (R76) under the standing assignment. -/
def moveCost (b : Blk) (as : List Nat) (k t : Nat) : Nat :=
  if standing b k = t then 0
  else
    let near := decide (k / 3 = t / 4) || (kSet b as t).any fun j => j / 3 == k / 3
    rd b FCTR.COST.K_XFER + wearCost b k t + if near then 0 else rd b FCTR.COST.K_REMOTE

/-- The class of a trunk's port; 8 without a DRAW. -/
def trunkClass (b : Blk) (t : Nat) : Nat := match drawOf b (sitePort b t) with
  | some o => o.cls
  | none => 8

/-- A group may be added to a trunk (R75). -/
def mayAdd (b : Blk) (k t : Nat) : Bool :=
  usable b k && !(grpRep b k).xfer && reaches b k t && decide (0 < capOf b k (trunkVeff b t))

/-- The net gain in kW of taking a group for a deficit (R75). -/
def netGain (b : Blk) (gs as : List Nat) (t d k : Nat) : Int :=
  let u := as.getD k 16
  let cu := capOf b k (trunkVeff b u)
  ((min (capOf b k (trunkVeff b t)) d : Nat) : Int) - ((gs.getD u 0 - (kCap b as u - cu) : Nat) : Int) -
    (moveCost b as k t : Int)

/-- The groups that could be taken from another trunk for a deficit, but for dwell and pin (R75); none that this plan
has just added. -/
def takeable (b : Blk) (gs as : List Nat) (t d : Nat) : List Nat :=
  (List.range 12).filter fun k =>
    let u := as.getD k 16
    decide (u < 16 ∧ u ≠ t ∧ standing b k = u) && mayAdd b k t &&
      (decide (trunkClass b t < trunkClass b u) || decide (keepKw b (gs.getD u 0) < kCap b as u)) &&
      decide (0 < netGain b gs as t d k)

/-- One group more for a trunk, free or taken (R75): the group, if any qualifies. A free group too meets its dwell. -/
def pickGroup (b : Blk) (gs as : List Nat) (t d : Nat) : Option Nat :=
  let free := (List.range 12).filter fun k => as.getD k 16 == 16 && mayAdd b k t && dwellMet b k
  match bestBy (fun x y => decide (moveCost b as x t < moveCost b as y t)) free with
  | some k => some k
  | none =>
    bestBy (fun x y => decide (netGain b gs as t d y < netGain b gs as t d x))
      ((takeable b gs as t d).filter fun k => dwellMet b k && !pinned b (as.getD k 16))

/-- The groups on a trunk or bound for it, at most 8 (R68). -/
def groupsOn (as : List Nat) (t : Nat) : Nat := (as.filter fun u => u == t).length

/-- Fill a trunk's deficit (R75), `n` groups at most: (assignment, groups added in order, moves left). -/
def fillTrunk (b : Blk) (gs : List Nat) (t : Nat) : Nat → List Nat → List Nat → Nat → List Nat × List Nat × Nat
  | 0, as, add, mv => (as, add, mv)
  | n + 1, as, add, mv =>
    let d := gs.getD t 0 - kCap b as t
    if d = 0 ∨ 8 ≤ groupsOn as t ∨ mv = 0 then (as, add, mv)
    else match pickGroup b gs as t d with
      | none => (as, add, mv)
      | some k => fillTrunk b gs t n (as.set k t) (add ++ [k]) (mv - 1)

/-- Fill the deficits in order (R75). -/
def fillAll (b : Blk) (gs : List Nat) : List Nat → List Nat → List (Nat × Nat) → Nat → List Nat × List (Nat × Nat)
  | [], as, rk, _ => (as, rk)
  | t :: l, as, rk, mv =>
    if pinned b t then fillAll b gs l as rk mv
    else
      let r := fillTrunk b gs t 8 as [] mv
      fillAll b gs l r.1 (rk ++ r.2.1.mapIdx fun j k => (k, j)) r.2.2

/-- The owner of a trunk and its slot (R79, R321): (position, slot, present owner kept), given the free-slot masks. -/
def placeOwner (b : Blk) (ks : List Nat) (t : Nat) (masks : List Nat) : Option (Nat × Nat × Bool) :=
  let cur := if isOn b (FCTR.TRUNK_PLAN.OWNED t) then rd b (FCTR.TRUNK_PLAN.OWNER_POS t) else 4
  let devs := ks.map (· / 3)
  let ok := fun p => devs.contains p && (p == cur || decide (masks.getD p 0 ≠ 0)) &&
    (devs.all fun q => q == p || (repOf b p).reaches q) && (p == t / 4 || (repOf b p).reaches (t / 4))
  let cnt := fun p => (ks.filter fun k => k / 3 == p).length
  let better := fun x y => decide (cnt y < cnt x) || (cnt x == cnt y &&
    ((x == cur && y != cur) || ((x == cur) == (y == cur) && x == t / 4 && y != t / 4)))
  match bestBy better ((List.range 4).filter ok) with
  | none => none
  | some p =>
    if p = cur then some (p, rd b (FCTR.TRUNK_PLAN.SLOT t), true)
    else match bitsOf 16 (masks.getD p 0) with
      | [] => none
      | s :: _ => some (p, s, false)

/-- Cycle h of a handover (R80): the first owner cycle that starts at or after the next boundary + SHADOW + 2 periods. -/
def handCycle (b : Blk) : Nat :=
  let t := max 1 (rd b CE.PLOOP.PERIOD_US) * 1000
  let p := max 1 (rd b FCTR.BOOK_CTL.PERIOD) * 1000000
  let till := p - eHost b (rd b FCTR.BOOK_CTL.TDOM) % p
  ((eFollow b + till + (rd b FCTR.LOOP.SHADOW + 2) * t + t - 1) / t) % 2 ^ 32

/-- A plan's entry for a trunk before its owner is placed: its groups, targets, class and connected capacity. -/
def planBase (b : Blk) (ks : List Nat) (t : Nat) : TrunkPlan :=
  let p := sitePort b t
  { mask := ofBits ks, volts := vEff b p, iEff := iEff b p, cls := trunkClass b t % 8,
    realised := sumN ((ks.filter fun k => !(grpRep b k).xfer && (grpRep b k).trunk == t).map fun k => capOf b k (vEff b p)) }

/-- The trunks of a plan (R77, R79), in ascending order; `masks` are the free slots left. DESIGN CHOICE: a change of owner
is a handover whether or not the port carries current at that moment (notes/assumptions/20.md). -/
def planTrunks (b : Blk) (gs as : List Nat) (held : Bool) : List Nat → List Nat → List TrunkPlan
  | [], _ => []
  | t :: l, masks =>
    let ks := kSet b as t
    let cap := kCap b as t
    let g := gs.getD t 0
    let kw := min g cap
    let why := if cap < g then 3 else portReason b (sitePort b t) g held
    let base := planBase b ks t
    if kw = 0 then { base with reason := why } :: planTrunks b gs as held l masks
    else match placeOwner b ks t masks with
      | none => { base with reason := 4 } :: planTrunks b gs as held l masks
      | some (pos, s, kept) =>
        let masks := if kept then masks else masks.set pos (masks.getD pos 0 - 2 ^ s)
        let hand := isOn b (FCTR.TRUNK_PLAN.OWNED t) && decide (rd b (FCTR.TRUNK_PLAN.OWNER_POS t) ≠ pos) &&
          hasRep b (rd b (FCTR.TRUNK_PLAN.OWNER_POS t))
        { base with
          owned := true, owner := pos, slot := s, handover := hand, handAt := if hand then handCycle b else 0,
          kw := kw, amps := min 30000 (ampsOf kw base.volts), reason := why } :: planTrunks b gs as held l masks

/-- The mirror of a position as a FCTR.MIRROR word; pairs choose their partner themselves (R82). -/
def mirrorOf (b : Blk) (pos : Nat) : Nat :=
  let s := sitePort b 0 / 16
  match ([1, 2, 3].map fun d => (pos + d) % 4).find? (hasRep b) with
  | some q => 2 ^ 31 + s * 256 + q
  | none =>
    if rd b SYS.MODE.ROLE = 0 then 0
    else if rd b SYS.MODE.ROLE = 1 then (if rd b SYS.MODE.SITE_STATE = 1 then 2 ^ 31 else 0)
    else match (List.range 16).find? fun k => decide (0 < k) && (rd b FCTR.PEERS.PRESENT).testBit k with
      | some k => 2 ^ 31 + k * 256
      | none => 0

/-- The assignment after the releases (R74). -/
def released (b : Blk) (gs : List Nat) : List Nat :=
  (List.range 16).foldl (fun as t => releaseTrunk b t (gs.getD t 0) as) (mustLeave b ((List.range 12).map (standing b)))

/-- The assignment of a plan and the groups added, with their rank on their trunk (R74, R75). -/
def assigned (b : Blk) (gs : List Nat) : List Nat × List (Nat × Nat) :=
  let as1 := released b gs
  let defs := ((List.range 16).filter fun t => decide (kCap b as1 t < gs.getD t 0))
  let dOf := fun t => gs.getD t 0 - kCap b as1 t
  let ord := sortBy (fun x y => decide (trunkClass b x < trunkClass b y) || (trunkClass b x == trunkClass b y &&
    (decide (dOf y < dOf x) || (dOf x == dOf y && decide (x ≤ y))))) defs
  fillAll b gs ord as1 [] (rd b FCTR.BOOK_CTL.MAX_MOVES)

/-- A move that only a dwell or a PIN stops (R68, R89): a surplus group that stays, a pinned trunk left short, a group
that could be taken. -/
def moveBlocked (b : Blk) (gs : List Nat) : Bool :=
  let as0 := mustLeave b ((List.range 12).map (standing b))
  let r := assigned b gs
  (List.range 16).any fun t =>
    let g := gs.getD t 0
    let d := g - kCap b r.1 t
    releaseBlocked b t g (releaseOrder b t as0) as0 ||
      (decide (0 < d) && (pinned b t || (decide (groupsOn r.1 t < 8 ∧ r.2.length < rd b FCTR.BOOK_CTL.MAX_MOVES) &&
        !(takeable b gs r.1 t d).isEmpty)))

/-- This device's reach map and group ratings, as a plan carries the master's (R53, R92). -/
def siteModel (b : Blk) : List Nat :=
  (List.range 24).map (fun j => (wordOf b ((TRUNK.REACH_LO.T0 0).a + 4 * j)).toNat) ++
    (List.range 12).map (fun k => (wordOf b (FCTR.GRP_RATE.P_RATE k).a).toNat)

/-- Level two: the plan for the grants of a stack (R74 to R82). -/
def levelTwo (b : Blk) (gs : List Nat) (held : Bool) : Plan :=
  let r := assigned b gs
  { clr := rd b FCTR.CLR_NUM.CLR_NUM,
    dest := r.1.mapIdx fun k t =>
      { trunk := t, rank := ((r.2.find? fun e => e.1 == k).map (·.2)).getD 0, move := decide (standing b k ≠ t) },
    trunks := planTrunks b gs r.1 held (List.range 16) ((List.range 4).map fun p => (repOf b p).slots),
    mirrors := (List.range 4).map (mirrorOf b),
    model := siteModel b,
    site := rd b SYS.MODE.SITE_STATE }

/-- The plan for the next boundary; one that comes after the deadline leaves the standing plan in force (R67). -/
def takePlan (p : Plan) (b : Blk) : Blk :=
  if b.factor.planLate then b else { b with factor := { b.factor with planNext := some p } }

/-- The plan is published: a shortfall raises its event, blocked moves theirs (R77, R89). -/
def publish (gs : List Nat) (held : Bool) (b : Blk) : Blk :=
  let p := levelTwo (atCut b) gs held
  let short := p.trunks.any fun t => t.reason == 3
  let b := when short (raise pgFCTR 8) b
  let b := when (moveBlocked (atCut b) gs) (raise pgFCTR 14) b
  let ns := b.time.clk - b.factor.cutAt
  let b := probe false 3 none ns (wrU b FCTR.CLR_STAT.DUR_US (ns / 1000))
  let b := emit b (.plan p)
  takePlan p (toMembers (.plan p) b)

/-- A stack's grants of the day: those of the frame in force, in holding capped by the present demand (R84). -/
def heldGrants (b : Blk) : List Nat :=
  let g := match b.factor.frame with
    | some f => f.grants
    | none => []
  (List.range 16).map fun t =>
    let p := sitePort b t
    min (g.getD t 0) (if servable b p then (demandOf b p).1 else 0)

/-- LEVEL_ONE (R53, R70 to R73, R83 to R85). An isolated member too runs its levels only with its own RUN = 1: DESIGN
CHOICE (notes/assumptions/20.md). -/
def doLevelOne (b : Blk) : Blk :=
  if !isOn b FCTR.BOOK_CTL.RUN || !mayPower b then b
  else if b.factor.isolated ∨ (rd b SYS.MODE.ROLE = 1 ∧ isMaster b ∧ rd b SYS.MODE.SITE_STATE = 3) then
    let b := levelOne true (storeBid (makeBid (atCut b)) b)
    let f := frameFor b (sitePort b 0 / 16)
    publish f.grants false { b with factor := { b.factor with frame := some f, frameNew := true } }
  else if rd b SYS.MODE.ROLE = 1 ∧ isMaster b ∧ rd b SYS.MODE.SITE_STATE = 2 then
    let gs := heldGrants (atCut b)
    let cap := match b.factor.frame with
      | some f => f.budget
      | none => 0
    let b := wrU (wrU b FCTR.CAP_EFF.CAP_EFF cap) FCTR.GRANTED.GRANTED (sumN gs)
    publish gs true { b with factor := { b.factor with frameNew := true } }
  else if isManager b then
    let b := levelOne false b
    let here := stacksIn b
    let b := forEach (List.range 16) (fun s b =>
      if !here.contains s then wr b (FCTR.ROW.STK_BUDGET.BUDGET s) 0
      else
        let b := wrU b (FCTR.ROW.STK_BUDGET.BUDGET s) (frameFor b s).budget
        if s = sitePort b 0 / 16 then b else toStack s (.grantFrame (frameFor b s)) (emit b (.grantFrame (frameFor b s)))) b
    let f := frameFor b (sitePort b 0 / 16)
    publish f.grants false { b with factor := { b.factor with frame := some f, frameNew := true } }
  else b

/-- GRANT_FRAME (R66); one that comes after its deadline is not used (R67). -/
def doGrantFrame (f : GrantFrame) (b : Blk) : Blk :=
  if isMaster b ∧ rd b SYS.MODE.ROLE = 1 ∧ f.stack = sitePort b 0 / 16 ∧ rd b SYS.MODE.SITE_STATE ≠ 3 ∧
      !b.factor.grantLate then
    let b := wr { b with factor := { b.factor with frame := some f, frameNew := true } } BOOK.SEQ_CUT.SEQ_CUT f.seqCut
    publish f.grants false (wrU b FCTR.GRANTED.GRANTED f.budget)
  else b

/-- A deadline passed with nothing to act on (R67). -/
def overrun (b : Blk) : Blk := raise pgFCTR 1 (incSat b FCTR.CLR_STAT.OVERRUNS)

/-- GRANT_DEADLINE (R67). A master with RUN = 0 takes no part in the clearing (R53). -/
def doGrantDeadline (b : Blk) : Blk :=
  if isMaster b ∧ rd b SYS.MODE.ROLE = 1 ∧ isOn b FCTR.BOOK_CTL.RUN ∧ !b.factor.frameNew then
    overrun { b with factor := { b.factor with grantLate := true } }
  else b

/-- PLAN_FRAME (R66): the master's site model is compared with this device's (R53, R92), and a joined member shows the
SITE_STATE of its stack (R51). -/
def doPlanFrame (p : Plan) (b : Blk) : Blk :=
  let bad := !p.model.isEmpty && p.model != siteModel b
  let was := b.factor.differs
  let b := takePlan p { b with factor := { b.factor with differs := bad } }
  let b := if p.site ≠ 0 ∧ !isMaster b ∧ !b.factor.isolated ∧ rd b SYS.MODE.SITE_STATE ≠ 0 then
      wr b SYS.MODE.SITE_STATE p.site
    else b
  when (bad && !was) (raise pgFCTR 13) b

/-- PLAN_DEADLINE (R67). A master with RUN = 0 runs no clearing (R53). -/
def doPlanDeadline (b : Blk) : Blk :=
  if b.factor.planNext.isSome ∨ (runsTwo b ∧ !isOn b FCTR.BOOK_CTL.RUN) then b
  else overrun { b with factor := { b.factor with planLate := true } }

/-! Adoption (R64, R73, R78 to R82). -/

/-- The SEQ of a port's open DRAW. -/
def drawSeq (b : Blk) (p : Nat) : Nat := match openOrder b p 1 with
  | some k => (orderOf b k).seq
  | none => 0

/-- A new DRAW clears the short retries (R158). -/
def newDraw (i p : Nat) (b : Blk) : Blk :=
  let x := slotOf b i
  if x.drawSeq = drawSeq b p then b
  else wr (setSlot i { x with drawSeq := drawSeq b p } b) (CE.SLOT.STATE.RETRY i) 0

/-- A loop that its plan places goes on from where it stands where its output is not at zero, else it is to soft-start
(R155, R156); DESIGN CHOICE: a port carries current while its loop's output is not zero (notes/assumptions/18.md). -/
def placeLoop (i : Nat) (b : Blk) : Blk :=
  if (slotOf b i).u ≠ 0 then setP i 2 (setSlot i { slotOf b i with ramp := false, misses := 0 } b) else awaitStart i b

/-- The loop of a trunk under a new plan (R79 to R81, R152, R155): new targets hold from the next cycle start. -/
def adoptLoop (t : Nat) (e : TrunkPlan) (b : Blk) : Blk :=
  let me := myPos b
  let i := slotFor' b t
  if e.owned ∧ e.owner = me then
    if i < 16 then
      let x := slotOf b i
      let b := newDraw i (sitePort b t) (setSlot i
        { x with ending := false, hand := if x.hand = 1 then 1 else 0, tgtNext := some (e.amps, e.volts) } b)
      if x.hand ≠ 1 ∧ (x.ramp ∨ (pstate b i = 0 ∧ !x.fresh) ∨ (pstate b i = 5 ∧ e.mask ≠ 0)) then placeLoop i b else b
    else if 1 ≤ kindOf b e.slot then b
    else
      let i := e.slot
      let b := wr (wr (wr b (CE.SLOT.CFG.KIND i) 1) (CE.SLOT.BIND.TRUNK i) t) (CE.SLOT.BIND.SITE_PORT i) (sitePort b t)
      let b := wr (wr b (CE.SLOT.STATE.RETRY i) 0) (CE.SLOT.STATE.SEG i) 0
      let b := clearSat i (setSlot i { drawSeq := drawSeq b (sitePort b t), tgtNext := some (e.amps, e.volts) } b)
      if e.handover then setSlot i { slotOf b i with hand := 1, handAt := e.handAt } b else awaitStart i b
  else if i < 16 then
    if e.owned ∧ e.handover then
      setSlot i
        { slotOf b i with hand := 2, handAt := e.handAt, handSnap := false, tgtNext := some (e.amps, e.volts) } b
    else setSlot i { slotOf b i with grantI := 0, tgtNext := none, ending := true } b
  else b

/-- What a device notes of a remote group that a plan moves (R100, R108): the trunk it leaves until its transfer ends, and
its closing rank on the trunk it joins. -/
def noteMove (k : Nat) (d : GrpPlan) (old : Nat) (b : Blk) : Blk :=
  let tr := b.trunk
  let l := tr.ranks.filter fun e => e.1 != k || (!d.move && e.2.1 == d.trunk)
  if !d.move then { b with trunk := { tr with ranks := l } }
  else { b with trunk := { tr with
    ranks := if d.trunk < 16 then l ++ [(k, d.trunk, d.rank)] else l,
    leaving := Tab.put (fun _ => 16) tr.leaving k old } }

/-- A local or remote group under a new plan: its weight and, here, its transfer (R78, R153). -/
def adoptGroup (k : Nat) (d : GrpPlan) (b : Blk) : Blk :=
  let w := Tab.at' (fun _ => ({} : GrpW)) b.ce.weight k
  let loc := decide (k / 3 = myPos b)
  let g := k % 3
  let cur := if loc then rd b (FCTR.GRP_STAT.TRUNK k) else if w.mode = 0 ∨ w.mode = 3 then w.trunk else 31
  if loc && decide ((xferOf b g).step ≠ 0) then b
  else if !d.move ∨ cur = d.trunk ∨ (16 ≤ cur ∧ 16 ≤ d.trunk) then b
  else
    let b := if cur < 16 then setWeight k cur 1 b else setWeight k d.trunk 2 b
    if !loc then b
    else
      let src := if cur < 16 then groupCoil b g else 8
      let dst := if d.trunk < 16 then slotTo b g d.trunk else 8
      if src = 8 ∧ dst = 8 then b else xferStart g src dst d.rank b

/-- The Daybook's mirror under a new plan (R82): a change starts the full copy and is recorded. -/
def adoptMirror (w : Nat) (b : Blk) : Blk :=
  let w := if rd b SYS.MODE.PAIR ≠ 0 then 2 ^ 31 + 2 ^ 30 + sitePort b 0 / 16 * 256 + myPos b else w
  let old := (wordOf b FCTR.MIRROR.POS.a).toNat
  if w = old then b
  else
    let b := raise pgDBK 3 (hostRecord 0x0050 false (le 4 w) (setWord b FCTR.MIRROR.POS.a (BitVec.ofNat 32 w)))
    let b := { b with daybook := { b.daybook with mirUp := mirrorUp b } }
    if 2 ^ 31 ≤ w then startFullCopy b else wrB b DBK.DSTAT.COPYING false

/-- What a plan says of a trunk, as FCTR and the groups' devices take it (R80, R90, R128). -/
def adoptTrunk (t : Nat) (e : TrunkPlan) (b : Blk) : Blk :=
  let b :=
    if e.owned ∧ e.handover then
      let o := (rd b (FCTR.TRUNK_PLAN.OWNER_POS t) + 1, rd b (FCTR.TRUNK_PLAN.SLOT t), e.handAt)
      { b with lanes := { b.lanes with old := Tab.put (fun _ => (0, 0, 0)) b.lanes.old t o } }
    else b
  let b := wrB b (FCTR.TRUNK_PLAN.OWNED t) e.owned
  let b := wr (wr b (FCTR.TRUNK_PLAN.OWNER_POS t) e.owner) (FCTR.TRUNK_PLAN.SLOT t) e.slot
  let b := wr b (FCTR.TRUNK_PLAN.GRP_MASK t) e.mask
  match openOrder b (sitePort b t) 1 with
  | some k => setOrder k { orderOf b k with grantI := e.amps, grantKw := e.kw } b
  | none => b

/-- Which owner's commands this device's groups of a trunk accept under a new plan (R80). -/
def adoptOnly (e : TrunkPlan) (b : Blk) : Blk :=
  forEach ((List.range 3).filter fun g => e.mask.testBit (gIdx b g)) (fun g b =>
    setMod g { modOf b g with only := if e.owned ∧ e.handover then some (e.owner, e.handAt) else none } b) b

/-- The field side's part of a plan (R4, R95): it reaches the sequencer, the loops and the modulators only while both sides
stand. -/
def adoptField (p : Plan) (b : Blk) : Blk :=
  if b.bar.hostLost || b.bar.fieldLost then b
  else
    let b := forEach (List.range 12) (fun k b =>
      if k / 3 = myPos b ∧ enabled b pgTRUNK ∨ k / 3 ≠ myPos b then adoptGroup k (p.dest.getD k {}) b else b) b
    let b := forEach (List.range 16) (fun t b => if enabled b pgCE then adoptLoop t (p.trunks.getD t {}) b else b) b
    forEach (List.range 16) (fun t b => adoptOnly (p.trunks.getD t {}) b) b

/-- PLAN_ADOPT (R64): the grants of the clearing come into force, the plan is adopted, offsets follow it (R128). -/
def doPlanAdopt (b : Blk) : Blk :=
  let b := { b with factor := { b.factor with inForce := b.factor.grants } }
  match b.factor.planNext with
  | none => b
  | some p =>
    let old := b.factor.plan
    let b := { b with factor := { b.factor with plan := p, planNext := none } }
    let b := forEach (List.range 12) (fun k b => noteMove k (p.dest.getD k {}) (old.dest.getD k {}).trunk b) b
    let b := adoptField p b
    let b := forEach (List.range 16) (fun t b => adoptTrunk t (p.trunks.getD t {}) b) b
    let b := forEach (List.range 3) (fun g b => if enabled b (pgMOD g) then modOffsets g b else b) b
    raise pgFCTR 0 (adoptMirror (p.mirrors.getD (myPos b) 0) b)

/-! Lost peers (R83 to R87). -/

/-- What is known of a position is dropped (R83). -/
def dropReport (n : Nat) (b : Blk) : Blk :=
  { b with factor := { b.factor with
      reports := Tab.put (fun _ => {}) b.factor.reports n {}, inbox := b.factor.inbox.filter fun e => e.1 != n } }

/-- PEER_ABSENT: a device of the stack (`stack = false`) or a stack of the site is absent (R83 to R85). -/
def doPeerAbsent (stack : Bool) (n : Nat) (b : Blk) : Blk :=
  if stack then
    if rd b SYS.MODE.ROLE = 2 then
      let b := wr b FCTR.PEERS.PRESENT (Num.setBit (rd b FCTR.PEERS.PRESENT) n false)
      raise pgFCTR 3 { b with factor := { b.factor with bids := Tab.put (fun _ => {}) b.factor.bids n {} } }
    else if rd b SYS.MODE.ROLE = 1 ∧ n = 0 ∧ isMaster b ∧ rd b SYS.MODE.SITE_STATE = 1 then
      let top := b.factor.book.foldl (fun m e => max m e.2.seq) 0
      raise pgFCTR 5 (wr { b with factor := { b.factor with nextSeq := top + 1 } } SYS.MODE.SITE_STATE 2)
    else b
  else if isMaster b then
    let b := dropReport n b
    let b := if rd b SYS.MODE.ROLE = 2 then b else
      wr b FCTR.PEERS.PRESENT (Num.setBit (rd b FCTR.PEERS.PRESENT) n false)
    raise pgFCTR 3 b
  else if n = 0 then
    let b := { b with factor := { b.factor with isolated := true, regain := false, reports := [], inbox := [] } }
    raise pgFCTR 3 (wr b SYS.MODE.SITE_STATE 3)
  else b

/-- ISLAND_ENTER (R84). -/
def doIslandEnter (b : Blk) : Blk :=
  if rd b SYS.MODE.SITE_STATE = 2 then raise pgFCTR 6 (wr b SYS.MODE.SITE_STATE 3) else b

/-- This stack's slice of the book (R87). -/
def ownSlice (b : Blk) : List (Nat × Order) := b.factor.book.filter fun e => e.1 / 256 == sitePort b 0 / 16

/-- An entry of a slice takes its place in the manager's book under a new SEQ; one without a SEQ keeps 0 (R87). -/
def adoptEntry (e : Nat × Order) (b : Blk) : Blk :=
  let n := b.factor.nextSeq
  let seq := if e.2.seq = 0 then 0 else n
  let b := { b with factor := { b.factor with nextSeq := if e.2.seq = 0 then n else n + 1 } }
  when (decide (e.2.state = 1)) (addActs [(e.1, false)]) (setOrder e.1 { e.2 with seq := seq } b)

/-- The manager adopts a stack's slice, its entries in the slice's sequence order (R87). -/
def adoptSlice (stack : Nat) (l : List (Nat × Order)) (b : Blk) : Blk :=
  let b := { b with factor := { b.factor with book := Tab.keep (fun k => k / 256 != stack) b.factor.book,
                                              acts := b.factor.acts.filter fun a => a.1 / 256 != stack } }
  raise pgBOOK 6 (forEach (sortBy (fun x y => decide (x.2.seq ≤ y.2.seq)) (l.filter fun e => e.1 / 256 == stack)) adoptEntry b)

/-- SLICE_RECONCILE (R87): on the manager a slice arrives; on a stack master the manager is regained, on an isolated member
its stack master; the site is joined from the next cut. -/
def doSlice (stack : Nat) (l : List (Nat × Order)) (b : Blk) : Blk :=
  let due := { b with factor := { b.factor with regain := true } }
  if isManager b then adoptSlice stack l b
  else if isMaster b ∧ 2 ≤ rd b SYS.MODE.SITE_STATE then
    let m : Msg := .slice (sitePort b 0 / 16) (ownSlice b)
    toManager m (emit due m)
  else if b.factor.isolated then due
  else b

def execClearingCut (s : State) : Out := run (gated pgFCTR doCut) s

def enterAvailReport (pos : Fin 4) (r : Report) : Blk → Blk :=
  gated pgFCTR fun b => if isMaster b then storeReport pos.val r b else b

def execAvailReport (pos : Fin 4) (r : Report) (s : State) : Out :=
  runIn 3 (.availReport pos r) (enterAvailReport pos r) s

def execBidDeadline (s : State) : Out := run (gated pgFCTR doBidDeadline) s

def enterBid (x : BidData) : Blk → Blk :=
  let bd := bidFrom x.frame x.lims x.noGrant.toNat x.absent.toNat
  gated pgFCTR fun b => if isManager b ∧ bd.stack < 16 then storeBid bd b else b

def execBid (x : BidData) (s : State) : Out := runIn 3 (.bid x) (enterBid x) s

def execLevelOne (s : State) : Out := run (gated pgFCTR doLevelOne) s

def enterGrantFrame (f : GrantFrame) : Blk → Blk := gated pgFCTR (doGrantFrame f)

def execGrantFrame (f : GrantFrame) (s : State) : Out := runIn 3 (.grantFrame f) (enterGrantFrame f) s

def execGrantDeadline (s : State) : Out := run (gated pgFCTR doGrantDeadline) s

def enterPlanFrame (p : Plan) : Blk → Blk := gated pgFCTR (doPlanFrame p)

def execPlanFrame (p : Plan) (s : State) : Out := runIn 3 (.planFrame p) (enterPlanFrame p) s

def execPlanDeadline (s : State) : Out := run (gated pgFCTR doPlanDeadline) s

def execPlanAdopt (s : State) : Out := run (gated pgFCTR doPlanAdopt) s

def execPeerAbsent (stack : Bool) (n : Fin 16) (s : State) : Out := run (gated pgFCTR (doPeerAbsent stack n.val)) s

def execIslandEnter (s : State) : Out := run (gated pgFCTR doIslandEnter) s

def enterSliceReconcile (stack : Fin 16) (orders : List (Nat × Order)) : Blk → Blk :=
  gated pgFCTR (doSlice stack.val orders)

def execSliceReconcile (stack : Fin 16) (orders : List (Nat × Order)) (s : State) : Out :=
  runIn 3 (.sliceReconcile stack orders) (enterSliceReconcile stack orders) s

end Sys2Proof.Machine
end

