-- ==== Sys2Proof/Machine/Thm.lean ====
section
/-!
DEFINITION. Housekeeping and temperature assay (chapter 16): conversions, faults, neighbourhoods, rates of rise, port and
group deratings.
-/

namespace Sys2Proof.Machine

open Sys2Proof.Num

/-- Quotient rounded half away from zero (b positive). -/
def adiv (a b : Int) : Int := if 0 ≤ a then (2 * a + b) / (2 * b) else -((2 * (-a) + b) / (2 * b))

/-! Conversion (R374). A reading is the sum of a channel's four conversions, so four times the mean. -/

/-- Resistance of a PT1000 at h/200 °C by the Callendar-Van Dusen equation of IEC 60751, in units of
1000 Ω / (1.6 * 10^24). -/
def ptRes (h : Int) : Int :=
  let q := 1600000000 * 10 ^ 15 + 39083 * 10 ^ 8 * 8000000 * h - 5775 * 10 ^ 5 * 40000 * h * h
  if 0 ≤ h then q else q - 4183 * (h - 20000) * h * h * h

/-- The highest h of a range whose resistance is at most `r4` quarter mΩ, by bisection over 2^k steps above `lo`. -/
def ptFind (r4 : Int) : Nat → Int → Int
  | 0, lo => lo
  | k + 1, lo =>
    if lo + 2 ^ k ≤ 170000 ∧ ptRes (lo + 2 ^ k) ≤ r4 * 4 * 10 ^ 17 then ptFind r4 k (lo + 2 ^ k)
    else ptFind r4 k lo

/-- PT1000: 0.1 °C; none outside the equation's range of -200 to 850 °C. -/
def ptTemp (r4 : Int) : Option Int :=
  if r4 * 4 * 10 ^ 17 < ptRes (-40000) ∨ ptRes 170000 < r4 * 4 * 10 ^ 17 then none
  else some (adiv ((ptFind r4 18 (-40000) + 1) / 2) 10)

/-- 2 atanh(z) scaled by 2^80, for z scaled by 2^80: the series from its j-th term, `p` the power reached. -/
def atanhSum (z2 : Int) : Nat → Nat → Int → Int → Int
  | 0, _, _, s => s
  | n + 1, j, p, s => atanhSum z2 n (j + 1) (p * z2 / 2 ^ 80) (s + 2 * p / (2 * j + 1))

/-- ln(a / b) scaled by 2^80, for a/b in [1, 2]. -/
def lnNear (a b : Int) : Int :=
  let z := (a - b) * 2 ^ 80 / (a + b)
  atanhSum (z * z / 2 ^ 80) 30 0 z 0

/-- ln(a / b) scaled by 2^80, for positive a and b within a factor 2^64. -/
def lnRatio (a b : Nat) : Int :=
  let ka : Int := Nat.log2 a
  let kb : Int := Nat.log2 b
  lnNear (a * 2 ^ (200 - Nat.log2 a)) (2 ^ 200) - lnNear (b * 2 ^ (200 - Nat.log2 b)) (2 ^ 200) + (ka - kb) * lnNear 2 1

/-- NTC: 0.1 °C; none where the formula has no value. R25 in 10 Ω. -/
def ntcTemp (r4 : Int) (r25 beta : Nat) : Option Int :=
  if r4 ≤ 0 ∨ r25 = 0 then none
  else
    let den : Int := beta * 100 * 2 ^ 80 + 29815 * lnRatio r4.toNat (4 * 10000 * r25)
    if den ≤ 0 then none else some (adiv (2 * 10 * beta * 29815 * 2 ^ 80 - 5463 * den) (2 * den))

/-- A channel's converted value: 0.1 °C or mV; none where the spec states none. -/
def hkConvert (b : Blk) (c : Nat) (r4 : Int) : Option Int :=
  match rd b (THM.CHN.CCFG.TYPE c) with
  | 1 => ptTemp r4
  | 2 => ntcTemp r4 (rd b (THM.CHN.NTC.R25 c)) (rd b (THM.CHN.NTC.BETA c))
  | _ => some (fdiv (r4 * rd b (THM.CHN.VSCALE.GAIN c)) 16384 + rdI b (THM.CHN.VSCALE.OFS c))

/-- A channel's own record. -/
def hkOf (b : Blk) (c : Nat) : ThmCh := Tab.at' (fun _ => {}) b.thm.ch c

/-- Replace it. -/
def setHk (c : Nat) (x : ThmCh) (b : Blk) : Blk :=
  { b with thm := { b.thm with ch := Tab.put (fun _ => {}) b.thm.ch c x } }

/-- The channels measured. -/
def hkLive (b : Blk) : List Nat := (List.range 64).filter fun c => rd b (THM.CHN.CCFG.TYPE c) != 0

/-- A channel is faulted (R375). -/
def hkFaulted (b : Blk) (c : Nat) : Bool :=
  isOn b (THM.CHN.CSTAT.OPEN c) || isOn b (THM.CHN.CSTAT.SHORT c) || isOn b (THM.CHN.CSTAT.RANGE c)

/-- The next state of a condition's bit and its count of contrary rounds: two in a row turn it (R375). -/
def hkTurn (shown now : Bool) (n : Nat) : Bool × Nat :=
  if shown = now then (shown, 0) else if 1 ≤ n then (now, 0) else (shown, n + 1)

/-- One channel's conversion and fault tests (R374, R375). -/
def hkJudge (c : Nat) (conv : List Int) (b : Blk) : Blk :=
  let r4 := sumI conv
  let v := hkConvert b c r4
  let b := if v.isNone then spend b else b
  let raw := satS 16 (v.getD (toInt 16 (freeVal b)))
  let ty := rd b (THM.CHN.CCFG.TYPE c)
  let r25 : Int := rd b (THM.CHN.NTC.R25 c)
  let isOpen := if ty = 1 then decide (4 * 4000000 < r4) else if ty = 2 then decide (4 * 10000 * 50 * r25 < r4) else false
  let isShort := if ty = 1 then decide (r4 < 4 * 100000) else if ty = 2 then decide (r4 < 4 * 50 * r25) else false
  let out := decide (raw < rdI b (THM.CHN.LIMS.T_LO c) ∨ rdI b (THM.CHN.LIMS.T_HI c) < raw)
  let was := hkFaulted b c
  let x := hkOf b c
  let o := hkTurn (isOn b (THM.CHN.CSTAT.OPEN c)) isOpen x.openN
  let s := hkTurn (isOn b (THM.CHN.CSTAT.SHORT c)) isShort x.shortN
  let r := hkTurn (isOn b (THM.CHN.CSTAT.RANGE c)) out x.rangeN
  let b := setHk c { x with openN := o.2, shortN := s.2, rangeN := r.2 } b
  let b := wrB (wrB (wrB b (THM.CHN.CSTAT.OPEN c) o.1) (THM.CHN.CSTAT.SHORT c) s.1) (THM.CHN.CSTAT.RANGE c) r.1
  let b := wrI b (THM.CHN.CVAL.RAW c) raw
  if hkFaulted b c ∧ !was then raise pgTHM 0 b else b

/-! Assay (R379 to R381). -/

/-- The neighbourhood a channel is in; 31 none. -/
def hkNbh (b : Blk) (c : Nat) : Nat :=
  ((List.range 16).find? fun h =>
    if c < 32 then rdBit b (THM.NBH.MASK_LO.MASK h) c else rdBit b (THM.NBH.MASK_HI.MASK h) (c - 32)).getD 31

/-- The members of a neighbourhood that are measured: a channel that is off has no reading to judge (DEDUCED, log 21). -/
def hkMembers (b : Blk) (h : Nat) : List Nat := (hkLive b).filter fun c => hkNbh b c == h

/-- The comparison value of a channel. -/
def hkCmp (b : Blk) (c : Nat) : Int := rdI b (THM.CHN.CVAL.RAW c) - rdI b (THM.CHN.ACFG.OFS c)

/-- The pool of a neighbourhood. -/
def hkPool (b : Blk) (h : Nat) : List Nat :=
  (hkMembers b h).filter fun c => !hkFaulted b c && !isOn b (THM.CHN.CSTAT.SUSPECT c)

/-- The median of the pool's comparison values, the lower of two. -/
def hkMedian (b : Blk) (l : List Nat) : Int :=
  (sortBy (fun x y => decide (x ≤ y)) (l.map (hkCmp b))).getD ((l.length - 1) / 2) 0

/-- A member that left its neighbourhood leaves with its mark cleared (R387). -/
def hkMove (c : Nat) (b : Blk) : Blk :=
  let h := hkNbh b c
  if rd b (THM.CHN.CSTAT.NBH c) = h then b
  else
    let b := setHk c { hkOf b c with dev := 0, good := 0 } b
    wrB (wr b (THM.CHN.CSTAT.NBH c) h) (THM.CHN.CSTAT.SUSPECT c) false

/-- One member judged against the median (R379, R380). -/
def hkAssay (h : Nat) (m : Int) (c : Nat) (b : Blk) : Blk :=
  let d := (hkCmp b c - m).natAbs
  let tol := rd b (THM.NBH.NCFG.TOL h)
  let x := hkOf b c
  if isOn b (THM.CHN.CSTAT.SUSPECT c) then
    let n := if hkFaulted b c then 0 else if 2 * d ≤ tol then x.good + 1 else 0
    if rd b THM.ASSAY.CLR_RND ≤ n then
      raise pgTHM 2 (setHk c { x with good := 0, dev := 0 } (wrB b (THM.CHN.CSTAT.SUSPECT c) false))
    else setHk c { x with good := n } b
  else if hkFaulted b c then setHk c { x with dev := 0 } b
  else
    let n := if tol < d then x.dev + 1 else 0
    if rd b THM.ASSAY.SUSP_RND ≤ n then
      raise pgTHM 1 (setHk c { x with good := 0, dev := 0 } (wrB b (THM.CHN.CSTAT.SUSPECT c) true))
    else setHk c { x with dev := n } b

/-- One neighbourhood's assay (R379). A neighbourhood without a member is thin without an event (DEDUCED, log 21). -/
def hkNeighbourhood (h : Nat) (b : Blk) : Blk :=
  let l := hkPool b h
  let b := wr b (THM.NBH.NSTAT.POOL h) l.length
  let mem := hkMembers b h
  if l.length < 3 then
    let was := isOn b (THM.NBH.NSTAT.THIN h)
    let b := wrB b (THM.NBH.NSTAT.THIN h) true
    let b := forEach mem (fun c b => setHk c { hkOf b c with dev := 0, good := 0 } b) b
    if !was ∧ !mem.isEmpty then raise pgTHM 3 b else b
  else
    let m := hkMedian b l
    forEach mem (hkAssay h m) (wrS (wrB b (THM.NBH.NSTAT.THIN h) false) (THM.NBH.NSTAT.MEDIAN h) m)

/-- A channel's value and whether it is valid and a substitute. -/
def hkGive (c : Nat) (v : Int) (valid subst : Bool) (b : Blk) : Blk :=
  wrB (wrB (wrI b (THM.CHN.CVAL.VAL c) v) (THM.CHN.CSTAT.VALID c) valid) (THM.CHN.CSTAT.SUBST c) subst

/-- A channel's assayed value (R378, R381). In a thin neighbourhood S is of the last median; RAW = S, which the table does
not name, stands (DESIGN CHOICE, log 21). -/
def hkAssayed (c : Nat) (b : Blk) : Blk :=
  let h := hkNbh b c
  let thin := decide (16 ≤ h) || isOn b (THM.NBH.NSTAT.THIN h)
  let raw := rdI b (THM.CHN.CVAL.RAW c)
  let s := satS 16 (hkMedian b (hkPool b h) + rdI b (THM.CHN.ACFG.OFS c))
  let susp := isOn b (THM.CHN.CSTAT.SUSPECT c)
  if hkFaulted b c then
    (if thin then hkGive c (rdI b (THM.CHN.CVAL.VAL c)) false false b else hkGive c s true true b)
  else if !susp then hkGive c raw true false b
  else if thin then
    let last := rdI b (THM.NBH.NSTAT.MEDIAN h) + rdI b (THM.CHN.ACFG.OFS c)
    hkGive c raw (decide (raw = last) || (decide (last < raw) && !isOn b (THM.NBH.NCFG.SUBST h))) false b
  else if raw < s ∨ (s < raw ∧ isOn b (THM.NBH.NCFG.SUBST h)) then hkGive c s true true b
  else hkGive c raw true false b

/-! Rates of rise and deratings (R382 to R384). -/

/-- A channel's rate (R382); `was` is whether it was valid and substituted after the previous round. -/
def hkRate (was : Bool × Bool) (c : Nat) (b : Blk) : Blk :=
  let now := (isOn b (THM.CHN.CSTAT.VALID c), isOn b (THM.CHN.CSTAT.SUBST c))
  let v := rdI b (THM.CHN.CVAL.VAL c)
  let w := rd b THM.RISE.RISE_WIN
  let hist := if !now.1 then [] else if was = now then (v :: (hkOf b c).hist).take 101 else [v]
  let b := setHk c { hkOf b c with hist := hist } b
  let rate : Option Int := if !isOn b (THM.CHN.CCFG.RISE_EN c) ∨ w = 0 then none
    else (hist[w]?).map fun old => fdiv ((v - old) * 1000) (w * max 1 b.thm.period)
  let b := wrS b (THM.CHN.CSTAT.RATE c) (rate.getD 0)
  wrB b (THM.CHN.CSTAT.BREACH c) (decide ((rd b (THM.CHN.ACFG.RISE_LIM c) : Int) ≤ rate.getD 0) && rate.isSome)

/-- The channels bound to a port (1) or group (2). -/
def hkBound (b : Blk) (kind n : Nat) : List Nat :=
  (hkLive b).filter fun c => rd b (THM.CHN.CCFG.BIND c) == kind && rd b (THM.CHN.CCFG.BIND_IDX c) == n

/-- A breach round of a port or group. -/
def hkBreach (b : Blk) (kind n : Nat) : Bool :=
  (hkBound b kind n).any fun c => isOn b (THM.CHN.CSTAT.BREACH c)

/-- The published values stand for one more round (R376, R385): each rate window goes on with its last value. -/
def hkStand (b : Blk) : Blk :=
  forEach (hkLive b) (fun c b =>
    setHk c { hkOf b c with hist := match (hkOf b c).hist with | [] => [] | v :: l => (v :: v :: l).take 101 } b) b

/-- A bound channel rises by at least half its limit (R383). -/
def hkRising (b : Blk) (kind n : Nat) : Bool :=
  (hkBound b kind n).any fun c => decide ((rd b (THM.CHN.ACFG.RISE_LIM c) : Int) ≤ 2 * rdI b (THM.CHN.CSTAT.RATE c))

/-- The quiet time of the ports and groups after a round, `judged` where it was published (R383). -/
def hkCalm (judged : Bool) (b : Blk) : Blk :=
  forEach (List.range 7) (fun k b =>
    let was := Tab.at' (fun _ => Option.none) b.thm.calm k
    let now := match was with
      | .some t => if judged && hkRising b (if k < 4 then 1 else 2) (k % 4) then Option.none else .some (t + b.thm.period)
      | .none => if judged && !hkRising b (if k < 4 then 1 else 2) (k % 4) then .some 0 else .none
    { b with thm := { b.thm with calm := Tab.put (fun _ => Option.none) b.thm.calm k now } }) b

/-- The rate derate of a port on a breach round (R383). -/
def rateDerate (n : Nat) (b : Blk) : Blk :=
  if !hkBreach b 1 n then b
  else
    let w := Tab.at' (fun _ => ((0, 0) : Int × Nat)) b.thm.win n
    let b := if w.2 = 0 then spend b else b
    let ir : Nat := if w.2 = 0 then freeVal b % 2 ^ 16 else (rdiv w.1 w.2).toNat
    let act := isOn b (THM.PDER.ACTIVE n)
    let d := (if act then min ir (rd b (THM.PDER.D n)) else ir) * rd b THM.RISE.DER_PCT / 100
    let b := wrB (wrU b (THM.PDER.D n) d) (THM.PDER.ACTIVE n) true
    let lim := rd b (FCTR.PORT_LIM.I_CABLE (4 * myPos b + n))
    let enter := match limOf b (4 + n) with
      | none => true
      | some old => decide (lim / 16 ≤ ((d : Int) - old).natAbs) || decide (d = 0)
    if enter then raise pgTHM 4 (putLim n 1 (some d) b) else b

/-- The channels of a group's derating. -/
def gderChans (b : Blk) (g : Nat) : List Nat :=
  ([rd b (THM.GDER.GCH.CH0 g), rd b (THM.GDER.GCH.CH1 g), rd b (THM.GDER.GCH.CH2 g), rd b (THM.GDER.GCH.CH3 g)]).filter
    (· < 64)

/-- The temperature derate of a group (R384). -/
def tempDerate (b : Blk) (g : Nat) : Nat :=
  let l := gderChans b g
  let v := (l.filter fun c => isOn b (THM.CHN.CSTAT.VALID c)).map fun c => rdI b (THM.CHN.CVAL.VAL c)
  let td := rdI b (THM.GDER.GTHR.T_DER g)
  let tm := rdI b (THM.GDER.GTHR.T_MAX g)
  let mn : Int := rd b (THM.GDER.GMIN.DER_MIN g)
  if l.isEmpty then 256
  else match v with
    | [] => 0
    | x :: t =>
      let m := t.foldl max x
      if m < td then 256 else if tm ≤ m then 0
      else (256 - fdiv ((256 - mn) * (m - td)) (max 1 (tm - td))).toNat

/-- The group temperature shown. -/
def gderTemp (g : Nat) (b : Blk) : Blk :=
  let v := ((gderChans b g).filter fun c => isOn b (THM.CHN.CSTAT.VALID c)).map fun c => rdI b (THM.CHN.CVAL.VAL c)
  match v with
  | [] => b
  | x :: t => wrI b (THM.GDER.GTEMP.T g) (t.foldl max x)

/-- A group's derating under its temperature and its cap (R384). -/
def setDerate (g : Nat) (b : Blk) : Blk :=
  let cur := rd b (THM.GDER.GMIN.DERATE g)
  let new := min (tempDerate b g) (rd b (THM.GDER.GTEMP.CAP g))
  if new < cur ∨ (cur < new ∧ (cur + 8 ≤ new ∨ new = 256)) then
    let b := wr (wr b (THM.GDER.GMIN.DERATE g) new) (FCTR.GRP_STAT.DERATE (gIdx b g)) new
    let b := { b with ce := { b.ce with derate := Tab.put (fun _ => 256) b.ce.derate (gIdx b g) new } }
    raise pgTHM 6 (sendStatus g b)
  else b

/-- A group's derating at a publication (R384): a breach round sets its cap. -/
def groupDerate (g : Nat) (b : Blk) : Blk :=
  let b := gderTemp g b
  setDerate g (if hkBreach b 2 g then
    wr b (THM.GDER.GTEMP.CAP g) (rd b (THM.GDER.GMIN.DERATE g) * rd b THM.RISE.DER_PCT / 100) else b)

/-- The summary masks. -/
def hkMasks (b : Blk) : Blk :=
  let f := ofBits ((hkLive b).filter (hkFaulted b))
  let s := ofBits ((hkLive b).filter fun c => isOn b (THM.CHN.CSTAT.SUSPECT c))
  wr (wr (wr (wr b THM.FAULT_LO.CH f) THM.FAULT_HI.CH (f / 2 ^ 32)) THM.SUSP_LO.CH s) THM.SUSP_HI.CH (s / 2 ^ 32)

/-- A channel that is off shows no value and no fault, from the next publication (R374, R377). -/
def hkOff (c : Nat) (b : Blk) : Blk :=
  if rd b (THM.CHN.CCFG.TYPE c) = 0 ∧ (rd b (THM.CHN.CSTAT.VALID c) = 1 ∨ hkFaulted b c ∨ isOn b (THM.CHN.CSTAT.SUSPECT c)) then
    let b := setHk c {} b
    setWord b (THM.CHN.CSTAT.VALID c).a (BitVec.ofNat 32 (0x1F * 2 ^ 16))
  else b

/-- The publication of a passing round (R377). -/
def hkPublish (b : Blk) : Blk :=
  let live := hkLive b
  let was := fun c => (isOn b (THM.CHN.CSTAT.VALID c), isOn b (THM.CHN.CSTAT.SUBST c))
  let b := forEach (List.range 64) hkOff b
  let b := forEach b.thm.reads (fun r b => if live.contains r.1 then hkJudge r.1 r.2 b else b) b
  let b := forEach (List.range 64) hkMove b
  let b := forEach (List.range 16) hkNeighbourhood b
  let b := forEach live hkAssayed b
  let b := forEach live (fun c => hkRate (was c) c) b
  let b := forEach (List.range 3) groupDerate b
  let b := hkCalm true (forEach (List.range 4) rateDerate b)
  wr (wrB (hkMasks b) THM.HSTAT.REF_FAIL false) THM.ROUND_NUM.ROUND b.thm.round

/-- The reference check fails: the round is discarded (R376). -/
def hkRefFail (b : Blk) : Blk :=
  let n := b.thm.bad + 1
  let b := { b with thm := { b.thm with bad := n } }
  let b := if 2 ≤ n then forEach (hkLive b) (fun c b => wrB b (THM.CHN.CSTAT.VALID c) false) b else hkStand b
  raise pgTHM 7 (wrB (hkCalm false b) THM.HSTAT.REF_FAIL true)

/-- HK_ROUND_START: the channels with TYPE ≠ 0 are measured; a new ROUND_MS takes effect and restarts the rate windows
(R377, R387); none starts after a power-fail warning (R386). -/
def doHkStart (reads : List (Nat × List Int)) (dev : Int) (b : Blk) : Blk :=
  if pfWarn b then b
  else
    let per := max 1 (rd b THM.HCTL.ROUND_MS)
    let b := if per = b.thm.period then b else
      forEach (List.range 64) (fun c b => setHk c { hkOf b c with hist := [] } b) { b with thm := { b.thm with period := per } }
    let live := hkLive b
    { b with thm :=
      { b.thm with
        running := true, round := eFollow b / (per * 1000000) % 2 ^ 32, refDev := dev,
        reads := live.filterMap fun c => (reads.find? fun r => r.1 == c), discard := false } }

/-- HK_ROUND_PUBLISH. -/
def doHkPublish (b : Blk) : Blk :=
  let t := b.thm
  let b := { b with thm := { b.thm with running := false } }
  if !t.running ∨ pfWarn b then b
  else
    let b := if t.discard then hkCalm false (hkStand b)
      else
        let b := wrS b THM.HSTAT.REF_PPM t.refDev
        if 500 < t.refDev.natAbs then hkRefFail b else hkPublish { b with thm := { b.thm with bad := 0 } }
    { b with thm := { b.thm with win := [] } }

/-- No channel bound to a port (0 to 3) or group (4 to 6) has risen by half its limit for REL_S (R383). -/
def hkQuiet (b : Blk) (k : Nat) : Bool :=
  match Tab.at' (fun _ => Option.none) b.thm.calm k with
  | .some t => decide (rd b THM.RISE.REL_S * 1000 ≤ t)
  | .none => false

/-- RATE_DERATE_RELEASE (R383, R384): the end of the release time. -/
def doRateRelease (grp : Bool) (n : Nat) (b : Blk) : Blk :=
  if !hkQuiet b (if grp then 4 + n else n) then b
  else if grp then (if n < 3 then setDerate n (wr b (THM.GDER.GTEMP.CAP n) 256) else b)
  else if isOn b (THM.PDER.ACTIVE n) then
    raise pgTHM 5 (putLim n 1 none (wrB (wr b (THM.PDER.D n) 0) (THM.PDER.ACTIVE n) false))
  else b

def enterHkRoundStart (reads : List (Nat × List Int)) (refDev : BitVec 16) : Blk → Blk :=
  gated pgTHM (doHkStart reads refDev.toInt)

def execHkRoundStart (reads : List (Nat × List Int)) (refDev : BitVec 16) (s : State) : Out :=
  runIn 9 (.hkRoundStart reads refDev) (enterHkRoundStart reads refDev) s

def execHkRoundPublish (s : State) : Out := run (gated pgTHM doHkPublish) s

def execRateDerateRelease (grp : Bool) (n : Fin 4) (s : State) : Out := run (gated pgTHM (doRateRelease grp n.val)) s

end Sys2Proof.Machine
end

