-- ==== Sys2Proof/Machine/Srm.lean ====
section
/-!
DEFINITION. The Strongrooms (chapter 17): key slots, minting, wrapped keys, replacement, revocation, the host crypto
engine's operations, anchors and the rollback floor. A slot number is 0-63 for a host slot and 64 + s for a field slot.
-/

namespace Sys2Proof.Machine

open Sys2Proof.Num Sys2Proof.Machine.Crypto

/-- A slot. -/
def keySlot (b : Blk) (n : Nat) : KeySlot := Tab.at' (fun _ => {}) b.srm.slots n

/-- A register that SRM and FSRM lay out alike, on the side of a slot. -/
def sFld (n : Nat) (F : Fld) : Fld := if n < 64 then F else { F with a := F.a - pgSRM + pgFSRM }

/-- The page of a slot, and the slot's number on it. -/
def sPage (n : Nat) : Nat := if n < 64 then pgSRM else pgFSRM
def sNum (n : Nat) : Nat := if n < 64 then n else n - 64

/-- The side of a slot. -/
def sSide (n : Nat) : Side := if n < 64 then .hostSide else .fieldSide

/-- The governing commit word (R401). -/
def KeySlot.gov (k : KeySlot) : KeyAttr := (k.w0.orElse fun _ => k.w1).getD {}

/-- The STATE of a slot (R411). -/
def KeySlot.state (k : KeySlot) : Nat :=
  if k.pend.isSome then 2 else if k.revoked then 3 else if k.faulted then 4 else if k.gov.type = 0 then 0 else 1

/-- A cell's content. -/
def KeySlot.cell (k : KeySlot) (c : Nat) : List Byte := if c = 0 then k.c0 else k.c1

/-- Store a cell. -/
def KeySlot.put (k : KeySlot) (c : Nat) (l : List Byte) : KeySlot := if c = 0 then { k with c0 := l } else { k with c1 := l }

/-- The key an engine takes. -/
def KeySlot.key (k : KeySlot) : List Byte := k.cell k.use.cell

/-- Show a slot in its registers. -/
def showSlot (n : Nat) (b : Blk) : Blk :=
  let k := keySlot b n
  let a := k.gov
  let s := sNum n
  let b := wr (wr b (sFld n (SRM.SLOT.SATTR.PARENT s)) a.parent) (sFld n (SRM.SLOT.SATTR.TYPE s)) a.type
  let b := wr (wr b (sFld n (SRM.SLOT.SATTR.ENGINE s)) a.engine) (sFld n (SRM.SLOT.SATTR.USAGE s)) a.usage
  let b := wr (wr b (sFld n (SRM.SLOT.SATTR.STATE s)) k.state) (sFld n (SRM.SLOT.KEY_ID.KEY_ID s)) a.keyId
  wr (wr b (sFld n (SRM.SLOT.SGEN.GEN s)) a.gen) (sFld n (SRM.SLOT.PGEN.PGEN s)) a.pgen

/-- Store a slot and show it. -/
def setKey (n : Nat) (k : KeySlot) (b : Blk) : Blk :=
  showSlot n { b with srm := { b.srm with slots := Tab.put (fun _ => {}) b.srm.slots n k } }

/-- Event bit `k` of R412, on the field side as R414 groups them. -/
def sRaise (n k : Nat) (b : Blk) : Blk :=
  if n < 64 then raise pgSRM k b
  else if k = 0 ∨ k = 2 ∨ k = 3 then raise pgFSRM 0 b
  else raise pgFSRM 1 b

/-- The slots of the side of a slot. -/
def sAll (n : Nat) : List Nat := if n < 64 then List.range 64 else (List.range 16).map (64 + ·)

/-- Whether a replacement runs on the side of a slot, to the end of its step 5 (R400). -/
def sRunning (b : Blk) (n : Nat) : Bool := (sAll n).any fun m => (keySlot b m).pend.isSome || (keySlot b m).old

/-- Show the result of a request on a slot, and whether a replacement runs: LD_STAT or KW_STAT. -/
def sResult (n res : Nat) (b : Blk) : Blk :=
  let busy := sRunning b n
  if n < 64 then wrB (wr (wr b SRM.LD_STAT.SLOT n) SRM.LD_STAT.RESULT res) SRM.LD_STAT.BUSY busy
  else wrB (wr (wr b FSRM.KW_STAT.SLOT (n - 64)) FSRM.KW_STAT.RESULT res) FSRM.KW_STAT.BUSY busy

/-- A refused request. -/
def sRefuse (n res : Nat) (b : Blk) : Blk :=
  sRaise n 1 (incSat (sResult n res b) (if n < 64 then SRM.CNT.REFUSED else FSRM.CNT.REFUSED))

/-- Count zeroised cells. -/
def sZeroised (n k : Nat) (b : Blk) : Blk := if n < 64 then incSat b SRM.CNT.ZEROISED k else b

/-- One operation on a slot (USES). -/
def sUsed (n : Nat) (b : Blk) : Blk := incSat b (sFld n (SRM.SLOT.SGEN.USES (sNum n)))

/-- The bytes of a key of a type (R392). -/
def keyBytes (t : Nat) : Nat := match t with
  | 1 => 16
  | 2 => 32
  | 3 => 32
  | 4 => 32
  | 5 => 32
  | 6 => 64
  | _ => 0

/-- The USAGE bits a type allows (R392). -/
def usageMask (t : Nat) : Nat := match t with
  | 1 => 0x0C
  | 2 => 0x0C
  | 3 => 0x10
  | 4 => 0x20
  | 5 => 0x21
  | 6 => 0x02
  | 7 => 0x40
  | _ => 0

/-- Whether a slot may be given a type, engine and usage (R392 to R394); a delete gives no engine, so any that is not
reserved (DEDUCED, log 22). -/
def attrOk (n t e u : Nat) : Bool :=
  let base := decide (t ≤ 7 ∧ u &&& usageMask t = u)
  if n < 64 then base && (if t = 7 then decide (1 ≤ e ∧ e ≤ 3) else if t = 0 then decide (e ≤ 4) else decide (e = 0))
  else
    let s := n - 64
    base && decide (t ≠ 7) && decide (1 ≤ e ∧ e ≤ 3 ∨ t = 0 ∧ e ≤ 4) &&
      (if s = 1 then decide (t = 6 ∧ e = 2 ∧ u = 2) else if s = 2 then decide (t = 5 ∧ e = 1 ∧ u = 1) else true)

/-- The KEY_ID of a content (R395). -/
def keyIdOf (t : Nat) (key : List Byte) : Nat :=
  let text : List Byte := [0x4B, 0x61, 0x6C, 0x69, 0x74, 0x69, 0x6C, 0x20, 0x6B, 0x65, 0x79, 0x20] ++
    [0x69, 0x64, 0x65, 0x6E, 0x74, 0x69, 0x66, 0x69, 0x65, 0x72]
  match t with
  | 0 => 0
  | 5 => ofLE ((sha256 (pubOf (ofBE key))).take 4)
  | 6 => ofLE ((sha256 key).take 4)
  | 7 => ofLE ((key.drop 24).take 4)
  | _ => ofLE ((hmac key text).take 4)

/-- The self-test of a key (R400). -/
def selfTest (a : KeyAttr) (key : List Byte) : Bool :=
  (match a.type with
    | 5 => decide (0 < ofBE key ∧ ofBE key < pN)
    | 6 => onCurve (ofBE (key.take 32)) (ofBE (key.drop 32))
    | _ => true) && keyIdOf a.type key == a.keyId

/-- Whether an operation that took a slot's key before its replacement still runs: the crypto engine's, or the signature of
the record at the head of the Counting House's queue, whose key is in field slot 2. -/
def inFlight (b : Blk) (n : Nat) : Bool :=
  (match b.srm.op with
    | some o => o.slot == n
    | none => false) ||
  (n == 66 && !b.house.queue.isEmpty && match b.house.signKey with
    | some (id, _) => id != (keySlot b n).gov.keyId
    | none => false)

/-- Whether a slot takes no request: updating, its old cell not yet zeroised, or revoked-pending. -/
def slotBusy (b : Blk) (n : Nat) : Bool :=
  let k := keySlot b n
  k.pend.isSome || k.old || k.adopt || k.revoked

/-- Step 1 of a replacement (R400): the new key goes into the non-current cell. -/
def srmBegin (n : Nat) (a : KeyAttr) (key : List Byte) (b : Blk) : Blk :=
  let k := keySlot b n
  let c := 1 - k.gov.cell
  sResult n 0 (setKey n { k.put c key with pend := some { a with cell := c, gen := (k.gov.gen + 1) % 2 ^ 16 } } b)

/-- An update is abandoned (R400, R410): the pending cell is zeroised. -/
def srmAbandon (n res : Nat) (b : Blk) : Blk :=
  let k := keySlot b n
  match k.pend with
  | some a => sRaise n 1 (sResult n res (sZeroised n 1 (setKey n { k.put a.cell [] with pend := none } b)))
  | none => b

/-- The slots minted from a slot's key of a generation. -/
def childrenOf (b : Blk) (n gen : Nat) : List Nat :=
  (sAll n).filter fun m =>
    let a := (keySlot b m).gov
    a.type != 0 && a.parent == sNum n && a.pgen == gen && !(keySlot b m).revoked

/-- A slot's old key is invalidated: everything minted from it becomes revoked-pending, through `fuel` generations, and
a child being minted is abandoned with result 3 (R403, R410). -/
def invalidate : Nat → Nat → Nat → Blk → Blk
  | 0, _, _, b => b
  | fuel + 1, n, gen, b =>
    let b := forEach (sAll n) (fun m b => match (keySlot b m).pend with
      | some a => if a.parent = sNum n ∧ a.pgen = gen then srmAbandon m 3 b else b
      | none => b) b
    forEach (childrenOf b n gen) (fun m b =>
      let k := keySlot b m
      invalidate fuel m k.gov.gen (setKey m { k with revoked := true } b)) b

/-- Whether a field slot's new key waits for adoption on a pair (R406). -/
def needsAdopt (b : Blk) (n : Nat) : Bool :=
  paired b && (n == 65 || n == 66 || (64 < n && rd b MESH.KEY.SLOT == n - 64))

/-- KEY_SELFTEST_DONE: steps 2 to 4 of R400. -/
def doSelftest (n : Nat) (b : Blk) : Blk :=
  let k := keySlot b n
  match k.pend with
  | none => b
  | some a =>
    if !selfTest a (k.cell a.cell) then srmAbandon n 5 b
    else
      let wait := needsAdopt b n
      let k := { k with
        pend := none, w0 := some a, w1 := some a, faulted := false, old := true, adopt := wait,
        use := if wait then k.use else a }
      let b := setKey n k b
      if needsAdopt b n && isActive b then
        ticketed 2 (BitVec.ofNat 8 (n - 64) :: le 4 a.keyId) b
      else b

/-- A key committed comes into use at the release tick of its adoption (R406). -/
def srmAdopt (n keyId : Nat) (b : Blk) : Blk :=
  let k := keySlot b n
  if k.adopt ∧ k.gov.keyId = keyId then setKey n { k with adopt := false, use := k.gov } b else b

/-- KEY_OLD_ZEROISE: step 5 of R400. -/
def doOldZeroise (n : Nat) (b : Blk) : Blk :=
  let k := keySlot b n
  if !k.old ∨ k.adopt ∨ inFlight b n then b
  else
    let a := k.gov
    let c := 1 - a.cell
    let had := !(k.cell c).isEmpty
    let b := setKey n { k.put c [] with old := false } b
    let b := if had then invalidate 64 n ((a.gen + 2 ^ 16 - 1) % 2 ^ 16) (sZeroised n 1 b) else b
    sRaise n 0 (sResult n 0 b)

/-- Revocation of a slot (R403, R410): an update is abandoned, and the slot and its children become revoked-pending, those
of an old key not yet zeroised too. -/
def srmRevoke (n : Nat) (b : Blk) : Blk :=
  let k := keySlot b n
  if sNum n = 0 then sRefuse n 9 b
  else if k.revoked ∨ (k.gov.type = 0 ∧ k.pend.isNone ∧ !k.faulted) then sRefuse n 3 b
  else
    let b := srmAbandon n 3 b
    let k := keySlot b n
    let b := if k.old then invalidate 64 n ((k.gov.gen + 2 ^ 16 - 1) % 2 ^ 16) b else b
    let b := setKey n { k with revoked := true, old := false, adopt := false, faulted := false } b
    sResult n 0 (invalidate 64 n k.gov.gen b)

/-- A slot's cells are zeroised and its commit words written empty (R403). -/
def slotEmpty (n : Nat) (b : Blk) : Blk :=
  let k := keySlot b n
  let a : KeyAttr := { gen := (k.gov.gen + 1) % 2 ^ 16, cell := k.gov.cell }
  setKey n { w0 := some a, w1 := some a, use := a } (sZeroised n 2 b)

/-- REVOKED_ZEROISE: after the last operation on a revoked-pending slot. -/
def doRevokedZeroise (n : Nat) (b : Blk) : Blk :=
  if !(keySlot b n).revoked ∨ inFlight b n then b
  else sRaise n 3 (sRaise n 2 (slotEmpty n b))

/-- The derivation of a minted key (R396), `tries` counter values at most. -/
def mintKey (ikm info : List Byte) (t : Nat) : Nat → Nat → List Byte
  | 0, _ => []
  | tries + 1, ctr =>
    let o := hkdf ikm (info ++ [BitVec.ofNat 8 ctr]) (keyBytes t)
    if t = 5 ∧ (ofBE o = 0 ∨ pN ≤ ofBE o) then mintKey ikm info t tries (ctr + 1) else o

/-- The fuse root's bytes. -/
def rootKey (s : Side) : List Byte := be 32 (Config.fuseRoot s).toNat

/-- MINT_GO (R396). -/
def actMint (v : Nat) (b : Blk) : Blk :=
  if !v.testBit 0 then b
  else
    let par := rd b SRM.MINT_CFG.PARENT
    let d := rd b SRM.MINT_CFG.DEST
    let t := rd b SRM.MINT_CFG.TYPE
    let e := rd b SRM.MINT_CFG.ENGINE
    let u := rd b SRM.MINT_CFG.USAGE
    let p := keySlot b par
    if par ≠ 0xFF ∧ (63 < par ∨ p.state ≠ 1) then sRefuse d 3 b
    else if par = 0xFF ∧ (isOn b SRM.STAT.OPEN ∨ !isOn b SRM.STAT.ROOT_OK) then sRefuse d 8 b
    else if d = 0 then sRefuse d 9 b
    else if t = 0 ∨ 6 ≤ t ∨ !attrOk d t e u then sRefuse d 2 b
    else if par ≠ 0xFF ∧ !(p.gov.type = 4 ∨ p.gov.type = 5 ∧ p.gov.usage.testBit 5) then sRefuse d 2 b
    else if slotBusy b d then sRefuse d 3 b
    else
      let label := (List.range 4).flatMap fun i => le 4 (rd b (SRM.LABEL.LABEL i))
      let info := label ++ [BitVec.ofNat 8 t, BitVec.ofNat 8 e, BitVec.ofNat 8 u, BitVec.ofNat 8 d]
      let ikm := if par = 0xFF then rootKey .hostSide
        else if t = 5 ∧ p.gov.type = 5 then (pubOf (ofBE p.key)).take 32 else p.key
      let key := mintKey ikm info t 16 0
      let b := if par = 0xFF then b else sUsed par b
      srmBegin d { type := t, engine := e, usage := u, parent := par, pgen := if par = 0xFF then 0 else p.gov.gen,
                   keyId := keyIdOf t key } key b

/-- The boot ROM mints slot 0 of a side while it is empty and OPEN = 0 (R396). -/
def bootMint (s : Side) (b : Blk) : Blk :=
  let n := if s = .hostSide then 0 else 64
  let k := keySlot b n
  if k.gov.type ≠ 0 ∨ isOn b (sFld n SRM.STAT.OPEN) ∨ !isOn b (sFld n SRM.STAT.ROOT_OK) then b
  else
    let label : List Byte := [0x4B, 0x61, 0x6C, 0x69, 0x74, 0x69, 0x6C, 0x20, 0x69, 0x6D, 0x70, 0x6F, 0x72, 0x74, 0, 0]
    let key := mintKey (rootKey s) (label ++ [5, 4, 0x20, 0]) 5 16 0
    let a : KeyAttr :=
      { cell := 1 - k.gov.cell, gen := (k.gov.gen + 1) % 2 ^ 16, type := 5, engine := 4, usage := 0x20, parent := 0xFF,
        keyId := keyIdOf 5 key }
    sRaise n 0 (setKey n { k.put a.cell key with w0 := some a, w1 := some a, use := a } b)

/-- KW_SEND (R397). -/
def actKwSend (v : Nat) (b : Blk) : Blk :=
  if !v.testBit 7 then b
  else
    let s := v % 64
    let k := keySlot b s
    if k.state ≠ 1 then sRefuse s 3 b
    else if k.gov.type ≠ 7 ∨ !k.gov.usage.testBit 6 then sRefuse s 2 b
    else sResult s 0 (emit (sUsed s b) (.keyWrap k.key))

/-! Blobs (R398, R399). -/

/-- A byte of a blob. -/
def bAt (l : List Byte) (i : Nat) : Nat := (l.getD i 0).toNat

/-- A part of a byte list. -/
def slice (l : List Byte) (i n : Nat) : List Byte := (l.drop i).take n

/-- The K of a blob. -/
def blobK (l : List Byte) : Nat := keyBytes (bAt l 4)

/-- Check 1: magic, length, reserved bytes and a DEST of the side. -/
def blobForm (host : Bool) (l : List Byte) : Bool :=
  let auth := (bAt l 3).testBit 0
  ofLE (slice l 0 2) == 0x4B57 && decide (bAt l 2 < if host then 64 else 16) && decide (bAt l 3 ≤ 1) && bAt l 7 == 0 &&
    (slice l 10 6).all (· == 0) && ofLE (slice l 8 2) == l.length &&
    l.length == 120 + blobK l + (if auth then 64 else 0)

/-- The key in a blob (R397); none where the tag fails or there is no import key. -/
def blobOpen (b : Blk) (host : Bool) (l : List Byte) : Option (List Byte) :=
  let imp := keySlot b (if host then 0 else 64)
  let text : List Byte := [0x4B, 0x61, 0x6C, 0x69, 0x74, 0x69, 0x6C, 0x20, 0x6B, 0x65, 0x79, 0x20, 0x77, 0x72, 0x61, 0x70]
  if imp.gov.type ≠ 5 then none
  else match ecdh (ofBE imp.key) (slice l 28 64) with
    | none => none
    | some z =>
      let kek := hkdf z (text ++ l.take 28) 32
      gcmOpen kek (slice l 92 12) (l.take 92) (slice l 104 (blobK l)) (slice l (104 + blobK l) 16)

/-- Whether a blob's signature verifies under the key in use of the receiver's slot 1. -/
def blobSigned (b : Blk) (host : Bool) (l : List Byte) : Bool :=
  let s1 := keySlot b (if host then 1 else 65)
  let m := 120 + blobK l
  (bAt l 3).testBit 0 && !s1.revoked && !s1.faulted && s1.use.type == 6 && ecdsaVerify s1.key (sha256 (l.take m)) (slice l m 64)

/-- The checks of R399 in order: the result of the first failure, or 0. -/
def blobCheck (b : Blk) (host : Bool) (l : List Byte) : Nat :=
  let n := bAt l 2 + if host then 0 else 64
  let nonce := ofLE (slice l 16 8)
  let auth := (bAt l 3).testBit 0
  if !blobForm host l then 1
  else if bAt l 2 = 0 then 9
  else if bAt l 4 = 7 ∨ !attrOk n (bAt l 4) (bAt l 5) (bAt l 6) then 2
  else if isOn b (sFld n SRM.STAT.OPEN) then 8
  else if slotBusy b n then 3
  else if nonce ≤ (if host then b.srm.nonce else rd64 b FSRM.KW_NONCE.NONCE) then 7
  else if !host ∧ b.acc.sealed ∧ bAt l 2 < 3 ∧ !blobSigned b host l then 6
  else if auth ∧ !blobSigned b host l then 6
  else match blobOpen b host l with
    | none => 4
    | some key => if keyIdOf (bAt l 4) key = ofLE (slice l 24 4) then 0 else 5

/-- A blob enters its slot or is refused (R399). -/
def blobEnter (host : Bool) (l : List Byte) (b : Blk) : Blk :=
  let n := bAt l 2 % 64 + if host then 0 else 64
  let r := blobCheck b host l
  let nonce := ofLE (slice l 16 8)
  let b := if r = 0 ∨ r = 5 then
      (if host then { b with srm := { b.srm with nonce := nonce } } else wr64 b FSRM.KW_NONCE.NONCE nonce)
    else b
  if r ≠ 0 then sRefuse n r b
  else srmBegin n { type := bAt l 4, engine := bAt l 5, usage := bAt l 6, parent := 0xFE, keyId := ofLE (slice l 24 4) }
    ((blobOpen b host l).getD []) b

/-! The host crypto engine (R405). -/

/-- What an operation comes to: result, bytes written to DST, and the replacement it starts. -/
structure OpOut where
  res : Nat
  out : List Byte := []
deriving DecidableEq, Repr

/-- The result of an operation on its source bytes with a key. -/
def opCompute (code : Nat) (key src : List Byte) (ext : Bool) : OpOut :=
  let al := ofLE (slice src 12 4)
  let iv := src.take 12
  let aad := slice src 16 al
  let dat := src.drop (16 + al)
  match code with
  | 1 => if src.length < 16 + al then { res := 1 } else { res := 0, out := gcmSeal key iv aad dat }
  | 2 =>
    if src.length < 32 + al then { res := 1 }
    else
      let m := dat.length - 16
      match gcmOpen key iv aad (dat.take m) (dat.drop m) with
      | some p => { res := 0, out := p }
      | none => { res := 4, out := List.replicate m 0 }
  | 3 => { res := 0, out := hmac key src }
  | 4 => { res := 0, out := sha256 src }
  | 5 => if src.length ≠ 32 then { res := 1 } else { res := 0, out := ecdsaSign (ofBE key) src }
  | 6 =>
    let pub := if ext then src.take 64 else key
    let m := if ext then src.drop 64 else src
    if m.length ≠ 96 then { res := 1 }
    else { res := if ecdsaVerify pub (m.take 32) (m.drop 32) then 0 else 5 }
  | _ => { res := 1 }

/-- The USAGE bit a code asks for; 8 none. -/
def opUsage (code : Nat) : Nat := match code with
  | 1 => 2
  | 2 => 3
  | 3 => 4
  | 5 => 0
  | 6 => 1
  | 7 => 5
  | _ => 8

/-- Whether a code takes a key from SLOT. -/
def opKeyed (code s : Nat) : Bool := decide (opUsage code < 8) && !(code == 6 && s == 0xFF)

/-- Whether the slot of an operation may serve it: 0, or the result of the refusal. -/
def opAllowed (b : Blk) (code s : Nat) : Nat :=
  if !opKeyed code s then 0
  else
    let k := keySlot b s
    if 63 < s ∨ k.state ≠ 1 ∧ k.state ≠ 2 ∨ k.faulted ∨ k.gov.type = 0 then 3
    else if k.gov.engine ≠ 0 ∨ !k.gov.usage.testBit (opUsage code) then 2 else 0

/-- An operation is refused: it never runs. -/
def opRefuse (res : Nat) (b : Blk) : Blk :=
  let b := incSat (wr (wr (wrB b SRM.OP_STAT.BUSY false) SRM.OP_STAT.RESULT res) SRM.OP_STAT.OUT_LEN 0) SRM.CNT.REFUSED
  raise pgSRM 1 (if res = 2 then raise pgSRM 4 b else b)

/-- An operation is taken: BUSY until CRYPTO_OP_COMPLETE. -/
def opTake (s res : Nat) (out : List Byte) (b : Blk) : Blk :=
  let o : CryptoOp := { slot := s, result := res, out := out, dst := rd64 b SRM.OP_DST.IOVA }
  wrB { b with srm := { b.srm with op := some o } } SRM.OP_STAT.BUSY true

/-- A key enters a slot from the engine: an ECDH result (7), a blob (8) or a load in clear (9). The result of the
request. -/
def opEnter (code s : Nat) (src : List Byte) (b : Blk) : Blk :=
  match code with
  | 7 =>
    let d := rd b SRM.OP_CTL.DSLOT
    let k := keySlot b s
    if d = 0 then sRefuse d 9 b
    else if slotBusy b d then sRefuse d 3 b
    else match ecdh (ofBE k.key) src with
      | none => sRefuse d 1 b
      | some z => srmBegin d { type := 4, engine := 0, usage := 0x20, parent := s, pgen := k.gov.gen, keyId := keyIdOf 4 z } z b
  | 8 => blobEnter true src b
  | _ =>
    let d := rd b SRM.MINT_CFG.DEST
    let t := rd b SRM.MINT_CFG.TYPE
    if (t ≠ 6 ∧ t ≠ 7) ∨ !attrOk d t (rd b SRM.MINT_CFG.ENGINE) (rd b SRM.MINT_CFG.USAGE) then sRefuse d 2 b
    else if d = 0 then sRefuse d 9 b
    else if (t = 6 ∧ src.length ≠ 64) ∨ (t = 7 ∧ (248 < src.length ∨ src.length < 28)) then sRefuse d 1 b
    else if slotBusy b d then sRefuse d 3 b
    else srmBegin d { type := t, engine := rd b SRM.MINT_CFG.ENGINE, usage := rd b SRM.MINT_CFG.USAGE, parent := 0xFE,
                      keyId := keyIdOf t src } src b

/-- OP_CTL.GO (R405): a translation fault of its source gives result 3 (R452), poison result 11. -/
def actOp (v : Nat) (b : Blk) : Blk :=
  if !v.testBit 31 then b
  else
    let code := rd b SRM.OP_CTL.CODE
    let s := rd b SRM.OP_CTL.SLOT
    let r := opAllowed b code s
    if code = 0 ∨ 9 < code then opRefuse 1 b
    else if r ≠ 0 then opRefuse r b
    else
      let b := if opKeyed code s then sUsed s b else b
      let slot := if opKeyed code s then s else 64
      let sr := streamRead b 35 (rd64 b SRM.OP_SRC.IOVA) (rd b SRM.OP_LEN.LEN)
      let b := sr.blk
      if sr.cause ≠ 0 then opTake slot 3 [] b
      else if sr.bad.isSome then opTake slot 11 [] b
      else if 7 ≤ code then
        let b := opEnter code s sr.bytes b
        opTake slot (rd b SRM.LD_STAT.RESULT) [] b
      else
        let o := opCompute code (keySlot b s).key sr.bytes (s == 0xFF)
        opTake slot o.res o.out b

/-- CRYPTO_OP_COMPLETE: the result is written and BUSY clears; a translation fault of the destination gives result 3
(R452). -/
def doOpComplete (b : Blk) : Blk :=
  match b.srm.op with
  | none => b
  | some o =>
    let b := { b with srm := { b.srm with op := none } }
    let w := if o.out.isEmpty then (b, 0, 0) else streamWrite b 35 o.dst o.out
    let b := w.1
    let b := wr b SRM.OP_STAT.RESULT (if w.2.1 ≠ 0 then 3 else o.result)
    wrB (wr b SRM.OP_STAT.OUT_LEN (if w.2.1 ≠ 0 then 0 else o.out.length)) SRM.OP_STAT.BUSY false

/-! Anchors and floor (R408, R409). -/

/-- A side's programmed, unrevoked anchors. -/
def anchorsOk (b : Blk) (n : Nat) : List Nat :=
  (List.range 4).filter fun i => rdBit b (sFld n SRM.STAT.ANCH_PROG) i && !rdBit b (sFld n SRM.STAT.ANCH_REV) i

/-- ANCH_CTL: `n` is 0 for the host side and 64 for the field side. -/
def actAnchor (n v : Nat) (b : Blk) : Blk :=
  let i := v % 4
  let b := if v.testBit 2 then
      let h := (List.range 8).flatMap fun j => le 4 (rd b (sFld n (SRM.ANCH_STAGE.HASH j)))
      let key := i + if n = 0 then 0 else 4
      let b := { b with srm := { b.srm with anchors := Tab.put (fun _ => []) b.srm.anchors key h } }
      let b := wrBit b (sFld n SRM.STAT.ANCH_PROG) i true
      if n = 0 then raise pgSRM 6 (wr b SRM.LD_STAT.RESULT 0) else b
    else b
  if v.testBit 3 then
    let ok := anchorsOk b n
    if ok.contains i ∧ ok.length = 1 then sRefuse n 9 b
    else
      let b := wrBit b (sFld n SRM.STAT.ANCH_REV) i true
      if n = 0 then raise pgSRM 6 (wr b SRM.LD_STAT.RESULT 0) else b
  else b

/-- ROLL_ADV.GO. -/
def actRollAdv (n v : Nat) (b : Blk) : Blk :=
  if !v.testBit 0 then b
  else if rd b (sFld n SRM.BOOT_SVN.SVN) ≤ rd b (sFld n SRM.STAT.FLOOR) then sRefuse n 9 b
  else
    let b := wr b (sFld n SRM.STAT.FLOOR) (min 64 (rd b (sFld n SRM.STAT.FLOOR) + 1))
    if n = 0 then raise pgSRM 6 (wr b SRM.LD_STAT.RESULT 0) else b

/-- SRM.REVOKE and FSRM.REVOKE. -/
def actRevoke (host : Bool) (v : Nat) (b : Blk) : Blk :=
  if v.testBit 7 then srmRevoke (if host then v % 64 else 64 + v % 16) b else b

/-- Whether a slot's key is lost with its parent's: the parent's GEN is not the slot's PGEN, or the parent's own key is
lost so (R401), followed through `fuel` parents. -/
def orphan (b : Blk) (n0 : Nat) : Nat → Nat → Bool
  | 0, _ => false
  | fuel + 1, n =>
    let a := (keySlot b n).gov
    decide (a.type ≠ 0 ∧ a.parent < 64) &&
      ((keySlot b (n0 + a.parent)).gov.gen != a.pgen || orphan b n0 fuel (n0 + a.parent))

/-- What a side restores at power-up (R401). -/
def srmRestore (s : Side) (b : Blk) : Blk :=
  let n0 := if s = .hostSide then 0 else 64
  let b := forEach (sAll n0) (fun n b =>
    let k := keySlot b n
    if k = {} then b
    else
      let lost := k.w0.isNone && k.w1.isNone
      let a := k.gov
      let k := { k.put (1 - a.cell) [] with w0 := some a, w1 := some a, use := a, pend := none, old := false, adopt := false }
      let b := setKey n { k with faulted := k.faulted || lost } b
      if lost then sRaise n 5 b else b) b
  forEach ((sAll n0).filter fun n => orphan b n0 64 n) (fun n b => sRaise n 3 (slotEmpty n b)) b

/-! The meter's keys (R249, R404). -/

/-- The signing engine signs bytes with the key of slot 2 in use: KEY_ID and the signature of the record that carries
it; zeros and field event 71 where the slot is unusable. -/
def fsignKey (b : Blk) : Option (Nat × Nat) :=
  let k := keySlot b 66
  if k.revoked ∨ k.faulted ∨ k.use.type ≠ 5 then none else some (k.use.keyId, ofBE k.key)

/-- The command-verification key in use; none where slot 1 is unusable. -/
def fverKey (b : Blk) : Option (List Byte) :=
  let k := keySlot b 65
  if k.revoked ∨ k.faulted ∨ k.use.type ≠ 6 then none else some k.key

def execMintGo (i : Init) (s : State) : Out := run (writeAct i false SRM.MINT_GO.GO.a 1 actMint) s

def execKeySelftestDone (n : Fin 80) (s : State) : Out := run (doSelftest n.val) s

def execKeyOldZeroise (n : Fin 80) (s : State) : Out := run (doOldZeroise n.val) s

def execRevoke (i : Init) (v : Word) (s : State) : Out :=
  run (if i.side = .hostSide then writeAct i false SRM.REVOKE.GO.a v (actRevoke true)
    else writeAct i false FSRM.REVOKE.GO.a v (actRevoke false)) s

def execRevokedZeroise (n : Fin 80) (s : State) : Out := run (doRevokedZeroise n.val) s

def execKwSend (i : Init) (v : Word) (s : State) : Out := run (writeAct i false SRM.KW_SEND.GO.a v actKwSend) s

def execKeyWrap (blob : List Byte) (s : State) : Out := run (blobEnter false blob) s

/-- The word of OP_CTL that starts an operation. -/
def opWord (code slot dslot : Nat) : Word := BitVec.ofNat 32 (2 ^ 31 + code * 2 ^ 20 + dslot % 64 * 2 ^ 8 + slot % 256)

/-- OP_CTL.GO with a code. -/
def startOp (i : Init) (code slot dslot : Nat) (b : Blk) : Blk :=
  writeAct i false SRM.OP_CTL.GO.a (opWord code slot dslot) actOp b

def execAesGcmEncrypt (i : Init) (slot : BitVec 8) (s : State) : Out := run (startOp i 1 slot.toNat 0) s

def execAesGcmDecrypt (i : Init) (slot : BitVec 8) (s : State) : Out := run (startOp i 2 slot.toNat 0) s

def execHmacSha256 (i : Init) (slot : BitVec 8) (s : State) : Out := run (startOp i 3 slot.toNat 0) s

def execSha256 (i : Init) (s : State) : Out := run (startOp i 4 0 0) s

def execEcdsaSign (i : Init) (slot : BitVec 8) (s : State) : Out := run (startOp i 5 slot.toNat 0) s

def execEcdsaVerify (i : Init) (slot : BitVec 8) (s : State) : Out := run (startOp i 6 slot.toNat 0) s

def execEcdh (i : Init) (slot : BitVec 8) (dslot : BitVec 6) (s : State) : Out :=
  run (startOp i 7 slot.toNat dslot.toNat) s

def execImportBlob (i : Init) (s : State) : Out := run (startOp i 8 0 0) s

def execLoadInClear (i : Init) (s : State) : Out := run (startOp i 9 0 0) s

def execCryptoOpComplete (s : State) : Out := run doOpComplete s

def execAnchorProgram (i : Init) (idx : Fin 4) (s : State) : Out :=
  run (if i.side = .hostSide then writeAct i false SRM.ANCH_CTL.PROG.a (BitVec.ofNat 32 (4 + idx.val)) (actAnchor 0)
    else writeAct i false FSRM.ANCH_CTL.PROG.a (BitVec.ofNat 32 (4 + idx.val)) (actAnchor 64)) s

def execAnchorRevoke (i : Init) (idx : Fin 4) (s : State) : Out :=
  run (if i.side = .hostSide then writeAct i false SRM.ANCH_CTL.PROG.a (BitVec.ofNat 32 (8 + idx.val)) (actAnchor 0)
    else writeAct i false FSRM.ANCH_CTL.PROG.a (BitVec.ofNat 32 (8 + idx.val)) (actAnchor 64)) s

def execRollAdv (i : Init) (s : State) : Out :=
  run (if i.side = .hostSide then writeAct i false SRM.ROLL_ADV.GO.a 1 (actRollAdv 0)
    else writeAct i false FSRM.ROLL_ADV.GO.a 1 (actRollAdv 64)) s

end Sys2Proof.Machine
end

