-- ==== Sys2Proof/Machine/Time.lean ====
section
/-!
DEFINITION. Time (chapter 9): the host domains with their addend, steps, sources and servo (R200 to R209), the passage of
time, captures, PPS_OUT and the RTC (R215 to R217). TIME_SYNC at the field is in FieldTime.lean.
-/

namespace Sys2Proof.Machine

open Sys2Proof.Num

/-- The event bits of a domain: 0 source lost, 1 locked, 2 step applied, 3 step required, 4 clamped (R220). -/
def timeEv (d k : Nat) (b : Blk) : Blk := raise pgTIME (5 * d + k) b

/-- The committed addend of a domain in 2^-32 ns (R203). -/
def addendOf (b : Blk) (d : Nat) : Nat := rd b (TIME.DOM.ADD_HI.INT d) * 2 ^ 32 + rd b (TIME.DOM.ADD_LO.FRAC d)

/-- Commit an addend. -/
def setAddend (d v : Nat) (b : Blk) : Blk :=
  wr (wr b (TIME.DOM.ADD_LO.FRAC d) (v % 2 ^ 32)) (TIME.DOM.ADD_HI.INT d) (v / 2 ^ 32)

/-- E of a domain moves on by 2^-32 ns units; a change of the counter's wrap raises its event (R200, R220). -/
def advanceDom (d delta : Nat) (b : Blk) : Blk :=
  let x := domOf b d
  let e := (x.e + delta) % 2 ^ 96
  let b := setDom d { x with e := e } b
  if e / 2 ^ 64 ≠ x.e / 2 ^ 64 then raise pgTIME (13 + d) b else b

/-- A field copy moves on by a number of its 2.5 ns ticks (R210). -/
def advanceCopy (d ticks : Nat) (b : Blk) : Blk :=
  let x := copyOf b d
  setCopy d { x with e := (x.e + ticks * x.rate) % 2 ^ 96, inc := x.inc + ticks * x.rate } b

/-- The unlock windows run down (R33): host pages by FAB cycles, field pages by CTRL cycles. -/
def runLocks (fab ctrl : Nat) (b : Blk) : Blk :=
  let f : Nat × LockSt → Option (Nat × LockSt) := fun e =>
    let n := if e.1 < 0x100000 then fab else ctrl
    let l := if e.2.remain ≤ n then { e.2 with win := Option.none, remain := 0 } else { e.2 with remain := e.2.remain - n }
    if l = {} then Option.none else some (e.1, l)
  { b with acc := { b.acc with locks := b.acc.locks.filterMap f } }

/-- The passage of `n` ticks of the 250 MHz TIME island, 4 ns each. -/
def passTime (n : Nat) (b : Blk) : Blk :=
  let b := if b.boot.host.lost.testBit 2 then b
    else advanceDom 1 (n * addendOf b 1) (advanceDom 0 (n * addendOf b 0) b)
  let b := advanceCopy 1 (n * 8 / 5) (advanceCopy 0 (n * 8 / 5) b)
  let b := runLocks (n * 12 / 5) (n * 8 / 5) b
  { b with time := { b.time with rtc := b.time.rtc + 4 * n, clk := b.time.clk + 4 * n } }

/-- The time to a domain's next counter wrap passes (R200). -/
def doWrap (d : Nat) (b : Blk) : Blk :=
  let x := domOf b d
  let add := max 1 (addendOf b d)
  passTime ((2 ^ 64 - x.e % 2 ^ 64 + add - 1) / add) b

/-- Apply a step of a domain (R204): E, SET, STEPS, LAST_STEP and the step event; it is mirrored at once (R211). -/
def applyStep (d : Nat) (v : Int) (b : Blk) : Blk :=
  let x := domOf b d
  let e := ((x.e : Int) + v * 2 ^ 32) % 2 ^ 96
  let wrapped := decide (e.toNat / 2 ^ 64 ≠ x.e / 2 ^ 64)
  let b := setDom d { x with e := e.toNat, stepDue := some (x.stepDue.getD 0 + v) } b
  let b := wr64 b (TIME.DOM.LAST_STEP_LO.LO d) (ofInt 64 v)
  let b := wrB (incSat b (TIME.DOM.STAT.STEPS d)) (TIME.DOM.STAT.SET d) true
  let b := when wrapped (raise pgTIME (13 + d)) (wrB b (TIME.DOM.STAT.STEP_REQ d) false)
  timeEv d 2 b

/-- STEP_GO (R204). -/
def actStepGo (v : Nat) (b : Blk) : Blk :=
  if v.testBit 0 then
    applyStep (v / 2 % 2) (toInt 64 (rd b TIME.STEP_LO.LO + 2 ^ 32 * rd b TIME.STEP_HI.HI)) b
  else b

/-- A write of ADD_LO goes to the shadow (R203); the committed fraction stays. -/
def doAddLo (i : Init) (d : Nat) (v : Word) (b : Blk) : Blk :=
  let old := rd b (TIME.DOM.ADD_LO.FRAC d)
  writeAct i false (TIME.DOM.ADD_LO.FRAC d).a v (fun x b =>
    let b := wr b (TIME.DOM.ADD_LO.FRAC d) old
    setDom d { domOf b d with shadow := x } b) b

/-- A write of ADD_HI commits both words; a value out of 4 ns ± 1,000 ppm leaves both as they were (R203). -/
def doAddHi (i : Init) (d : Nat) (v : Word) (b : Blk) : Blk :=
  let old := addendOf b d
  writeAct i false (TIME.DOM.ADD_HI.INT d).a v (fun x b =>
    let new := x % 256 * 2 ^ 32 + (domOf b d).shadow
    setAddend d (if 0x03FEF9DB23 ≤ new ∧ new ≤ 0x04010624DD then new else old) b) b

/-- LOCKED goes to 0: the loss event if it was 1 (R207). -/
def loseLock (d : Nat) (b : Blk) : Blk :=
  let was := isOn b (TIME.DOM.STAT.LOCKED d)
  let b := wrB (wrB b (TIME.DOM.STAT.LOCKED d) false) (TIME.DOM.STAT.HOLD d) true
  if was then timeEv d 0 b else b

/-- LOCKED goes to 1: the lock event if it was 0 (R207). -/
def gainLock (d : Nat) (b : Blk) : Blk :=
  let was := isOn b (TIME.DOM.STAT.LOCKED d)
  let b := wrB (wrB b (TIME.DOM.STAT.LOCKED d) true) (TIME.DOM.STAT.HOLD d) false
  if was then b else timeEv d 1 b

/-- What a write of DOM.SRC does (R205, R207): a change of source holds the addend and starts its servo with F = 0; under
source 1 PTP_LOCK is copied to LOCKED. -/
def actSrc (d oldSrc : Nat) (b : Blk) : Blk :=
  let src := rd b (TIME.DOM.SRC.SRC d)
  let b := if src ≠ oldSrc then
      let b := loseLock d b
      setDom d { domOf b d with freq := 0, good := 0, hist := [] } b
    else b
  if src = 1 then (if isOn b (TIME.DOM.SRC.PTP_LOCK d) then gainLock d b else loseLock d b) else b

def doSrcWrite (i : Init) (d : Nat) (v : Word) (b : Blk) : Blk :=
  let old := rd b (TIME.DOM.SRC.SRC d)
  writeAct i false (TIME.DOM.SRC.SRC d).a v (fun _ => actSrc d old) b

/-- Whether this twin is a standby (R39): a pair's module that does not drive the outputs. -/
def isStandby (b : Blk) : Bool := decide (rd b SYS.MODE.PAIR ≠ 0) && !isOn b SYS.MODE.ACTIVE

/-- Whether the servo may step a domain by itself (R208). -/
def mayAutoStep (b : Blk) (d : Nat) : Bool :=
  isOn b (TIME.DOM.SRC.AUTO_STEP d) && (decide (d ≠ b.time.hostFdom) || !anyOwned b)

/-- Put a servo update's rate in force: the addend 4 ns (1 + num/den), remembered for holdover (R206, R207). -/
def servoRate (d : Nat) (num : Int) (den : Nat) (b : Blk) : Blk :=
  let add := (2 ^ 34 + rdiv (2 ^ 34 * num) den).toNat
  let b := setAddend d add b
  setDom d { domOf b d with hist := (add :: (domOf b d).hist).take 16 } b

/-- One servo update with a measured offset in ns (R206 to R209). -/
def doServo (d : Nat) (o : Int) (b : Blk) : Blk :=
  let src := rd b (TIME.DOM.SRC.SRC d)
  if !isStandby b && decide (src < 2) then b
  else
    let tau : Nat := if src = 3 ∧ !isStandby b then 10 ^ 9 else 10 ^ 6
    let b := wrS b (TIME.DOM.OFFSET.O d) o
    let slew := rd b (TIME.DOM.SRV.SLEW_PPM d)
    let den := 16 * tau
    let lim : Int := slew * 16 * tau / 10 ^ 6
    let big := decide (rd b (TIME.DOM.STEP_THR.NS d) < o.natAbs)
    if big || !isOn b (TIME.DOM.STAT.SET d) then
      if mayAutoStep b d then applyStep d o (setDom d { domOf b d with good := 0 } b)
      else
        let b := timeEv d 3 (wrB b (TIME.DOM.STAT.STEP_REQ d) true)
        let b := setDom d { domOf b d with good := 0 } b
        timeEv d 4 (wrB (servoRate d (if o < 0 then -lim else lim) den b) (TIME.DOM.STAT.CLAMP d) true)
    else
      let x := domOf b d
      let f := x.freq + o
      let num := f + 4 * o
      let clamped := decide (lim < num ∨ num < -lim)
      let b := setDom d { x with freq := f } b
      let b := servoRate d (clamp (-lim) lim num) den b
      let b := wrB (wrB b (TIME.DOM.STAT.CLAMP d) clamped) (TIME.DOM.STAT.STEP_REQ d) false
      let b := when clamped (timeEv d 4) b
      let good := if o.natAbs ≤ rd b (TIME.DOM.SRV.LOCK_NS d) then x.good + 1 else 0
      let b := setDom d { domOf b d with good := good } b
      if 16 ≤ good then gainLock d b else b

/-- LOSS_CNT consecutive missing updates (R207): holdover on the mean of the last addends. -/
def doSourceLost (d : Nat) (b : Blk) : Blk :=
  if !isStandby b && decide (rd b (TIME.DOM.SRC.SRC d) < 2) then b
  else
    let h := (domOf b d).hist
    let b := loseLock d b
    let b := setDom d { domOf b d with good := 0 } b
    match h with
    | [] => b
    | _ => setAddend d (rdivN (sumN h) h.length) b

/-- The host sends TIME_SYNC: every 1 ms, and at once with a step (R210, R211). -/
def doTimeSyncSend (b : Blk) : Blk :=
  let ea := eHost b 0
  let eb := eHost b 1
  let sets := rd b (TIME.DOM.STAT.SET 0) + 2 * rd b (TIME.DOM.STAT.SET 1)
  match (domOf b 0).stepDue, (domOf b 1).stepDue with
  | some v, _ => emit (setDom 0 { domOf b 0 with stepDue := none } b) (.timeSync ea eb 1 sets v)
  | none, some v => emit (setDom 1 { domOf b 1 with stepDue := none } b) (.timeSync ea eb 2 sets v)
  | none, none => emit b (.timeSync ea eb 0 sets 0)

/-- A capture unit of a side: its FIFO's number. -/
def capNo (field : Bool) (c : Nat) : Nat := if field then 8 + c else c

/-- The registers of a capture unit: CCFG. -/
def capReg (field : Bool) (c : Nat) : Nat := if field then pgFTIME + 0x80 + 0x10 * c else pgTIME + 0x100 + 0x10 * c

/-- A source edge of a capture unit (R215). -/
def doCaptureEdge (field : Bool) (c : Nat) (b : Blk) : Blk :=
  if rd b ⟨capReg field c, 0, 3⟩ = 0 ∨ (field ∧ 4 ≤ c) then b
  else
    let q := Tab.at' (fun _ => []) b.time.caps (capNo field c)
    let ea := if field then eField b 0 else eHost b 0
    let eb := if field then eField b 1 else eHost b 1
    if 4 ≤ q.length then
      let b := incSat b ⟨capReg field c + 0xC, 16, 8⟩
      if field then b else raise pgTIME 11 b
    else
      let e : CapEntry := { ta := ea % 2 ^ 32, tb := eb % 2 ^ 32, wa := ea / 2 ^ 32 % 256, wb := eb / 2 ^ 32 % 256 }
      let b := { b with time := { b.time with caps := Tab.put (fun _ => []) b.time.caps (capNo field c) (q ++ [e]) } }
      if field then raise pgFTIME 1 b else raise pgTIME 10 b

/-- The word CINFO shows: the oldest entry and the FIFO's depth. -/
def cinfo (b : Blk) (field : Bool) (c : Nat) : Nat :=
  let q := Tab.at' (fun _ => []) b.time.caps (capNo field c)
  let ovf := rd b ⟨capReg field c + 0xC, 16, 8⟩
  match q with
  | [] => ovf * 2 ^ 16
  | e :: _ => 2 ^ 31 + q.length * 2 ^ 28 + ovf * 2 ^ 16 + e.wb * 2 ^ 8 + e.wa

/-- A read of CINFO advances the FIFO (R215). On a frozen page it shows what the page held, and the FIFO advances all the
same (R30: the block goes on); during a soft reset it reads zero and nothing advances (R29). -/
def doCaptureRead (i : Init) (c : Nat) (b : Blk) : Blk :=
  let field := decide (i.side = .fieldSide)
  if field ∧ 4 ≤ c then answer b (.value 0)
  else
    let pg := if field then pgFTIME else pgTIME
    let b := dropShadow i pg b
    if isOn b (hBUSY pg) then answer b (.value 0) else
    let w := (heldWord b (pg + (if field then 0x8C else 0x10C) + 0x10 * c)).getD (BitVec.ofNat 32 (cinfo b field c))
    let q := Tab.at' (fun _ => []) b.time.caps (capNo field c)
    let b := { b with time := { b.time with caps := Tab.put (fun _ => []) b.time.caps (capNo field c) q.tail } }
    answer b (.value w)

/-- A whole second of OUT_DOM (R216). -/
def doPpsOut (b : Blk) : Blk :=
  let d := rd b TIME.PPS_CTL.OUT_DOM
  if isOn b TIME.PPS_CTL.OUT_EN && isOn b (TIME.DOM.STAT.SET d) && !isStandby b then
    raise pgTIME 12 (emit b (.ppsOut (rd b TIME.PPS_CTL.WIDTH_MS)))
  else b

/-- Whether a field copy is set (R210). -/
def copySet (b : Blk) (d : Nat) : Bool := isOn b (if d = 0 then FTIME.FSTAT.A_SET else FTIME.FSTAT.B_SET)

/-- The legal-time domain on the field side. -/
def legalField (b : Blk) : Nat := rd b CH.CCTL.LEGAL_DOM

/-- A whole second of the legal domain (R217): the RTC is trimmed to it, the first time loaded and marked set. -/
def doRtcTrim (b : Blk) : Blk :=
  let d := legalField b
  if copySet b d then
    wrB (wrB { b with time := { b.time with rtc := eField b d } } FTIME.RTC_STAT.TRIMMED true) FTIME.RTC_STAT.RTC_SET true
  else wrB b FTIME.RTC_STAT.TRIMMED false

/-- The VBAT island starts from no power at all (R217). -/
def doVbatPowerOn (b : Blk) : Blk :=
  let b := wrB (wrB b FTIME.RTC_STAT.RTC_SET false) FTIME.RTC_STAT.TRIMMED false
  wrB { b with time := { b.time with rtc := 0 } } FTIME.RTC_STAT.VBAT_RUN false

/-- The VBAT island changes its supply (R11): no RTC step, no tamper event lost. -/
def doVbatChangeover (onVbat : Bool) (b : Blk) : Blk := when onVbat (fun b => wrB b FTIME.RTC_STAT.VBAT_RUN true) b

/-- An accepted change of FDOM takes effect at the next port-loop cycle start (R212). -/
def doFdomApply (b : Blk) : Blk := { b with time := { b.time with fdom := rd b FTIME.FCTL.FDOM } }

def execAddendCommit (i : Init) (d : Fin 2) (v : Word) (s : State) : Out := run (doAddHi i d.val v) s

def execStepGo (i : Init) (v : Word) (s : State) : Out := run (writeAct i false TIME.STEP_GO.GO.a v actStepGo) s

def execSourceChange (i : Init) (d : Fin 2) (v : Word) (s : State) : Out := run (doSrcWrite i d.val v) s

/-- The write of PTP_LOCK alone: the rest of DOM.SRC is written as it stands (R207). -/
def doPtpLock (i : Init) (d : Nat) (lock : Bool) (b : Blk) : Blk :=
  doSrcWrite i d ((TIME.DOM.SRC.PTP_LOCK d).ins (wordOf b (TIME.DOM.SRC.SRC d).a) (b2n lock)) b

def execPtpLockWrite (i : Init) (d : Fin 2) (lock : Bool) (s : State) : Out := run (doPtpLock i d.val lock) s

def execServoUpdate (d : Fin 2) (o : BitVec 64) (s : State) : Out := run (doServo d.val o.toInt) s

def execSourceLost (d : Fin 2) (s : State) : Out := run (doSourceLost d.val) s

def execTimeSyncSend (s : State) : Out := run doTimeSyncSend s

def execFdomWrite (i : Init) (v : Word) (s : State) : Out := run (writeAct i false FTIME.FCTL.FDOM.a v (fun _ b => b)) s

def execFdomApply (s : State) : Out := run doFdomApply s

def enterCaptureEdge (field : Bool) (c : Fin 8) : Blk → Blk := doCaptureEdge field c.val

def execCaptureEdge (field : Bool) (c : Fin 8) (s : State) : Out :=
  runIn 12 (.captureEdge field c) (enterCaptureEdge field c) s

def execCaptureRead (i : Init) (c : Fin 8) (s : State) : Out := run (doCaptureRead i c.val) s

def execPpsOutPulse (s : State) : Out := run doPpsOut s

def execRtcTrim (s : State) : Out := run doRtcTrim s

def execVbatPowerOn (s : State) : Out := run doVbatPowerOn s

def execVbatChangeover (onVbat : Bool) (s : State) : Out := run (doVbatChangeover onVbat) s

def execWrapCountChange (d : Fin 2) (s : State) : Out := run (doWrap d.val) s

end Sys2Proof.Machine
end

