-- ==== Sys2Proof/Machine/Metro.lean ====
section
/-!
DEFINITION. The metrology front end (chapter 8): channels, calibration, the port energies, the mains cycle, captures,
the calibration check and the pulse outputs. What a sample's energy becomes is the Counting House's (House.lean).
-/

namespace Sys2Proof.Machine

open Sys2Proof.Num

/-- The raw bound of an overrange (R175). -/
def ovrBound : Nat := 8220000

/-- A channel's raw value from its modulators (R172). -/
def headX (type : Nat) (inv : Bool) (m : List Int) : Int :=
  let g := fun k => satS 24 (m.getD k 0)
  let x := match type with
    | 1 => g 0
    | 2 => fdiv (g 0 - g 1) 2
    | 3 => fdiv (g 0 - g 1 + g 2 - g 3) 4
    | _ => 0
  if inv then -x else x

/-- The linearity correction at |d| (R178); none for a channel with no table. -/
def linAt (lin : List Int) (a : Nat) : Int :=
  if lin.isEmpty then 0
  else if a ≤ 2 ^ 14 then lin.getD 0 0
  else if 2 ^ 23 ≤ a then lin.getD 9 0
  else
    let j := Nat.log2 a - 14
    lin.getD j 0 + fdiv ((lin.getD (j + 1) 0 - lin.getD j 0) * (a - 2 ^ (14 + j))) (2 ^ (14 + j))

/-- The calibrated value of a raw one (R178), in 0.1 mA or 0.1 mV. -/
def calibrate (x ofs gain tc t tcal : Int) (lin : List Int) : Int :=
  let d := x - ofs
  let g := gain + fdiv (gain * tc * (t - tcal)) 10000000
  fdiv (d * g * (1000000 + linAt lin d.natAbs)) (2 ^ 24 * 1000000)

/-- A temperature by channel, with what stands in for it (R179, R183): whether it is a substitution. -/
def headTemp (b : Blk) (ch : Nat) (sub : Int) : Int × Bool :=
  if ch = 0xFF then (sub, false)
  else if ch < 64 ∧ enabled b pgTHM ∧ isOn b (THM.CHN.CSTAT.VALID ch) ∧ !isOn b (THM.CHN.CSTAT.SUBST ch) then
    (rdI b (THM.CHN.CVAL.VAL ch), false)
  else (sub, true)

/-- The linearity table of a current channel. -/
def linOf (b : Blk) (s : Nat) : List Int := (List.range 10).map fun j => rdI b (SNS.LIN.LIN s j)

/-- A current channel's calibrated value of a raw one. -/
def curY (b : Blk) (s : Nat) (x : Int) (lin : Bool) : Int :=
  let tcal := rdI b (SNS.STEMP.T_CAL s)
  calibrate x (rdI b (SNS.SOFS.OFS s)) (rd b (SNS.SGAIN.GAIN s)) (rdI b (SNS.STEMP.TC s))
    (headTemp b (rd b (SNS.SCH.T_CH s)) tcal).1 tcal (if lin then linOf b s else [])

/-- A voltage channel's calibrated value of a raw one. -/
def voltY (b : Blk) (v : Nat) (x : Int) : Int :=
  let tcal := rdI b (MTR.VCH.VTEMP.T_CAL v)
  calibrate x (rdI b (MTR.VCH.VOFS.OFS v)) (rd b (MTR.VCH.VGAIN.GAIN v)) (rdI b (MTR.VCH.VTEMP.TC v))
    (headTemp b (rd b (MTR.VCH.VTCH.T_CH v)) tcal).1 tcal []

/-- Whether a current channel is faulty (R175). -/
def snsFaulty (b : Blk) (s : Nat) : Bool :=
  isOn b (SNS.SSTAT.LOOP_SAT s) || isOn b (SNS.SSTAT.EXC_FAULT s) || isOn b (SNS.SSTAT.BR_OPEN s) ||
    isOn b (SNS.SSTAT.BR_MISMATCH s) || rd b (SNS.SCFG.TYPE s) == 0

/-- Bring FAULT and VALID up to the conditions; the entry into FAULT is counted and raises bit 0 (R175, R199). FAULT clears only
where its condition has been absent for FLT_MS: `gone`. -/
def snsShow (s : Nat) (gone : Bool) (b : Blk) : Blk :=
  let was := isOn b (SNS.SSTAT.FAULT s)
  let f := snsFaulty b s || (was && !gone)
  let b := wrB (wrB b (SNS.SSTAT.FAULT s) f) (SNS.SSTAT.VALID s) (!f && !isOn b (SNS.SSTAT.OVR s))
  if f ∧ !was then raise (pgSNS s) 0 (incSat b (SNS.SSTAT.FAULT_CNT s)) else b

/-- Keep a channel's value for its 1 ms mean. -/
def keepMean (c : Nat) (y : Int) (b : Blk) : Blk :=
  let l := (y :: Tab.at' (fun _ => []) b.met.means c).take 8
  { b with met := { b.met with means := Tab.put (fun _ => []) b.met.means c l } }

/-- The 1 ms mean of a channel. -/
def meanOf (b : Blk) (c : Nat) : Int :=
  let l := Tab.at' (fun _ => []) b.met.means c
  fdiv (sumI l) (max 1 l.length)

/-- The new raw value of an AC channel behind those before it, kept for the interpolation of PH_DELAY, and the value delayed
(R178); without a delay the value itself. -/
def delayed (key : Nat) (ns x : Int) (b : Blk) : Blk × Int :=
  if ns = 0 then (b, x)
  else
    let l := (x :: Tab.at' (fun _ => []) b.met.raws key).take 64
    ({ b with met := { b.met with raws := Tab.put (fun _ => []) b.met.raws key l } }, Config.fracDelay ns l)

/-- The four modulator results of a current channel, delayed where it is an AC channel. -/
def delayedSet (s : Nat) (m : List Int) (b : Blk) : Blk × List Int :=
  let ns := if 4 ≤ s then rdI b (SNS.SPHASE.PH_DELAY s) else 0
  (List.range 4).foldl (fun acc k =>
    let r := delayed (4 * s + k) ns (m.getD k 0) acc.1
    (r.1, acc.2 ++ [r.2])) (b, [])

/-- What a head is driven with (R173, R174): only the active of a pair drives (R193). A fluxgate's loop integrates the
demodulated pick-up with gain K_LOOP and sets CMD. -/
def driveHead (s : Nat) (pick : List Int) (b : Blk) : Blk :=
  let h := Tab.at' (fun _ => ({} : HeadSt)) b.met.heads s
  let type := rd b (SNS.SCFG.TYPE s)
  let loop := if type = 1 then h.loop + rd b (SNS.FLUX.K_LOOP s) * sumI pick else 0
  let h : HeadSt :=
    if type = 0 ∨ (paired b ∧ !isActive b) then { loop := loop }
    else if type = 1 then { exc := 1, level := rd b (SNS.FLUX.EXC_LVL s), loop := loop, cmd := (Config.fluxCmd loop).toNat }
    else { exc := 2 }
  { b with met := { b.met with heads := Tab.put (fun _ => {}) b.met.heads s h } }

/-- One current channel's sample. -/
def sampleCur (set : SensorSet) (s : Nat) (b : Blk) : Blk :=
  if !enabled b (pgSNS s) then b
  else
    let b := driveHead s (set.pick.getD s []) b
    let (b, m) := delayedSet s (set.cur.getD s []) b
    let x := headX (rd b (SNS.SCFG.TYPE s)) (isOn b (SNS.SCFG.INV s)) m
    let b := forEach (List.range 4) (fun k b => wrS b (SNS.BR.RAW s k) (m.getD k 0)) b
    let b := wrS b (SNS.SRAW.X s) x
    let b := wrB b (SNS.SSTAT.TEMP_SUBST s) (headTemp b (rd b (SNS.SCH.T_CH s)) 0).2
    let b := if ovrBound ≤ x.natAbs ∧ !isOn b (SNS.SSTAT.OVR s) then
        raise (pgSNS s) 1 (wrB b (SNS.SSTAT.OVR s) true)
      else b
    let b := snsShow s false b
    let y := curY b s x true
    let b := keepMean s y (wrS b (SNS.SMET.Y s) y)
    if s < 4 then wrS b (SNS.SRMS.RMS s) (meanOf b s) else b

/-- One voltage channel's sample. -/
def sampleVolt (set : SensorSet) (v : Nat) (b : Blk) : Blk :=
  let (b, x) := delayed (32 + v) (if 4 ≤ v then rdI b (MTR.VCH.VPH.PH_DELAY v) else 0) (set.volt.getD v 0) b
  let x := satS 24 x
  let b := wrS b (MTR.VCH.VRAW.X v) x
  let b := if ovrBound ≤ x.natAbs ∧ !isOn b (MTR.VCH.VCTL.OVR v) then
      raise pgMTR 7 (wrB b (MTR.VCH.VCTL.OVR v) true)
    else b
  let y := voltY b v x
  let b := keepMean (8 + v) y (wrS b (MTR.VCH.VMET.Y v) y)
  if v < 4 then wrS b (MTR.VCH.VRMS.RMS v) (meanOf b (8 + v)) else b

/-- The capture unit takes a sample of its channel (R180). -/
def captureAdd (b : Blk) : Blk :=
  let n := rd b MTR.CAPT_STAT.DONE_N
  if isOn b MTR.CAPT_STAT.BUSY ∧ n < rd b MTR.CAPT_CTL.N then
    let c := rd b MTR.CAPT_CTL.CH
    let x := if c < 8 then rdI b (SNS.SRAW.X c) else rdI b (MTR.VCH.VRAW.X (c - 8))
    let b := wr64 b MTR.CAPT_SUM.SUM (ofInt 64 (toInt 64 (rd64 b MTR.CAPT_SUM.SUM) + x))
    let b := wr64 b MTR.CAPT_SQ.SQ (rd64 b MTR.CAPT_SQ.SQ + x.natAbs * x.natAbs)
    wr b MTR.CAPT_STAT.DONE_N (n + 1)
  else b

/-- The quality bits a current channel gives (R188): F, O, T, S. -/
def curQual (b : Blk) (s : Nat) : Nat :=
  b2n (isOn b (SNS.SSTAT.FAULT s) || !enabled b (pgSNS s)) + 2 * b2n (isOn b (SNS.SSTAT.OVR s)) +
    4 * b2n (isOn b (SNS.SSTAT.TEMP_SUBST s)) + 8 * b2n (isOn b (SNS.SSTAT.STRAY s))

/-- The quality bits a voltage channel gives: F, T. -/
def voltQual (b : Blk) (v : Nat) : Nat :=
  b2n (isOn b (MTR.VCH.VCTL.OVR v)) + 4 * b2n (headTemp b (rd b (MTR.VCH.VTCH.T_CH v)) 0).2

/-- The quality bits of the whole front end: C, B. -/
def allQual (b : Blk) : Nat := 16 * b2n (!isOn b MTR.CAL_STAT.CAL_OK) + 128 * b2n b.red.takenOver

/-- The energy of one DC port over one sample (R182): billing energy, cable loss and quality. -/
structure PortEnergy where
  e : Int
  loss : Int
  qual : Nat
deriving DecidableEq, Repr

/-- The calibrated current of a channel; 0 from a disabled one. -/
def curOf (b : Blk) (s : Nat) : Int := if enabled b (pgSNS s) then rdI b (SNS.SMET.Y s) else 0

/-- Add to a pulse accumulator and show it (R190). -/
def pulseAdd (q : Nat) (e : Nat) (b : Blk) : Blk :=
  let a := Tab.at' (fun _ => 0) b.met.pulse q + rd b (MTR.PULSE.PCFG.CONST q) * e
  let b := { b with met := { b.met with pulse := Tab.put (fun _ => 0) b.met.pulse q a } }
  let n := a / (36 * 10 ^ 22)
  let was := isOn b (MTR.PULSE.PSTAT.SAT q)
  let b := wrB (wrU b (MTR.PULSE.PSTAT.PEND q) n) (MTR.PULSE.PSTAT.SAT q) (decide (2 ≤ n))
  if 2 ≤ n ∧ !was then raise pgMTR 4 b else b

/-- One DC port's energy (R182, R183); `dt` in ns. -/
def portEnergy (n dt : Nat) (b : Blk) : Blk × PortEnergy :=
  let i := curOf b n
  let v := rdI b (MTR.VCH.VMET.Y n)
  let t := headTemp b (rd b (MTR.PORT.LTEMP.T_CH n)) (rdI b (MTR.PORT.LTEMP.T_DEF n))
  let r20 : Int := rd b (MTR.PORT.LOSS.R20 n)
  let reff := r20 + fdiv (r20 * rd b (MTR.PORT.LOSS.ALPHA n) * (t.1 - 200)) 10000000
  let dv := adiv (i * reff) 1000000
  let b := wrU (wrB b (MTR.PORT.LSTAT.T_SUBST n) t.2) (MTR.PORT.LSTAT.R_EFF n) reff.toNat
  let b := wrS b (MTR.PORT.DROP.DV n) dv
  let creep := decide (i.natAbs < rd b MTR.START.START_DC * 1000)
  let b := if creep then incWrap b MTR.CREEP_DC.COUNT else b
  let eu := if creep then 0 else v * i * dt
  let el := if creep then 0 else dv * i * dt
  let e := if isOn b (MTR.PORT.LTEMP.LOSS_EN n) then eu - el else eu
  let q := curQual b n ||| voltQual b n ||| allQual b ||| 4 * b2n t.2
  let b := if dt = 0 then b else wrS b (MTR.PDC.P n) (e.tdiv (dt * 10 ^ 8))
  let src := rd b (MTR.PULSE.PCFG.SRC n)
  let b := if (src = 1 ∧ 0 < e) ∨ (src = 2 ∧ e < 0) then pulseAdd n e.natAbs b else b
  (b, { e := e, loss := el, qual := q })

/-- The mains cycle takes a sample (R185, R186, R187). -/
def acAdd (dt : Nat) (b : Blk) : Blk :=
  if !isOn b MTR.MCTL.AC_EN then b
  else
    let a := b.met.ac
    let v := fun k => rdI b (MTR.VCH.VMET.Y (4 + k))
    let i := fun k => curOf b (4 + k)
    let p := sumI ((List.range 3).map fun k => v k * i k * dt)
    let hist := fun k => (v k :: Tab.at' (fun _ => []) b.met.volts k).take 256
    let q := sumI ((List.range 3).map fun k => Config.quarter (rd b MTR.FREQ.FREQ) (hist k) * i k * dt)
    let nn := i 0 + i 1 + i 2 + i 3
    let qual := (List.range 3).foldl (fun w k => w ||| curQual b (4 + k) ||| voltQual b (4 + k)) (allQual b)
    let a := { a with
      n := a.n + 1, dt := a.dt + dt, p := a.p + p, q := a.q + q,
      v2 := (List.range 3).map fun k => a.v2.getD k 0 + (v k).natAbs * (v k).natAbs * dt,
      i2 := (List.range 4).map fun k => a.i2.getD k 0 + (i k).natAbs * (i k).natAbs * dt,
      n2 := a.n2 + nn.natAbs * nn.natAbs * dt, qual := a.qual ||| qual }
    let volts := (List.range 3).foldl (fun t k => Tab.put (fun _ => []) t k (hist k)) b.met.volts
    { b with met := { b.met with ac := a, volts := volts } }

/-- A mains cycle's result (R185, R186): |P|, |Q|, S, the quadrant 0-3 and the flags. -/
structure AcResult where
  p : Nat
  q : Nat
  s : Nat
  quad : Nat
  qual : Nat
deriving DecidableEq, Repr

/-- The quadrant of a cycle (R185). -/
def quadrant (p q : Int) : Nat := if 0 ≤ q then (if 0 ≤ p then 0 else 1) else (if p < 0 then 2 else 3)

/-- The neutral check of a cycle (R187). -/
def neutralCheck (a : AcCycle) (b : Blk) : Blk :=
  let r := isqrt (a.n2 / max 1 a.dt) / 1000
  let lim := rd b MTR.NEUTRAL.NEU_CYC
  if rd b MTR.NEUTRAL.NEU_TOL < r then
    let n := b.met.neuBad + 1
    let b := { b with met := { b.met with neuBad := n, neuGood := 0 } }
    if lim ≤ n ∧ !isOn b MTR.ACSTAT.NEU_BAD then raise pgMTR 3 (wrB b MTR.ACSTAT.NEU_BAD true) else b
  else
    let n := b.met.neuGood + 1
    let b := { b with met := { b.met with neuGood := n, neuBad := 0 } }
    if lim ≤ n then wrB b MTR.ACSTAT.NEU_BAD false else b

/-- The samples of a cycle with no crossing to end it (R184). -/
def fixedCycle (b : Blk) : Nat := if isOn b MTR.MCTL.MAINS_HZ then 133 else 160

/-- Whether the reference voltage is below V_LOSS or its frequency out of ±10 % (R184). -/
def acLost (a : AcCycle) (freq : Nat) (b : Blk) : Bool :=
  let ph := rd b MTR.MCTL.REF_PH
  let lim := rd b MTR.VLOSS.V_LOSS * 1000
  let f0 := if isOn b MTR.MCTL.MAINS_HZ then 60000 else 50000
  decide (a.v2.getD ph 0 < lim * lim * a.dt) || decide (freq * 10 < f0 * 9 ∨ f0 * 11 < freq * 10)

/-- Replace the mesh's state. -/
def setMesh (x : MeshSt) (b : Blk) : Blk := { b with mesh := x }

/-- The end of the mesh slot in progress in ns of the followed domain: a boundary lies every sixth of the half-cycle from
its start (R288). -/
def slotEnd (b : Blk) : Option Int :=
  b.mesh.start.map fun t =>
    let h : Int := 1000 * b.mesh.half
    t + fdiv ((fdiv (6 * (eFollow b - t)) h + 1) * h) 6

/-- The mesh runs free while the mains voltage is lost (R288): the slot in progress ends at its planned instant and
free-running starts from there (R303). -/
def meshSync (b : Blk) : Blk :=
  let lost := isOn b MTR.ACSTAT.V_LOST
  let was := isOn b MESH.SYNC.FREE
  let b := wrB b MESH.SYNC.FREE lost
  if lost ∧ !was then
    let from_ : Int := (slotEnd b).getD (eFollow b)
    let m := { b.mesh with cross := 0, half := if isOn b MESH.SYNC.MAINS_HZ then 8333 else 10000, start := some from_ }
    raise pgMESH 6 (wrB (setMesh m b) MESH.SYNC.LOCKED false)
  else b

/-- The end of a mains cycle (R184 to R188): the registers, and the result for the Counting House. -/
def acEnd (freq : Nat) (b : Blk) : Blk × AcResult :=
  let a := b.met.ac
  let lost := acLost a freq b
  let was := isOn b MTR.ACSTAT.V_LOST
  let b := gated pgMESH meshSync (wrB b MTR.ACSTAT.V_LOST lost)
  let b := if lost ∧ !was then raise pgMTR 1 b else if !lost ∧ was then raise pgMTR 2 b else b
  let b := wrU (wrU b MTR.FREQ.FREQ freq) MTR.FREQ.CYC_LEN a.n
  let b := neutralCheck a b
  let start := rd b MTR.START.START_AC * 1000
  let creep := (List.range 3).all fun k => decide (a.i2.getD k 0 < start * start * a.dt)
  let b := if creep then incWrap b MTR.CREEP_AC.COUNT else b
  let p := if creep then 0 else a.p
  let q := if creep then 0 else a.q
  let s : Nat := if creep then 0
    else if isOn b MTR.MCTL.APP_VEC then isqrt (p.natAbs * p.natAbs + q.natAbs * q.natAbs)
    else sumN ((List.range 3).map fun k => isqrt (a.v2.getD k 0 * a.i2.getD k 0))
  let qd := quadrant p q
  let b := wr b MTR.ACSTAT.QUAD qd
  let d : Nat := a.dt * 10 ^ 8
  let b := if a.dt = 0 then b else wrU (wrS (wrS b MTR.PAC.P (p.tdiv d)) MTR.QAC.Q (q.tdiv d)) MTR.SAC.S (s / d)
  let b := forEach (List.range 3) (fun k b => wrU b (MTR.VCH.VRMS.RMS (4 + k)) (isqrt (a.v2.getD k 0 / max 1 a.dt))) b
  let b := forEach (List.range 4) (fun k b => wrU b (SNS.SRMS.RMS (4 + k)) (isqrt (a.i2.getD k 0 / max 1 a.dt))) b
  let qual := a.qual ||| 32 * b2n (lost || was) ||| 64 * b2n (isOn b MTR.ACSTAT.NEU_BAD)
  let src := rd b (MTR.PULSE.PCFG.SRC 4)
  let e := match src with
    | 1 => if qd = 0 ∨ qd = 3 then p.natAbs else 0
    | 2 => if qd = 1 ∨ qd = 2 then p.natAbs else 0
    | 3 => if qd < 2 then q.natAbs else 0
    | 4 => if 2 ≤ qd then q.natAbs else 0
    | 5 => s
    | _ => 0
  let b := if src = 0 ∨ e = 0 then b else pulseAdd 4 e b
  (b, { p := p.natAbs, q := q.natAbs, s := s, quad := qd, qual := qual })

/-! Qualified conditions (R173 to R175). -/

/-- The flag of a condition of a current channel. -/
def condFld (s : Nat) (c : SnsCond) : Fld := match c with
  | .ovr => SNS.SSTAT.OVR s
  | .loopSat => SNS.SSTAT.LOOP_SAT s
  | .excFault => SNS.SSTAT.EXC_FAULT s
  | .brOpen => SNS.SSTAT.BR_OPEN s
  | .brMismatch => SNS.SSTAT.BR_MISMATCH s
  | .stray => SNS.SSTAT.STRAY s
  | .fault => SNS.SSTAT.FAULT s

/-- The condition of a current channel's flag, where the state shows it: of the raw values of the last sample the overrange, the
bridges' mismatch and the stray field; `on` where only the head shows it. A flag whose head the channel does not have does not
set (R173, R174). BR_TOL is in 0.01 % of 2^23. -/
def condNow (b : Blk) (s : Nat) (c : SnsCond) (on : Bool) : Bool :=
  let r := fun k => rdI b (SNS.BR.RAW s k)
  let tol := rd b (SNS.FTOL.BR_TOL s) * 2 ^ 23
  let type := rd b (SNS.SCFG.TYPE s)
  match c with
  | .ovr => decide (ovrBound ≤ (rdI b (SNS.SRAW.X s)).natAbs)
  | .loopSat | .excFault => on && type == 1
  | .brOpen => on && decide (2 ≤ type)
  | .brMismatch => decide (type = 3 ∧ tol < 10000 * ((r 0 - r 1) - (r 2 - r 3)).natAbs)
  | .stray => decide (2 ≤ type ∧ 2 * tol < 10000 * (r 0 + r 1).natAbs)
  | .fault => snsFaulty b s

/-- SENSOR_FAULT_QUALIFY: a condition has been present, or absent, for its time up to now; channels 0-7 are currents, 8-14
voltages. One that the state shows to be otherwise now does not qualify. -/
def doQualify (ch : Nat) (c : SnsCond) (on : Bool) (b : Blk) : Blk :=
  if 8 ≤ ch then
    (if c ≠ .ovr ∨ !enabled b pgMTR ∨ decide (ovrBound ≤ (rdI b (MTR.VCH.VRAW.X (ch - 8))).natAbs) ≠ on then b
    else
      let F := MTR.VCH.VCTL.OVR (ch - 8)
      let was := isOn b F
      let b := wrB b F on
      if on ∧ !was then raise pgMTR 7 b else b)
  else if !enabled b (pgSNS ch) ∨ condNow b ch c on ≠ on then b
  else if c = .fault then snsShow ch (!on) b
  else
    let F := condFld ch c
    let was := isOn b F
    let b := wrB b F on
    let b := if on ∧ !was ∧ (c = .ovr ∨ c = .stray) then raise (pgSNS ch) 1 b else b
    snsShow ch (!on) b

/-- TWIN_DISAGREE (R193). -/
def doTwinDisagree (c : Nat) (b : Blk) : Blk :=
  if paired b then raise pgMTR 6 (wrBit b MTR.PAIR_STAT.DIFF c true) else b

/-! Captures (R180). -/

/-- CAPT_CTL: GO starts a capture. -/
def actCapture (v : Nat) (b : Blk) : Blk :=
  if v.testBit 0 ∧ enabled b pgMTR then
    wr64 (wr64 (wrB (wr b MTR.CAPT_STAT.DONE_N 0) MTR.CAPT_STAT.BUSY true) MTR.CAPT_SUM.SUM 0) MTR.CAPT_SQ.SQ 0
  else b

/-- CAPTURE_DONE: all N samples are summed. -/
def doCaptureDone (b : Blk) : Blk :=
  if isOn b MTR.CAPT_STAT.BUSY ∧ rd b MTR.CAPT_CTL.N ≤ rd b MTR.CAPT_STAT.DONE_N then
    raise pgMTR 5 (wrB b MTR.CAPT_STAT.BUSY false)
  else b

/-! The calibration check word (R181). -/

/-- The mask of a row's fields of access RWX. -/
def rwxMask (r : RegRow) : Nat := (r.fields.filter fun f => f.acc == .rwx).foldl (fun m f => m + (2 ^ f.w - 1) * 2 ^ f.lo) 0

/-- The offsets of a page's registers with RWX fields, with the masks, in rising order. -/
def rwxRegs (p : PageRow) : List (Nat × Nat) :=
  sortBy (fun x y => decide (x.1 ≤ y.1)) <|
    (p.rows.filter fun r => rwxMask r != 0).flatMap fun r =>
      (List.range r.cnt).map fun i => (r.off + r.st * i, rwxMask r)

/-- Every RWX field of the calibration block reads its factory value where the block has never been committed (R181). -/
def calFactory (b : Blk) : Blk :=
  if rd b MTR.CAL_STAT.COMMITS ≠ 0 then b
  else
    forEach (pgMTR :: (List.range 8).map pgSNS) (fun pg b => match pageAt pg with
      | some (p, _) => forEach (rwxRegs p) (fun r b =>
          let m : Word := BitVec.ofNat 32 r.2
          setWord b (pg + r.1) ((wordOf b (pg + r.1) &&& ~~~m) ||| (resetWord (pg + r.1) &&& m))) b
      | none => b) b

/-- CRC-32 over every RWX field of MTR and SNS0 to SNS7. -/
def calCrc (b : Blk) : Nat :=
  Crc.crc32 <| (pgMTR :: (List.range 8).map pgSNS).flatMap fun pg => match pageAt pg with
    | some (p, _) => (rwxRegs p).flatMap fun r => le 4 ((wordOf b (pg + r.1)).toNat &&& r.2)
    | none => []

/-- CAL_COMMIT.GO. -/
def actCalCommit (v : Nat) (b : Blk) : Blk :=
  if v.testBit 0 ∧ enabled b pgMTR then
    incSat (wrB (wr b MTR.CAL_CRC.CRC (calCrc b)) MTR.CAL_STAT.CAL_OK true) MTR.CAL_STAT.COMMITS
  else b

/-- CAL_CHECK: at power-up and once a second. A block never committed has no stored word to differ from. -/
def doCalCheck (b : Blk) : Blk :=
  if rd b MTR.CAL_STAT.COMMITS = 0 ∨ calCrc b = rd b MTR.CAL_CRC.CRC then b
  else raise pgMTR 0 (wrB b MTR.CAL_STAT.CAL_OK false)

/-- The check at power-up, which also finds a good block good. -/
def calPowerUp (b : Blk) : Blk :=
  if rd b MTR.CAL_STAT.COMMITS ≠ 0 ∧ calCrc b = rd b MTR.CAL_CRC.CRC then wrB b MTR.CAL_STAT.CAL_OK true else doCalCheck b

/-! Pulse outputs (R190, R191). -/

/-- Drive a pulse output: only the active of a pair does. -/
def drivePulse (q : Nat) (on : Bool) (b : Blk) : Blk :=
  let b := { b with met := { b.met with active := Num.setBit b.met.active q on } }
  if paired b && !isActive b then b else emit b (.pulse q on)

/-- PULSE_START. -/
def doPulseStart (q : Nat) (b : Blk) : Blk :=
  let a := Tab.at' (fun _ => 0) b.met.pulse q
  if a < 36 * 10 ^ 22 ∨ b.met.active.testBit q then b
  else
    let b := { b with met := { b.met with pulse := Tab.put (fun _ => 0) b.met.pulse q (a - 36 * 10 ^ 22) } }
    let b := pulseAdd q 0 b
    drivePulse q true (incWrap b (MTR.PULSE.PCNT.COUNT q))

/-- PULSE_END. -/
def doPulseEnd (q : Nat) (b : Blk) : Blk := if b.met.active.testBit q then drivePulse q false b else b

/-- A write of PCFG: CONST or SRC clears A_q and PCNT (R190). -/
def actPulseCfg (q v : Nat) (b : Blk) : Blk :=
  let b := { b with met := { b.met with pulse := Tab.put (fun _ => 0) b.met.pulse q 0 } }
  wr (pulseAdd q 0 b) (MTR.PULSE.PCNT.COUNT q) 0

/-- The write of PCFG: what it does follows from the fields accepted. -/
def pulseCfgWrite (i : Init) (unl : Bool) (q : Nat) (v : Word) (b : Blk) : Blk :=
  let r := storeWord b i unl pgMTR ((MTR.PULSE.PCFG.CONST q).a % 0x1000) v
  if r.mask / 2 ^ 12 = 0 then r.blk else actPulseCfg q v.toNat r.blk

def execSensorFaultQualify (ch : Fin 15) (c : SnsCond) (on : Bool) (s : State) : Out := run (doQualify ch.val c on) s

def execTwinDisagree (c : Fin 15) (s : State) : Out := run (gated pgMTR (doTwinDisagree c.val)) s

def execCaptureStart (i : Init) (v : Word) (s : State) : Out :=
  run (writeAct i false MTR.CAPT_CTL.GO.a (v ||| 1) actCapture) s

def execCaptureDone (s : State) : Out := run (gated pgMTR doCaptureDone) s

def execCalCommit (i : Init) (s : State) : Out := run (writeAct i false MTR.CAL_COMMIT.GO.a 1 actCalCommit) s

def execCalCheck (s : State) : Out := run (gated pgMTR doCalCheck) s

def execPulseStart (q : Fin 5) (s : State) : Out := run (gated pgMTR (doPulseStart q.val)) s

def execPulseEnd (q : Fin 5) (s : State) : Out := run (gated pgMTR (doPulseEnd q.val)) s

end Sys2Proof.Machine
end

