-- ==== Sys2Proof/Machine/Tariff.lean ====
section
/-!
DEFINITION. Local time, the tariff calendar and the billing boundaries that follow from them (R233 to R236, R240).
-/

namespace Sys2Proof.Machine

open Sys2Proof.Num

/-- The zone entry that governs at billing time B; 4 none (R233). -/
def zoneAt (b : Blk) (t : Nat) : Nat :=
  let ok := (List.range 4).filter fun z =>
    rd b (TRF.ZONE.START.START z) != 0xFFFFFFFF && decide (rd b (TRF.ZONE.START.START z) ≤ t / 10 ^ 9)
  (bestBy (fun x y => decide (rd b (TRF.ZONE.START.START y) < rd b (TRF.ZONE.START.START x))) ok).getD 4

/-- OFS of a zone entry, 0 for none. -/
def zoneOfs (b : Blk) (z : Nat) : Int := if z < 4 then rdI b (TRF.ZONE.OFS.OFS z) else 0

/-- Local time in ns of billing time, under a zone entry (R233). -/
def localNs (b : Blk) (z t : Nat) : Nat := ((t : Int) + 10 ^ 9 * zoneOfs b z).toNat

/-- The first instant after `t` at which local time is a multiple of `per` ns. -/
def nextLocal (b : Blk) (z t per : Nat) : Nat :=
  let l := localNs b z t
  ((((l / per + 1) * per : Nat) : Int) - 10 ^ 9 * zoneOfs b z).toNat

/-- The Gregorian date of a day number from 1970-01-01: (year, month, day). -/
def civil (days : Nat) : Nat × Nat × Nat :=
  let z := days + 719468
  let era := z / 146097
  let doe := z % 146097
  let yoe := (doe - doe / 1460 + doe / 36524 - doe / 146096) / 365
  let doy := doe - (365 * yoe + yoe / 4 - yoe / 100)
  let mp := (5 * doy + 2) / 153
  let m := if mp < 10 then mp + 3 else mp - 9
  (yoe + era * 400 + (if m ≤ 2 then 1 else 0), m, doy - (153 * mp + 2) / 5 + 1)

/-- The entries in use of the active bank, lowest index first. -/
def calEntries (b : Blk) : List Nat :=
  (b.regs.filter fun r => decide ((TRF.CAL.ENTRY 0).a ≤ r.1 ∧ r.1 < (TRF.CAL.ENTRY 512).a)).map fun r => r.2.toNat

/-- The season of a date (R235). -/
def seasonOf (l : List Nat) (m d : Nat) : Nat :=
  let ss := (l.filter fun e => e / 2 ^ 30 == 1).map fun e => (e / 2 ^ 24 % 16 * 32 + e / 2 ^ 19 % 32, e / 2 ^ 28 % 4)
  let later := fun (x y : Nat × Nat) => decide (y.1 < x.1)
  match bestBy later (ss.filter fun s => decide (s.1 ≤ m * 32 + d)) with
  | some s => s.2
  | none => match bestBy later ss with
    | some s => s.2
    | none => 0

/-- Whether a date is a special day (R234, R235). -/
def isSpecial (l : List Nat) (y m d : Nat) : Bool :=
  l.any fun e => e / 2 ^ 30 == 3 && e / 2 ^ 18 % 16 == m && e / 2 ^ 13 % 32 == d &&
    (e / 2 ^ 22 % 256 == 255 || e / 2 ^ 22 % 256 + 2000 == y)

/-- The tariff at a local time: (season, day-type mask, tariff) (R235). -/
def tariffAt (b : Blk) (z t : Nat) : Nat × Nat × Nat :=
  let l := localNs b z t
  let days := l / 86400000000000
  let minute := l / 60000000000 % 1440
  let (y, m, d) := civil days
  let es := calEntries b
  let season := seasonOf es m d
  let day := if isSpecial es y m d then 7 else (days + 3) % 7
  let ok := (es.filter fun e =>
    e / 2 ^ 30 == 2 && e.testBit (26 + season) && e.testBit (18 + day) && decide (e / 2 ^ 7 % 2048 ≤ minute)).map
      fun e => (e / 2 ^ 7 % 2048, e / 16 % 8)
  match bestBy (fun (x y : Nat × Nat) => decide (y.1 < x.1)) ok with
  | some e => (season, 2 ^ day, e.2)
  | none => (season, 2 ^ day, rd b TRF.TCTL.DEF_TRF)

/-- Whether a calendar entry is malformed (R236). -/
def badEntry (e : Nat) : Bool :=
  let md := fun m d => decide (m < 1 ∨ 12 < m ∨ d < 1)
  match e / 2 ^ 30 with
  | 0 => e != 0
  | 1 => e % 2 ^ 19 != 0 || md (e / 2 ^ 24 % 16) (e / 2 ^ 19 % 32)
  | 2 => e % 16 != 0 || decide (1439 < e / 2 ^ 7 % 2048)
  | _ => e % 2 ^ 13 != 0 || md (e / 2 ^ 18 % 16) (e / 2 ^ 13 % 32)

/-- An entry of the pending bank. -/
def pendEntry (b : Blk) (k : Nat) : Nat := Tab.at' (fun _ => 0) b.house.pend k

/-- CRC-32 of a bank (R236). -/
def bankCrc (f : Nat → Nat) : Nat := Crc.crc32 ((List.range 512).flatMap fun k => le 4 (f k))

/-- The banks swap: the pending bank becomes active and stays as the copy of it (R236). -/
def bankSwap (b : Blk) : Blk := forEach (List.range 512) (fun k b => wr b (TRF.CAL.ENTRY k) (pendEntry b k)) b

/-- The least of a list above a bound. -/
def leastAbove (x : Nat) (l : List Nat) : Option Nat :=
  (l.filter fun y => decide (x < y)).foldl (fun m y => match m with
    | none => some y
    | some z => some (min y z)) none

/-- The starts of the zone entries in use, in ns. -/
def zoneStarts (b : Blk) : List Nat :=
  ((List.range 4).map fun z => rd b (TRF.ZONE.START.START z)).filterMap fun s =>
    if s = 0xFFFFFFFF then none else some (s * 10 ^ 9)

/-- The next billing boundary after a billing time (R227): a local minute, at which the tariff is evaluated, a
subinterval end, a calendar activation, a zone change, a grid limit's start or end. -/
def nextBoundary (b : Blk) (t : Nat) : Nat :=
  let h := b.house.live
  let act := rd64 b TRF.ACT_AT.B
  let grid := if rd64 b DMD.GRID_START.B < rd64 b DMD.GRID_END.B then [rd64 b DMD.GRID_START.B, rd64 b DMD.GRID_END.B] else []
  (leastAbove t ([h.endB, nextLocal b h.zone t 60000000000, act] ++ zoneStarts b ++ grid)).getD
    (nextLocal b h.zone t 60000000000)

end Sys2Proof.Machine
end

