-- ==== Sys2Proof/Machine/House.lean ====
section
/-!
DEFINITION. The Counting House (chapter 10): billing time, parts and tallies, intervals and demand, records, commits and
the power-fail commit. Its commands are in HouseCmd.lean.
-/

namespace Sys2Proof.Machine

open Sys2Proof.Num

/-- Replace the live state of the Counting House. -/
def setLive (h : HouseCore) (b : Blk) : Blk := { b with house := { b.house with live := h } }

/-- Quanta in a mWh (R182). -/
def mWh : Nat := 36 * 10 ^ 16

/-- A tally in mWh, and in quanta (R230). -/
def tallyQ (b : Blk) (k : Nat) : Nat := Tab.at' (fun _ => 0) b.house.live.tally k
def tallyOf (b : Blk) (k : Nat) : Nat := tallyQ b k / mWh % 2 ^ 64

/-- Show a tally and its compact view (R231, R232). -/
def showTally (k : Nat) (b : Blk) : Blk :=
  let t := tallyOf b k
  let b := wr (wr b (CH.TALLY.LO.LO k) t) (CH.TALLY.HI.HI k) (t / 2 ^ 32)
  wr (wr b (CH.TALLY.COMPACT.WH k) (t / 1000)) (CH.TALLY.WRAP.WRAP k) (t / (1000 * 2 ^ 32))

/-- Add quanta to a tally through its remainder (R230). -/
def tallyAdd (k q : Nat) (b : Blk) : Blk :=
  if q = 0 then b
  else
    let h := b.house.live
    showTally k (setLive { h with tally := Tab.put (fun _ => 0) h.tally k (tallyQ b k + q) } b)

/-! Times and flags. -/

/-- Legal time and its source: 0 none, 1 RTC, 2 TA, 3 TB (R227). -/
def legalL (b : Blk) : Nat × Nat :=
  let d := legalField b
  if copySet b d then (eField b d, 2 + d)
  else if isOn b FTIME.RTC_STAT.RTC_SET then
    let r := b.time.rtc
    (r / 10 ^ 9 * 10 ^ 9 + r % 10 ^ 9 * 32768 / 10 ^ 9 * 10 ^ 9 / 32768, 1)
  else (b.house.live.h, 0)

/-- Billing time now (R227). -/
def billNow (b : Blk) : Nat := max (legalL b).1 b.house.live.h

/-- Show B and H, and what the time comes from (R227). -/
def showTime (b : Blk) : Blk :=
  let b := wr64 (wr64 b CH.BTIME.B b.house.live.h) CH.HWM.H b.house.live.h
  wrB b CH.CSTAT.RTC_TIME (decide ((legalL b).2 < 2))

/-- Billing time moves on to a value (R227): H is the greatest B. -/
def setB (t : Nat) (b : Blk) : Blk := setLive { b.house.live with h := max b.house.live.h t } b

/-- The record flags that hold now (R247): unsealed, calibration, seal broken, RTC time. -/
def nowFlags (b : Blk) : Nat :=
  b2n (!b.acc.sealed) + 2 * b2n b.acc.cal + 4 * b2n (isOn b CH.CSTAT.BROKEN) +
    8 * b2n (decide ((legalL b).2 < 2))

/-- Or bits into the flags of the running interval, of the open sessions and of the clearing period. -/
def markFlags (m : Nat) (b : Blk) : Blk :=
  let h := b.house.live
  setLive { h with
    flags := h.flags ||| m
    sess := h.sess.map fun s => (s.1, s.2.map fun x => { x with flags := x.flags ||| m }) }
    { b with house := { b.house with snapFlags := b.house.snapFlags ||| m } }

/-- Show the subinterval's flags (R258). -/
def showDstat (b : Blk) : Blk :=
  let f := b.house.live.flags
  let b := wrB (wrB b DMD.DSTAT.STEP_BACK (f.testBit 4)) DMD.DSTAT.STEP_FWD (f.testBit 5)
  let b := wrB (wrB b DMD.DSTAT.SPLIT (f.testBit 6)) DMD.DSTAT.OUTAGE (f.testBit 7)
  wrB (wrB b DMD.DSTAT.ZONE (f.testBit 8)) DMD.DSTAT.RESET_DUE b.house.live.resetDue

/-! Records (R247 to R249). -/

/-- An unsealed twin beside a sealed partner produces no record (R49). -/
def recordsBarred (b : Blk) : Bool := paired b && !isActive b && !b.acc.sealed && b.red.peerSealed == some true

/-- A record with what holds now (R247). -/
def recordNow (type meter flags qual t : Nat) (body : List Byte) (b : Blk) : AedRec :=
  { type := type, meter := meter, flags := flags ||| nowFlags b, qual := qual, tariff := b.house.live.tariff, b := t,
    l := if (legalL b).2 < 2 then 0 else (legalL b).1, id := rd64 b CH.METER_ID.ID, gen := b.acc.sealGen
    resets := rd b DMD.DSTAT.RESETS, crc := rd b MTR.CAL_CRC.CRC, body := body }

/-- A record waits for its signature; the signature of the head has begun (R404). -/
def enqueue (r : AedRec) (b : Blk) : Blk :=
  if recordsBarred b then b else
  let b := if b.house.queue.isEmpty then { b with house := { b.house with signKey := fsignKey b } } else b
  { b with house := { b.house with queue := b.house.queue ++ [r] } }

/-- A record is issued. -/
def issue (type meter flags qual t : Nat) (body : List Byte) (b : Blk) : Blk :=
  enqueue (recordNow type meter flags qual t body b) b

/-- A 64-bit value in a record. -/
def w8 (n : Nat) : List Byte := le 8 n
def w4 (n : Nat) : List Byte := le 4 n

/-- An event record with flags of its own beside those that hold now (R248). -/
def issueMarked (flags type t a0 a1 : Nat) (a2 : Int) (a3 : Nat) (b : Blk) : Blk :=
  issue type 0xFF flags 0 t (w8 a0 ++ w8 a1 ++ w8 (ofInt 64 a2) ++ w8 a3) b

/-- The event records dated before a billing time are issued, in the tariff then in force, and mark what is open. -/
def runDue (lim : Nat) (b : Blk) : Blk :=
  let l := b.house.due.filter fun e => decide (e.2.b < lim)
  forEach l (fun e b =>
    enqueue { e.2 with tariff := b.house.live.tariff, resets := rd b DMD.DSTAT.RESETS } (markFlags e.1 b))
    { b with house := { b.house with due := b.house.due.filter fun e => !decide (e.2.b < lim) } }

/-- An event record (R248): its period is the instant it is dated. -/
def issueEvent (type t a0 a1 : Nat) (a2 : Int) (a3 : Nat) (b : Blk) : Blk := issueMarked 0 type t a0 a1 a2 a3 b

/-- The bytes of a record with its SEQ and KEY_ID, without the signature. -/
def recBytes (r : AedRec) (seq keyId : Nat) : List Byte :=
  let len := 56 + r.body.length + 64
  le 2 0x4145 ++ le 1 1 ++ le 1 r.type ++ le 2 len ++ le 2 r.flags ++ w8 seq ++ w8 r.id ++ w8 r.b ++
    w8 r.l ++ le 2 r.gen ++ le 2 r.resets ++ le 1 r.meter ++ le 1 r.tariff ++ le 1 r.qual ++ le 1 0 ++ w4 r.crc ++
    w4 keyId ++ r.body

/-- A record signed with a key taken, or with KEY_ID 0 and zeros and field event 71 where there was none (R404). -/
def signRec (r : AedRec) (seq : Nat) (key : Option (Nat × Nat)) (b : Blk) : Blk × List Byte :=
  match key with
  | some (id, d) =>
    let m := recBytes r seq id
    (incWrap b FSRM.CNT.SIGNS, m ++ Crypto.ecdsaSign d (Crypto.sha256 m))
  | none => (raise pgFSRM 1 b, recBytes r seq 0 ++ List.replicate 64 0)

/-- Whether this twin sends what the Counting House issues (R252). -/
def sends (b : Blk) : Bool := !paired b || isActive b

/-- RECORD_SIGN_DONE: the head takes its SEQ and ring slot and crosses as METER_RECORD (R249). -/
def doSignDone (b : Blk) : Blk :=
  match b.house.queue with
  | [] => b
  | r :: rest =>
    let seq := rd64 b CH.SEQ.SEQ
    let (b, bytes) := signRec r seq b.house.signKey b
    let b := wr64 b CH.SEQ.SEQ (seq + 1)
    let b := { b with house := { b.house with
      queue := rest, signKey := fsignKey b, ring := Tab.put (fun _ => []) b.house.ring (seq % 256) bytes } }
    let b := if sends b then emit b (.meterRecord bytes) else incSat b CH.RING.QUEUED
    raise pgCH 0 b

/-! Demand (R237, R238, R240, R241). -/

/-- The demand quantity in a part: energy in quanta (R237). -/
def qtyOf (qty : Nat) (p : Part) : Nat :=
  match qty with
  | 0 => if p.meter = 4 ∧ (p.quad = 0 ∨ p.quad = 3) then p.p else 0
  | 1 => if p.meter = 4 then p.s else 0
  | _ => if p.meter < 4 then p.e.toNat else 0

/-- The window's length in ms (R238, R240). -/
def windowMs (h : HouseCore) : Nat := h.scheme.2.1 * h.scheme.2.2.1 * 60000

/-- Energy of the window so far, in quanta: the N - 1 last subintervals and the current one. -/
def windowE (h : HouseCore) : Nat := sumN ((h.win.take (h.scheme.2.1 - 1)).map (·.1)) + h.subE

/-- The demand limit in force (R240). -/
def limKw (b : Blk) : Nat :=
  let t := b.house.live.h
  let c := rd b DMD.CONTRACT.KW
  if rd64 b DMD.GRID_START.B ≤ t ∧ t < rd64 b DMD.GRID_END.B then min c (rd b DMD.GRID.KW) else c

/-- Show the demand values (R240, R241); the projection raises DMD event 77 once per subinterval. -/
def showDemand (b : Blk) : Blk :=
  let h := b.house.live
  let t := h.h
  let tint := windowMs h
  let trem := (h.endB - t) / 10 ^ 6
  let wine := windowE h / mWh
  let b := wr (wr (wr b DMD.INT_NUM.NUM h.num) DMD.T_INT.MS tint) DMD.T_REM.MS trem
  let b := wr64 (wr b DMD.LIM.KW (limKw b)) DMD.WIN_E.MWH wine
  let b := wrB b DMD.GRID.ACTIVE (decide (rd64 b DMD.GRID_START.B ≤ t ∧ t < rd64 b DMD.GRID_END.B))
  let proj := fdiv ((wine : Int) * 3600 + rdI b DMD.P_1S.W * trem) (max 1 tint)
  let b := wrS b DMD.PROJ.W proj
  if (limKw b : Int) * 1000 < proj ∧ !b.house.exceeded then
    raise pgDMD 1 { b with house := { b.house with exceeded := true } }
  else b

/-- V0 to V3 of a meter in mWh (R248). -/
def meterV (b : Blk) (m : Nat) : List Nat :=
  if m < 4 then [tallyOf b (20 * m + 8), tallyOf b (20 * m + 17), tallyOf b (20 * m + 18), tallyOf b (20 * m + 19)]
  else
    let sum := fun base q => sumN ((List.range 8).map fun t => tallyOf b (base + 8 * q + t))
    [sum 80 0 + sum 80 3, sum 80 1 + sum 80 2, sum 112 0 + sum 112 1, sum 112 2 + sum 112 3]

/-- Open a new interval part: V0 to V3 now, no flags but what holds. -/
def openParts (t flags : Nat) (b : Blk) : Blk :=
  let h := b.house.live
  let ints := (List.range 5).map fun m => (m, ({ v := meterV b m } : IntPart))
  setLive { h with partB := t, partEl := 0, flags := flags, ints := ints } b

/-- Interval records of every enabled meter at the end of a part (R248); `d` is D, 0 for a split part. -/
def intervalRecords (t d : Nat) (b : Blk) : Blk :=
  let h := b.house.live
  forEach (bitsOf 5 (rd b CH.CCTL.INT_REC)) (fun m b =>
    let x := Tab.at' (fun _ => ({} : IntPart)) h.ints m
    let v := meterV b m
    let dv := (List.range 4).map fun k => v.getD k 0 - x.v.getD k 0
    let ms := h.partEl / 10 ^ 6
    let mean := if ms = 0 then 0 else dv.getD 0 0 * 3600 / ms
    issue 2 m h.flags x.qual t (w8 h.partB ++ w8 t ++ w4 h.num ++ w4 ms ++ w4 mean ++ w4 d ++ v.flatMap w8 ++ dv.flatMap w8)
      b) b

/-- One quantity's totals of a billing reset, by tariff (R239). -/
def resetTotals (t m qty base : Nat) (b : Blk) : Blk :=
  issue 3 m 0 0 t (le 1 qty ++ List.replicate 7 0 ++ (List.range 8).flatMap fun k => w8 (tallyOf b (base + k))) b

/-- The records of a billing reset, and MAX cleared (R239). -/
def doReset (t : Nat) (b : Blk) : Blk :=
  let b := forEach (List.range 4) (fun n b => resetTotals t n 1 (20 * n + 9) (resetTotals t n 0 (20 * n) b)) b
  let b := forEach (List.range 9) (fun k b => resetTotals t 4 (2 + k) (80 + 8 * k) b) b
  let mx := fun k => Tab.at' (fun _ => ((0, 0) : Nat × Nat)) b.house.live.max k
  let b := issue 4 0xFF 0 0 t ((List.range 8).flatMap fun k => w4 (mx k).1 ++ w8 (mx k).2) b
  let b := setLive { b.house.live with max := [], resetDue := false } b
  let b := forEach (List.range 8) (fun k b => wr64 (wr b (DMD.MAX.D.D_W k) 0) (DMD.MAX.TIME.B k) 0) b
  let b := incSat b DMD.DSTAT.RESETS
  issueEvent 0x1A t (rd b DMD.DSTAT.RESETS) t 0 0 b

/-- The subinterval a billing time lies in: its number and end (R237). -/
def openSub (t flags : Nat) (b : Blk) : Blk :=
  let h := b.house.live
  let per := max 1 h.scheme.2.2.1 * 60000000000
  let num := localNs b h.zone t / per % 2 ^ 32
  let b := setLive { h with num := num, startB := t, endB := nextLocal b h.zone t per, subE := 0, subEl := 0 } b
  openParts t flags { b with house := { b.house with exceeded := false } }

/-- A new scheme takes effect at a local hour boundary (R237). -/
def adoptScheme (t : Nat) (b : Blk) : Blk :=
  let h := b.house.live
  let s := (rd b DMD.DCFG.MODE, rd b DMD.DCFG.N_SUB, rd b DMD.DCFG.SUB_MIN, rd b DMD.DCFG.QTY)
  if s ≠ h.scheme ∧ localNs b h.zone t % 3600000000000 = 0 then setLive { h with scheme := s, win := [] } b else b

/-- The state is written to the non-current copy, which becomes current (R244, R245). -/
def commit (b : Blk) : Blk := { b with house := { b.house with copy := b.house.live } }

/-- A billing boundary has fired (R227). -/
def noteFired (n : Nat) (b : Blk) : Blk := { b with house := { b.house with fired := b.house.fired + n } }

/-- The end of a subinterval at billing time t: its demand, its records, a billing reset due, the next subinterval, and a
commit (R238, R239, R245). -/
def closeSub (t : Nat) (b : Blk) : Blk :=
  let h := b.house.live
  let n := h.scheme.2.1
  let prev := h.win.take (n - 1)
  let e := sumN (prev.map (·.1)) + h.subE
  let el := (sumN (prev.map (·.2)) + h.subEl) / 10 ^ 6
  let d := e / (10 ^ 14 * max 1 (max (windowMs h) el))
  let b := raise pgDMD 0 (wrU b DMD.LAST_D.W d)
  let old := Tab.at' (fun _ => ((0, 0) : Nat × Nat)) h.max h.tariff
  let b := if old.1 < d then
      let b := setLive { b.house.live with max := Tab.put (fun _ => (0, 0)) h.max h.tariff (d, t) } b
      raise pgDMD 2 (wr64 (wr b (DMD.MAX.D.D_W h.tariff) d) (DMD.MAX.TIME.B h.tariff) t)
    else b
  let b := intervalRecords t d b
  let b := setLive { b.house.live with win := ((h.subE, h.subEl) :: h.win).take 15 } b
  let b := if b.house.live.resetDue then doReset t b else b
  let keep := if b.house.outage then 128 else 0
  let b := openSub t keep (adoptScheme t (noteFired 1 b))
  when (!b.house.committed) commit b

/-- The subinterval in progress is split at t: its part closes marked split and a continuation opens, which keeps what
DSTAT shows of the subinterval (R228, R258). -/
def splitSub (t flag : Nat) (b : Blk) : Blk :=
  let b := markFlags (64 + flag) b
  let b := intervalRecords t 0 b
  openParts t (b.house.live.flags &&& 0x1F0) b

/-! Counting parts (R229 to R231). -/

/-- One part counted in the interval and tariff in force. -/
def countPart (p : Part) (b : Blk) : Blk :=
  let t := b.house.live.tariff
  let m := p.meter
  let b := if m < 4 then
      let k := 20 * m
      let b := if 0 < p.e then tallyAdd (k + 8) p.e.toNat (tallyAdd (k + t) p.e.toNat b)
        else tallyAdd (k + 17) p.e.natAbs (tallyAdd (k + 9 + t) p.e.natAbs b)
      let b := tallyAdd (k + 18) p.loss.natAbs b
      if p.qual ≠ 0 then tallyAdd (k + 19) p.e.natAbs b else b
    else if m = 4 then
      let b := tallyAdd (80 + 8 * p.quad + t) p.p (tallyAdd (112 + 8 * p.quad + t) p.q (tallyAdd (144 + t) p.s b))
      if p.qual ≠ 0 then tallyAdd 152 p.p b else b
    else b
  let h := b.house.live
  let x := Tab.at' (fun _ => ({} : IntPart)) h.ints m
  let h := { h with
    subE := h.subE + qtyOf h.scheme.2.2.2 p, subEl := h.subEl + p.el, partEl := h.partEl + p.el,
    flags := h.flags ||| nowFlags b
    ints := if m < 5 ∧ p.qual ≠ 0 then Tab.put (fun _ => {}) h.ints m { x with qual := x.qual ||| p.qual } else h.ints
    sess := h.sess.map fun s => (s.1, s.2.map fun y =>
      { y with flags := y.flags ||| nowFlags b, qual := if s.1 = m then y.qual ||| p.qual else y.qual }) }
  let s := b.house
  setLive h { b with house := { s with snapFlags := s.snapFlags ||| nowFlags b, snapQual := s.snapQual ||| p.qual } }

/-- A share of a part, every quantity rounded down, and what it leaves. -/
def Part.scale (p : Part) (num den : Nat) : Part :=
  if den = 0 then p
  else { p with
    e := fdiv (p.e * num) den, loss := fdiv (p.loss * num) den, p := p.p * num / den, q := p.q * num / den,
    s := p.s * num / den, el := p.el * num / den }

def Part.minus (p x : Part) : Part :=
  { p with e := p.e - x.e, loss := p.loss - x.loss, p := p.p - x.p, q := p.q - x.q, s := p.s - x.s, el := p.el - x.el }

/-- A part divided at the legal steps that fell within it (R229): `prev` is the counter time already divided off. -/
def Part.atSteps (p : Part) (dt prev : Nat) : List LegalStep → List Part
  | [] => [p]
  | s :: rest =>
    let d1 := s.dt - prev
    let x : Part := { p.scale d1 dt with be := s.bm }
    x :: Part.atSteps { p.minus x with seg := p.seg + 1, bs := s.bp } (dt - d1) s.dt rest

/-- A part divided at a boundary inside its span: the earlier and the later side (R229). -/
def Part.atBound (p : Part) (t : Nat) : Part × Part :=
  let later : Part := { p.scale (p.be - t) (p.be - p.bs) with bs := t }
  ({ p.minus later with be := t }, later)

/-- Count what of the waiting parts of a segment lies before t; the rest waits. -/
def countBefore (seg t : Nat) (b : Blk) : Blk :=
  let r := b.house.parts.foldl (fun (acc : List Part × List Part) p =>
    if p.seg < seg ∨ (p.seg = seg ∧ p.bs < t ∧ p.be ≤ t) then (acc.1 ++ [p], acc.2)
    else if p.seg = seg ∧ p.bs < t then (acc.1 ++ [(p.atBound t).1], acc.2 ++ [(p.atBound t).2])
    else (acc.1, acc.2 ++ [p])) ([], [])
  forEach r.1 countPart { b with house := { b.house with parts := r.2 } }

/-- Count every waiting part of the segments up to one. -/
def countAll (seg : Nat) (b : Blk) : Blk :=
  let l := b.house.parts.filter fun p => decide (p.seg ≤ seg)
  forEach l countPart { b with house := { b.house with parts := b.house.parts.filter fun p => decide (seg < p.seg) } }

/-! Boundaries (R227, R243). -/

/-- The tariff is evaluated; a change is a tariff switch (R235). -/
def evalTariff (t : Nat) (b : Blk) : Blk :=
  let x := tariffAt b b.house.live.zone t
  let old := b.house.live.tariff
  let b := wr (wr (wr b TRF.TNOW.SEASON x.1) TRF.TNOW.DAY_TYPE x.2.1) TRF.TNOW.TARIFF x.2.2
  let b := setLive { b.house.live with tariff := x.2.2 } b
  if x.2.2 ≠ old then raise pgTRF 0 (noteFired 1 b) else b

/-- A zone change (R233): the interrupted subinterval ends at the next local boundary and carries ZONE. -/
def zoneChange (t : Nat) (b : Blk) : Blk :=
  let z := zoneAt b t
  let old := b.house.live.zone
  if z = old then b
  else
    let per := max 1 b.house.live.scheme.2.2.1 * 60000000000
    let odd := (zoneOfs b z - zoneOfs b old) * 10 ^ 9 % (per : Int) ≠ 0
    let b := setLive { b.house.live with zone := z } b
    let b := if odd then markFlags 256 (setLive { b.house.live with endB := nextLocal b z t per } b) else b
    let b := if t = b.house.live.startB then openSub t b.house.live.flags b else b
    let b := raise pgTRF 3 (noteFired 1 b)
    issueEvent 0x18 t z (rd b (TRF.ZONE.START.START z)) (zoneOfs b z) 0 b

/-- A calendar activation due at t (R236). -/
def activate (t : Nat) (b : Blk) : Blk :=
  let at' := rd64 b TRF.ACT_AT.B
  if at' = 0 ∨ t < at' then b
  else
    let crc := bankCrc (pendEntry b)
    let b := wr (wr (bankSwap b) TRF.ACT_CRC.CRC crc) TRF.TCTL.DEF_TRF b.house.pendDef
    let b := raise pgTRF 1 (wr64 (noteFired 1 b) TRF.ACT_AT.B 0)
    issueEvent 0x17 t at' crc b.house.pendDef 0 b

/-- What falls at billing time t, in the order of R243. -/
def fireAt (t : Nat) (b : Blk) : Blk :=
  let b := setB t b
  let b := if b.house.live.endB ≤ t then closeSub t b else b
  let b := evalTariff t (activate t (zoneChange t b))
  let edge := rd64 b DMD.GRID_START.B < rd64 b DMD.GRID_END.B ∧ (t = rd64 b DMD.GRID_START.B ∨ t = rd64 b DMD.GRID_END.B)
  if edge then raise pgDMD 3 (noteFired 1 b) else b

/-- A legal step acts on billing (R228): beyond STEP_LIM_MS it is recorded and splits the subinterval. -/
def applyLegal (s : LegalStep) (b : Blk) : Blk :=
  let flag := if s.s < 0 then 16 else 32
  let b := if rd b CH.STEP.STEP_LIM_MS * 1000000 < s.s.natAbs then
      let b := raise pgCH 3 b
      splitSub s.bm flag (issueEvent 0x12 s.bm s.bm s.l0 s.s s.kind b)
    else markFlags flag b
  setB s.bp b

/-- How far all the energy is known: the start of the mains cycle in progress, or the end of the last sample. -/
def known (b : Blk) : Nat × Nat :=
  if isOn b MTR.MCTL.AC_EN ∧ 0 < b.met.ac.n ∧ enabled b pgMTR ∧ !b.met.stopped then (b.met.ac.seg, b.met.ac.bs)
  else (b.house.seg, b.house.bPrev)

/-- Fire the boundaries and steps up to which all energy is known, counting the parts before each; at most `n`. -/
def settleLoop : Nat → Blk → Blk
  | 0, b => b
  | n + 1, b =>
    let (ks, kb) := known b
    let (c, pos) := b.house.pos
    let nb := nextBoundary b pos
    let b := runDue nb b
    match b.house.steps.find? (fun s => s.1 == c) with
    | some s =>
      if ks ≤ c then
        (if nb ≤ kb ∧ ks = c then
          let x := fireAt nb (countBefore c nb b)
          settleLoop n { x with house := { x.house with pos := (c, nb) } }
        else countBefore c nb b)
      else if nb ≤ s.2.bm then
        let x := fireAt nb (countBefore c nb b)
        settleLoop n { x with house := { x.house with pos := (c, nb) } }
      else
        let x := applyLegal s.2 (countAll c b)
        settleLoop n { x with house := { x.house with
          pos := (c + 1, max pos s.2.bm), steps := x.house.steps.filter fun y => decide (c < y.1) } }
    | none =>
      if nb ≤ kb then
        let x := fireAt nb (countBefore c nb b)
        settleLoop n { x with house := { x.house with pos := (c, nb) } }
      else countBefore c nb b

/-- An outage lies behind once billing time is taken from a set time and every boundary it passed has fired (R246). -/
def bridged (b : Blk) : Bool :=
  decide ((legalL b).2 ≠ 0) && b.house.steps.isEmpty && decide (b.house.live.h < nextBoundary b b.house.pos.2)

/-- Settle (R229): nothing fires before billing time has been taken from a set time. -/
def settle (b : Blk) : Blk :=
  if !isOn b CH.CSTAT.TIMED then countAll b.house.seg b
  else
    let span := (known b).2 - b.house.pos.2
    let b := settleLoop (2 * (span / 60000000000) + 2 * b.house.steps.length + 32) b
    when (bridged b) (fun b => { b with house := { b.house with outage := false } }) b

/-- An event of the Counting House dated now (R7, R248): its record, and the flags it marks what is open with, belong to what
begins at the boundaries up to now; where one of them has not fired yet, because energy before it is not yet known, they wait
for it. -/
def eventNow (mark flags type a0 a1 : Nat) (a2 : Int) (a3 : Nat) (b : Blk) : Blk :=
  let r := recordNow type 0xFF flags 0 b.house.live.h (w8 a0 ++ w8 a1 ++ w8 (ofInt 64 a2) ++ w8 a3) b
  let lim := if isOn b CH.CSTAT.TIMED then nextBoundary b b.house.pos.2 else r.b + 1
  runDue lim { b with house := { b.house with due := b.house.due ++ [(mark, r)] } }

/-- The sample in progress will not complete: the steps that waited for it act without it. -/
def flushSteps (b : Blk) : Blk :=
  let l := b.met.steps
  let c := b.house.seg
  { b with
    met := { b.met with steps := [] }
    house := { b.house with
      steps := b.house.steps ++ l.zipIdx.map fun x => (c + x.2, x.1)
      seg := c + l.length
      bPrev := l.foldl (fun m x => max m x.bp) b.house.bPrev } }

/-- The first timing (R227): the first L from a set time becomes B and H at once; the subinterval in progress closes, and
billing runs on from what is in force at the new B. -/
def firstTiming (b : Blk) : Blk :=
  let l := legalL b
  if isOn b CH.CSTAT.TIMED ∨ l.2 = 0 then b
  else
    let b := countAll b.house.seg b
    let b := closeSub l.1 (setB l.1 (wrB (markFlags 40 b) CH.CSTAT.TIMED true))
    let z := zoneAt b l.1
    let s := (rd b DMD.DCFG.MODE, rd b DMD.DCFG.N_SUB, rd b DMD.DCFG.SUB_MIN, rd b DMD.DCFG.QTY)
    let h := b.house.live
    let b := setLive { h with zone := z, scheme := s, win := if s = h.scheme then h.win else [] } b
    let b := evalTariff l.1 (openSub l.1 0 b)
    let b := { b with
      house := { b.house with bPrev := l.1, pos := (b.house.seg, l.1), steps := [], outage := false }
      met := { b.met with steps := [], ac := { b.met.ac with bs := l.1, seg := b.house.seg, steps := [] } } }
    issueEvent 0x12 l.1 0 0 l.1 3 b

/-- A step of legal time by s ns with its ARG3 (R228): it waits for the sample in progress, whose energy it divides, or
acts at once where the front end does not sample. During a power-fail commit it is kept for the next power-up (R253). `l0`
and `bm` are L and B before it. -/
def legalStep (l0 bm : Nat) (s : Int) (kind dt : Nat) (b : Blk) : Blk :=
  if !enabled b pgCH ∨ !isOn b CH.CSTAT.TIMED ∨ s = 0 then b
  else
    let x : LegalStep := { dt := dt, bm := bm, bp := max bm (((l0 : Int) + s).toNat), l0 := l0, s := s, kind := kind }
    if b.house.tw.isSome then { b with house := { b.house with late := b.house.late ++ [x] } }
    else if enabled b pgMTR ∧ !b.met.stopped then
      setB x.bp { b with met := { b.met with steps := b.met.steps ++ [x] } }
    else
      let c := b.house.seg
      let b := { b with house := { b.house with steps := b.house.steps ++ [(c, x)], seg := c + 1, bPrev := x.bp } }
      showTime (showDemand (showDstat (settle (setB x.bp b))))

/-- Counter ns of the legal copy since the end of the last sample (R176): its increments, of which no step is part. -/
def sinceSample (b : Blk) : Nat :=
  if legalField b = 0 then b.time.fa.inc / 2 ^ 32 - b.met.lastA else b.time.fb.inc / 2 ^ 32 - b.met.lastB

/-- Energies of the running second and of the clearing period (R241, R242). -/
def runningMeans (qe : Nat) (feed port : Int) (dt : Nat) (b : Blk) : Blk :=
  let h := b.house
  let e := h.secE + qe
  let d := h.secDt + dt
  let b := { b with house := { h with
    feedE := h.feedE + feed, portE := h.portE + port, snapDt := h.snapDt + dt, secE := e, secDt := d } }
  if 10 ^ 9 ≤ d then
    { wrS b DMD.P_1S.W (fdiv e (d * 10 ^ 8)) with house := { b.house with secE := 0, secDt := 0 } }
  else b

/-- The energies of the ports of a list over one sample period, behind those found before. -/
def portEnergies (dt : Nat) (l : List Nat) (acc : Blk × List (Nat × PortEnergy)) : Blk × List (Nat × PortEnergy) :=
  l.foldl (fun acc n =>
    let r := portEnergy n dt acc.1
    (r.1, acc.2 ++ [(n, r.2)])) acc

/-- METROLOGY_SAMPLE: every channel is calibrated, the port energies are formed and the Counting House bills them. -/
def doMetrologySample (set : SensorSet) (b : Blk) : Blk :=
  if b.met.stopped then b
  else
    let b := forEach (List.range 7) (sampleVolt set) (forEach (List.range 8) (sampleCur set) b)
    let b := captureAdd b
    let b := firstTiming b
    let dt := sinceSample b
    let bs := b.house.bPrev
    let be := max (legalL b).1 b.house.live.h
    let seg := b.house.seg
    let steps := b.met.steps
    let ac0 := b.met.ac
    let b := if ac0.n = 0 then { b with met := { b.met with ac := { ac0 with bs := bs, seg := seg } } } else b
    let acDt := b.met.ac.dt
    let b := acAdd dt b
    let b := { b with met := { b.met with
      lastA := b.time.fa.inc / 2 ^ 32, lastB := b.time.fb.inc / 2 ^ 32, steps := []
      ac := { b.met.ac with steps := b.met.ac.steps ++ steps.map fun s => { s with dt := s.dt + acDt } } } }
    let (b, es) := portEnergies dt (List.range 4) (b, [])
    let b := { b with red := { b.red with takenOver := false } }
    if !enabled b pgCH then b
    else
      let clock : Part := { seg := seg, bs := bs, be := be, meter := 5, el := dt }
      let dc := es.map fun x => ({ seg := seg, bs := bs, be := be, meter := x.1, e := x.2.e, loss := x.2.loss, qual := x.2.qual } : Part)
      let parts := (clock :: dc).flatMap fun p => p.atSteps dt 0 steps
      let sum := sumI (es.map fun x => x.2.e)
      let imp := sumN (es.map fun x => x.2.e.toNat)
      let qty := b.house.live.scheme.2.2.2
      let segSteps := (List.range steps.length).map fun k => (seg + k, steps.getD k { dt := 0, bm := 0, bp := 0, l0 := 0, s := 0, kind := 0 })
      let b := setB be { b with house := { b.house with
        parts := b.house.parts ++ parts, steps := b.house.steps ++ segSteps, seg := seg + steps.length, bPrev := be } }
      let b := runningMeans (if qty = 2 then imp else 0) 0 sum dt b
      let pw := sumN ((List.range 4).map fun n => (rdI b (MTR.PDC.P n)).natAbs) + (rdI b MTR.PAC.P).natAbs
      let b := setLive { b.house.live with power := pw } b
      showTime (showDemand (showDstat (settle b)))

/-- MAINS_CYCLE_END (R184 to R188): at a rising crossing of the reference voltage, or after the fixed number of samples where
that voltage is lost; `freq` in mHz. A crossing of a voltage that is lost ends no cycle. The cycle's result goes to the
Counting House. -/
def doMainsCycleEnd (cross : Bool) (freq : Nat) (b : Blk) : Blk :=
  let a := b.met.ac
  let lost := acLost a freq b
  if !isOn b MTR.MCTL.AC_EN ∨ a.n = 0 ∨ b.met.stopped ∨ cross = lost ∨ (!cross ∧ a.n < fixedCycle b) then b
  else
    let (b, r) := acEnd freq b
    let b := { b with met := { b.met with ac := {} } }
    if !enabled b pgCH then b
    else
      let p : Part :=
        { seg := a.seg, bs := a.bs, be := b.house.bPrev, meter := 4, p := r.p, q := r.q, s := r.s, quad := r.quad, qual := r.qual }
      let parts := p.atSteps a.dt 0 a.steps
      let sign : Int := if r.quad = 0 ∨ r.quad = 3 then 1 else -1
      let b := { b with house := { b.house with parts := b.house.parts ++ parts } }
      let qty := b.house.live.scheme.2.2.2
      let qe := if qty = 0 then (if 0 < sign then r.p else 0) else if qty = 1 then r.s else 0
      let b := { b with house := { b.house with feedE := b.house.feedE + sign * r.p, secE := b.house.secE + qe } }
      showTime (showDemand (showDstat (settle b)))

/-! The boundary rows: billing time reaches a boundary and nothing is left to count before it. -/

/-- Where the front end does not sample, billing time moves with legal time and what is due fires. -/
def billTick (b : Blk) : Blk :=
  if enabled b pgMTR ∧ !b.met.stopped then showTime (showDemand (showDstat (settle b)))
  else
    let b := firstTiming (flushSteps b)
    let t := billNow b
    let b := setB t { b with house := { b.house with bPrev := t } }
    showTime (showDemand (showDstat (settle b)))

/-- Billing time moves on to now, as a command or an event finds it (R227). -/
def moveB (b : Blk) : Blk := if isOn b CH.CSTAT.TIMED then showTime (setB (billNow b) b) else b

/-! The power-fail commit (R244). -/

/-- PF_COMMIT (R244): steps 2 and 3 at t_c. Boundaries up to t_c fire, and every part is counted, before the commit; the
energy of a sample or mains cycle in progress at t_c enters no tally. -/
def doPfCommit (quiet : Bool) (b : Blk) : Blk :=
  match b.house.tw with
  | none => b
  | some _ =>
    if b.house.committed then b
    else
      let tc := billNow b
      let b := flushSteps { b with met := { b.met with ac := {} } }
      let b := settle (setB tc { b with house := { b.house with bPrev := max b.house.bPrev tc } })
      let b := commit (countAll b.house.seg b)
      let pw := b.house.live.power
      let res := (pw * rd b CH.PF.TAIL_MS + 3599999) / 3600000
      let b := wrU (incSat b CH.CSTAT.PF_CNT) CH.PF.LAST_RES_WH res
      { b with
        house := { b.house with tc := tc, why := b2n (!quiet), committed := true }
        met := { b.met with stopped := true } }

/-- Complete the signatures waiting, at most `n`. -/
def signAll : Nat → Blk → Blk
  | 0, b => b
  | n + 1, b => if b.house.queue.isEmpty then b else signAll n (doSignDone b)

/-- PF_RECORD (R244): step 4. -/
def doPfRecord (b : Blk) : Blk :=
  match b.house.tw with
  | none => b
  | some tw =>
    if !b.house.committed then b
    else
      let b := issueEvent 0x10 b.house.tc tw b.house.tc (rd b CH.PF.LAST_RES_WH) b.house.why b
      let b := signAll (b.house.queue.length + 1) b
      raise pgCH 2 { b with house := { b.house with tw := none } }

/-- TALLY_SNAPSHOT (R242): at a clearing boundary. -/
def doTallySnapshot (clr : Nat) (b : Blk) : Blk :=
  let h := b.house
  let d : Nat := max 1 h.snapDt * 10 ^ 8
  let r : AedRec :=
    { type := 5, meter := 0xFF, flags := nowFlags b ||| h.snapFlags, qual := h.snapQual, tariff := h.live.tariff,
      b := h.live.h, l := if (legalL b).2 < 2 then 0 else (legalL b).1, id := rd64 b CH.METER_ID.ID, gen := b.acc.sealGen
      resets := rd b DMD.DSTAT.RESETS, crc := rd b MTR.CAL_CRC.CRC
      body := w4 clr ++ w4 (rd b DMD.INT_NUM.NUM) ++ w4 (rd b DMD.T_INT.MS) ++ w4 (rd b DMD.T_REM.MS) ++
        w8 (rd64 b DMD.WIN_E.MWH) ++ w4 (ofInt 32 (fdiv h.feedE d)) ++ w4 (ofInt 32 (fdiv h.portE d)) }
  let (b, bytes) := signRec r (rd64 b CH.SEQ.SEQ - 1) (fsignKey b) b
  let b := { b with house := { b.house with feedE := 0, portE := 0, snapDt := 0, snapFlags := 0, snapQual := 0 } }
  if sends b then emit b (.tallySnap bytes) else b

/-! Tamper (R250, R251). -/

/-- A tamper record is issued, the event raised and a Daybook entry sent; seconds latched with the RTC not set mark it. -/
def tamperRecord (k : Nat) (b : Blk) : Blk :=
  let first := Tab.at' (fun _ => 0) b.house.tamFirst k
  let last := Tab.at' (fun _ => 0) b.house.tamLast k
  let n := rd b (if k = 0 then CH.TAMPER.COVER_CNT else CH.TAMPER.TERM_CNT)
  let b := eventNow 0 (8 * b2n (b.house.tamUnset.testBit k)) 0x15 k first last n b
  raise pgCH 4 (fieldRecord 0x0030 (le 1 k ++ le 4 first ++ le 4 last ++ le 1 n) b)

/-- TAMPER_EVENT: an opening of 10 ms, or the input back in place; input 0 is COVER_SW, 1 TERM_SW. An opening without field
power, or during a power-fail commit, is recorded at power-up (R250, R253). -/
def doTamper (k : Nat) (open' : Bool) (b : Blk) : Blk :=
  let b := wrB b (if k = 0 then CH.TAMPER.COVER_OPEN else CH.TAMPER.TERM_OPEN) open'
  if !open' then b
  else
    let F := if k = 0 then CH.TAMPER.COVER_CNT else CH.TAMPER.TERM_CNT
    let sec := b.time.rtc / 10 ^ 9 % 2 ^ 32
    let b := if rd b F = 0 then { b with house := { b.house with tamFirst := Tab.put (fun _ => 0) b.house.tamFirst k sec } } else b
    let b := { b with house := { b.house with tamLast := Tab.put (fun _ => 0) b.house.tamLast k sec } }
    let b := when (!isOn b FTIME.RTC_STAT.RTC_SET)
      (fun b => { b with house := { b.house with tamUnset := Num.setBit b.house.tamUnset k true } }) b
    let b := incSat b F
    let b := if b.acc.sealed then wrB b CH.CSTAT.BROKEN true else b
    if b.house.tw.isSome ∨ b.house.committed ∨ b.boot.field.held then
      { b with house := { b.house with tamDue := b.house.tamDue ||| 2 ^ k } }
    else tamperRecord k (moveB b)

/-- The Counting House at field power-up (R246): the current copy is restored, boundaries passed fire, the power-up record
is issued, steps of the power-fail commit are handled (R253) and the tamper records latched are issued. -/
def housePowerUp (b : Blk) : Blk :=
  let lost := decide (b.house.live.h ≠ 0) && !b.house.committed
  let c := b.house.copy
  let b := { b with house := { b.house with
    live := c, bPrev := c.h, pos := (0, c.h), seg := 0, steps := [], parts := [], queue := [], due := [],
    feedE := 0, portE := 0, snapDt := 0, secE := 0, secDt := 0, tw := none, outage := true } }
  let b := { b with met := { b.met with
    steps := [], ac := {}, stopped := false, lastA := b.time.fa.inc / 2 ^ 32, lastB := b.time.fb.inc / 2 ^ 32 } }
  let b := forEach (List.range 153) showTally b
  let b := forEach (List.range 8) (fun k b =>
    let m := Tab.at' (fun _ => ((0, 0) : Nat × Nat)) c.max k
    wr64 (wr b (DMD.MAX.D.D_W k) m.1) (DMD.MAX.TIME.B k) m.2) b
  let b := wr b CH.CSTAT.SESS_OPEN (ofBits ((List.range 4).filter fun n => (Tab.at' (fun _ => none) c.sess n).isSome))
  let b := markFlags 128 b
  let f0 := b.house.fired
  let b :=
    if isOn b CH.CSTAT.TIMED then
      let t := billNow b
      let b := settle (setB t { b with house := { b.house with bPrev := t } })
      evalTariff t b
    else firstTiming (evalTariff c.h b)
  let t := b.house.live.h
  let bound := if lost then (c.power * (1000 + rd b CH.PF.TAIL_MS) + 3599999) / 3600000 else 0
  let b := issueMarked (if lost then 512 else 0) 0x11 t c.h t bound (b.house.fired - f0) b
  let l := b.house.late
  let b := forEach l (fun s b => applyLegal { s with bm := t, bp := t } b) { b with house := { b.house with late := [] } }
  let b := forEach (bitsOf 2 b.house.tamDue) tamperRecord b
  showTime (showDemand (showDstat { b with house := { b.house with tamDue := 0, committed := false } }))

def enterMetrologySample (set : SensorSet) : Blk → Blk := gated pgMTR (doMetrologySample set)

def execMetrologySample (set : SensorSet) (s : State) : Out :=
  runIn 5 (.metrologySample set) (enterMetrologySample set) s

def enterMainsCycleEnd (x : CycleEnd) : Blk → Blk := gated pgMTR (doMainsCycleEnd x.cross x.freq.toNat)

def execMainsCycleEnd (x : CycleEnd) (s : State) : Out := runIn 5 (.mainsCycleEnd x) (enterMainsCycleEnd x) s

def execSubintervalEnd (s : State) : Out := run (gated pgCH billTick) s

def execTariffSwitch (s : State) : Out := run (gated pgCH billTick) s

def execCalendarActivation (s : State) : Out := run (gated pgCH billTick) s

def execZoneChange (s : State) : Out := run (gated pgCH billTick) s

def execGridLimitBoundary (s : State) : Out := run (gated pgCH billTick) s

def execPeriodicCommit (s : State) : Out := run (gated pgCH commit) s

def execPfCommit (quiet : Bool) (s : State) : Out := run (gated pgCH (doPfCommit quiet)) s

def execTallySnapshot (clr : BitVec 32) (s : State) : Out := run (gated pgCH (doTallySnapshot clr.toNat)) s

def execRecordSignDone (s : State) : Out := run (gated pgCH doSignDone) s

def enterTamperEvent (term open' : Bool) : Blk → Blk := doTamper (b2n term) open'

def execTamperEvent (term open' : Bool) (s : State) : Out :=
  runIn 13 (.tamperEvent term open') (enterTamperEvent term open') s

end Sys2Proof.Machine
end

