-- ==== Sys2Proof/Machine/HouseCmd.lean ====
section
/-!
DEFINITION. The commands into the sealed partition (chapter 10, R223 to R226, R438): the mailbox and what each command
of the Counting House does.
-/

namespace Sys2Proof.Machine

open Sys2Proof.Num

/-- The command frame in the mailbox: LEN bytes of MBX_DATA. -/
def mailFrame (b : Blk) : List Byte :=
  ((List.range 64).flatMap fun i => le 4 (rd b (FBAR.MBX_DATA.DATA i))).take (rd b FBAR.MBX_STAT.LEN)

/-- MBX_CTL.GO: BUSY sets and LEN takes the frame's LENGTH (R438). -/
def actMailboxGo (v : Nat) (b : Blk) : Blk :=
  if v.testBit 0 then
    wrB (wr b FBAR.MBX_STAT.LEN (rd b (FBAR.MBX_DATA.DATA 1) % 2 ^ 16 % 512)) FBAR.MBX_STAT.BUSY true
  else b

/-- The payload length of a command with the payload's bytes; none for a CODE that R224 does not list. -/
def payloadLen (code : Nat) (pay : List Byte) : Option Nat :=
  match code with
  | 0x01 => some 16
  | 0x02 => some 1
  | 0x03 => some 20
  | 0x04 => some 8
  | 0x10 => some 4
  | 0x11 => some 0
  | 0x12 => some (4 + 4 * ofLE ((pay.drop 2).take 2))
  | 0x13 => some 13
  | 0x14 => some 12
  | 0x15 => some 0
  | 0x16 => some 0
  | 0x17 => some 0
  | _ => none

/-- A little-endian value of a payload: `n` bytes at an offset. -/
def payAt (pay : List Byte) (o n : Nat) : Nat := ofLE ((pay.drop o).take n)

/-- Whether a payload of the right length is well-formed (R224, R236). -/
def payloadOk (code : Nat) (pay : List Byte) : Bool :=
  match code with
  | 0x01 => decide (payAt pay 0 1 < 4 ∧ payAt pay 1 7 = 0)
  | 0x02 => decide (payAt pay 0 1 < 4)
  | 0x03 => decide (payAt pay 0 4 < 2 ^ 17)
  | 0x10 => decide (payAt pay 0 4 < 2 ^ 17)
  | 0x12 =>
    let n := payAt pay 2 2
    decide (1 ≤ n ∧ n ≤ 32 ∧ payAt pay 0 2 + n ≤ 512) && (List.range n).all fun k => !badEntry (payAt pay (4 + 4 * k) 4)
  | 0x13 => decide (payAt pay 12 1 < 8)
  | 0x14 => decide (payAt pay 0 1 < 4 ∧ payAt pay 1 3 = 0)
  | _ => true

/-- Whether a CODE is a signed command (R224). -/
def signedCode (code : Nat) : Bool := decide (0x10 ≤ code)

/-- The payload of a frame. -/
def framePay (f : List Byte) : List Byte :=
  let d := f.drop 24
  if signedCode (payAt f 2 1) then d.take (d.length - 64) else d

/-- Whether a frame has the form of R223. -/
def frameOk (f : List Byte) : Bool :=
  let code := payAt f 2 1
  let sig := if signedCode code then 64 else 0
  decide (payAt f 0 2 = 0x4143 ∧ payAt f 3 1 = 0 ∧ payAt f 6 2 = 0 ∧ payAt f 4 2 = f.length ∧ f.length ≤ 256) &&
    (match payloadLen code (framePay f) with
      | some n => decide (f.length = 24 + n + sig)
      | none => false) &&
    payloadOk code (framePay f) && (signedCode code || decide (payAt f 16 8 = 0))

/-- The outcome of a command: CODE, RESULT and COUNT; a refusal raises CH event 65, and TRF event 74 for a calendar
command (R225, R257). -/
def cmdDone (code res : Nat) (b : Blk) : Blk :=
  let b := incWrap (wr (wr b CH.CMD_STAT.CODE code) CH.CMD_STAT.RESULT res) CH.CMD_STAT.COUNT
  if res = 0 then b
  else
    let b := raise pgCH 1 b
    if code = 0x12 ∨ code = 0x13 then raise pgTRF 2 b else b

/-- The form, signature, nonce and target checks of a frame in the order of their results (R225); 0 passes. The signing
engine without a usable key fails the verification and raises field event 71 (R404). -/
def cmdCheck (f : List Byte) (b : Blk) : Nat × Blk :=
  if !frameOk f then (1, b)
  else
    let signed := signedCode (payAt f 2 1)
    let (sigOk, b) := if !signed then (true, b) else match fverKey b with
      | some k => (Crypto.ecdsaVerify k (Crypto.sha256 (f.take (f.length - 64))) (f.drop (f.length - 64)), b)
      | none => (false, raise pgFSRM 1 b)
    if !sigOk then (2, b)
    else if signed ∧ payAt f 16 8 ≤ rd64 b CH.NONCE.NONCE then (3, b)
    else if payAt f 8 8 ≠ rd64 b CH.METER_ID.ID then (4, b)
    else (0, b)

/-- Whether any row of R224 names the CODE of a frame. -/
def listedCode (code : Nat) : Bool := (payloadLen code []).isSome

/-- The metrology core takes the mailbox's frame for a CODE: the checks, the state's leave, then the effect; a signed
command's nonce is committed first (R225). No command acts between t_w and the power-fail record (R244). -/
def takeMail (code : Nat) (may : List Byte → Blk → Bool) (act : List Byte → Blk → Blk) (b : Blk) : Blk :=
  let f := mailFrame b
  let c := payAt f 2 1
  if !isOn b FBAR.MBX_STAT.BUSY ∨ (c ≠ code ∧ listedCode c) then b
  else
    let b := moveB (raise pgFBAR 1 (wrB b FBAR.MBX_STAT.BUSY false))
    let (res, b) := cmdCheck f b
    let pay := framePay f
    if res ≠ 0 then cmdDone c res b
    else if b.house.tw.isSome ∨ !may pay b then cmdDone c 5 b
    else
      let b := if signedCode c then wr64 b CH.NONCE.NONCE (payAt f 16 8) else b
      cmdDone c 0 (act pay b)

/-- Any state allows the command. -/
def anyState (_ : List Byte) (_ : Blk) : Bool := true

/-- A port's session. -/
def sessOf (b : Blk) (n : Nat) : Option Session := Tab.at' (fun _ => none) b.house.live.sess n

/-- Replace a port's session and show which are open. -/
def setSess (n : Nat) (x : Option Session) (b : Blk) : Blk :=
  let h := b.house.live
  wrBit (setLive { h with sess := Tab.put (fun _ => none) h.sess n x } b) CH.CSTAT.SESS_OPEN n x.isSome

/-- SESSION_OPEN: the start tallies are noted (R224, R253). -/
def maySessionOpen (pay : List Byte) (b : Blk) : Bool := (sessOf b (payAt pay 0 1)).isNone

def doSessionOpen (pay : List Byte) (b : Blk) : Blk :=
  let n := payAt pay 0 1
  setSess n (some { startB := b.house.live.h, ref := payAt pay 8 8, start := (List.range 20).map fun k => tallyOf b (20 * n + k) }) b

/-- SESSION_CLOSE: the session record (R248). -/
def maySessionClose (pay : List Byte) (b : Blk) : Bool := (sessOf b (payAt pay 0 1)).isSome

def doSessionClose (pay : List Byte) (b : Blk) : Blk :=
  let n := payAt pay 0 1
  match sessOf b n with
  | none => b
  | some x =>
    let t := b.house.live.h
    let now := fun k => tallyOf b (20 * n + k)
    let since := fun k => (now k + 2 ^ 64 - x.start.getD k 0) % 2 ^ 64
    let body := w8 x.startB ++ w8 t ++ w8 x.ref ++ w8 (now 8) ++ w8 (now 17) ++ w8 (since 8) ++ w8 (since 17) ++
      w8 (since 18) ++ w8 (since 19) ++ (List.range 8).flatMap fun k => w8 (since k)
    setSess n none (issue 1 n x.flags x.qual t body b)

/-- GRID_LIMIT: replaces the limit before it; an end not after the start cancels it (R240). -/
def doGridLimit (pay : List Byte) (b : Blk) : Blk :=
  let b := wr b DMD.GRID.KW (payAt pay 0 4)
  showDemand (wr64 (wr64 b DMD.GRID_START.B (payAt pay 4 8)) DMD.GRID_END.B (payAt pay 12 8))

/-- The record of a SEQ, if the ring still holds it (R249). -/
def ringRecord (b : Blk) (seq : Nat) : Option (List Byte) :=
  let r := Tab.at' (fun _ => []) b.house.ring (seq % 256)
  if r.isEmpty ∨ payAt r 8 8 ≠ seq then none else some r

/-- REPLAY sends a record again. -/
def mayReplay (pay : List Byte) (b : Blk) : Bool := (ringRecord b (payAt pay 0 8)).isSome

def doReplay (pay : List Byte) (b : Blk) : Blk :=
  match ringRecord b (payAt pay 0 8) with
  | some r => if sends b then emit b (.meterRecord r) else b
  | none => b

/-- SET_CONTRACT and its record (R248). -/
def doSetContract (pay : List Byte) (b : Blk) : Blk :=
  let old := rd b DMD.CONTRACT.KW
  let b := showDemand (wr b DMD.CONTRACT.KW (payAt pay 0 4))
  eventNow 0 0 0x19 old (rd b DMD.CONTRACT.KW) (rd64 b CH.NONCE.NONCE) 0 b

/-- BILLING_RESET: due at the next subinterval end (R239). -/
def doBillingReset (_ : List Byte) (b : Blk) : Blk := showDstat (setLive { b.house.live with resetDue := true } b)

/-- CAL_LOAD: refused while an activation is pending (R236). -/
def mayCalLoad (_ : List Byte) (b : Blk) : Bool := decide (rd64 b TRF.ACT_AT.B = 0)

def doCalLoad (pay : List Byte) (b : Blk) : Blk :=
  let first := payAt pay 0 2
  forEach (List.range (payAt pay 2 2)) (fun k b =>
    { b with house := { b.house with pend := Tab.put (fun _ => 0) b.house.pend (first + k) (payAt pay (4 + 4 * k) 4) } }) b

/-- CAL_ACTIVATE: refused unless the CRC is the pending bank's; a time already passed takes effect at once (R236). -/
def mayCalActivate (pay : List Byte) (b : Blk) : Bool := decide (payAt pay 8 4 = bankCrc (pendEntry b))

def doCalActivate (pay : List Byte) (b : Blk) : Blk :=
  let b := wr64 b TRF.ACT_AT.B (payAt pay 0 8)
  let b := { b with house := { b.house with pendDef := payAt pay 12 1 } }
  let t := b.house.live.h
  if payAt pay 0 8 ≤ t then
    let b := wr64 b TRF.ACT_AT.B (max 1 (payAt pay 0 8))
    evalTariff t (activate (max 1 t) (settle b))
  else b

/-- ZONE_SET writes a zone entry, which may change the zone in force (R233). -/
def doZoneSet (pay : List Byte) (b : Blk) : Blk :=
  let z := payAt pay 0 1
  let b := if isOn b CH.CSTAT.TIMED then settle b else b
  let b := wr (wr b (TRF.ZONE.START.START z) (payAt pay 4 4)) (TRF.ZONE.OFS.OFS z) (payAt pay 8 4)
  let t := b.house.live.h
  if isOn b CH.CSTAT.TIMED then showDstat (evalTariff t (zoneChange t b)) else b

/-- ACK_TAMPER clears the latch and the counts, refused while either input is open (R250, R251). -/
def mayAckTamper (_ : List Byte) (b : Blk) : Bool := !isOn b CH.TAMPER.COVER_OPEN && !isOn b CH.TAMPER.TERM_OPEN

def doAckTamper (_ : List Byte) (b : Blk) : Blk :=
  let b := wr (wr (wrB b CH.CSTAT.BROKEN false) CH.TAMPER.COVER_CNT 0) CH.TAMPER.TERM_CNT 0
  let b := { b with house := { b.house with tamFirst := [], tamLast := [], tamUnset := 0 } }
  eventNow 0 0 0x16 (rd64 b CH.NONCE.NONCE) 0 0 0 b

/-- The seal changes: SYS.MODE shows it and CH event 69 is raised (R34, R226). A partner in step executes the same command
at the same tick (R50); one out of step does not. -/
def setSealed (on : Bool) (b : Blk) : Blk :=
  let b := if inSync b then setRed { b.red with peerSealed := some on } b else b
  sealParity (raise pgCH 5 (wrB { b with acc := { b.acc with sealed := on } } SYS.MODE.SEALED on))

/-- SEAL (R226, R501). -/
def maySeal (_ : List Byte) (b : Blk) : Bool :=
  !b.acc.sealed && isOn b MTR.CAL_STAT.CAL_OK && !isOn b CH.TAMPER.TERM_OPEN && copySet b (legalField b)

def doSeal (_ : List Byte) (b : Blk) : Blk :=
  let b := setSealed true b
  let b := { b with
    acc := { b.acc with sealGen := (b.acc.sealGen + 1) % 2 ^ 16 }
    boot := { b.boot with metHash := b.boot.metRun } }
  let b := wr b FSYS.MET_ID.ID (ofLE (b.boot.metHash.take 4))
  eventNow 0 0 0x13 b.acc.sealGen (rd b MTR.CAL_CRC.CRC) (rd64 b CH.NONCE.NONCE) 0 b

/-- UNSEAL (R226): the marks of the unsealed module enter what is open (R247). -/
def mayUnseal (_ : List Byte) (b : Blk) : Bool := b.acc.sealed && isOn b CH.TAMPER.TERM_OPEN

def doUnseal (_ : List Byte) (b : Blk) : Blk :=
  let b := setSealed false b
  eventNow 1 0 0x14 b.acc.sealGen (rd b MTR.CAL_CRC.CRC) (rd64 b CH.NONCE.NONCE) 0 b

def execMailboxGo (i : Init) (v : Word) (s : State) : Out := run (writeAct i false FBAR.MBX_CTL.GO.a v actMailboxGo) s

def enterSessionOpen : Blk → Blk := gated pgCH (takeMail 0x01 maySessionOpen doSessionOpen)

def execSessionOpen (s : State) : Out := runIn 2 .sessionOpen enterSessionOpen s

def enterSessionClose : Blk → Blk := gated pgCH (takeMail 0x02 maySessionClose doSessionClose)

def execSessionClose (s : State) : Out := runIn 2 .sessionClose enterSessionClose s

def enterGridLimit : Blk → Blk := gated pgCH (takeMail 0x03 anyState doGridLimit)

def execGridLimit (s : State) : Out := runIn 2 .gridLimit enterGridLimit s

def enterReplay : Blk → Blk := gated pgCH (takeMail 0x04 mayReplay doReplay)

def execReplay (s : State) : Out := runIn 2 .replay enterReplay s

def enterSetContract : Blk → Blk := gated pgCH (takeMail 0x10 anyState doSetContract)

def execSetContract (s : State) : Out := runIn 2 .setContract enterSetContract s

def enterBillingReset : Blk → Blk := gated pgCH (takeMail 0x11 anyState doBillingReset)

def execBillingReset (s : State) : Out := runIn 2 .billingReset enterBillingReset s

def enterCalLoad : Blk → Blk := gated pgCH (takeMail 0x12 mayCalLoad doCalLoad)

def execCalLoad (s : State) : Out := runIn 2 .calLoad enterCalLoad s

def enterCalActivate : Blk → Blk := gated pgCH (takeMail 0x13 mayCalActivate doCalActivate)

def execCalActivate (s : State) : Out := runIn 2 .calActivate enterCalActivate s

def enterZoneSet : Blk → Blk := gated pgCH (takeMail 0x14 anyState doZoneSet)

def execZoneSet (s : State) : Out := runIn 2 .zoneSet enterZoneSet s

def enterAckTamper : Blk → Blk := gated pgCH (takeMail 0x15 mayAckTamper doAckTamper)

def execAckTamper (s : State) : Out := runIn 2 .ackTamper enterAckTamper s

def enterSeal : Blk → Blk := gated pgCH (takeMail 0x16 maySeal doSeal)

def execSeal (s : State) : Out := runIn 2 .seal enterSeal s

def enterUnseal : Blk → Blk := gated pgCH (takeMail 0x17 mayUnseal doUnseal)

def execUnseal (s : State) : Out := runIn 2 .unseal enterUnseal s

end Sys2Proof.Machine
end

