-- ==== Sys2Proof/Machine/FieldTime.lean ====
section
/-!
DEFINITION. The field's copies of the time domains (R210, R211, R535) and what a step of legal time does to billing
(R228).
-/

namespace Sys2Proof.Machine

open Sys2Proof.Num

/-- A change that may step legal time: L before and after it, as a step of billing of the given kind (R228). RTC time, or
none, that ends here held until now (R247). -/
def withLegal (kind : Blk → Nat) (f : Blk → Blk) (b : Blk) : Blk :=
  let l0 := legalL b
  let bm := max l0.1 b.house.live.h
  let dt := sinceSample b
  let b' := f b
  let l1 := legalL b'
  if l1.2 = 0 then b'
  else
    let b' := when (decide (l0.2 < 2 ∧ 2 ≤ l1.2) && enabled b pgCH) (markFlags 8) b'
    legalStep l0.1 bm ((l1.1 : Int) - l0.1) (if l0.2 = 1 then 2 else kind b) dt b'

/-- Follower holdover is entered or left (R222); groups aligned to the followed copy go to holdover (R127). -/
def setFieldHold (on : Bool) (b : Blk) : Blk :=
  let was := isOn b FTIME.FSTAT.HOLD
  let b := wrB b FTIME.FSTAT.HOLD on
  if on ∧ !was then
    let b := raise pgFTIME 0 b
    forEach (List.range 3) (fun g b => if rd b (MOD.GCTL.SYNC_SEL g) = 4 then modLoss g b else b) b
  else b

/-- The lock and set bits of a copy. -/
def fLock (d : Nat) : Fld := if d = 0 then FTIME.FSTAT.A_LOCK else FTIME.FSTAT.B_LOCK
def fSet (d : Nat) : Fld := if d = 0 then FTIME.FSTAT.A_SET else FTIME.FSTAT.B_SET
def fOfs (d : Nat) : Fld := if d = 0 then FTIME.FOFS.OFS_A else FTIME.FOFS.OFS_B

/-- The nominal addend of a copy, 2.5 ns in 2^-32 ns (R210). -/
def copyNominal : Nat := 5 * 2 ^ 31

/-- The servo of a copy: τ = 1 ms, clamped at 1,000 ppm (R206, R210). -/
def copyServo (d : Nat) (o : Int) (b : Blk) : Blk :=
  let x := copyOf b d
  let den : Nat := 16 * 10 ^ 6
  let lim : Int := 16000
  let f := x.freq + o
  let rate := ((copyNominal : Int) + rdiv ((copyNominal : Int) * clamp (-lim) lim (f + 4 * o)) den).toNat
  let good := if o.natAbs ≤ 50 then x.good + 1 else 0
  wrB (setCopy d { x with freq := f, rate := rate, good := good } b) (fLock d) (decide (16 ≤ good))

/-- A copy takes the carried time whole. -/
def copyLoad (d host : Nat) (b : Blk) : Blk :=
  setCopy d { copyOf b d with e := host * 2 ^ 32, synced := true, held := false, good := 0 } b

/-- What a TIME_SYNC does to one copy: E of the host domain as carried and corrected for the barrier's delay, whether the
host domain is set, the step it carries for this domain. -/
def syncCopy (d host : Nat) (set' : Bool) (step : Option Int) (b : Blk) : Blk :=
  let x := copyOf b d
  let b :=
    if !x.synced then wrI (copyLoad d host b) (fOfs d) 0
    else if isOn b (fSet d) ∧ !set' then
      wrB (setCopy d { x with held := true, good := 0 } b) (fLock d) false
    else if x.held then wrB (copyLoad d host b) (fLock d) false
    else
      let b := match step with
        | some v => setCopy d { x with e := (((x.e : Int) + v * 2 ^ 32) % 2 ^ 96).toNat } b
        | none => b
      let o : Int := host - eField b d
      copyServo d o (probe true 5 (some d) o (wrS b (fOfs d) o))
  if set' then wrB b (fSet d) true else b

/-- TIME_SYNC at the field (R210, R211, R535). -/
def doTimeSync (ta tb mask sets : Nat) (step : Int) (b : Blk) : Blk :=
  let b := withLegal (fun _ => 0) (fun b =>
    syncCopy 1 tb (sets.testBit 1) (if mask.testBit 1 then some step else none)
      (syncCopy 0 ta (sets.testBit 0) (if mask.testBit 0 then some step else none) b)) b
  let b := setFieldHold (b.time.fa.held || b.time.fb.held) b
  let diff : Int := (eField b 0 : Int) - eField b 1
  wrB b FTIME.FSTAT.AGREE (decide (diff.natAbs ≤ rd b FTIME.FCTL.SW_TOL_NS))

/-- FOLLOWER_HOLDOVER: three TIME_SYNCs missing (R210); the copies hold their addends. -/
def doFollowerHoldover (b : Blk) : Blk := setFieldHold true (incSat b FTIME.FSTAT.SYNC_MISS 3)

/-- CH.CCTL: a change of the legal domain is a step of legal time and changes SYS.MODE.LEGAL_DOM (R51, R228). -/
def actLegalDom (old : Nat) (b : Blk) : Blk :=
  let new := legalField b
  if new = old then b
  else
    let b := wr b CH.CCTL.LEGAL_DOM old
    let b := withLegal (fun _ => 1) (fun b => wr b CH.CCTL.LEGAL_DOM new) b
    when (!copySet b new) (fun b => wrB b FTIME.RTC_STAT.TRIMMED false) (wr b SYS.MODE.LEGAL_DOM new)

def execTimeSync (ta tb : BitVec 64) (mask sets : BitVec 2) (step : BitVec 64) (s : State) : Out :=
  run (doTimeSync ta.toNat tb.toNat mask.toNat sets.toNat step.toInt) s

def execFollowerHoldover (s : State) : Out := run doFollowerHoldover s

end Sys2Proof.Machine
end

