-- ==== Sys2Proof/Machine/Vp.lean ====
section
/-!
DEFINITION. The vehicle ports (chapter 11): plug, pilot, lock, hold conditions and drop, emergency stop, the vehicle
links, buttons and touch.
-/

namespace Sys2Proof.Machine

open Sys2Proof.Num

/-- The event bit of a CAUSE bit (R284). -/
def vpEventOf (c : Nat) : Nat :=
  if c < 3 then 0 else if c < 6 ∨ c = 18 then 1 else if c < 11 then 2 else 3

/-- Set a CAUSE bit and raise its event; a disabled page sets none (R28, R270). -/
def vpCause (c n : Nat) (b : Blk) : Blk :=
  if enabled b (pgVP n) then raise (pgVP n) (vpEventOf c) (wrBit b (VP.CAUSE.CAUSE n) c true) else b

/-- The hold conditions of a port (R266). -/
def vpHoldBits (b : Blk) (n : Nat) : Nat :=
  let type := rd b (VP.VCTL.TYPE n)
  let pilot := rd b (VP.VSTAT.PILOT n)
  let bit2 := rd b (VP.VCTL.LOCK_CH n) != 0xFF &&
    (!isOn b (VP.LOCK.CMD n) || !isOn b (VP.VSTAT.LOCKED n) || isOn b (VP.VSTAT.LOCK_FAULT n))
  let bit3 := if type = 1 then (pilot != 2 && pilot != 3) || isOn b (VP.VSTAT.DIODE_FAULT n)
    else if type = 2 then !(rd b (VP.MCS_CTL.READY_MASK n)).testBit pilot else false
  b2n (type == 0) + 2 * b2n (!isOn b (VP.VSTAT.PLUG n) || isOn b (VP.VSTAT.PLUG_FAULT n)) + 4 * b2n bit2 + 8 * b2n bit3 +
    16 * b2n (vpOf b n).imdLow + 32 * b2n (isOn b (VP.VSTAT.ESTOP n)) + 64 * b2n (isOn b (VP.VSTAT.SITE_ESTOP n)) +
    128 * b2n (pfWarn b)

/-- Bring HOLD, DROP_LATCH and DROP up to the conditions (R266); the entry into drop latches its time. -/
def vpHold (n : Nat) (b : Blk) : Blk :=
  if !enabled b (pgVP n) then b
  else
    let old := rd b (VP.VSTAT.HOLD n)
    let new := vpHoldBits b n
    let b := wr b (VP.VSTAT.HOLD n) new
    let b := if new - (new &&& old) ≠ 0 ∧ isOn b (VP.VSTAT.LIVE n) then wrB b (VP.VSTAT.DROP_LATCH n) true else b
    let was := isOn b (VP.VSTAT.DROP n)
    let now := decide (new ≠ 0) || isOn b (VP.VSTAT.DROP_LATCH n)
    let b := wrB b (VP.VSTAT.DROP n) now
    if now ∧ !was then vpCause 16 n (wr64 b (VP.DROP_TS.E n) (eFollow b)) else b

/-- VSTAT.LINK is JOINED or the T1S link; a change sets CAUSE bit 5. -/
def vpLink (n : Nat) (b : Blk) : Blk :=
  let new := isOn b (VP.PLC_STAT.JOINED n) || isOn b (VP.T1S_STAT.LINK n)
  if new = isOn b (VP.VSTAT.LINK n) then b else vpCause 5 n (wrB b (VP.VSTAT.LINK n) new)

/-- The modem of a CCS-DC port or the PHY of an MCS port wakes (R272, R274). -/
def vpWake (n : Nat) (b : Blk) : Blk :=
  match rd b (VP.VCTL.TYPE n) with
  | 1 => wrB b (VP.PLC_STAT.AWAKE n) true
  | 2 => wrB (wrB b (VP.T1S_STAT.AWAKE n) true) (VP.T1S_STAT.PLCA_ACT n) (isOn b (VP.VCTL.PLCA n))
  | _ => b

/-- The modem forgets its network and what it measured (R273). -/
def vpForget (n : Nat) (b : Blk) : Blk :=
  let b := setVp n { vpOf b n with atten := [], sounds := 0 } b
  vpLink n (wr (wr (wrB b (VP.PLC_STAT.JOINED n) false) (VP.PLC_STAT.SOUNDS n) 0) (VP.PLC_STAT.ATTEN_AVG n) 0)

/-- The modem and the PHY are powered down. -/
def vpDown (n : Nat) (b : Blk) : Blk :=
  let b := wrB (vpForget n b) (VP.PLC_STAT.AWAKE n) false
  vpLink n (wrB (wrB (wrB b (VP.T1S_STAT.AWAKE n) false) (VP.T1S_STAT.LINK n) false) (VP.T1S_STAT.PLCA_ACT n) false)

/-! Plug (R262). -/

/-- What a plug sample in mV reads: 0 present, 1 absent, 2 fault; a window with both bounds zero matches nothing. -/
def plugClass (b : Blk) (n mv : Nat) : Nat :=
  let inWin := fun lo hi => decide (¬(lo = 0 ∧ hi = 0) ∧ lo ≤ mv ∧ mv ≤ hi)
  if inWin (rd b (VP.PLUG_BAND.P_LO n)) (rd b (VP.PLUG_BAND.P_HI n)) then 0
  else if inWin (rd b (VP.ABS_BAND.A_LO n)) (rd b (VP.ABS_BAND.A_HI n)) then 1 else 2

/-- The plug is lost (R273): its modem clears its keys and powers down 1 s later. -/
def plugLost (n : Nat) (b : Blk) : Blk :=
  if !isOn b (VP.VSTAT.PLUG n) then b
  else
    let b := vpCause 1 n (wrB b (VP.VSTAT.PLUG n) false)
    let b := vpForget n b
    setVp n { vpOf b n with down := isOn b (VP.PLC_STAT.AWAKE n) } b

/-- PLUG_INSERT: PLUG_IN_MS of present samples, the last of `mv` mV. -/
def doPlugInsert (n mv : Nat) (b : Blk) : Blk :=
  let b := wr b (VP.PLUG_MEAS.MV n) mv
  if plugClass b n mv ≠ 0 then b
  else
    let b := wrB b (VP.VSTAT.PLUG_FAULT n) false
    let b := if isOn b (VP.VSTAT.PLUG n) then b
      else
        let b := wr64 (wrB b (VP.VSTAT.PLUG n) true) (VP.PLUG_TS.E n)
          ((eFollow b + 2 ^ 64 - rd b (VP.TIMING.PLUG_IN_MS n) * 10 ^ 6) % 2 ^ 64)
        let b := vpCause 0 n (setVp n { vpOf b n with down := false } b)
        if isOn b (VP.VCTL.AUTO_WAKE n) then vpWake n b else b
    vpHold n b

/-- PLUG_REMOVE: PLUG_OUT_MS of samples that are not present. -/
def doPlugRemove (n mv : Nat) (b : Blk) : Blk :=
  let b := wr b (VP.PLUG_MEAS.MV n) mv
  if plugClass b n mv = 0 then b else vpHold n (plugLost n b)

/-- PLUG_FAULT: PLUG_OUT_MS of fault samples, or PLUG_IN_MS without one. -/
def doPlugFault (n mv : Nat) (b : Blk) : Blk :=
  let b := wr b (VP.PLUG_MEAS.MV n) mv
  let f := decide (plugClass b n mv = 2)
  let was := isOn b (VP.VSTAT.PLUG_FAULT n)
  let b := wrB b (VP.VSTAT.PLUG_FAULT n) f
  let b := if f then plugLost n b else b
  vpHold n (if f ∧ !was then vpCause 2 n b else b)

/-! Pilot (R263, R264). -/

/-- The CCS-DC state of a high plateau in 0.1 V. -/
def pilotClass (hi : Int) : Nat :=
  if 110 ≤ hi ∧ hi ≤ 130 then 0 else if 80 ≤ hi ∧ hi ≤ 100 then 1 else if 50 ≤ hi ∧ hi ≤ 70 then 2
  else if 20 ≤ hi ∧ hi ≤ 40 then 3 else if -10 ≤ hi ∧ hi ≤ 10 then 4 else if -130 ≤ hi ∧ hi ≤ -110 then 5 else 6

/-- The MCS band of a level in 0.1 V; thresholds that do not rise strictly read 6. -/
def pilotBand (b : Blk) (n : Nat) (x : Int) : Nat :=
  let t0 := rdI b (VP.MBAND_LO.TH0 n)
  let t1 := rdI b (VP.MBAND_LO.TH1 n)
  let t2 := rdI b (VP.MBAND_HI.TH2 n)
  let t3 := rdI b (VP.MBAND_HI.TH3 n)
  if ¬(t0 < t1 ∧ t1 < t2 ∧ t2 < t3) then 6
  else if x < t0 then 0 else if x < t1 then 1 else if x < t2 then 2 else if x < t3 then 3 else 4

/-- PILOT_CHANGE: plateaus in 0.1 V that agreed over CP_FILT_MS. -/
def doPilot (n : Nat) (hi lo : Int) (b : Blk) : Blk :=
  let type := rd b (VP.VCTL.TYPE n)
  if type = 0 then b
  else
    let osc := decide (type = 1 ∧ rd b (VP.CP_CTL.CP_MODE n) = 1)
    let b := wrI b (VP.CP_MEAS.HIGH n) hi
    let b := if osc then wrI b (VP.CP_MEAS.LOW n) lo else b
    let p := if type = 1 then pilotClass hi else pilotBand b n hi
    let b := if p ≠ rd b (VP.VSTAT.PILOT n) then vpCause 3 n (wr b (VP.VSTAT.PILOT n) p) else b
    let d := decide (-110 < lo)
    let b := if !osc ∨ d = isOn b (VP.VSTAT.DIODE_FAULT n) then b
      else
        let b := wrB b (VP.VSTAT.DIODE_FAULT n) d
        if d then vpCause 4 n b else b
    vpHold n b

/-! Insulation, drop, discharge (R266, R269). -/

/-- The insulation input has been low, or high, for IMD_MS. -/
def doImd (low : Bool) (n : Nat) (b : Blk) : Blk :=
  let was := (vpOf b n).imdLow
  let b := wrB (setVp n { vpOf b n with imdLow := low } b) (VP.VSTAT.IMD_OK n) (!low)
  vpHold n (if low ∧ !was then vpCause 13 n b else b)

/-- DISCH_MS into a drop with the port still live. -/
def doDischTo (n : Nat) (b : Blk) : Blk :=
  if isOn b (VP.VSTAT.DROP n) ∧ isOn b (VP.VSTAT.LIVE n) then vpCause 17 n b else b

/-! The lock (R265). -/

/-- LOCKED as the feedback shows it after FB_INV; the unlocked-feedback test starts with the first locked feedback. -/
def lockShow (n : Nat) (b : Blk) : Blk :=
  let l := (vpOf b n).fb != isOn b (VP.VCTL.FB_INV n)
  let b := wrB b (VP.VSTAT.LOCKED n) l
  let b := if l ∧ isOn b (VP.LOCK.CMD n) then setVp n { vpOf b n with lockTest := true } b else b
  vpHold n b

/-- The pulse running ends. -/
def lockPulseEnd (n : Nat) (b : Blk) : Blk :=
  let x := vpOf b n
  let b := setVp n { x with pulse := 0 } b
  match x.pulse with
  | 1 => lswDrive (rd b (VP.VCTL.LOCK_CH n)) false 1000 b
  | 2 => lswDrive (rd b (VP.VCTL.UNLOCK_CH n)) false 1000 b
  | _ => b

/-- A change of CMD drives the lock: a pulse of a bistable lock, the level of a monostable one. -/
def lockDrive (n : Nat) (b : Blk) : Blk :=
  let lock := rd b (VP.VCTL.LOCK_CH n)
  let unlock := rd b (VP.VCTL.UNLOCK_CH n)
  let cmd := isOn b (VP.LOCK.CMD n)
  if lock = 0xFF ∨ !enabled b (pgVP n) then b
  else if unlock = 0xFF then lswDrive lock cmd 1000 b
  else
    let b := lockPulseEnd n b
    let b := setVp n { vpOf b n with pulse := if cmd then 1 else 2 } b
    lswDrive (if cmd then lock else unlock) true 1000 b

/-- Whether a value of CMD may be written (R265). -/
def lockMay (b : Blk) (n v : Nat) : Bool :=
  v == rd b (VP.LOCK.CMD n) || (if v = 1 then isOn b (VP.VSTAT.PLUG n) else !isOn b (VP.VSTAT.LIVE n))

/-- A change of LOCK.CMD commands the lock (R265). -/
def actLock (old n : Nat) (b : Blk) : Blk :=
  if rd b (VP.LOCK.CMD n) = old then b
  else
    let b := setVp n { vpOf b n with
      lockWin := rd b (VP.VCTL.LOCK_CH n) != 0xFF
      lockTest := isOn b (VP.LOCK.CMD n) && isOn b (VP.VSTAT.LOCKED n) } b
    vpHold n (lockDrive n b)

/-- A write of LOCK: a refused change sets its CAUSE bit; an accepted one commands the lock. -/
def doLockWrite (i : Init) (n : Nat) (v : Word) (b : Blk) : Blk :=
  let old := rd b (VP.LOCK.CMD n)
  let may := lockMay b n (v.toNat / 2 ^ 31)
  let b := writeAct i false (VP.LOCK.CMD n).a v (fun _ => actLock old n) b
  if may then b else vpCause 12 n b

/-- LOCK_FAULT sets. -/
def lockFault (n : Nat) (b : Blk) : Blk := vpHold n (vpCause 11 n (wrB b (VP.VSTAT.LOCK_FAULT n) true))

/-- LOCK_TIMEOUT: the window of the last command closes. -/
def doLockTimeout (n : Nat) (b : Blk) : Blk :=
  let x := vpOf b n
  if !x.lockWin then b
  else
    let cmd := isOn b (VP.LOCK.CMD n)
    let b := setVp n { x with lockWin := false, lockTest := cmd } b
    if isOn b (VP.VSTAT.LOCKED n) = cmd then b else lockFault n b

/-- LOCK_FEEDBACK_LOST: unlocked feedback for CP_FILT_MS under a lock command whose test has started. -/
def doLockLost (n : Nat) (b : Blk) : Blk :=
  if isOn b (VP.LOCK.CMD n) ∧ (vpOf b n).lockTest ∧ !isOn b (VP.VSTAT.LOCKED n) ∧ rd b (VP.VCTL.LOCK_CH n) ≠ 0xFF then
    lockFault n b
  else b

/-! Configuration (R261, R265). -/

/-- What a write of VCTL does beside the fields: the lock's channels change driver, the type starts classification
afresh and powers the links down, the feedback is judged with the new sense. -/
def actVctl (n oldType oldLock oldUnlock : Nat) (b : Blk) : Blk :=
  let type := rd b (VP.VCTL.TYPE n)
  let lock := rd b (VP.VCTL.LOCK_CH n)
  let unlock := rd b (VP.VCTL.UNLOCK_CH n)
  let b := if lock = oldLock ∧ unlock = oldUnlock then b
    else
      let b := setVp n { vpOf b n with pulse := 0, lockWin := false } b
      let b := forEach ([oldLock, oldUnlock].filter fun c => c < 48 && c != lock && c != unlock)
        (fun c b => lswOwn 0 c (lswDrive c false 1000 b)) b
      let b := forEach ([lock, unlock].filter fun c => c < 48 && c != oldLock && c != oldUnlock) (lswOwn 4) b
      let b := forEach ([lock, unlock].filter fun c => c < 48) (fun c => lswDrive c false 1000) b
      if lock < 48 ∧ unlock = 0xFF ∧ enabled b (pgVP n) then lswDrive lock (isOn b (VP.LOCK.CMD n)) 1000 b else b
  let b := if type = oldType then b
    else vpDown n (wrB (wr b (VP.VSTAT.PILOT n) 6) (VP.VSTAT.DIODE_FAULT n) false)
  let b := if isOn b (VP.T1S_STAT.AWAKE n) then wrB b (VP.T1S_STAT.PLCA_ACT n) (isOn b (VP.VCTL.PLCA n)) else b
  lockShow n b

def doVctlWrite (i : Init) (n : Nat) (v : Word) (b : Blk) : Blk :=
  let type := rd b (VP.VCTL.TYPE n)
  let lock := rd b (VP.VCTL.LOCK_CH n)
  let unlock := rd b (VP.VCTL.UNLOCK_CH n)
  writeAct i false (VP.VCTL.TYPE n).a v (fun _ => actVctl n type lock unlock) b

/-! Emergency stop (R270, R271). -/

/-- Whether any ESTOP input of this device is asserted. -/
def anyEstop (b : Blk) : Bool :=
  (List.range 4).any fun n => isOn b (VP.VSTAT.ESTOP n) || isOn b (VP.VSTAT.SITE_ESTOP n)

/-- The trunks a site ESTOP stops (R108): those a group of this device feeds, and its four ports'. -/
def siteTrunks (b : Blk) : Nat :=
  ofBits (((List.range 3).flatMap fun g => trunksOf b g).filter (· < 16)) |||
    ofBits ((List.range 4).map fun n => 4 * myPos b + n)

/-- An ESTOP input asserts: the hard-wired path removes the local gate enables, the trunk stop is sent (R12, R108). -/
def doEstop (site : Bool) (n : Nat) (b : Blk) : Blk :=
  if isOn b (if site then VP.VSTAT.SITE_ESTOP 0 else VP.VSTAT.ESTOP n) then b
  else
    let mask := if site then siteTrunks b else 2 ^ (4 * myPos b + n)
    let b := forEach (List.range 3) (fun g => gateRemove g 0) b
    let b := sendStop mask b
    let b := if site then { b with trunk := { b.trunk with siteMask := mask } } else b
    if site then
      forEach (List.range 4) (fun k b => vpHold k (vpCause 15 k (wrB b (VP.VSTAT.SITE_ESTOP k) true))) b
    else vpHold n (vpCause 14 n (wrB b (VP.VSTAT.ESTOP n) true))

/-- An ESTOP input is released; the gate enables may return once none is asserted (R138). -/
def doEstopRelease (site : Bool) (n : Nat) (b : Blk) : Blk :=
  let b := if site then
      forEach (List.range 4) (fun k b => vpHold k (wrB b (VP.VSTAT.SITE_ESTOP k) false))
        { b with trunk := { b.trunk with siteMask := 0 } }
    else vpHold n (wrB b (VP.VSTAT.ESTOP n) false)
  if anyEstop b then b else forEach (List.range 3) (fun g => gateRestore g 0) b

/-! The vehicle's links (R272 to R275). -/

/-- Whether the 10BASE-T1S MAC passes a frame: 64 to 1,522 bytes with its FCS (R274). -/
def t1sFits (frame : List Byte) : Bool := decide (60 ≤ frame.length ∧ frame.length ≤ 1518)

/-- The running average of a carrier group in dB, rounded to nearest. -/
def attenOf (b : Blk) (n k : Nat) : Nat :=
  let x := vpOf b n
  if x.sounds = 0 then 0 else min 255 (rdivN (Tab.at' (fun _ => 0) x.atten k) x.sounds)

/-- A sounding frame with the run identifier set: the attenuations of the 58 groups in dB. -/
def doSounding (n : Nat) (att : List (BitVec 8)) (b : Blk) : Blk :=
  if !isOn b (VP.PLC_STAT.AWAKE n) then b
  else
    let x := vpOf b n
    let sums := (List.range 58).foldl (fun t k =>
      Tab.put (fun _ => 0) t k (Tab.at' (fun _ => 0) x.atten k + (att.getD k 0).toNat)) x.atten
    let b := setVp n { x with atten := sums, sounds := x.sounds + 1 } b
    let b := incSat b (VP.PLC_STAT.SOUNDS n)
    wr b (VP.PLC_STAT.ATTEN_AVG n) (min 255 (rdivN (sumN ((List.range 58).map (attenOf b n))) 58))

/-- SOUND_RST clears the averages. -/
def soundReset (n : Nat) (b : Blk) : Blk :=
  wr (wr (setVp n { vpOf b n with atten := [], sounds := 0 } b) (VP.PLC_STAT.SOUNDS n) 0) (VP.PLC_STAT.ATTEN_AVG n) 0

/-- The modem joins the network under the key firmware set. -/
def doJoined (n : Nat) (b : Blk) : Blk :=
  if isOn b (VP.PLC_STAT.AWAKE n) then vpLink n (wrB b (VP.PLC_STAT.JOINED n) true) else b

/-- The modem powers down 1 s after the plug is lost. -/
def doModemDown (n : Nat) (b : Blk) : Blk :=
  if (vpOf b n).down ∧ !isOn b (VP.VSTAT.PLUG n) then
    wrB (setVp n { vpOf b n with down := false } b) (VP.PLC_STAT.AWAKE n) false
  else b

/-- The T1S link comes up with a valid frame or goes down with SILENT_MS of silence. -/
def doT1sLink (n : Nat) (up : Bool) (b : Blk) : Blk :=
  if isOn b (VP.T1S_STAT.AWAKE n) then vpLink n (wrB b (VP.T1S_STAT.LINK n) up) else b

/-- A frame on the vehicle's line; `cut` where it was cut off (R275). A 10BASE-T1S frame the MAC does not pass, for its length
without the FCS (R274), counts as one (DEDUCED, notes/assumptions/27.md); a valid one shows the link (R274). -/
def doVehicleRx (n : Nat) (frame : List Byte) (cut : Bool) (b : Blk) : Blk :=
  let plc := isOn b (VP.PLC_STAT.AWAKE n)
  let t1s := isOn b (VP.T1S_STAT.AWAKE n)
  if !plc ∧ !t1s then b
  else if cut || (!plc && !t1sFits frame) then vpCause 18 n (incSat b (VP.FRM_CNT.DISC n))
  else if plc then emit b (.plcFrame n (eFollow b) frame)
  else emit (vpLink n (wrB b (VP.T1S_STAT.LINK n) true)) (.t1sFrame n (eFollow b) frame)

/-- A frame from the host for a port's line (R272, R274): the modem sends only management frames before it has joined; only
the active of a pair drives the line (R280). -/
def doVehicleTx (t1s : Bool) (n : Nat) (frame : List Byte) (b : Blk) : Blk :=
  let awake := isOn b (if t1s then VP.T1S_STAT.AWAKE n else VP.PLC_STAT.AWAKE n)
  let mgmt := (frame.drop 12).take 2 == be 2 0x88E1
  let ok := if t1s then t1sFits frame else isOn b (VP.PLC_STAT.JOINED n) || mgmt
  if !enabled b (pgVP n) ∨ !awake ∨ !ok then incSat b (VP.FRM_CNT.TXDROP n)
  else if paired b ∧ !isActive b then b else emit b (.vehicleTx n t1s frame)

/-! The person (R277, R278). -/

/-- A button press or release has qualified. -/
def doButton (n k : Nat) (on : Bool) (b : Blk) : Blk :=
  if rdBit b (VP.PERSON.BTN n) k = on then b
  else
    let b := wrBit b (VP.PERSON.BTN n) k on
    vpCause 6 n (if on then b else wrBit b (VP.PERSON.LONG n) k false)

/-- A press held for LONG_MS. -/
def doLongPress (n k : Nat) (b : Blk) : Blk :=
  if rdBit b (VP.PERSON.BTN n) k ∧ !rdBit b (VP.PERSON.LONG n) k then vpCause 7 n (wrBit b (VP.PERSON.LONG n) k true) else b

/-- Report an electrode touched or not; a change sets CAUSE bit 8. -/
def setTouched (n e : Nat) (on : Bool) (b : Blk) : Blk :=
  if isOn b (VP.TCH.TSTAT.TOUCHED n e) = on then b
  else vpCause 8 n (wrBit (wrB b (VP.TCH.TSTAT.TOUCHED n e) on) (VP.PERSON.TOUCHED n) e on)

/-- RAW − BASE of an electrode. -/
def touchDelta (b : Blk) (n e : Nat) : Int := (rd b (VP.TCH.TRAW.RAW n e) : Int) - rd b (VP.TCH.TRAW.BASE n e)

/-- BASE follows RAW by at most `d` counts. -/
def touchDrift (n e d : Nat) (b : Blk) : Blk :=
  let x := touchDelta b n e
  wr b (VP.TCH.TRAW.BASE n e) ((rd b (VP.TCH.TRAW.BASE n e) : Int) + clamp (-(d : Int)) d x).toNat

/-- One electrode's runs after a scan that is not wet. -/
def touchJudge (n d : Nat) (e : Nat) (b : Blk) : Blk :=
  let x := vpOf b n
  let delta := touchDelta b n e
  let th := rd b (VP.TCH.TCFG.TH n e)
  let up := if (th : Int) ≤ delta then min 2 (Tab.at' (fun _ => 0) x.up e + 1) else 0
  let low := if 2 * delta < th then min 2 (Tab.at' (fun _ => 0) x.low e + 1) else 0
  let b := setVp n { x with up := Tab.put (fun _ => 0) x.up e up, low := Tab.put (fun _ => 0) x.low e low } b
  let on := if isOn b (VP.TCH.TSTAT.TOUCHED n e) then decide (low < 2) else decide (2 ≤ up)
  let b := setTouched n e on b
  if on then b else touchDrift n e d b

/-- TOUCH_SCAN: the electrodes' measurements in counts. -/
def doTouchScan (n : Nat) (raw : List (BitVec 16)) (b : Blk) : Blk :=
  let en := (List.range 4).filter fun e => isOn b (VP.TCH.TCFG.EN n e)
  let b := forEach en (fun e b =>
    let b := wr b (VP.TCH.TRAW.RAW n e) (raw.getD e 0).toNat
    wrS b (VP.TCH.TSTAT.DELTA n e) (touchDelta b n e)) b
  let reach := (en.filter fun e => decide ((rd b (VP.TCH.TCFG.TH n e) : Int) ≤ touchDelta b n e)).length
  let x := vpOf b n
  let dry := if reach = 0 then min 2 (x.dry + 1) else 0
  let wasWet := isOn b (VP.PERSON.WET n)
  let wet := decide (3 ≤ reach) || (wasWet && decide (dry < 2))
  let acc := x.drift + rd b (VP.TOUCH_CTL.DRIFT n) * rd b (VP.PERSON_CTL.SCAN_MS n)
  let b := setVp n { x with dry := dry, drift := acc % 1000 } b
  let b := wrB b (VP.PERSON.WET n) wet
  if wet then
    let b := setVp n { vpOf b n with up := [], low := [] } b
    let b := forEach (List.range 4) (fun e => setTouched n e false) b
    if wasWet then b else vpCause 9 n b
  else forEach en (touchJudge n (acc / 1000)) b

/-- BASE := RAW of an electrode. -/
def touchBase (n e : Nat) (b : Blk) : Blk :=
  wr (wr b (VP.TCH.TRAW.BASE n e) (rd b (VP.TCH.TRAW.RAW n e))) (VP.TCH.TSTAT.DELTA n e) 0

/-- TOUCH_RECAL: an electrode touched for TOUCH_MAX_S. -/
def doTouchRecal (n e : Nat) (b : Blk) : Blk :=
  if isOn b (VP.TCH.TSTAT.TOUCHED n e) then vpCause 10 n (touchBase n e b) else b

/-! ARM (R283). -/

/-- DROP_CLR. -/
def dropClr (n : Nat) (b : Blk) : Blk := vpHold n (wrB b (VP.VSTAT.DROP_LATCH n) false)

/-- LOCK_CLR. -/
def lockClr (n : Nat) (b : Blk) : Blk := vpHold n (wrB b (VP.VSTAT.LOCK_FAULT n) false)

/-- RECAL. -/
def touchRecalAll (n : Nat) (b : Blk) : Blk := vpCause 10 n (forEach (List.range 4) (touchBase n) b)

/-- What the accepted bits of a write of ARM do, on an enabled page. -/
def actArm (n v : Nat) (b : Blk) : Blk :=
  gated (pgVP n) (fun b =>
    let b := when (v.testBit 0) (dropClr n) b
    let b := when (v.testBit 1) (touchRecalAll n) b
    let b := when (v.testBit 2) (lockClr n) b
    let b := when (v.testBit 3) (soundReset n) b
    when (v.testBit 4) (vpWake n) b) b

/-- One bit of ARM written. -/
def armWrite (i : Init) (n k : Nat) (b : Blk) : Blk :=
  writeAct i false (VP.ARM.DROP_CLR n).a (BitVec.ofNat 32 (2 ^ k)) (actArm n) b

/-! The control stream (R177). -/

/-- A calibrated value in a thousandth of its unit as a control sample: to 0.1 of the unit, half away from zero. -/
def ctrlValue (y : Int) : Int := max (-32767) (min 32767 (adiv y 1000))

/-- Whether the front end samples (R177, R194). -/
def metSamples (b : Blk) : Bool := enabled b pgMTR && clocked b pgMTR && !b.met.stopped

/-- Whether some group concerned with a trunk is in a transfer's steps 4 to 7, as far as this device knows (R99). -/
def trunkInXfer (b : Blk) (t : Nat) : Bool :=
  ((List.range 3).any fun g =>
    let x := xferOf b g
    decide (4 ≤ x.step ∧ x.step ≤ 7) && (trunkOf b g x.src == t || trunkOf b g x.dst == t)) ||
  ((List.range 12).any fun k =>
    let w := Tab.at' (fun _ => ({} : GrpW)) b.ce.weight k
    decide (k / 3 ≠ myPos b) &&
      (((rd b (FCTR.TRUNK_PLAN.GRP_MASK t)).testBit k && !(w.trunk == t && (w.mode == 0 || w.mode == 3))) ||
        (w.trunk == t && !(rd b (FCTR.TRUNK_PLAN.GRP_MASK t)).testBit k)))

/-- One voltage channel's control sample. -/
def ctrlVolt (set : SensorSet) (v : Nat) (b : Blk) : Blk :=
  let bad := !metSamples b || isOn b (MTR.VCH.VCTL.OVR v)
  let b := wrB b (MTR.VCH.VCTL.INVALID v) bad
  if metSamples b then wrI b (MTR.VCH.VCTL.V v) (ctrlValue (voltY b v (set.volt.getD v 0))) else b

/-- One current channel's control sample. -/
def ctrlCur (set : SensorSet) (s : Nat) (b : Blk) : Blk :=
  if metSamples b ∧ enabled b (pgSNS s) then
    wrI b (SNS.SCTL.I s)
      (ctrlValue (curY b s (headX (rd b (SNS.SCFG.TYPE s)) (isOn b (SNS.SCFG.INV s)) (set.cur.getD s [])) false))
  else b

/-- Whether a current channel's control sample is valid. -/
def ctrlCurOk (b : Blk) (s : Nat) : Bool := metSamples b && enabled b (pgSNS s) && !isOn b (SNS.SSTAT.FAULT s)

/-- A port's control samples go to its measurement window, its round mean, LIVE and the trunk voltage (R97, R99, R145,
R266, R383). -/
def ctrlPort (k20 : Bool) (n : Nat) (b : Blk) : Blk :=
  let vOk := !isOn b (MTR.VCH.VCTL.INVALID n)
  let v := rdI b (MTR.VCH.VCTL.V n)
  let i := rdI b (SNS.SCTL.I n)
  let iOk := ctrlCurOk b n
  let b := if vOk ∧ iOk then
      let w := Tab.at' (fun _ => ((0, 0, 0) : Int × Int × Nat)) b.ce.win n
      { b with ce := { b.ce with win := Tab.put (fun _ => (0, 0, 0)) b.ce.win n (w.1 + v, w.2.1 + i, w.2.2 + 1) } }
    else b
  let b := if iOk then
      let w := Tab.at' (fun _ => ((0, 0) : Int × Nat)) b.thm.win n
      { b with thm := { b.thm with win := Tab.put (fun _ => (0, 0)) b.thm.win n (w.1 + i, w.2 + 1) } }
    else b
  let live := !vOk || decide (600 ≤ v)
  let b := if enabled b (pgVP n) then vpHold n (wrB b (VP.VSTAT.LIVE n) live) else b
  let t := 4 * myPos b + n
  if vOk then
    let b := { b with trunk := { b.trunk with volt := Tab.put (fun _ => 0) b.trunk.volt t v.toNat } }
    if k20 ∧ trunkInXfer b t then toOwner t (.trunkVolt t v.toNat) (emit b (.trunkVolt t v.toNat)) else b
  else b

/-- CONTROL_SAMPLE at a multiple of 5,000 ns of the followed domain. -/
def doControlSample (set : SensorSet) (b : Blk) : Blk :=
  let k20 := decide (eFollow b / 5000 % 4 = 0)
  let b := forEach (List.range 8) (ctrlCur set) (forEach (List.range 7) (ctrlVolt set) b)
  forEach (List.range 4) (ctrlPort k20) b

def enterControlSample (set : SensorSet) : Blk → Blk := doControlSample set

def execControlSample (set : SensorSet) (s : State) : Out := runIn 6 (.controlSample set) (enterControlSample set) s

def enterPlugInsert (p : Fin 4) (mv : BitVec 16) : Blk → Blk := gated (pgVP p.val) (doPlugInsert p.val mv.toNat)

def execPlugInsert (p : Fin 4) (mv : BitVec 16) (s : State) : Out :=
  runIn 8 (.plugInsert p mv) (enterPlugInsert p mv) s

def enterPlugRemove (p : Fin 4) (mv : BitVec 16) : Blk → Blk := gated (pgVP p.val) (doPlugRemove p.val mv.toNat)

def execPlugRemove (p : Fin 4) (mv : BitVec 16) (s : State) : Out :=
  runIn 8 (.plugRemove p mv) (enterPlugRemove p mv) s

def enterPlugFault (p : Fin 4) (mv : BitVec 16) : Blk → Blk := gated (pgVP p.val) (doPlugFault p.val mv.toNat)

def execPlugFault (p : Fin 4) (mv : BitVec 16) (s : State) : Out := runIn 8 (.plugFault p mv) (enterPlugFault p mv) s

def enterPilotChange (p : Fin 4) (hi lo : BitVec 16) : Blk → Blk :=
  gated (pgVP p.val) (doPilot p.val hi.toInt lo.toInt)

def execPilotChange (p : Fin 4) (hi lo : BitVec 16) (s : State) : Out :=
  runIn 8 (.pilotChange p hi lo) (enterPilotChange p hi lo) s

def enterImdFault (p : Fin 4) : Blk → Blk := gated (pgVP p.val) (doImd true p.val)

def execImdFault (p : Fin 4) (s : State) : Out := runIn 8 (.imdFault p) (enterImdFault p) s

def enterImdClear (p : Fin 4) : Blk → Blk := gated (pgVP p.val) (doImd false p.val)

def execImdClear (p : Fin 4) (s : State) : Out := runIn 8 (.imdClear p) (enterImdClear p) s

def execDropClr (i : Init) (p : Fin 4) (s : State) : Out := run (armWrite i p.val 0) s

def execDischargeTimeout (p : Fin 4) (s : State) : Out := run (gated (pgVP p.val) (doDischTo p.val)) s

def execLockCommand (i : Init) (p : Fin 4) (v : Word) (s : State) : Out := run (doLockWrite i p.val v) s

def execLockPulseEnd (p : Fin 4) (s : State) : Out := run (gated (pgVP p.val) (lockPulseEnd p.val)) s

def execLockTimeout (p : Fin 4) (s : State) : Out := run (gated (pgVP p.val) (doLockTimeout p.val)) s

def execLockFeedbackLost (p : Fin 4) (s : State) : Out := run (gated (pgVP p.val) (doLockLost p.val)) s

def enterLockFeedbackChange (p : Fin 4) (fb : Bool) : Blk → Blk :=
  gated (pgVP p.val) (fun b => lockShow p.val (setVp p.val { vpOf b p.val with fb := fb } b))

def execLockFeedbackChange (p : Fin 4) (fb : Bool) (s : State) : Out :=
  runIn 8 (.lockFeedbackChange p fb) (enterLockFeedbackChange p fb) s

def execLockClr (i : Init) (p : Fin 4) (s : State) : Out := run (armWrite i p.val 2) s

def execWake (i : Init) (p : Fin 4) (s : State) : Out := run (armWrite i p.val 4) s

def execSoundRst (i : Init) (p : Fin 4) (s : State) : Out := run (armWrite i p.val 3) s

def execRecal (i : Init) (p : Fin 4) (s : State) : Out := run (armWrite i p.val 1) s

def enterSoundingFrame (p : Fin 4) (att : List (BitVec 8)) : Blk → Blk := gated (pgVP p.val) (doSounding p.val att)

def execSoundingFrame (p : Fin 4) (att : List (BitVec 8)) (s : State) : Out :=
  runIn 11 (.soundingFrame p att) (enterSoundingFrame p att) s

def enterPlcJoined (p : Fin 4) : Blk → Blk := gated (pgVP p.val) (doJoined p.val)

def execPlcJoined (p : Fin 4) (s : State) : Out := runIn 8 (.plcJoined p) (enterPlcJoined p) s

def execModemPowerDown (p : Fin 4) (s : State) : Out := run (gated (pgVP p.val) (doModemDown p.val)) s

def enterT1sLinkChange (p : Fin 4) (up : Bool) : Blk → Blk := gated (pgVP p.val) (doT1sLink p.val up)

def execT1sLinkChange (p : Fin 4) (up : Bool) (s : State) : Out :=
  runIn 8 (.t1sLinkChange p up) (enterT1sLinkChange p up) s

def enterVehicleFrameRx (p : Fin 4) (frame : List Byte) (cut : Bool) : Blk → Blk :=
  gated (pgVP p.val) (doVehicleRx p.val frame cut)

def execVehicleFrameRx (p : Fin 4) (frame : List Byte) (cut : Bool) (s : State) : Out :=
  runIn 11 (.vehicleFrameRx p frame cut) (enterVehicleFrameRx p frame cut) s

def enterButtonChange (p : Fin 4) (k : Fin 2) (on : Bool) : Blk → Blk := gated (pgVP p.val) (doButton p.val k.val on)

def execButtonChange (p : Fin 4) (k : Fin 2) (on : Bool) (s : State) : Out :=
  runIn 8 (.buttonChange p k on) (enterButtonChange p k on) s

def enterLongPress (p : Fin 4) (k : Fin 2) : Blk → Blk := gated (pgVP p.val) (doLongPress p.val k.val)

def execLongPress (p : Fin 4) (k : Fin 2) (s : State) : Out := runIn 8 (.longPress p k) (enterLongPress p k) s

def enterTouchScan (p : Fin 4) (raw : List (BitVec 16)) : Blk → Blk := gated (pgVP p.val) (doTouchScan p.val raw)

def execTouchScan (p : Fin 4) (raw : List (BitVec 16)) (s : State) : Out :=
  runIn 8 (.touchScan p raw) (enterTouchScan p raw) s

def execTouchRecal (p : Fin 4) (e : Fin 4) (s : State) : Out := run (gated (pgVP p.val) (doTouchRecal p.val e.val)) s

def execEstopAssert (site : Bool) (p : Fin 4) (s : State) : Out := run (doEstop site p.val) s

def execEstopRelease (site : Bool) (p : Fin 4) (s : State) : Out := run (doEstopRelease site p.val) s

end Sys2Proof.Machine
end

