-- ==== Sys2Proof/Machine/Mesh.lean ====
section
/-!
DEFINITION. The Mbarum mesh (chapter 12): mains slots, tone maps and their adaptation, segments and acknowledgements,
neighbours, routes and relaying.
-/

namespace Sys2Proof.Machine

open Sys2Proof.Num

def nbrOf (b : Blk) (n : Nat) : MeshNbr := Tab.at' (fun _ => {}) b.mesh.nbrs n
def setNbr (n : Nat) (x : MeshNbr) (b : Blk) : Blk := setMesh { b.mesh with nbrs := Tab.put (fun _ => {}) b.mesh.nbrs n x } b

/-- This node. -/
def meshId (b : Blk) : Nat := rd b MESH.MCTL.NODE_ID

/-- This twin drives the line (R301). -/
def meshDrives (b : Blk) : Bool := !paired b || isActive b

/-- Send on the line. -/
def meshSend (m : Msg) (b : Blk) : Blk := if meshDrives b then emit b m else b

/-! Tone maps (R287, R289). -/

/-- Whether a carrier is masked. -/
def carrierMasked (b : Blk) (c : Nat) : Bool := (rd b (MESH.MASK.MASK (c / 32))).testBit (c % 32)

/-- N_c: the carriers not masked. -/
def carriers (b : Blk) : Nat := 917 - sumN ((List.range 29).map fun w => popcount 32 (rd b (MESH.MASK.MASK w)))

/-- Bits per carrier of a code. -/
def codeBits (c : Nat) : Nat := [0, 1, 2, 3, 4, 6, 8].getD c 0

/-- The SNR a code requires at a rate, in dB. -/
def codeSnr (rate c : Nat) : Int := [0, 2, 5, 9, 11, 17, 23].getD c 0 + 3 * (rate : Int)

/-- Data bits per symbol of codes at a rate. -/
def bitsAt (rate : Nat) (codes : List Nat) : Nat :=
  let s := sumN (codes.map codeBits)
  if rate = 0 then s / 2 else s * 16 / 21

/-- ROBO, map 0. -/
def robo (b : Blk) : MeshMap := { codes := (List.range 917).map fun c => if carrierMasked b c then 0 else 2, rate := 0 }

/-- A neighbour's map; none where it is not held. -/
def mapOf (b : Blk) (n m : Nat) : Option MeshMap :=
  if m = 0 then some (robo b) else (Tab.at' (fun _ => Option.none) ((nbrOf b n).maps.map fun e => (e.1, some e.2)) m)

/-- b of a neighbour's map. -/
def mapBits (b : Blk) (n m : Nat) : Nat :=
  if m = 0 then carriers b / 4
  else match mapOf b n m with
    | some x => bitsAt x.rate x.codes
    | none => 0

/-- Symbols a segment needs, 0 where it cannot be sent. -/
def segSymbols (bits : Nat) : Nat := if bits = 0 then 0 else (4160 + bits - 1) / bits

/-- The airtime of a number of symbols in µs. -/
def airtime (symbols : Nat) : Nat := (symbols * 370 + 8) / 9

/-! Neighbours (R297). -/

/-- The link cost of a neighbour. -/
def linkCost (b : Blk) (n : Nat) : Nat :=
  let x := nbrOf b n
  let bits := x.slots.map (mapBits b n)
  if bits.any (· == 0) then 0xFFFF
  else
    let a := (sumN (bits.map fun k => airtime (segSymbols k)) + 5) / 6
    let f := (x.hist.filter id).length
    if 256 ≤ f then 0xFFFF
    else
      let c := (a * 256 + (256 - f) - 1) / (256 - f)
      if 0xFFFE < c then 0xFFFF else c

/-- Show a neighbour's slot map and the maps held. -/
def nbrShow (n : Nat) (b : Blk) : Blk :=
  let x := nbrOf b n
  let sm := sumN ((List.range 6).map fun s => x.slots.getD s 0 * 8 ^ s)
  let held := 1 ||| ofBits ((x.maps.map (·.1)).filter (· < 8))
  wr (wr b (MESH.NBR.NSTAT.SLOTMAP n) sm) (MESH.NBR.NMAP.MAPS_VALID n) held

/-- Put a map on a slot of a neighbour; a map that no slot uses becomes free (R295). -/
def slotMap (n s m : Nat) (x : MeshMap) (b : Blk) : Blk :=
  let y := nbrOf b n
  let slots := y.slots.set s m
  let maps := (if m = 0 then y.maps else Tab.put (fun _ => {}) y.maps m x).filter fun e => slots.contains e.1
  nbrShow n (setNbr n { y with slots := slots, maps := maps } b)

/-- A map of a neighbour changes: the count and the event (R295, R305). -/
def mapChanged (n : Nat) (b : Blk) : Blk := raise pgMESH 3 (incSat b (MESH.NBR.NMAP.CHANGES n))

/-- A node becomes a neighbour with its first decoded frame. -/
def nbrSeen (n : Nat) (b : Blk) : Blk :=
  if isOn b (MESH.NBR.NSTAT.PRESENT n) then b
  else raise pgMESH 4 (nbrShow n (wrB (setNbr n {} b) (MESH.NBR.NSTAT.PRESENT n) true))

/-! Routes (R298, R299). -/

/-- A destination's routes that reach it: (next hop, hops, cost), best first. -/
def routesTo (b : Blk) (d : Nat) : List (Nat × Nat × Nat) :=
  let l := (Tab.at' (fun _ => []) b.mesh.routes d).filterMap fun r =>
    let c := min 0xFFFF (rd b (MESH.NBR.NCOST.COST r.1) + r.2.2)
    if c = 0xFFFF ∨ rd b MESH.ROUTE.MAX_HOPS < r.2.1 then none else some (r.1, r.2.1, c)
  (sortBy (fun x y => decide (x.2.2 < y.2.2 ∨ (x.2.2 = y.2.2 ∧ x.1 ≤ y.1))) l).take 4

/-- Each destination's best route. -/
def bestRoutes (b : Blk) : List (Nat × Nat × Nat × Nat) :=
  b.mesh.routes.filterMap fun e => match routesTo b e.1 with
    | [] => none
    | r :: _ => some (e.1, r)

/-- A meaning of the mesh: afterwards the link costs and counts are shown, and a change of a best route raises its
event. -/
def meshOp (f : Blk → Blk) (b : Blk) : Blk :=
  gated pgMESH (fun b =>
    let old := bestRoutes b
    let b := f b
    let here := (List.range 64).filter fun n => isOn b (MESH.NBR.NSTAT.PRESENT n)
    let b := forEach here (fun n b => wr b (MESH.NBR.NCOST.COST n) (linkCost b n)) b
    let new := bestRoutes b
    let b := wr (wr b MESH.STAT.NBRS here.length) MESH.STAT.ROUTES new.length
    if new = old then b else raise pgMESH 5 b) b

/-- An advertisement's line from a neighbour; a destination keeps its four best routes (R298). -/
def learn (n : Nat) (line : Nat × Nat × Nat) (b : Blk) : Blk :=
  let (d, c, h) := line
  if d = meshId b ∨ 63 < d then b
  else
    let l := (Tab.at' (fun _ => []) b.mesh.routes d).filter fun r => r.1 != n
    let l := if 0xFFFF ≤ c then l else l ++ [(n, h + 1, c)]
    let cost := fun (r : Nat × Nat × Nat) => rd b (MESH.NBR.NCOST.COST r.1) + r.2.2
    let l := (sortBy (fun x y => decide (cost x < cost y ∨ (cost x = cost y ∧ x.1 ≤ y.1))) l).take 4
    setMesh { b.mesh with routes := Tab.put (fun _ => []) b.mesh.routes d l } b

/-- ROUTE_ADVERTISE: the best routes, and where a route is not advertised back to its next hop. -/
def doAdvertise (b : Blk) : Blk :=
  let own := (meshId b, 0, 0)
  let best := if isOn b MESH.MCTL.RELAY then bestRoutes b else []
  meshSend (.meshAdv (own :: best.map fun r => (r.1, r.2.2.2, r.2.2.1)) (best.map fun r => (r.2.1, r.1))) b

/-! The queue (R293, R299, R300). -/

/-- An MSDU is dropped. -/
def msduDrop (b : Blk) : Blk := raise pgMESH 2 (incSat b MESH.CNT_DROP.DROPS)

/-- The mesh key: none in clear, else whether the field slot may be used for a usage bit (R300, R393, R404). -/
def meshKey (b : Blk) (usage : Nat) : Option Bool :=
  let s := rd b MESH.KEY.SLOT
  if s = 0xFF then Option.none
  else
    let k := keySlot b (64 + s)
    some (!k.revoked && !k.faulted && k.use.type == 1 && k.use.engine == 3 && k.use.usage.testBit usage)

/-- The next hop of a destination: 0xFF broadcast, none where it cannot be reached. -/
def nextHop (b : Blk) (d : Nat) : Option Nat :=
  if d = 0xFF then some 0xFF
  else if 63 < d then none
  else match routesTo b d with
    | [] => none
    | r :: _ => some r.1

/-- Queue an MSDU; one that cannot be reached is dropped at once. -/
def msduQueue (m : Msdu) (b : Blk) : Blk :=
  if (nextHop b m.dst).isNone then msduDrop b
  else
    let segs := List.range ((m.data.length + 511) / 512)
    setMesh { b.mesh with queue := b.mesh.queue ++ [{ m with left := segs }] } b

/-- MESH_FRAME from the host (R433): the MSDU is numbered and, with a key, protected. The layout of the nonce is not stated:
the protected octets are free. -/
def doMeshFromHost (peer prio : Nat) (data : List Byte) (b : Blk) : Blk :=
  if data.isEmpty ∨ 2048 < data.length ∨ 3 < prio then msduDrop b
  else
    let num := (b.mesh.num + 1) % 2 ^ 16
    let b := setMesh { b.mesh with num := num } b
    match meshKey b 2 with
    | none => msduQueue { src := meshId b, dst := peer, num := num, prio := prio, data := data } b
    | some false => msduDrop (raise pgFSRM 1 b)
    | some true =>
      let wire := le data.length (freeVal b)
      msduQueue { src := meshId b, dst := peer, num := num, prio := prio, data := wire } (spend b)

/-- The time in µs a frame may take of `left` µs: no frame crosses the end of the slot in progress (R290). -/
def slotLeft (left : Nat) (b : Blk) : Nat :=
  match slotEnd b with
  | some t => min left ((t - eFollow b).toNat / 1000)
  | none => left

/-- MESH_TX_START: the node has won the channel with `left` µs for segments, its header and acknowledgement taken off, before
the slot ends; the frame takes the segments that fit (R290). -/
def doMeshTx (left : Nat) (b : Blk) : Blk :=
  let left := slotLeft left b
  let lost := b.mesh.queue.filter fun m => (nextHop b m.dst).isNone
  let b := setMesh { b.mesh with queue := b.mesh.queue.filter fun m => (nextHop b m.dst).isSome } b
  let b := forEach lost (fun _ => msduDrop) b
  let busy : Bool := match b.mesh.air with
    | some a => decide (a.1 ≠ 0xFF)
    | none => false
  if busy ∨ isOn b MESH.STAT.LINE_FAULT ∨ pfWarn b then b
  else
    let q := sortBy (fun x y => decide (x.prio ≤ y.prio)) b.mesh.queue
    match q with
    | [] => b
    | m :: _ =>
      let nb := (nextHop b m.dst).getD 0xFF
      let map := if nb = 0xFF then 0 else (nbrOf b nb).slots.getD b.mesh.slot 0
      let sym := segSymbols (if nb = 0xFF then carriers b / 4 else mapBits b nb map)
      let k := if sym = 0 then 0 else left * 9 / (370 * sym)
      let picked := ((q.filter fun x => nextHop b x.dst == some nb).flatMap fun x => x.left.map fun i => (x, i)).take k
      if picked.isEmpty then b
      else
        let segs := picked.map fun p => ({ src := p.1.src, dst := p.1.dst, num := p.1.num, len := p.1.data.length,
                                           prio := p.1.prio, idx := p.2, data := (p.1.data.drop (512 * p.2)).take 512 } : MeshSeg)
        let retx := (picked.filter fun p => Tab.at' (fun _ => 0) p.1.fails p.2 != 0).length
        let b := wrB (incSat (incWrap b MESH.CNT_TX.FRAMES) MESH.CNT_TX.RETX retx) MESH.STAT.TX_BUSY true
        let b := meshSend (.meshTx nb b.mesh.slot map segs) b
        let keys := picked.map fun p => (p.1.src, p.1.num, p.2)
        let b := setMesh { b.mesh with air := some (nb, b.mesh.slot, keys) } b
        if nb = 0xFF then
          let queue := b.mesh.queue.map fun x =>
            { x with left := x.left.filter fun i => !keys.contains (x.src, x.num, i) }
          setMesh { b.mesh with queue := queue.filter fun x => !x.left.isEmpty } b
        else b

/-- One segment of the frame in the air was delivered or failed (R293, R297). -/
def segResult (n : Nat) (ok : Bool) (key : Nat × Nat × Nat) (b : Blk) : Blk :=
  let x := nbrOf b n
  let b := setNbr n { x with hist := ((!ok) :: x.hist).take 256 } b
  let b := incSat b (if ok then MESH.NBR.NCNT.SEG_OK n else MESH.NBR.NCNT.SEG_FAIL n)
  setMesh { b.mesh with queue := b.mesh.queue.map fun m =>
    if m.src = key.1 ∧ m.num = key.2.1 then
      (if ok then { m with left := m.left.filter fun i => i != key.2.2 }
       else { m with fails := Tab.put (fun _ => 0) m.fails key.2.2 (Tab.at' (fun _ => 0) m.fails key.2.2 + 1) })
    else m } b

/-- MSDUs complete leave the queue acknowledged; one with a segment that failed RETRY_MAX times is dropped (R293). -/
def queueSettle (b : Blk) : Blk :=
  let done := b.mesh.queue.filter fun m => m.left.isEmpty
  let bad := b.mesh.queue.filter fun m => !m.left.isEmpty && m.fails.any fun f => decide (rd b MESH.TXCTL.RETRY_MAX ≤ f.2)
  let b := setMesh { b.mesh with queue := b.mesh.queue.filter fun m => !done.contains m && !bad.contains m } b
  forEach bad (fun _ => msduDrop) (forEach done (fun _ => raise pgMESH 1) b)

/-- The slot of a neighbour goes to map 0 and the receiver is told (R296). -/
def slotToRobo (n s : Nat) (b : Blk) : Blk :=
  let b := meshSend (.meshUpdate n s 0 0 []) (slotMap n s 0 {} b)
  mapChanged n b

/-- MESH_ACK_RX. -/
def doMeshAck (a : MeshAck) (b : Blk) : Blk :=
  match a with
  | .update n s =>
    let x := nbrOf b n
    match Tab.at' (fun _ => Option.none) x.pend s with
    | none => b
    | some p => slotMap n s p.1 p.2 (setNbr n { x with pend := Tab.put (fun _ => Option.none) x.pend s Option.none } b)
  | .segs bits =>
    match b.mesh.air with
    | none => b
    | some (n, s, keys) =>
      if n = 0xFF then b
      else
        let b := wrB (setMesh { b.mesh with air := Option.none } b) MESH.STAT.TX_BUSY false
        let b := setNbr n { nbrOf b n with unack := Tab.put (fun _ => 0) (nbrOf b n).unack s 0 } b
        let b := forEach (List.range keys.length) (fun k b => segResult n (bits.testBit k) (keys.getD k (0, 0, 0)) b) b
        queueSettle b

/-- MESH_ACK_MISSING: the frame in the air was not acknowledged (R293, R296). -/
def doMeshNoAck (b : Blk) : Blk :=
  match b.mesh.air with
  | none => b
  | some (n, s, keys) =>
    let b := wrB (setMesh { b.mesh with air := Option.none } b) MESH.STAT.TX_BUSY false
    if n = 0xFF then b
    else
      let b := queueSettle (forEach keys (segResult n false) b)
      let x := nbrOf b n
      let k := Tab.at' (fun _ => 0) x.unack s + 1
      if rd b MESH.ADAPT.DEG_CNT ≤ k then
        slotToRobo n s (setNbr n { x with unack := Tab.put (fun _ => 0) x.unack s 0 } b)
      else setNbr n { x with unack := Tab.put (fun _ => 0) x.unack s k } b

/-! Adaptation (R292, R294, R295). -/

/-- Whether a symbol's energy exceeds the mean of `n` energies of sum `sum` by more than `th` dB: e/m > 10^(th/10), compared
as tenth powers. -/
def impulse (th n sum e : Nat) : Bool := decide (0 < n) && decide (sum ^ 10 * 10 ^ th < e ^ 10 * n ^ 10)

/-- The symbols of a frame are measured in turn against the running mean of the last 64 not erased (R292); how many were
erased comes with the block. The first symbol of all is not erased (DEDUCED, notes/assumptions/29.md). -/
def eraseSymbols : List Nat → Nat × Blk → Nat × Blk
  | [], x => x
  | e :: l, (k, b) =>
    let h := b.mesh.energies
    if impulse (rd b MESH.IMP.IMP_TH) h.length (sumN h) e then eraseSymbols l (k + 1, b)
    else eraseSymbols l (k, setMesh { b.mesh with energies := (e :: h).take 64 } b)

/-- The margin of a frame in whole dB. -/
def frameMargin (m : MeshMap) (snr : List Int) : Int :=
  let l := (m.codes.zip snr).filterMap fun p => if p.1 = 0 then none else some (fdiv (p.2 - 10 * codeSnr m.rate p.1) 10)
  match l with
  | [] => 0
  | x :: t => t.foldl min x

/-- The best codes at a rate for the sums of `n` SNRs (R295). -/
def codesFor (b : Blk) (rate n : Nat) (sums : List Int) : List Nat :=
  let half : Int := ((rd b MESH.ADAPT.DOWN_DB + rd b MESH.ADAPT.UP_DB) / 2 : Nat)
  (sums.zip (List.range 917)).map fun p =>
    if carrierMasked b p.2 then 0
    else ((List.range 7).reverse.find? fun c => decide (c = 0 ∨ (codeSnr rate c + half) * 10 * n ≤ p.1)).getD 0

/-- The map built from a run: its number, the lowest that no other slot uses or is about to use, and itself; map 0 where it
carries less than ROBO (R295). -/
def newMap (b : Blk) (n s : Nat) (r : MeshRun) : Nat × MeshMap :=
  let c0 := codesFor b 0 r.n r.sums
  let c1 := codesFor b 1 r.n r.sums
  let m : MeshMap := if bitsAt 0 c0 < bitsAt 1 c1 then { codes := c1, rate := 1 } else { codes := c0, rate := 0 }
  if bitsAt m.rate m.codes < carriers b / 4 then (0, {})
  else
    let x := nbrOf b n
    let others := (List.range 6).filter (· ≠ s)
    let used := others.map fun t => x.slots.getD t 0
    let due := others.filterMap fun t => (Tab.at' (fun _ => Option.none) x.pend t).map (·.1)
    let free := fun (l : List Nat) => (List.range 8).find? fun k => k != 0 && !l.contains k
    ((free (used ++ due)).getD ((free used).getD 0), m)

/-- The map update of a slot is sent in ROBO. -/
def sendUpdate (n s : Nat) (b : Blk) : Blk :=
  match Tab.at' (fun _ => Option.none) (nbrOf b n).pend s with
  | some p => meshSend (.meshUpdate n s p.1 p.2.rate p.2.codes) b
  | none => b

/-- Replace a slot's run of evidence from a neighbour. -/
def setRun (n slot : Nat) (r : MeshRun) (b : Blk) : Blk :=
  setNbr n { nbrOf b n with runs := Tab.put (fun _ => {}) (nbrOf b n).runs slot r } b

/-- A received frame of which `erased` symbols were erased is judged (R294); DEG_CNT frames of one class change the slot's map
(R295). -/
def judgeFrame (f : MeshRx) (erased : Nat) (b : Blk) : Blk :=
  let n := f.sender
  let x := nbrOf b n
  let map := (mapOf b n f.map).getD (match Tab.at' (fun _ => Option.none) x.pend f.slot with
    | some p => p.2
    | none => robo b)
  let margin := frameMargin map f.snr
  let b := wrS b (MESH.NBR.NCOST.MARGIN n) margin
  let failed := f.segs.any fun s => !s.ok
  let neutral := decide (rd b MESH.ADAPT.ERASE_PCT * f.energy.length ≤ 100 * erased)
  let cls := if margin < rd b MESH.ADAPT.DOWN_DB ∨ failed then 1 else if (rd b MESH.ADAPT.UP_DB : Int) ≤ margin then 2 else 0
  if neutral then b
  else
    let r := Tab.at' (fun _ => ({} : MeshRun)) x.runs f.slot
    let r' : MeshRun := if cls = 0 then {}
      else if cls = r.cls then { r with n := r.n + 1, sums := List.zipWith (· + ·) r.sums f.snr }
      else { cls := cls, n := 1, sums := f.snr }
    if cls ≠ 0 ∧ rd b MESH.ADAPT.DEG_CNT ≤ r'.n then
      let m := newMap b n f.slot r'
      let b := setRun n f.slot {} b
      let b := setNbr n { nbrOf b n with pend := Tab.put (fun _ => Option.none) (nbrOf b n).pend f.slot (some m) } b
      mapChanged n (sendUpdate n f.slot b)
    else setRun n f.slot r' b

/-! Reception (R293, R299, R300). -/

/-- Whether every segment of an MSDU has arrived. -/
def partDone (p : MeshPart) : Bool := decide (0 < p.len) && (List.range ((p.len + 511) / 512)).all fun k => p.got.any fun e => e.1 == k

/-- The octets of a complete MSDU. -/
def partData (p : MeshPart) : List Byte := (p.got.flatMap (·.2)).take p.len

/-- A complete MSDU is delivered to the host, or queued for its next hop. Under a key it is authenticated and deciphered; the
nonce's layout is not stated, so whether it passes and what it carries are free. -/
def partDeliver (p : MeshPart) (b : Blk) : Blk :=
  if p.dst ≠ meshId b ∧ p.dst ≠ 0xFF then
    (if isOn b MESH.MCTL.RELAY then msduQueue { src := p.src, dst := p.dst, num := p.num, prio := p.prio, data := partData p } b
     else b)
  else match meshKey b 3 with
    | none => raise pgMESH 0 (emit b (.meshFrame p.src p.prio (partData p)))
    | some false => msduDrop (raise pgFSRM 1 b)
    | some true =>
      let v := freeVal b
      let b := spend b
      if v % 2 = 0 then incSat b MESH.CNT_RX.SEG_FAIL ((p.len + 511) / 512)
      else raise pgMESH 0 (emit b (.meshFrame p.src p.prio (le p.len (v / 2))))

/-- Deliver, for a source, the complete MSDUs ahead of which no partial one waits. -/
def partsSettle (src : Nat) : Nat → Blk → Blk
  | 0, b => b
  | k + 1, b =>
    match b.mesh.parts.find? fun p => p.src == src with
    | none => b
    | some p =>
      if partDone p then partsSettle src k (partDeliver p (setMesh { b.mesh with parts := b.mesh.parts.erase p } b))
      else b

/-- One segment received: the part it belongs to is opened or grows. -/
def segIn (g : MeshSeg) (b : Blk) : Blk :=
  let b := if g.ok then b else incSat b MESH.CNT_RX.SEG_FAIL
  let mine := fun (p : MeshPart) => p.src == g.src && p.num == g.num && p.dst == g.dst
  let parts := if b.mesh.parts.any mine then b.mesh.parts
    else b.mesh.parts ++ [{ src := g.src, dst := g.dst, num := g.num, len := g.len, prio := g.prio }]
  let grown := parts.map fun p =>
    if mine p ∧ g.ok then { p with got := Tab.put (fun _ => []) p.got g.idx g.data } else p
  setMesh { b.mesh with parts := grown } b

/-- MESH_FRAME_RX. -/
def doMeshRx (f : MeshRx) (b : Blk) : Blk :=
  let (erased, b) := eraseSymbols f.energy (0, b)
  let b := incSat b MESH.CNT_DROP.ERASED erased
  if f.net ≠ rd b MESH.MCTL.NET_ID ∨ 63 < f.sender ∨ f.sender = meshId b then b
  else
    let b := nbrSeen f.sender (incWrap b MESH.CNT_RX.FRAMES)
    if f.dest ≠ meshId b ∧ f.dest ≠ 0xFF then b
    else
      let b := judgeFrame f erased b
      let b := match f.adv with
        | some l => forEach l (learn f.sender) b
        | none => b
      let b := if f.dest ≠ 0xFF ∧ !f.segs.isEmpty then
          meshSend (.meshAck f.sender (ofBits ((List.range f.segs.length).filter fun k => (f.segs.getD k {}).ok))) b
        else b
      let take := f.segs.filter fun g => g.dst == meshId b || g.dst == 0xFF || isOn b MESH.MCTL.RELAY
      let b := forEach take segIn b
      let srcs := (take.map (·.src)).eraseDups
      forEach srcs (fun s b => partsSettle s b.mesh.parts.length b) b

/-- MAP_UPDATE_RX: the sender acknowledges and uses the new map from its next frame (R295, R296). -/
def doMapUpdate (n s m rate : Nat) (codes : List Nat) (b : Blk) : Blk :=
  let b := slotMap n s m { codes := codes, rate := rate } (nbrSeen n b)
  mapChanged n (meshSend (.meshUpdAck n s) b)

/-- MSDU_LIFETIME_EXPIRE: an MSDU queued here, or a partial one, has not completed in LIFE_MS (R293). -/
def doLifetime (tx : Bool) (src num : Nat) (b : Blk) : Blk :=
  if tx then
    let hit := b.mesh.queue.filter fun m => m.src == src && m.num == num
    if hit.isEmpty then b
    else msduDrop (setMesh { b.mesh with queue := b.mesh.queue.filter fun m => !(m.src == src && m.num == num) } b)
  else
    let b := setMesh { b.mesh with parts := b.mesh.parts.filter fun p => !(p.src == src && p.num == num && !partDone p) } b
    partsSettle src b.mesh.parts.length b

/-- NEIGHBOUR_LOST (R297): its routes lapse, the MSDUs without another route are dropped. -/
def doNbrLost (n : Nat) (b : Blk) : Blk :=
  if !isOn b (MESH.NBR.NSTAT.PRESENT n) then b
  else
    let b := wr (wrB (setNbr n {} b) (MESH.NBR.NSTAT.PRESENT n) false) (MESH.NBR.NCOST.COST n) 0xFFFF
    let b := raise pgMESH 4 (nbrShow n b)
    let routes := b.mesh.routes.map fun e => (e.1, e.2.filter fun r => r.1 != n)
    let b := setMesh { b.mesh with routes := routes.filter fun e => !e.2.isEmpty } b
    let lost := b.mesh.queue.filter fun m => (nextHop b m.dst).isNone
    let b := setMesh { b.mesh with queue := b.mesh.queue.filter fun m => (nextHop b m.dst).isSome } b
    forEach lost (fun _ => msduDrop) b

/-- ROUTE_LAPSE of a destination by a next hop (R298). -/
def doRouteLapse (d n : Nat) (b : Blk) : Blk :=
  let l := (Tab.at' (fun _ => []) b.mesh.routes d).filter fun r => r.1 != n
  setMesh { b.mesh with routes := Tab.put (fun _ => []) b.mesh.routes d l } b

/-! Slots and the line (R285, R288, R302). -/

/-- MAINS_ZERO_CROSS: the deviation from the predicted instant and the half-cycle measured, in µs. The half-cycle of the
slots begins ZC_OFS µs after the crossing. -/
def doZeroCross (dev : Int) (half : Nat) (b : Blk) : Blk :=
  let b := meshSync b
  if isOn b MESH.SYNC.FREE then b
  else
    let n := if dev.natAbs ≤ 50 then min 8 (b.mesh.cross + 1) else 0
    let start := eFollow b + 1000 * rdI b MESH.SYNC.ZC_OFS
    let b := setMesh { b.mesh with cross := n, half := half, start := if half = 0 then Option.none else some start } b
    if 8 ≤ n ∧ !isOn b MESH.SYNC.LOCKED then raise pgMESH 6 (wrB b MESH.SYNC.LOCKED true) else b

/-- MESH_SLOT_START. -/
def doSlotStart (s : Nat) (b : Blk) : Blk :=
  let b := setMesh { b.mesh with slot := s } (meshSync b)
  match b.mesh.air with
  | some a => if a.1 = 0xFF then wrB (setMesh { b.mesh with air := Option.none } b) MESH.STAT.TX_BUSY false else b
  | none => b

/-- A frame in transmission is cut off; its segments stay queued. -/
def meshCut (b : Blk) : Blk := wrB (setMesh { b.mesh with air := Option.none } b) MESH.STAT.TX_BUSY false

/-- MESH_LINE_FAULT: the driver's overcurrent or overtemperature. -/
def doLineFault (b : Blk) : Blk := raise pgMESH 7 (meshCut (wrB b MESH.STAT.LINE_FAULT true))

/-- MESH_LINE_RESUME: 1 s later, if the fault has cleared. -/
def doLineResume (clear : Bool) (b : Blk) : Blk := when clear (fun b => wrB b MESH.STAT.LINE_FAULT false) b

/-- A power-fail warning: no frame begins, queued MSDUs are discarded (R302). -/
def meshPowerFail (b : Blk) : Blk := let b := meshCut b; setMesh { b.mesh with queue := [] } b

/-- The link state after the block is disabled (R28): what is in flight is discarded and counted. -/
def meshStop (b : Blk) : Blk :=
  let n := b.mesh.queue.length + b.mesh.parts.length
  let here := (List.range 64).filter fun n => isOn b (MESH.NBR.NSTAT.PRESENT n)
  let num := b.mesh.num
  let b := meshCut (setMesh { num := num } (incSat b MESH.CNT_DROP.DROPS n))
  let b := forEach here (fun n b =>
    nbrShow n (wr (wrB b (MESH.NBR.NSTAT.PRESENT n) false) (MESH.NBR.NCOST.COST n) 0xFFFF)) b
  wrB (wrB (wr (wr b MESH.STAT.NBRS 0) MESH.STAT.ROUTES 0) MESH.SYNC.LOCKED false) MESH.SYNC.FREE false

/-- TM_DATA: a word of a neighbour's map (R304). -/
def meshTmWord (b : Blk) : Nat :=
  let n := rd b MESH.TM_WIN.NBR
  let w := rd b MESH.TM_WIN.WORD
  match mapOf b n (rd b MESH.TM_WIN.MAP) with
  | none => 0
  | some m =>
    if w = 92 then 2 + m.rate
    else if 92 < w then 0
    else sumN ((List.range 10).map fun i => m.codes.getD (10 * w + i) 0 * 8 ^ i)

/-- RT_DATA: a route entry (R304). -/
def meshRtWord (b : Blk) : Nat :=
  let i := rd b MESH.RT_WIN.IDX
  match (routesTo b (i / 4))[i % 4]? with
  | some r => 2 ^ 31 + r.1 * 2 ^ 24 + r.2.1 % 16 * 2 ^ 20 + r.2.2
  | none => 0xFFFF

def enterMainsZeroCross (dev : BitVec 16) (half : BitVec 16) : Blk → Blk := meshOp (doZeroCross dev.toInt half.toNat)

def execMainsZeroCross (dev : BitVec 16) (half : BitVec 16) (s : State) : Out :=
  runIn 5 (.mainsZeroCross dev half) (enterMainsZeroCross dev half) s

def execMeshSlotStart (k : Fin 6) (s : State) : Out := run (meshOp (doSlotStart k.val)) s

def execMeshTxStart (left : BitVec 16) (s : State) : Out := run (meshOp (doMeshTx left.toNat)) s

def enterMeshFrameRx (f : MeshRx) : Blk → Blk := meshOp (doMeshRx f)

def execMeshFrameRx (f : MeshRx) (s : State) : Out := runIn 11 (.meshFrameRx f) (enterMeshFrameRx f) s

def enterMeshAckRx (a : MeshAck) : Blk → Blk := meshOp (doMeshAck a)

def execMeshAckRx (a : MeshAck) (s : State) : Out := runIn 11 (.meshAckRx a) (enterMeshAckRx a) s

def enterMeshAckMissing : Blk → Blk := meshOp doMeshNoAck

def execMeshAckMissing (s : State) : Out := runIn 11 .meshAckMissing enterMeshAckMissing s

def enterMapUpdateRx (n : Fin 64) (k : Fin 6) (m : Fin 8) (rate : Bool) (codes : List (BitVec 3)) : Blk → Blk :=
  meshOp (doMapUpdate n.val k.val m.val (b2n rate) (codes.map (·.toNat)))

def execMapUpdateRx (n : Fin 64) (k : Fin 6) (m : Fin 8) (rate : Bool) (codes : List (BitVec 3)) (s : State) : Out :=
  runIn 11 (.mapUpdateRx n k m rate codes) (enterMapUpdateRx n k m rate codes) s

def execMapUpdateRepeat (n : Fin 64) (k : Fin 6) (s : State) : Out := run (meshOp (sendUpdate n.val k.val)) s

def execMsduLifetimeExpire (tx : Bool) (src : Fin 64) (num : BitVec 16) (s : State) : Out :=
  run (meshOp (doLifetime tx src.val num.toNat)) s

def execRouteAdvertise (s : State) : Out := run (meshOp doAdvertise) s

def execNeighbourLost (n : Fin 64) (s : State) : Out := run (meshOp (doNbrLost n.val)) s

def execRouteLapse (d n : Fin 64) (s : State) : Out := run (meshOp (doRouteLapse d.val n.val)) s

def execMeshLineFault (s : State) : Out := run (meshOp doLineFault) s

def execMeshLineResume (clear : Bool) (s : State) : Out := run (meshOp (doLineResume clear)) s

end Sys2Proof.Machine
end

