-- ==== Sys2Proof/Machine/Lane.lean ====
section
/-!
DEFINITION. Lanes, the Tiolmox link, stacking and discovery, and Ethernet (chapter 13).
-/

namespace Sys2Proof.Machine

open Sys2Proof.Num

/-! Lanes (R306 to R311). -/

/-- A lane runs the Tiolmox link (R325) and its block is enabled. -/
def tiolmox (b : Blk) (n : Nat) : Bool := enabled b (pgLANE n) && decide (rd b (LANE.LCTL.MODE n) = 0)

/-- The MAC a lane carries (R325); 2 none. -/
def macOf (b : Blk) (n : Nat) : Nat :=
  if enabled b (pgLANE n) ∧ rd b (LANE.LCTL.MODE n) ≠ 0 ∧ 14 ≤ n then n - 14 else 2

/-- The link of a MAC goes up or down (R333, R334). -/
def setEthLink (e : Nat) (up : Bool) (b : Blk) : Blk :=
  if e = 2 ∨ isOn b (ETH.ESTAT.LINK e) = up then b
  else raise (pgETH e) 2 (wrB b (ETH.ESTAT.LINK e) up)

/-- LSTAT shows which lanes are up and which in hold (R329); with them the mirror comes and goes (R429). -/
def showLanes (b : Blk) : Blk :=
  let b := wr b LINK.LSTAT.UP (ofBits ((List.range 16).filter fun n => isOn b (LANE.STAT.UP n)))
  showMirror (wr b LINK.LSTAT.HOLD (ofBits ((List.range 16).filter fun n => isOn b (LANE.STAT.HOLD n))))

/-- SSTAT shows the modules reached directly (R331). -/
def showPresent (b : Blk) : Blk :=
  let at' := fun u => ofBits ((List.range 4).filter fun q => isStackLane b (10 * u + q) && laneUp b (10 * u + q))
  wr (wr b STK.SSTAT.PRES_A (at' 0)) STK.SSTAT.PRES_B (at' 1)

/-- A stack or lockstep lane: it must run at 5 Gb/s or more (R315, R337). -/
def needsRate (b : Blk) (n : Nat) : Bool := isStackLane b n || (paired b && decide (n = 4 ∨ n = 5))

/-- A lockstep lane goes down or comes back (R350, R352); its loss ends a state transfer (R345). -/
def lockLaneEvent (n : Nat) (b : Blk) : Blk :=
  when (paired b && decide (n = 4 ∨ n = 5)) (fun b => raise pgRED 13 (if laneUp b n then b else transferFail b)) b

/-- Data ceases to pass on a lane; `hold` as the lane enters hold. -/
def laneOff (n : Nat) (hold : Bool) (b : Blk) : Blk :=
  let was := laneUp b n
  let b := setEthLink (macOf b n) false b
  let b := wrB (wrB (wrB b (LANE.STAT.ALIGNED n) false) (LANE.STAT.UP n) false) (LANE.STAT.HOLD n) hold
  let b := wr b (LANE.STAT.STATE n) (if hold then 5 else 1)
  let b := if hold then setLane n { laneOf b n with downAt := b.time.clk } b else b
  let b := showPresent (showLanes b)
  if was then lockLaneEvent n (raise (pgLANE n) 0 b) else b

/-- The settings a lane takes at a retrain: rate, alignment method, and the equaliser's weights (R306, R307). -/
def takeSettings (n : Nat) (b : Blk) : Blk :=
  setLane n
    { laneOf b n with
      rate := rd b (LANE.LCTL.RATE n), align := rd b (LANE.LCTL.ALIGN n),
      eq := [rd b (LANE.TXEQ.PRE n), rd b (LANE.TXEQ.POST n), rd b (LANE.RXEQ.ADAPT n), rd b (LANE.RXEQ.CTLE n)] } b

/-- A lane retrains (R306, R310): its settings take effect; an aligned lane enters hold. -/
def retrain (n : Nat) (b : Blk) : Blk :=
  if !enabled b (pgLANE n) || isOn b SYS.STRAP.STRAP_ERR then b
  else
    let b := takeSettings n b
    if isOn b (LANE.STAT.HOLD n) then b
    else
      let aligned := isOn b (LANE.STAT.ALIGNED n)
      let b := laneOff n (aligned && tiolmox b n) b
      if aligned then raise (pgLANE n) 1 b else b

/-- A write of LCTL: RETRAIN forces a retrain; a RATE written during hold applies at the retrain in progress (R326). -/
def actLctl (n v : Nat) (b : Blk) : Blk :=
  let b := if isOn b (LANE.STAT.HOLD n) then setLane n { laneOf b n with rate := rd b (LANE.LCTL.RATE n) } b else b
  if v.testBit 0 then retrain n b else b

/-- The receiver adapts its equaliser while it trains (R307): the setting it finds is a free value. -/
def adaptEq (n : Nat) (b : Blk) : Blk :=
  if (laneOf b n).eq.getD 2 1 = 1 then spend (setLane n { laneOf b n with ctle := freeVal b % 256 } b) else b

/-- The last sequence number received in each class: one less than the next expected. -/
def lastSeqs (b : Blk) (n : Nat) : List Nat := (laneOf b n).rxSeq.map fun s => (s + 65535) % 65536

/-- This module's identity as hellos carry it (R318). -/
def ownIdent (b : Blk) : Nat := b.daybook.identity

/-- The lane aligns (R309) at a position, 0 to 65. A lane in hold sends RESUME (R311). A MAC's link is then up (R325). A
stack or lockstep lane at 1.25 Gb/s is too slow for RT (R315). -/
def doLaneAligned (n slip : Nat) (b : Blk) : Blk :=
  let st := rd b (LANE.STAT.STATE n)
  if !enabled b (pgLANE n) || isOn b SYS.STRAP.STRAP_ERR || decide (st ≠ 1 ∧ st ≠ 5) || decide (65 < slip) then b
  else
    let b := wr (wr (wrB (adaptEq n b) (LANE.STAT.ALIGNED n) true) (LANE.STAT.SLIP n) slip) (LANE.STAT.STATE n) 2
    if macOf b n ≠ 2 then setEthLink (macOf b n) true b
    else
      let low := needsRate b n && decide ((laneOf b n).rate = 0)
      let b := when (low && !isOn b (LANE.STAT.RATE_LOW n)) (raise pgSTK 6) b
      let b := wrB b (LANE.STAT.RATE_LOW n) low
      if isOn b (LANE.STAT.HOLD n) then emit b (.laneResume n (siteAddr b) (ownIdent b) (lastSeqs b n)) else b

/-- LANE_LOSS (R310): 16 invalid headers of the last 64. -/
def doLaneLoss (n : Nat) (b : Blk) : Blk :=
  if !enabled b (pgLANE n) || !isOn b (LANE.STAT.ALIGNED n) then b
  else
    let b := incSat (incSat b (LANE.ERR.LOSSES n)) (LANE.ERR.HDR_ERR n) 16
    raise (pgLANE n) 1 (laneOff n (tiolmox b n) (takeSettings n b))

/-- LANE_FRAME_TIMEOUT (R310). -/
def doFrameTimeout (n : Nat) (b : Blk) : Blk := incSat b (LANE.CRC.TIMEOUTS n)

/-- The receive buffers of a class (R313). -/
def bufs (b : Blk) (c : Nat) : Nat := rd b (LINK.CLS.CRED.BUF c)

/-- The link state returns to its initial values (R311): reliable frames stay queued, RT and SYNC frames are discarded. -/
def resetLink (n : Nat) (b : Blk) : Blk :=
  let x := laneOf b n
  let keep := (x.unacked.map fun e => (e.1, e.2.2)) ++ x.queue.filter fun e => 2 ≤ e.1
  let b := setLane n { rate := x.rate, align := x.align, eq := x.eq, downAt := x.downAt, queue := keep, ctle := x.ctle } b
  raise pgLINK 2 (wrB (wr b (LANE.STAT.PEER n) 0xFF) (LANE.STAT.HOLD n) false)

/-- The lane (+1) that leads to a stack below. -/
def setDown (s x : Nat) (b : Blk) : Blk :=
  { b with lanes := { b.lanes with down := Tab.put (fun _ => 0) b.lanes.down s x } }

/-- The uplinks that are up. -/
def upUplinks (b : Blk) : List Nat := (List.range 16).filter fun n => isUplink b n && laneUp b n

/-- What the stack loses with a lane whose link was reset: a member, the parent, a stack below (R324, R331, R332). -/
def laneLeft (n : Nat) (b : Blk) : Blk :=
  let b := when (isStackLane b n) (raise pgSTK 1) b
  let b := when (isUplink b n) (raise pgSTK 2) b
  let b := if isUplink b n ∧ upUplinks b = [] then wr (wrB b STK.PARENT.VALID false) STK.PARENT.ADDR 0xFF else b
  if isDownlink b n then
    let ss := (List.range 16).filter fun s => Tab.at' (fun _ => 0) b.lanes.down s == n + 1
    forEach ss (fun s b =>
      let b := setDown s 0 b
      wrB b (STK.MAP.MSTAT.JOINED s) false) b
  else b

/-- A lane stops: what is in flight is counted lost, and its link returns to its initial state. -/
def laneStop (n : Nat) (b : Blk) : Blk :=
  let b := when (isOn b (LANE.STAT.ALIGNED n)) (fun b => incSat b (LANE.ERR.LOSSES n)) b
  wr (laneLeft n (resetLink n (laneOff n false b))) (LANE.STAT.STATE n) 0

/-- DOWN_MS shows the hold that ends (R327). -/
def showDown (n : Nat) (b : Blk) : Blk :=
  wrU b (LANE.DOWN.DOWN_MS n) ((b.time.clk - (laneOf b n).downAt) / 1000000)

/-- LINK_HOLD_EXPIRE (R311). -/
def doLinkExpire (n : Nat) (b : Blk) : Blk :=
  if !isOn b (LANE.STAT.HOLD n) then b
  else
    let st := rd b (LANE.STAT.STATE n)
    let b := laneLeft n (resetLink n (showDown n b))
    showLanes (if st = 5 then wr b (LANE.STAT.STATE n) 1 else b)

/-- Send a reliable class again from the first unacknowledged frame (R316). At RETX_MAX the lane retrains. -/
def retransmit (n c : Nat) (b : Blk) : Blk :=
  let x := laneOf b n
  let l := x.unacked.filter fun e => e.1 == c
  if l.isEmpty || !laneUp b n then b
  else
    let t := x.tries.getD c 0 + 1
    let b := setLane n { x with tries := x.tries.set c t } b
    let b := forEach l (fun e b => incWrap (emit b (laneMsg n c e.2.1 e.2.2)) (LINK.CLS.TX.FRAMES c)) b
    let b := incSat b (LINK.CLS.ERR.RETX c) l.length
    if rd b LINK.LCTL.RETX_MAX ≤ t then
      raise pgLINK 3 (retrain n (setLane n { laneOf b n with tries := x.tries.set c 0 } b))
    else b

/-- Whether SEQ a is before b, modulo 65,536. -/
def seqBefore (a b : Nat) : Bool := decide (0 < (b + 65536 - a) % 65536 ∧ (b + 65536 - a) % 65536 < 32768)

/-- Frames up to an acknowledged SEQ leave the sender's list. -/
def acked (n c seq : Nat) (b : Blk) : Blk :=
  let x := laneOf b n
  let un := x.unacked.filter fun e => e.1 != c || seqBefore seq e.2.1
  setLane n { x with unacked := un, tries := if un = x.unacked then x.tries else x.tries.set c 0 } b

/-- LINK_RESUME (R311): from an unchanged peer within the hold the link resumes, reliable classes from the frame after the
last the peer received; otherwise the link is reset. -/
def doResume (n addr ident : Nat) (seqs : List Nat) (b : Blk) : Blk :=
  if !isOn b (LANE.STAT.HOLD n) || decide (rd b (LANE.STAT.STATE n) ≠ 2) then b
  else if addr = rd b (LANE.STAT.PEER n) ∧ ident = (laneOf b n).peer then
    let b := showDown n b
    let b := wr (wrB (wrB b (LANE.STAT.HOLD n) false) (LANE.STAT.UP n) true) (LANE.STAT.STATE n) 4
    let b := raise (pgLANE n) 0 (raise pgLINK 1 (showPresent (showLanes b)))
    let b := lockLaneEvent n b
    let b := forEach [2, 3] (fun c b => retransmit n c (acked n c (seqs.getD c 0) b)) b
    laneFlush (laneGo n b)
  else showLanes (laneLeft n (resetLink n (showDown n b)))

/-! Handshake and hello (R314, R317, R318, R323). -/

/-- LINK_HANDSHAKE (R314): each end grants all its buffers; what waited goes out. On the first accepted uplink a worker stack
master sends its STACK_ID upwards (R323), and again when one returns after all were lost (R324). A mirror that returns after a reset gets a
full copy (R425). -/
def doHandshake (n : Nat) (b : Blk) : Blk :=
  if rd b (LANE.STAT.STATE n) ≠ 3 then b
  else
    let x := laneOf b n
    let had := mirrorUp b
    let b := setLane n { x with credits := (List.range 4).map (bufs b), txSeq := [0, 0, 0, 0], rxSeq := [0, 0, 0, 0] } b
    let b := wr (wrB b (LANE.STAT.UP n) true) (LANE.STAT.STATE n) 4
    let b := raise pgLINK 0 (raise (pgLANE n) 0 (showPresent (showLanes b)))
    let b := lockLaneEvent n b
    let b := when (isStackLane b n) (raise pgSTK 1) b
    let b := if isUplink b n then
        let b := raise pgSTK 2 b
        if isOn b STK.PARENT.VALID then b
        else
          let b := wr (wrB b STK.PARENT.VALID true) STK.PARENT.ADDR (rd b (LANE.STAT.PEER n))
          if rd b SYS.MODE.ROLE = 1 then emit b (.stackIdUp n (rd b STK.STACK_ID.ID) 1) else b
      else b
    let b :=
      if isStackLane b n ∧ rd b SYS.MODE.POS = 0 ∧ rd b SYS.MODE.SITE_STATE ≠ 0 then
        laneQueue n 2 (.own 0xFD (.stackNumber (rd b SYS.MODE.STACK))) b
      else b
    let b := laneFlush (laneGo n b)
    if mirrorUp b && !had then startFullCopy b else b

/-- The hello of a lane (R318). -/
def helloOf (b : Blk) (n : Nat) : Hello :=
  { addr := siteAddr b, role := rd b SYS.MODE.ROLE, pos := rd b SYS.MODE.POS, pair := rd b SYS.MODE.PAIR,
    ident := ownIdent b, lane := n }

/-- The lanes that may carry Tiolmox traffic here (R43, R317). -/
def mayTalk (b : Blk) (n : Nat) : Bool :=
  isStackLane b n || isUplink b n || isDownlink b n || (paired b && decide (n = 4 ∨ n = 5))

/-- HELLO_SEND (R323): every 1 ms from a lane aligned and not answered. -/
def doHelloSend (n : Nat) (b : Blk) : Blk :=
  if tiolmox b n && mayTalk b n && decide (rd b (LANE.STAT.STATE n) = 2) && !isOn b (LANE.STAT.HOLD n) then
    emit b (.laneHello n (helloOf b n))
  else b

/-- The judgement of a hello: 0 accepted, 1 refused as a second manager (R45), 2 a wiring error (R317, R318). -/
def judgeHello (b : Blk) (n : Nat) (h : Hello) : Nat :=
  let me := rd b SYS.MODE.POS
  let t := if rd b SYS.MODE.PAIR = 2 then 1 else 0
  let u := if h.pair = 2 then 1 else 0
  if n = 4 ∨ n = 5 then
    (if paired b ∧ h.lane = n ∧ h.pos = me ∧ h.pair = 3 - rd b SYS.MODE.PAIR ∧ h.role = rd b SYS.MODE.ROLE then 0 else 2)
  else if isStackLane b n then
    (if h.role ≠ 0 ∧ h.pos + 10 * u = n ∧ h.lane = me + 10 * t then 0 else 2)
  else if isUplink b n ∨ isDownlink b n then
    (if rd b SYS.MODE.ROLE = 2 ∧ h.role = 2 then 1
     else if h.pos = 0 ∧ h.role ≠ 0 ∧ (h.role = 1 ∨ isUplink b n) ∧ ¬ (rd b SYS.MODE.ROLE = 2 ∧ isUplink b n) then 0
     else 2)
  else 2

/-- HELLO_RX (R318). -/
def doHelloRx (n : Nat) (h : Hello) (b : Blk) : Blk :=
  if !tiolmox b n || decide (rd b (LANE.STAT.STATE n) ≠ 2) || isOn b (LANE.STAT.HOLD n) then b
  else
    let j := judgeHello b n h
    if j = 0 then
      let b := setLane n { laneOf b n with peer := h.ident } b
      let b := wr (wr b (LANE.STAT.PEER n) h.addr) (LANE.STAT.STATE n) 3
      emit b (.laneHello n (helloOf b n))
    else
      raise pgSTK (if j = 1 then 4 else 5) (wr (incSat b STK.REFUSED.COUNT) STK.REFUSED.LANE n)

/-! Frames (R312 to R316, R320). -/

/-- A relayed MGMT or BULK frame goes on towards its destination (R320, R322); nothing is relayed at zero hops. -/
def relay (f : List Byte) (c dst : Nat) (b : Blk) : Blk :=
  if c < 2 ∨ (f.getD 1 0).toNat ≤ 1 then b
  else
    let r := route b dst
    let exact := r.1.filter fun n => n / 10 == dst / 2 % 2
    let ns := if r.2 ∨ exact.isEmpty then r.1.take 1 else exact.take 1
    let b := when r.2 (raise pgLINK 6) b
    forEach ns (fun n b => incWrap (laneQueue n c (.raw f) b) LINK.RELAY.COUNT) b

/-- A frame accepted in order: delivered here, or relayed. -/
def deliver (n c : Nat) (f : List Byte) (b : Blk) : Blk :=
  let dst := (f.getD 2 0).toNat
  let len := ofLE ((f.drop 6).take 2) % 512
  if dst = 0xFF ∨ dst = 0xFD ∨ dst = siteAddr b then
    emit b (.delivered n c ((f.getD 0 0).toNat % 64) (f.getD 3 0).toNat ((f.drop 12).take len))
  else relay f c dst b

/-- TIOLMOX_FRAME_RX (R312 to R316). -/
def doFrameRx (n : Nat) (f : List Byte) (b : Blk) : Blk :=
  if !tiolmox b n || !laneUp b n then b
  else
    let body := f.take (f.length - 4)
    if f.length < 16 ∨ Crc.crc32 body ≠ ofLE (f.drop (f.length - 4)) then incSat b (LANE.CRC.CRC_ERR n)
    else
      let c := (f.getD 0 0).toNat / 64
      let typ := (f.getD 0 0).toNat % 64
      let dst := (f.getD 2 0).toNat
      let seq := ofLE ((f.drop 4).take 2)
      let len := ofLE ((f.drop 6).take 2) % 512
      let bad := decide (256 < len ∨ f.length ≠ 16 + len ∨ (dst % 2 = 1 ∧ dst ≠ 0xFF ∧ dst ≠ 0xFD)) ||
        !Config.knownType c typ
      let x := laneOf b n
      let want := x.rxSeq.getD c 0
      let b := incWrap b (LINK.CLS.RX.FRAMES c)
      let b := when bad (incSat · LINK.DROPS.UNKNOWN) b
      let b := emit b (.laneCtl n c (.credit 1))
      let x := { x with rxSeq := x.rxSeq.set c ((seq + 1) % 65536) }
      if c < 2 then
        let b := if seq = want then b else raise pgLINK 5 (incSat b (LINK.CLS.ERR.SEQ_GAP c))
        if bad then setLane n x b else deliver n c f (setLane n x b)
      else if seq = want then
        let b := emit (setLane n x b) (.laneCtl n c (.ack seq))
        if bad then b else deliver n c f b
      else if seqBefore seq want then emit b (.laneCtl n c (.ack ((want + 65535) % 65536)))
      else emit b (.laneCtl n c (.nak ((want + 65535) % 65536)))

/-- CONTROL_BLOCK (R314, R316): credits return, frames are acknowledged, or a gap is reported. -/
def doControl (n c : Nat) (k : LaneCtl) (b : Blk) : Blk :=
  if !laneUp b n then b
  else match k with
    | .credit m =>
      let x := laneOf b n
      laneGo n (setLane n { x with credits := x.credits.set c (min (bufs b c) (x.credits.getD c 0 + m)) } b)
    | .ack s => if 2 ≤ c then acked n c s b else b
    | .nak s => if 2 ≤ c then retransmit n c (acked n c s b) else b

/-- RETX_TIMEOUT (R316). -/
def doRetxTimeout (n c : Nat) (b : Blk) : Blk := if 2 ≤ c then retransmit n c b else b

/-- CREDIT_STARVE (R314). -/
def doStarve (n c : Nat) (b : Blk) : Blk :=
  if laneUp b n ∧ (laneOf b n).credits.getD c 0 = 0 then raise pgLINK 7 b else b

/-! Stack numbers (R323, R324). -/

/-- STACK_ID_REQUEST: the manager answers or refuses; an ancestor relays it upwards. -/
def doStackIdRequest (id lane depth : Nat) (b : Blk) : Blk :=
  if rd b SYS.MODE.ROLE = 2 then
    match (List.range 16).find? fun s => s != 0 && decide (rd b (STK.MAP.ID.ID s) = id) with
    | some s =>
      if isOn b (STK.MAP.MSTAT.JOINED s) ∨ 3 < depth then raise pgSTK 4 b
      else
        let b := wr (wr (wrB b (STK.MAP.MSTAT.JOINED s) true) (STK.MAP.MSTAT.LANE s) lane) (STK.MAP.MSTAT.DEPTH s) depth
        let b := setDown s (lane + 1) b
        raise pgSTK 3 (emit b (.stackIdDown lane id s depth))
    | none => raise pgSTK 4 b
  else if isMaster b ∧ rd b SYS.MODE.ROLE = 1 then
    match upUplinks b with
    | [] => b
    | u :: _ =>
      let b := { b with lanes := { b.lanes with asked := (b.lanes.asked.filter fun e => e.1 != id) ++ [(id, lane)] } }
      emit b (.stackIdUp u id (depth + 1))
  else b

/-- The stack number comes to this device: the first is taken, the stack joins; a different one later is refused. -/
def takeNumber (s depth : Nat) (b : Blk) : Blk :=
  let own := rd b SYS.MODE.STACK
  if own ≠ 31 ∧ own ≠ s then raise pgSTK 4 b
  else
    let b := wr (wr b SYS.MODE.STACK s) STK.SSTAT.DEPTH depth
    let b := if rd b SYS.MODE.SITE_STATE = 0 then joinSite b else b
    let b := raise pgSTK 0 b
    if isMaster b then toMembers (.stackNumber s) (emit b (.stackNumber s)) else b

/-- STACK_NUMBER_ASSIGN: on a stack master the manager's answer, its own or one to pass on; on a member its master's. -/
def doStackNumber (id s depth : Nat) (b : Blk) : Blk :=
  if rd b SYS.MODE.ROLE ≠ 1 ∨ isOn b SYS.STRAP.STRAP_ERR then b
  else if !isMaster b then takeNumber s depth b
  else if id = rd b STK.STACK_ID.ID then takeNumber s depth b
  else match b.lanes.asked.find? fun e => e.1 == id with
    | some e =>
      let b := setDown s (e.2 + 1) { b with lanes := { b.lanes with asked := b.lanes.asked.erase e } }
      raise pgSTK 3 (emit b (.stackIdDown e.2 id s depth))
    | none => b

/-! Ethernet (R325, R333, R334). -/

/-- A ring descriptor of a MAC: `hi` 0 receive, 1 transmit. -/
def ethDesc (b : Blk) (e tx : Nat) : Nat :=
  if tx = 0 then rd64 b (ETH.RX_BASE.IOVA e) + 32 * rd b (ETH.RX_HEAD.HEAD e)
  else rd64 b (ETH.TX_BASE.IOVA e) + 32 * rd b (ETH.TX_HEAD.HEAD e)

/-- The bytes a MAC writes back from byte 8 of a descriptor on: length, flags with OWN clear, both stamps. -/
def ethBack (b : Blk) (len flags : Nat) : List Byte :=
  let ta := eHost b 0
  let tb := eHost b 1
  le 2 len ++ le 2 flags ++ le 4 ta ++ le 4 tb ++ le 1 (ta / 2 ^ 32) ++ le 1 (tb / 2 ^ 32)

/-- HEAD moves to the next descriptor. -/
def ethStep (e tx : Nat) (b : Blk) : Blk :=
  if tx = 0 then wr b (ETH.RX_HEAD.HEAD e) ((rd b (ETH.RX_HEAD.HEAD e) + 1) % max 1 (rd b (ETH.RX_RING.SIZE e)))
  else wr b (ETH.TX_HEAD.HEAD e) ((rd b (ETH.TX_HEAD.HEAD e) + 1) % max 1 (rd b (ETH.TX_RING.SIZE e)))

/-- Whether a frame's destination is accepted. -/
def ethAccepts (b : Blk) (e : Nat) (f : List Byte) : Bool :=
  let da := f.take 6
  isOn b (ETH.ECTL.PROMISC e) ||
    (isOn b (ETH.ECTL.BCAST e) && da == le 6 (2 ^ 48 - 1)) ||
    da == le 4 (rd b (ETH.MAC_LO.ADDR e)) ++ le 2 (rd b (ETH.MAC_HI.ADDR e))

/-- ETH_FRAME_RX: a frame with its FCS. -/
def doEthRx (e : Nat) (f : List Byte) (b : Blk) : Blk :=
  if !enabled b (pgETH e) || !clocked b (pgETH e) || !isOn b (ETH.ESTAT.LINK e) || !ethAccepts b e f then b
  else
    let body := f.take (f.length - 4)
    let fcs := decide (Crc.crc32 body ≠ ofLE (f.drop (f.length - 4)))
    let big := decide (1522 < f.length)
    let b := when (fcs || big) (fun b => raise (pgETH e) 4 (incSat b (ETH.RX_CNT.ERR e))) b
    if f.length < 64 then b
    else
      let size := rd b (ETH.RX_RING.SIZE e)
      let a := ethDesc b e 0
      let r := if size = 0 then { blk := b, bytes := [], cause := 0, at' := 0, bad := none } else streamRead b (32 + e) a 32
      if r.cause ≠ 0 then raise (pgETH e) 5 r.blk
      else if r.bad.isSome ∨ !(r.bytes.getD 11 0).toNat.testBit 7 then
        raise (pgETH e) 3 (incSat r.blk (ETH.RX_CNT.DROP e))
      else
        let data := body.take 1518
        let w := streamWrite r.blk (32 + e) (ofLE (r.bytes.take 8)) data
        if w.2.1 ≠ 0 then raise (pgETH e) 5 w.1
        else
          let d := streamWrite w.1 (32 + e) (a + 8) (ethBack w.1 data.length (b2n fcs * 2 ^ 14 + b2n big * 2 ^ 13))
          if d.2.1 ≠ 0 then raise (pgETH e) 5 d.1
          else raise (pgETH e) 0 (incWrap (ethStep e 0 d.1) (ETH.FRAMES.RX e))

/-- ETH_FRAME_TX: the MAC finishes the frame of the next queued descriptor. A frame outside 60 to 1,518 bytes without its
FCS is returned unsent, and so is one with poisoned data (R16). -/
def doEthTx (e : Nat) (b : Blk) : Blk :=
  let size := rd b (ETH.TX_RING.SIZE e)
  if !enabled b (pgETH e) || !clocked b (pgETH e) || !isOn b (ETH.ESTAT.LINK e) || decide (size = 0) then b
  else
    let a := ethDesc b e 1
    let r := streamRead b (32 + e) a 32
    if r.cause ≠ 0 then raise (pgETH e) 5 r.blk
    else if r.bad.isSome ∨ !(r.bytes.getD 11 0).toNat.testBit 7 then r.blk
    else
      let len := ofLE ((r.bytes.drop 8).take 2)
      let p := streamRead r.blk (32 + e) (ofLE (r.bytes.take 8)) len
      if p.cause ≠ 0 then raise (pgETH e) 5 p.blk
      else
        let sent := decide (60 ≤ len ∧ len ≤ 1518) && p.bad.isNone
        let b := if p.bad.isSome then raise pgLINK 4 (incSat p.blk LINK.DROPS.POISON) else p.blk
        let b := if sent then emit b (.ethTx e (p.bytes ++ le 4 (Crc.crc32 p.bytes))) else b
        let d := streamWrite b (32 + e) (a + 8) (ethBack b len 0)
        if d.2.1 ≠ 0 then raise (pgETH e) 5 d.1
        else
          let b := ethStep e 1 d.1
          if sent then raise (pgETH e) 1 (incWrap b (ETH.FRAMES.TX e)) else b

def execLaneRetrain (i : Init) (n : Fin 16) (v : Word) (s : State) : Out :=
  run (writeAct i false (LANE.LCTL.RETRAIN n.val).a v (actLctl n.val)) s

def execLaneAligned (n : Fin 16) (slip : BitVec 7) (s : State) : Out := run (doLaneAligned n.val slip.toNat) s

def execLaneLoss (n : Fin 16) (s : State) : Out := run (doLaneLoss n.val) s

def execLaneFrameTimeout (n : Fin 16) (s : State) : Out := run (gated (pgLANE n.val) (doFrameTimeout n.val)) s

def execLinkResume (n : Fin 16) (addr : Byte) (ident : BitVec 64) (seqs : List (BitVec 16)) (s : State) : Out :=
  run (doResume n.val addr.toNat ident.toNat (seqs.map (·.toNat))) s

def execLinkHoldExpire (n : Fin 16) (s : State) : Out := run (doLinkExpire n.val) s

def execLinkHandshake (n : Fin 16) (s : State) : Out := run (doHandshake n.val) s

def execHelloSend (n : Fin 16) (s : State) : Out := run (doHelloSend n.val) s

def execHelloRx (n : Fin 16) (h : Hello) (s : State) : Out := run (doHelloRx n.val h) s

def execTiolmoxFrameRx (n : Fin 16) (f : List Byte) (s : State) : Out := run (doFrameRx n.val f) s

def execRetxTimeout (n : Fin 16) (c : Fin 4) (s : State) : Out := run (doRetxTimeout n.val c.val) s

def execCreditStarve (n : Fin 16) (c : Fin 4) (s : State) : Out := run (doStarve n.val c.val) s

def execControlBlock (n : Fin 16) (c : Fin 4) (k : LaneCtl) (s : State) : Out := run (doControl n.val c.val k) s

def execStackIdRequest (id : Word) (n : Fin 16) (depth : BitVec 4) (s : State) : Out :=
  run (doStackIdRequest id.toNat n.val depth.toNat) s

def execStackNumberAssign (id : Word) (n : Fin 16) (depth : Fin 4) (s : State) : Out :=
  run (doStackNumber id.toNat n.val depth.val) s

def execEthFrameRx (e : Fin 2) (f : List Byte) (s : State) : Out := run (doEthRx e.val f) s

def execEthTxQueue (i : Init) (e : Fin 2) (v : Word) (s : State) : Out :=
  run (writeAct i false (ETH.TX_RING.TAIL e.val).a v (fun _ b => b)) s

def execEthFrameTx (e : Fin 2) (s : State) : Out := run (doEthTx e.val) s

end Sys2Proof.Machine
end

