-- ==== Sys2Proof/Machine/Red.lean ====
section
/-!
DEFINITION. Active and standby pairs (chapter 14): the deterministic domain, digests, state transfer, failure and
takeover.
-/

namespace Sys2Proof.Machine

open Sys2Proof.Num

/-! The deterministic domain (R338, R344). -/

/-- The words of a page in ascending offset, its PAGE_STAT apart, which counts private events. -/
def pageWords (b : Blk) (pg : Nat) : List Word :=
  match pageAt pg with
  | none => []
  | some (p, _) =>
    let offs := p.rows.flatMap fun r => (List.range r.cnt).flatMap fun i => (List.range r.cnt2).map fun k =>
      r.off + r.st * i + r.st2 * k
    ((sortBy (fun a c => decide (a ≤ c)) offs).filter (· != 0x10)).map fun o => wordOf b (pg + o)

/-- The state digest (R344): CRC-64 over the pages, the field-MRAM state and the regions. How the field-MRAM state is laid
out is not stated: 8 bytes of a free value stand for it. -/
def stateDigest (b : Blk) : Nat :=
  Crc.crc64 ((detPages.flatMap fun pg => (pageWords b pg).flatMap fun w => le 4 w.toNat) ++ le 8 (freeVal b) ++
    (regions b).flatMap fun r => memBytes b r.1 r.2)

/-- The standby loads the domain of the active as of T_a (R345): the pages, the hardware state behind them, and the
regions. -/
def loadDomain (dom : Blk) (b : Blk) : Blk :=
  let det := fun (e : Nat × Word) => detPage (e.1 / 0x1000 * 0x1000)
  let kept := b.regs.filter fun e => !det e
  let cells := b.mem.filter fun c => !inRegion b c.1
  let b := { b with
    regs := kept, mem := cells, factor := dom.factor, trunk := dom.trunk, mod0 := dom.mod0, mod1 := dom.mod1,
    mod2 := dom.mod2, ce := dom.ce, met := dom.met, house := dom.house, vp := dom.vp, mesh := dom.mesh, lsw := dom.lsw,
    thm := dom.thm }
  let b := forEach (dom.regs.filter det) (fun e b => setWord b e.1 e.2) b
  forEach (dom.mem.filter fun c => inRegion b c.1) (fun c b => setByte b c.1 c.2) b

/-! Synchronism (R343, R349). -/

/-- The partner has failed or gone: on the active PEER_SYNC clears (R349). -/
def partnerGone (b : Blk) : Blk :=
  let b := if inSync b then wr (setSync false b) RED.PSTAT.UNSYNC_CAUSE 8 else b
  raise pgRED 1 b

/-- The standby takes over (R348 step 3); t_0 was `ago` ns before now. -/
def takeover (ago : Nat) (b : Blk) : Blk :=
  let b := wr (setActive true (setSync false b)) RED.PSTAT.UNSYNC_CAUSE 8
  let b := { b with
    red := { b.red with takenOver := true, outDue := true, gapFrom := b.time.clk - ago, expect := Option.none }
    thm := { b.thm with discard := true } }
  let b := forEach [0, 1] (fun d b => if rd b (TIME.DOM.SRC.SRC d) = 0 then b else loseLock d b) b
  driveLands (raise pgRED 1 b)

/-- The decision on a failed partner (R347): `hb` its heartbeat toggles, `act` ACT_IN has shown an edge within 1.0 µs. -/
def decideTakeover (hb act : Bool) (ago : Nat) (b : Blk) : Blk :=
  if !paired b then b
  else
    let b := wrB (wrB b RED.PSTAT.PEER_HB hb) RED.PSTAT.PEER_ACT act
    if isActive b then partnerGone b
    else if !hb && act && !isOn b RED.PSTAT.PEER_FAIL then raise pgRED 10 (wrB b RED.PSTAT.HB_FAULT true)
    else if inSync b && !isOn b FPMU.PFSTAT.WARN && !isOn b PMU.PFSTAT.WARN && !act && healthy b then takeover ago b
    else raise pgRED 11 b

/-- PAIR_FAIL_IN (R347): asserted or released, with the partner's heartbeat and ACT_IN as they stand. -/
def doPairFailIn (on hb act : Bool) (b : Blk) : Blk :=
  if !paired b then b
  else
    let b := wrB (wrB (wrB b RED.PSTAT.PEER_FAIL on) RED.PSTAT.PEER_HB hb) RED.PSTAT.PEER_ACT act
    if on then decideTakeover hb act 0 b else b

/-- HB_SILENCE (R347): no edge for 2.0 µs. -/
def doHbSilence (act : Bool) (b : Blk) : Blk := decideTakeover false act 2000 b

/-- TAKEOVER_OUTPUTS (R348 step 5, R349): the outputs follow and the takeover is recorded. The partner's FAIL_CAUSE does not
reach this twin: its byte is a free value. -/
def doTakeoverOutputs (b : Blk) : Blk :=
  if !paired b || !isActive b || !b.red.outDue then b
  else
    let ns := b.time.clk - b.red.gapFrom
    let gap := satU 16 ns
    let b := probe false 4 none ns b
    let b := setRed { b.red with outDue := false } b
    let b := incSat (wr b RED.SW_CNT.LAST_GAP_NS gap) RED.SW_CNT.TAKEOVERS
    let b := wr64 b RED.SW_TIME.E (eHost b b.time.hostFdom)
    let fail := isOn b RED.PSTAT.PEER_FAIL
    let b := when fail spend (hostRecord 0x0020 true (le 4 gap ++ le 1 (if fail then freeVal b else 0)) b)
    let b := forEach (List.range 5) (fun q b => emit b (.pulse q (b.met.active.testBit q))) b
    let b := forEach (List.range 4) showPilot b
    laneFlush (raise pgRED 0 b)

/-! Giving up and rejoining (R346). -/

/-- ARM.REJOIN. -/
def rejoin (b : Blk) : Blk :=
  if isOn b RED.PSTAT.OWN_FAIL && causeCleared b then
    driveLands (setRed { b.red with fail := Option.none } (wr (wrB b RED.PSTAT.OWN_FAIL false) RED.PSTAT.FAIL_CAUSE 0))
  else b

/-! State transfer (R345). -/

/-- Whether a transfer may start: seals equal, no FAIL_OUT, both lockstep lanes up, none running. -/
def mayTransfer (b : Blk) : Bool :=
  paired b && !inSync b && (b.red.peerSealed == Option.none || b.red.peerSealed == some b.acc.sealed) &&
    b.red.fail.isNone && !isOn b RED.PSTAT.PEER_FAIL && laneUp b 4 && laneUp b 5 &&
    (rd b RED.PSTAT.XSTATE == 0 || rd b RED.PSTAT.XSTATE == 6)

/-- A transfer starts; the standby's host cores are held in reset. -/
def startTransfer (b : Blk) : Blk :=
  if !mayTransfer b then b
  else
    let b := wr (wr b RED.PSTAT.XSTATE 1) RED.PSTAT.XROUND 0
    let b := setRed { b.red with roundsDone := false, good := 0, coresHeld := b.red.coresHeld || !isActive b } b
    raise pgRED 7 (if isActive b then b else toPartner 3 .xferRequest (emit b .xferRequest))

/-- ARM: REJOIN, XFER, FORCE. -/
def actArmRed (v : Nat) (b : Blk) : Blk :=
  if !paired b then b
  else
    let b := when (v.testBit 2) rejoin b
    let b := when (v.testBit 1) (fun b => startTransfer (setRed { b.red with tries := 0 } b)) b
    when (v.testBit 0) (failAssert 5) b

/-- AUTO_XFER_START: 100 ms after the standby became unsynchronised. -/
def doAutoXfer (b : Blk) : Blk :=
  if isOn b RED.CTL.AUTO_XFER ∧ rd b RED.PSTAT.XSTATE = 0 ∧ !isActive b then
    startTransfer (setRed { b.red with tries := 0 } b)
  else b

/-- XFER_PRECOPY_ROUND: a round ends with `marked` bytes still marked. -/
def doPrecopy (marked : Nat) (b : Blk) : Blk :=
  let st := rd b RED.PSTAT.XSTATE
  if (st ≠ 1 ∧ st ≠ 2) ∨ b.red.roundsDone then b
  else
    let n := rd b RED.PSTAT.XROUND + 1
    let b := wrU (wr b RED.PSTAT.XSTATE 2) RED.PSTAT.XROUND n
    let b := setRed { b.red with roundsDone := decide (marked ≤ 65536 ∨ 8 ≤ n) } b
    if isActive b then toPartner 3 (.xferRound n) (emit b (.xferRound n)) else b

/-- XFER_ADOPT_TICK: T_a. -/
def doAdoptTick (b : Blk) : Blk :=
  if rd b RED.PSTAT.XSTATE ≠ 2 ∨ !b.red.roundsDone then b
  else
    let t := eHost b b.time.hostFdom / 1000
    let b := raise pgRED 8 (wr b RED.PSTAT.XSTATE 3)
    if isActive b then toPartner 3 (.xferState t) (emit b (.xferState t)) else b

/-- XFER_STATE_LOADED: the standby loads the domain and catches up; its host cores leave reset at RED.ENTRY. -/
def doStateLoaded (dom : Blk) (b : Blk) : Blk :=
  if isActive b ∨ rd b RED.PSTAT.XSTATE ≠ 3 then b
  else
    let b := loadDomain dom b
    let b := wrB (wr b RED.PSTAT.XSTATE 4) RED.PSTAT.CATCHUP true
    setRed { b.red with mine := [], digests := [], coresHeld := false } b

/-- CATCHUP_END: verification begins; on the active it begins with the state sent. -/
def doCatchupEnd (b : Blk) : Blk :=
  let st := rd b RED.PSTAT.XSTATE
  if st = 4 ∨ (isActive b ∧ st = 3) then
    setRed { b.red with good := 0 } (wrB (wr b RED.PSTAT.XSTATE 5) RED.PSTAT.CATCHUP false)
  else b

/-- XFER_RETRY: 1 s after a failed transfer, up to XFER_TRY times. -/
def doXferRetry (b : Blk) : Blk :=
  if rd b RED.PSTAT.XSTATE = 6 ∧ b.red.tries < rd b RED.CTL.XFER_TRY then
    startTransfer (setRed { b.red with tries := b.red.tries + 1 } b)
  else b

/-- A matching comparison during verification; the third brings the twins into step (R345). -/
def verified (b : Blk) : Blk :=
  if rd b RED.PSTAT.XSTATE ≠ 5 then b
  else
    let n := b.red.good + 1
    let b := setRed { b.red with good := n } b
    if n < 3 then b
    else raise pgRED 3 (wr (wr (setSync true b) RED.PSTAT.XSTATE 0) RED.PSTAT.UNSYNC_CAUSE 0)

/-! Tickets and digests (R340, R343, R344). -/

/-- Whether tick a is before tick b, modulo 2^32. -/
def tickBefore (a b : Nat) : Bool := decide (0 < (b + 2 ^ 32 - a) % 2 ^ 32 ∧ (b + 2 ^ 32 - a) % 2 ^ 32 < 2 ^ 31)

/-- LOCKSTEP_TICKET on the standby: second copies are discarded; gaps and late tickets are found. -/
def doTicket (t : Ticket) (b : Blk) : Blk :=
  if !paired b || isActive b then b
  else
    let want := b.red.expect.getD t.tseq
    let d := (t.tseq + 65536 - want) % 65536
    if 32768 ≤ d then b
    else
      let gap := decide (d ≠ 0)
      let b := setRed { b.red with expect := some ((t.tseq + 1) % 65536), tickets := b.red.tickets ++ [t] } b
      let b := if gap then unsync 2 (raise pgRED 5 (incSat b RED.TKT_STAT.GAPS)) else b
      let now := eHost b b.time.hostFdom
      let ahead := toInt 32 ((t.release + 2 ^ 32 - now / 1000 % 2 ^ 32) % 2 ^ 32)
      let b := probe true 7 none (ahead * 1000 - now % 1000) b
      let late := !tickBefore (now / 1000 % 2 ^ 32) t.release
      if late then unsync 3 (raise pgRED 5 (incSat (wr b RED.TKT_LATE.MIN_MARGIN 0) RED.TKT_LATE.LATE))
      else
        let lead := ((t.release + 2 ^ 32 - now / 1000 % 2 ^ 32) % 2 ^ 32 * 1000 - now % 1000) / 10
        wr b RED.TKT_LATE.MIN_MARGIN (min (rd b RED.TKT_LATE.MIN_MARGIN) lead)

/-- LOCKSTEP_SILENCE: no ticket on either lane for 10 ticks; on the active, the partner's notice that it is out of step,
after which the active clears its own copy (R343). -/
def doLockSilence (b : Blk) : Blk :=
  if !paired b then b
  else if isActive b then (if inSync b then raise pgRED 2 (wr (setSync false b) RED.PSTAT.UNSYNC_CAUSE 7) else b)
  else unsync 7 b

/-- DIGEST_COMPUTE at a tick multiple of 1,000. -/
def doDigest (b : Blk) : Blk :=
  if !paired b then b
  else
    let t := tickNow b
    let d := stateDigest b
    let b := spend b
    if isActive b then
      let b := ticketed 0x0F (le 8 d) b
      verified b
    else setRed { b.red with digests := ((t, d) :: b.red.digests).take 16 } b

/-- The standby compares the active's digest with its own of the same tick (R344). -/
def compareDigest (t peer : Nat) (b : Blk) : Blk :=
  match b.red.digests.find? fun e => e.1 == t with
  | none => b
  | some e =>
    let b := wr64 (wr64 b RED.DIG_OWN.DIG e.2) RED.DIG_PEER.DIG peer
    if e.2 = peer then verified (incWrap b RED.DIG_CNT.MATCH)
    else
      let b := unsync 1 (raise pgRED 4 (incSat b RED.DIG_CNT.MISMATCH))
      if rd b RED.PSTAT.XSTATE = 5 then setRed { b.red with good := 0 } b else b

def execXfer (i : Init) (v : Word) (s : State) : Out := run (writeAct i false RED.ARM.XFER.a v actArmRed) s

def execAutoXferStart (s : State) : Out := run doAutoXfer s

def execXferPrecopyRound (marked : Word) (s : State) : Out := run (doPrecopy marked.toNat) s

def execXferAdoptTick (s : State) : Out := run doAdoptTick s

def execXferStateLoaded (dom : Blk) (s : State) : Out := run (doStateLoaded dom) s

def execCatchupEnd (s : State) : Out := run doCatchupEnd s

def execXferTimeout (s : State) : Out := run transferFail s

def execXferRetry (s : State) : Out := run doXferRetry s

def execForce (i : Init) (v : Word) (s : State) : Out := run (writeAct i false RED.ARM.FORCE.a v actArmRed) s

def execRejoin (i : Init) (v : Word) (s : State) : Out := run (writeAct i false RED.ARM.REJOIN.a v actArmRed) s

def execPairFailIn (on hb act : Bool) (s : State) : Out := run (doPairFailIn on hb act) s

def execHbSilence (act : Bool) (s : State) : Out := run (doHbSilence act) s

def execTakeoverOutputs (s : State) : Out := run doTakeoverOutputs s

def execLockstepTicket (release : Word) (tseq : BitVec 16) (src : Byte) (content : List Byte) (s : State) : Out :=
  run (doTicket { release := release.toNat, tseq := tseq.toNat, src := src.toNat, content := content }) s

def execLockstepSilence (s : State) : Out := run doLockSilence s

def execDigestCompute (s : State) : Out := run doDigest s

end Sys2Proof.Machine
end

