-- ==== Sys2Proof/Machine/Power.lean ====
section
/-!
DEFINITION. Power, reset and boot (chapter 22): hold-up and power-fail warnings, the resets of each side, straps, images
and their checks, watchdogs, clocks and the field flash.
-/

namespace Sys2Proof.Machine

open Sys2Proof.Num Sys2Proof.Machine.Crypto

/-! The sides. -/

/-- A side's power, reset and boot state. -/
def sideOf (b : Blk) (field : Bool) : SideSt := if field then b.boot.field else b.boot.host
def setSide (field : Bool) (x : SideSt) (b : Blk) : Blk :=
  if field then { b with boot := { b.boot with field := x } } else { b with boot := { b.boot with host := x } }

/-- A field of the host's PMU or of FPMU, by the host's (R505). -/
def pmu (field : Bool) (F : Fld) : Fld := if field then { F with a := F.a - pgPMU + pgFPMU } else F

/-- A field of SYS or of FSYS, by the host's (R507). -/
def sys (field : Bool) (F : Fld) : Fld := if field then { F with a := F.a - pgSYS + pgFSYS } else F

def warned (b : Blk) (field : Bool) : Bool := isOn b (pmu field PMU.PFSTAT.WARN)

/-- A side's power-fail sequence has reached its last deadline (R489, R490). -/
def seqDone (b : Blk) (field : Bool) : Bool :=
  warned b field && (if field then b.met.stopped else isOn b DBK.DSTAT.SEALED)

/-! Hold-up (R487). -/

/-- HOLD_LOW sets; on the host it raises PMU event 1. -/
def holdLow (field : Bool) (b : Blk) : Blk :=
  let b := wrB b (pmu field PMU.HOLD.HOLD_LOW) true
  if field then b else raise pgPMU 1 b

/-- HOLD_READY: the rise from 50 % to 90 % of V_CHG took `us` µs. -/
def doHoldReady (field : Bool) (us : Nat) (b : Blk) : Blk :=
  let c := satU 16 (rdivN us (if field then 288 else 192))
  let b := wr (wrB b (pmu field PMU.HOLD.HOLD_RDY) true) (pmu field PMU.HOLD.C_EST) c
  let b := wr b (pmu field PMU.VMEAS.VHOLD) (if field then 324 else 216)
  if c < rd b (pmu field PMU.HOLD_MIN.HOLD_MIN_UF) then holdLow field b else b

/-- HOLD_TIMEOUT: 2 s after reset release. -/
def doHoldTimeout (field : Bool) (b : Blk) : Blk :=
  if isOn b (pmu field PMU.HOLD.HOLD_RDY) then b else holdLow field b

/-! Resets (R491, R492). -/

/-- The bits of a register that MRAM or fuses keep. -/
def nvMask (a : Nat) : Word :=
  let pg := a / 0x1000 * 0x1000
  let o := a % 0x1000
  match pageAt pg with
  | none => 0
  | some (p, _) =>
    if o = 0x0C then (if p.sealable then 1 else 0)
    else match rowAt p o with
      | none => 0
      | some (r, _) => BitVec.ofNat 32 r.nv

/-- Every register of a side returns to its reset value, but for what MRAM and fuses hold. -/
def resetRegs (field : Bool) (b : Blk) : Blk :=
  let mine := b.regs.filter fun e => decide (0x100000 ≤ e.1) == field
  let rest := b.regs.filter fun e => decide (0x100000 ≤ e.1) != field
  forEach mine (fun e b =>
    let m := nvMask e.1
    setWord b e.1 ((resetWord e.1 &&& ~~~m) ||| (e.2 &&& m))) { b with regs := rest }

/-- The entries of a table whose key passes. -/
def keep {α : Type} (t : Tab α) (p : Nat → Bool) : Tab α := t.filter fun e => p e.1

/-- The hardware state of the host side after its reset: MRAM, fuses and flash are kept. -/
def hostState (b : Blk) : Blk :=
  let d := b.daybook
  { b with
    memory := { marks := b.memory.marks }
    factor := {}
    trunk := { b.trunk with stopMask := 0, stopLeft := 0, stopCopies := 0, leaving := [], ranks := [] }
    lanes := {}
    red := { peerSealed := b.red.peerSealed, fail := b.red.fail }
    daybook := { lastSeal := d.lastSeal, pHead := d.pHead, identity := d.identity, warned := d.warned }
    time := { b.time with ta := {}, tb := {}, hostFdom := 0, caps := keep b.time.caps fun k => decide (8 ≤ k) }
    events := { svc := keep b.events.svc fun k => decide (4 ≤ k), mons := keep b.events.mons fun k => decide (16 ≤ k) }
    acc := { b.acc with
      locks := keep b.acc.locks fun k => decide (0x100000 ≤ k), shadows := keep b.acc.shadows fun k => decide (4 ≤ k % 8)
      frozen := keep b.acc.frozen fun k => decide (0x100000 ≤ k) }
    srm := { b.srm with op := none }
    bar := { b.bar with fieldLost := false } }

/-- The hardware state of the field side after its reset. -/
def fieldState (b : Blk) : Blk :=
  { b with
    mod0 := {}, mod1 := {}, mod2 := {}, ce := {}, vp := [], mesh := {}, lsw := {}, thm := {}
    trunk := { coilMram := b.trunk.coilMram }
    met := { active := b.met.active }
    time := { b.time with fa := {}, fb := {}, fdom := 0, caps := keep b.time.caps fun k => decide (k < 8) }
    events := { svc := keep b.events.svc fun k => decide (k < 4), mons := keep b.events.mons fun k => decide (k < 16) }
    acc := { b.acc with
      locks := keep b.acc.locks fun k => decide (k < 0x100000), shadows := keep b.acc.shadows fun k => decide (k % 8 < 4)
      frozen := keep b.acc.frozen fun k => decide (k < 0x100000) }
    bar := { b.bar with hostLost := false, peerHealthy := true }
    boot := { b.boot with flash := none, ctrlSlot := 2, metSlot := 2 } }

/-- The mode axes that straps, switch-over or discovery set outlast a reset of the host that samples no strap (R39, R46,
R51); a partner in step is no longer so. -/
def keepMode (mode : Word) (b : Blk) : Blk := wrB (setWord b SYS.MODE.ROLE.a mode) SYS.MODE.PEER_SYNC false

/-- The causes of a reset with one more: after a power-on reset only that bit shows (R492). -/
def addCause (causes c : Nat) : Nat := if c = 0 ∨ causes.testBit 0 then 1 else causes ||| 2 ^ c

/-- A side reset for a cause (R491): `hold` keeps the side in reset until its release. The sampled straps and the modes they
set stay until straps are sampled again. Only the power-on cause remains where power-on is one (R492). -/
def sideReset (field : Bool) (cause : Nat) (hold : Bool) (b : Blk) : Blk :=
  let x := sideOf b field
  let strap := wordOf b (sys field SYS.STRAP.ROLE).a
  let mode := wordOf b SYS.MODE.ROLE.a
  let b := resetRegs field b
  let b := if field then calFactory (fieldState b) else hostState b
  let b := setWord b (sys field SYS.STRAP.ROLE).a strap
  let b := if field then b else keepMode mode b
  let causes := addCause (if x.held then x.causes else 0) cause
  let holds := if hold then (if x.held then x.holds else 0) ||| 2 ^ cause else 0
  let b := setSide field { held := hold, holds := holds, rootOk := x.rootOk, causes := causes, badKicks := x.badKicks } b
  if field && paired b then emit b (.pairLands false false false) else b

/-- The memories that lose their contents without power (R17). -/
def volatileKey (field : Bool) (k : Nat) : Bool :=
  if field then
    decide (2 ^ 32 ≤ k ∧ k < 2 ^ 32 + 0x40000) || decide (2 ^ 32 + 0x40000000 ≤ k ∧ k < 2 ^ 32 + 0x40200000) ||
      decide (3 * 2 ^ 32 ≤ k)
  else decide (0x10000000 ≤ k ∧ k < 0x10400000) || decide (0x80000000 ≤ k ∧ k < 0xE0000000)

/-- POWER_ON_RESET: memory without retention reads as memory never written. -/
def doPowerOn (field : Bool) (b : Blk) : Blk :=
  let b := sideReset field 0 true b
  { b with
    mem := b.mem.filter fun c => !volatileKey field c.1
    memory := { b.memory with marks := b.memory.marks.filter fun e => !volatileKey field (4 * e.1) } }

/-- The straps form an invalid combination (R44). -/
def strapBad (w : Nat) : Bool :=
  decide (w / 4 % 4 = 3) || decide (w / 64 % 4 = 3) || decide (w / 4 % 4 = 2 ∧ w / 16 % 4 ≠ 0)

/-- The copies SYS.MODE and RED show of the seal, the legal domain and the active twin, and the seal precedence (R49). -/
def showMode (b : Blk) : Blk :=
  let b := wrB b RED.PSTAT.ACTIVE (paired b && isActive b)
  sealParity (wrB (wr b SYS.MODE.LEGAL_DOM (rd b CH.CCTL.LEGAL_DOM)) SYS.MODE.SEALED b.acc.sealed)

/-- SYS.MODE from the straps (R39, R43, R44, R46, R47): when they are sampled, and where the field's copy is found to differ
(R495). -/
def formMode (b : Blk) : Blk :=
  let err := isOn b SYS.STRAP.STRAP_ERR
  let role := if err then 0 else rd b SYS.STRAP.ROLE
  let pair := if err then 0 else rd b SYS.STRAP.PAIR
  let b := wr (wr b SYS.MODE.ROLE role) SYS.MODE.POS (if role = 0 then 0 else rd b SYS.STRAP.POS)
  let b := wr (wrB b SYS.MODE.ACTIVE (decide (pair ≠ 2))) SYS.MODE.PAIR pair
  let b := wr (wr b SYS.MODE.STACK (if role = 0 then 0 else 31)) SYS.MODE.SITE_STATE (if role = 0 then 1 else 0)
  wrB (wrB b SYS.MODE.PEER_SYNC false) SYS.MODE.CAL (isOn b SYS.STRAP.CAL_REQ && !b.acc.sealed)

/-- A strap error (R44): host event 0 and a Daybook record. -/
def strapError (b : Blk) : Blk := raise pgSYS 0 (hostRecord 0x0001 true (le 4 (wordOf b SYS.STRAP.ROLE.a).toNat) b)

/-- The fuse bank's check code, and OPEN, at a side's reset (R390, R408). -/
def fuseCheck (field rootOk : Bool) (b : Blk) : Blk :=
  let n := if field then 64 else 0
  let b := wrB (wrB b (sFld n SRM.STAT.ROOT_OK) rootOk) (sFld n SRM.STAT.OPEN) (anchorsOk b n).isEmpty
  if rootOk then b else if field then raise pgFSRM 1 b else raise pgSRM 7 b

/-- Whether a side samples its straps as it leaves reset: after power-on or a low reset land (R41, R47). -/
def samples (x : SideSt) : Bool := decide (x.causes % 4 ≠ 0)

/-- The host's strap lands sampled into SYS.STRAP (R41, R44). -/
def sampleHost (straps : Nat) (b : Blk) : Blk :=
  wrB (setWord b SYS.STRAP.ROLE.a (BitVec.ofNat 32 (straps % 2 ^ 16 / 4 * 4))) SYS.STRAP.STRAP_ERR (strapBad straps)

/-- The field's strap lands sampled into FSYS.STRAP (R42, R495). -/
def sampleField (straps : Nat) (b : Blk) : Blk :=
  wrB (setWord b FSYS.STRAP.ROLE.a (BitVec.ofNat 32 (straps % 2 ^ 16 / 4 * 4 &&& 0xF0FC))) FSYS.STRAP.STRAP_ERR
    (strapBad straps)

/-- A side leaves reset; what its fuse bank's check said is kept. -/
def leaveReset (field rootOk : Bool) (b : Blk) : Blk :=
  setSide field { sideOf b field with held := false, holds := 0, rootOk := rootOk } b

/-- The host leaves reset (R27, R41 to R44, R396, R401, R421) with its straps in SYS.STRAP; where they were sampled at this
reset, the modes are formed from them. -/
def hostRelease (rootOk : Bool) (b : Blk) : Blk :=
  let x := b.boot.host
  let b := wr (leaveReset false rootOk b) SYS.RST_CAUSE.CAUSE x.causes
  let b := wr (wrB (wrB (wrB b CLK.CSTAT.PLL_LOCK true) CLK.CSTAT.REF_H true) CLK.CSTAT.AON_EXT true) CLK.CSTAT.ISLANDS 15
  let b := showMode (when (samples x) formMode (wrB b CLK.CSTAT.LANE_REF true))
  let b := forEach (List.range 16) (fun n b =>
    wr (wr b (LANE.LCTL.RATE n) (rd b SYS.STRAP.LANE_RATE)) (LANE.LCTL.ALIGN n) (rd b SYS.STRAP.LANE_ALIGN)) b
  let b := showFail (bootMint .hostSide (srmRestore .hostSide (fuseCheck false rootOk b)))
  let b := daybookPowerUp (actCoilEn b)
  when (isOn b SYS.STRAP.STRAP_ERR) strapError b

/-- The sources of a held side but the loss of its reference cease to hold (R490, R491): whether it may be released. -/
def landReleased (field : Bool) (b : Blk) : Blk × Bool :=
  let x := sideOf b field
  let left := if x.holds.testBit 7 then 128 else 0
  (setSide field { x with holds := left } b, decide (left = 0))

/-- HOST_RESET_RELEASE at the rising edge of nRST: the straps are sampled at the edge (R41). While REFCLK_H is lost the host
stays in reset until it is back (R491). -/
def doHostRelease (straps : Nat) (rootOk : Bool) (peer : Option Bool) (b : Blk) : Blk :=
  if !b.boot.host.held then b
  else
    let b := when (samples b.boot.host) (sampleHost straps) { b with red := { b.red with peerSealed := peer } }
    let r := landReleased false b
    if r.2 then hostRelease rootOk r.1 else setSide false { r.1.boot.host with rootOk := rootOk } r.1

/-- The field leaves reset (R42, R47, R495, R500 steps 1 to 3) with its straps in FSYS.STRAP. -/
def fieldRelease (rootOk : Bool) (b : Blk) : Blk :=
  let x := b.boot.field
  let b := wr (leaveReset true rootOk b) FSYS.RST_CAUSE.CAUSE x.causes
  let b := wrB (wr b FSYS.STRAP.LANE_ALIGN 0) FSYS.BOOT_STAT.HOLD_WAIT true
  let burst := decide (rd b FSYS.STRAP.INRUSH_DEF = 0 ∧ rd b FSYS.STRAP.ROLE ≠ 0) && !isOn b FSYS.STRAP.STRAP_ERR
  let b := forEach (List.range 48) (fun c b => wrB b (LSW.CH.CFG.MODE c) burst) b
  let hz := isOn b FSYS.STRAP.MAINS_HZ
  let b := wrB (if b.acc.sealed then b else wrB b MTR.MCTL.MAINS_HZ hz) MESH.SYNC.MAINS_HZ hz
  let b := if samples x then
      let req := isOn b FSYS.STRAP.CAL_REQ
      let b := { b with acc := { b.acc with cal := req && !b.acc.sealed } }
      if req && b.acc.sealed then raise pgFSYS 1 (fieldRecord 0x0003 [] b) else b
    else b
  let b := bootMint .fieldSide (srmRestore .fieldSide (fuseCheck true rootOk (calPowerUp (actCoilEn b))))
  if paired b then driveLands b else b

/-- FIELD_RESET_RELEASE at the release of field reset: nRST_F high. While REFCLK_F is lost the side stays in reset (R491). -/
def doFieldRelease (straps : Nat) (rootOk : Bool) (b : Blk) : Blk :=
  if !b.boot.field.held then b
  else
    let r := landReleased true (when (samples b.boot.field) (sampleField straps) b)
    if r.2 then fieldRelease rootOk r.1 else setSide true { r.1.boot.field with rootOk := rootOk } r.1

/-- A reset that lasts no longer than its cause: the side leaves it with the straps it had. On a side held in reset it adds
its cause (R492). -/
def pulseReset (field : Bool) (cause : Nat) (b : Blk) : Blk :=
  let x := sideOf b field
  if x.held then setSide field { x with causes := addCause x.causes cause } b
  else
    let b := sideReset field cause false b
    if field then fieldRelease x.rootOk b else hostRelease x.rootOk b

/-- A write of SWRST (R491). -/
def actSwrst (field : Bool) (v : Nat) (b : Blk) : Blk := if v = 0x5257 then pulseReset field 5 b else b

/-- BROWN_OUT (R490): the side stays in reset until power-on reset releases it. -/
def doBrownOut (field : Bool) (b : Blk) : Blk := if warned b field then sideReset field 2 true b else b

/-- PF_RECOVERY_RESET (R490). -/
def doPfRecovery (field : Bool) (b : Blk) : Blk :=
  if seqDone b field && (sideOf b field).vinBack then pulseReset field 3 b else b

/-- VIN of a side, in 0.1 V, is in its range (R484). -/
def vinOk (field : Bool) (vin : Nat) : Bool := if field then decide (180 ≤ vin ∧ vin ≤ 320) else decide (108 ≤ vin ∧ vin ≤ 132)

/-- VIN_RESTORED (R490, R505): VIN in 0.1 V; out of its range it has not returned. -/
def doVinRestored (field : Bool) (vin : Nat) (b : Blk) : Blk :=
  let b := wr b (pmu field PMU.VMEAS.VIN) vin
  if !warned b field then b
  else
    let b := setSide field { sideOf b field with vinBack := vinOk field vin } b
    if field || !vinOk field vin then b else raise pgPMU 3 b

/-! Watchdogs (R493). -/

/-- A write of WDT_KICK. -/
def actKick (field : Bool) (v : Nat) (b : Blk) : Blk :=
  let x := sideOf b field
  if v = 0xA5C3 then setSide field { x with wdtDue := false } b
  else setSide field { x with badKicks := x.badKicks + 1 } b

/-- WATCHDOG_HALF: half the timeout has passed without a kick. -/
def doWdtHalf (field : Bool) (b : Blk) : Blk :=
  if !field && isOn b SYS.WDT.RUN then raise pgSYS 2 b else b

/-- WATCHDOG_TIMEOUT: the side resets; during a power-fail sequence, after it. -/
def doWdtTimeout (field : Bool) (b : Blk) : Blk :=
  if !isOn b (sys field SYS.WDT.RUN) then b
  else if warned b field && !seqDone b field then setSide field { sideOf b field with wdtDue := true } b
  else pulseReset field 4 b

/-- A timeout deferred takes effect once the sequence has completed; SEQ_US shows how long it took (R493, R505). -/
def afterSequence (field : Bool) (was : Bool) (b : Blk) : Blk :=
  if was || !seqDone b field then b
  else
    let us := (b.time.clk - (sideOf b field).warnAt) / 1000
    let b := wrU b (pmu field PMU.PFSTAT.SEQ_US) us
    if (sideOf b field).wdtDue then pulseReset field 4 b else b

/-! Power-fail warnings (R488, R489). -/

/-- FIELD_PF_WARNING: PFAIL low for its filter time, or VIN_F in 0.1 V below PF_TH for 20 µs. -/
def doFieldWarning (pfail : Bool) (vin : Nat) (b : Blk) : Blk :=
  if warned b true ∨ (!pfail ∧ rd b FPMU.PFCTL.PF_TH ≤ vin) then b
  else
    let b := wrB (wrB b FPMU.PFSTAT.WARN true) FPMU.PFSTAT.REDUCED true
    let b := wr (wrB (wrB b FPMU.PFSTAT.PFAIL pfail) FPMU.PFSTAT.BY_VIN (!pfail)) FPMU.VMEAS.VIN vin
    let b := setSide true { b.boot.field with warnAt := b.time.clk } b
    let b := raiseHw pgFPMU 0 b
    let b := if isOn b (hFWD pgFPMU) ∧ rdBit b (hEVEN pgFPMU) 0 then b else emit b (.evtFwd 122 (fwdRaw b ||| 2 ^ 30))
    let b := { b with house := { b.house with tw := some (billNow b) } }
    let b := forEach (List.range 3) (fun g b => if enabled b pgTRUNK then xferAbort g 5 b else b) b
    let b := forEach (List.range 4) (fun n b => vpHold n b) b
    let b := forEach (List.range 16) (fun n b => srmAbandon (64 + n) 10 b) (meshPowerFail b)
    if isOn b RED.PSTAT.PEER_HB then failAssert 6 b else b

/-- HOST_PF_WARNING: VIN_H in 0.1 V below PF_TH for 20 µs, or an EVT_FWD that carries field event 122. -/
def doHostWarning (fwd : Bool) (vin : Nat) (b : Blk) : Blk :=
  if warned b false ∨ (!fwd ∧ rd b PMU.PFCTL.PF_TH ≤ vin) then b
  else
    let b := wrB (wrB b PMU.PFSTAT.WARN true) PMU.PFSTAT.REDUCED true
    let b := if fwd then wrB b PMU.PFSTAT.BY_FWD true else wr (wrB b PMU.PFSTAT.BY_VIN true) PMU.VMEAS.VIN vin
    let b := setSide false { b.boot.host with warnAt := b.time.clk } b
    let b := raise pgPMU 0 { b with boot := { b.boot with coreStep := 3 }, memory := { b.memory with noFetch := true } }
    daybookSeal (forEach (List.range 64) (fun n b => srmAbandon n 10 b) b)

/-! Clocks (R14, R491, R506). -/

/-- CLOCK_LOST: on the host a clock by its CSTAT bit number; on the field 0 CTRL, 1 PWM, 2 MET, 3 PLC, 4 HK. -/
def doClockLost (field : Bool) (k : Nat) (b : Blk) : Blk :=
  if field then
    let x := b.boot.field
    let b := raise pgFSYS 0 (setSide true { x with lost := x.lost ||| 2 ^ k } b)
    let b := if k < 2 then forEach (List.range 3) (fun g b => gateRemove g 1 b) b else b
    failAssert 3 b
  else if k = 7 then raise pgCLK 4 (wrB b CLK.CSTAT.PLL_LOCK false)
  else if k = 6 then
    let b := raise pgCLK 3 (wrB b CLK.CSTAT.LANE_REF false)
    forEach (List.range 16) (fun n b => doLaneLoss n b) b
  else if k = 4 ∨ k = 5 ∨ (8 ≤ k ∧ k < 16) then b
  else
    let x := b.boot.host
    let b := setSide false { x with lost := x.lost ||| 2 ^ k } b
    let b := setWord b CLK.CSTAT.ISLANDS.a (wordOf b CLK.CSTAT.ISLANDS.a &&& ~~~ BitVec.ofNat 32 (2 ^ k))
    raise pgCLK 0 (wr (incSat b CLK.LOSS.COUNT) CLK.LOSS.LAST k)

/-- CLOCK_RESTORED: a lost clock that did not reset its side. The gates return once neither CTRL nor PWM is lost (R14). -/
def doClockRestored (field : Bool) (k : Nat) (b : Blk) : Blk :=
  if field then
    let x := b.boot.field
    let b := setSide true { x with lost := Num.setBit x.lost k false } b
    if k < 2 ∧ b.boot.field.lost % 4 = 0 then forEach (List.range 3) (fun g b => gateRestore g 1 b) b else b
  else if k = 7 then wrB b CLK.CSTAT.PLL_LOCK true
  else if k = 6 then raise pgCLK 3 (wrB b CLK.CSTAT.LANE_REF true)
  else if k = 4 ∨ k = 5 ∨ (8 ≤ k ∧ k < 16) ∨ !b.boot.host.lost.testBit k then b
  else
    let x := b.boot.host
    let b := setSide false { x with lost := Num.setBit x.lost k false } b
    raise pgCLK 1 (setWord b CLK.CSTAT.ISLANDS.a (wordOf b CLK.CSTAT.ISLANDS.a ||| BitVec.ofNat 32 (2 ^ k)))

/-- CLOCK_LOSS_RESET (R491): CORE or FAB on the host, CTRL or PWM on the field, 10 µs after the loss is declared. -/
def doClockReset (field : Bool) (b : Blk) : Blk :=
  if (sideOf b field).lost % 4 ≠ 0 then pulseReset field 6 b else b

/-- REFCLK_LOSS (R491): the side is held in reset; AON_H goes on with its own oscillator. -/
def doRefLoss (field : Bool) (b : Blk) : Blk :=
  let b := sideReset field 7 true b
  if field then b
  else raise pgCLK 2 (wrB (wrB b CLK.CSTAT.REF_H false) CLK.CSTAT.AON_EXT false)

/-- REFCLK_RESTORED: present for 1 ms, the side is released, unless another source still holds it (R491). -/
def doRefRestored (field : Bool) (b : Blk) : Blk :=
  let x := sideOf b field
  if !x.held || !x.holds.testBit 7 then b
  else
    let b := setSide field { x with holds := x.holds - 128 } b
    if x.holds ≠ 128 then b
    else if field then fieldRelease x.rootOk b
    else raise pgCLK 2 (hostRelease x.rootOk b)

/-- CORE_CLOCK_DONE: the written step is in effect. -/
def doCoreDone (b : Blk) : Blk :=
  if isOn b PMU.PFSTAT.REDUCED ∨ rd b CLK.CORE_CFG.STEP = b.boot.coreStep then b
  else raise pgCLK 5 { b with boot := { b.boot with coreStep := rd b CLK.CORE_CFG.STEP } }

/-! Images (R407, R496 to R498). -/

/-- An image's header fields that matter to booting, and its body. -/
structure Image where
  svn : Nat
  gen : Nat
  load : Nat
  anchor : Nat
  hash : List Byte
  body : List Byte
deriving DecidableEq, Repr

/-- An image checked under R498: `kind` 0 host, 1 control, 2 metrology; `n` 0 host side, 64 field side; `room` the bytes
after the header. None where it is no candidate. -/
def candidate (b : Blk) (n kind room : Nat) (bytes : List Byte) : Option Image :=
  let h := bytes.take 256
  let f := fun o k => ofLE ((h.drop o).take k)
  let len := f 12 4
  let load := f 16 4
  let body := (bytes.drop 256).take len
  let pub := (h.drop 24).take 64
  let hash := (h.drop 88).take 32
  let good := (anchorsOk b n).find? fun i =>
    Tab.at' (fun _ => ([] : List Byte)) b.srm.anchors (i + if n = 0 then 0 else 4) == sha256 pub
  let wellFormed := decide (h.length = 256 ∧ f 0 4 = 0x4B4C3836 ∧ f 4 1 = kind ∧ f 5 1 ≤ 64 ∧ f 6 2 = 0 ∧ len ≤ room) &&
    (h.drop 184).all (· == 0) && decide (body.length = len)
  let checked := isOn b (sFld n SRM.STAT.OPEN) ||
    (good.isSome && ecdsaVerify pub (sha256 (h.take 120)) ((h.drop 120).take 64) &&
      decide (rd b (sFld n SRM.STAT.FLOOR) ≤ f 5 1))
  let inside := fun lo hi => decide (lo ≤ load ∧ load + len ≤ hi)
  let range := match kind with
    | 0 => inside 0x10000000 0x10400000 || inside 0x80000000 0xE0000000
    | 1 => inside 0 0x40000 || inside 0x40000000 0x40200000
    | _ => inside 0 0x40000
  if wellFormed && checked && sha256 body == hash && range then
    some { svn := f 5 1, gen := f 8 4, load := load, anchor := good.getD 0, hash := hash, body := body }
  else none

/-- The image in a slot: its memory key and size. Without the magic number of R497 it is no candidate, whatever follows. -/
@[irreducible] def slotImage (b : Blk) (n kind key size : Nat) : Option Image :=
  if ofLE (memBytes b key 4) = 0x4B4C3836 then candidate b n kind (size - 256) (memBytes b key size) else none

/-- A slot that holds no candidate raises the boot event of its side (R414, R498). -/
def slotSkipped (n : Nat) (x : Option Image) (b : Blk) : Blk := if x.isNone then sRaise n 6 b else b

/-- The candidate with the highest generation, slot A before slot B; with the slot's number. -/
def bestSlot (a c : Option Image) (ok : Image → Bool) : Option (Image × Nat) :=
  match a.filter ok, c.filter ok with
  | some x, some y => if x.gen < y.gen then some (y, 1) else some (x, 0)
  | some x, none => some (x, 0)
  | none, some y => some (y, 1)
  | none, none => none

/-- An image is loaded by an initiator of its side and runs. -/
def loadImage (n : Nat) (i : Init) (x : Image) (b : Blk) : Blk :=
  let b := wr (wr b (sFld n SRM.STAT.BOOT_ANCH) x.anchor) (sFld n SRM.BOOT_SVN.SVN) x.svn
  writeMem (memKey i x.load) x.body b

/-! Host boot (R499). -/

/-- The host enters an image. -/
def enterHost (x : Image) (b : Blk) : Blk :=
  let b := wr (loadImage 0 .host x b) SYS.BOOT_STAT.GEN x.gen
  wrB (setSide false { b.boot.host with run := true } (wr b SYS.BOOT_STAT.RESULT 0)) SYS.WDT.RUN true

/-- The first source, or slot A of the flash, failed and another is used (R504). -/
def fallback (b : Blk) : Blk := raise pgSYS 1 (wrB b SYS.BOOT_STAT.FALLBACK true)

/-- Boot from flash; whether it ran. -/
def bootFlash (b : Blk) : Blk × Bool :=
  let a := slotImage b 0 0 0x40000000 0x1000000
  let c := slotImage b 0 0 0x41000000 0x1000000
  let b := slotSkipped 0 c (slotSkipped 0 a b)
  match bestSlot a c (fun _ => true) with
  | none => (b, false)
  | some (x, s) =>
    let img := memBytes b (0x40000000 + s * 0x1000000) (256 + x.body.length)
    let b := wrB (enterHost x b) SYS.BOOT_STAT.SLOT_B (decide (s = 1))
    let b := { b with boot := { b.boot with image := img } }
    (when a.isNone fallback b, true)

/-- Boot from the image a lane's peer sent. -/
def bootLane (img : Option (Nat × List Byte)) (b : Blk) : Blk × Bool :=
  match img with
  | none => (b, false)
  | some (n, bytes) =>
    match candidate b 0 0 (bytes.length - 256) bytes with
    | none => (sRaise 0 6 b, false)
    | some x =>
      let b := wr (wrB (enterHost x b) SYS.BOOT_STAT.LANE true) SYS.BOOT_STAT.LANE_NUM n
      ({ b with boot := { b.boot with image := bytes } }, true)

/-- HOST_BOOT: the sources in the order of BOOT; `img` what an aligned peer answered, with its lane. -/
def doHostBoot (img : Option (Nat × List Byte)) (b : Blk) : Blk :=
  if b.boot.host.held || b.boot.host.run || !isOn b PMU.HOLD.HOLD_RDY || warned b false then b
  else
    let r := match rd b SYS.STRAP.BOOT with
      | 0 => bootFlash b
      | 1 => if (bootFlash b).2 then bootFlash b else bootLane img (fallback (bootFlash b).1)
      | 2 => bootLane img b
      | _ => if (bootLane img b).2 then bootLane img b else bootFlash (fallback (bootLane img b).1)
    if r.2 then r.1
    else wr r.1 SYS.BOOT_STAT.RESULT (if rd b SYS.STRAP.BOOT ≠ 0 ∧ img.isNone then 2 else 1)

/-- LANE_BOOT_TIMEOUT: a lane's 2 s have passed without an image, or all of the 30 s; flash follows where BOOT says so. -/
def doLaneBootTimeout (n : Nat) (all : Bool) (b : Blk) : Blk :=
  if b.boot.host.held || b.boot.host.run || rd b SYS.STRAP.BOOT == 0 then b
  else
    let b := { b with boot := { b.boot with asked := b.boot.asked ||| 2 ^ n } }
    if !all then b
    else if rd b SYS.STRAP.BOOT = 3 then
      let r := bootFlash (fallback b)
      if r.2 then r.1 else wr r.1 SYS.BOOT_STAT.RESULT 2
    else wr b SYS.BOOT_STAT.RESULT 2

/-- IMAGE_REQUEST: a peer asks on a lane for the image this host booted from. -/
def doImageRequest (n : Nat) (b : Blk) : Blk :=
  if isOn b SYS.BOOT_CTL.SERVE && b.boot.host.run && !b.red.coresHeld then raise pgSYS 3 (emit b (.bootImage n b.boot.image)) else b

/-! Field boot (R500, R501). -/

/-- Steps 5 and 6: the seal check and the metrology image; the Counting House restores its state. -/
def startMetrology (b : Blk) : Blk :=
  let a := slotImage b 64 2 (2 ^ 32 + 0x50400000) 0x100000
  let c := slotImage b 64 2 (2 ^ 32 + 0x50500000) 0x100000
  let b := slotSkipped 64 c (slotSkipped 64 a b)
  let ok := fun (x : Image) => !b.acc.sealed || x.hash == b.boot.metHash
  match bestSlot a c ok with
  | none => wrB b FSYS.BOOT_STAT.MET_FAIL b.acc.sealed
  | some (x, s) =>
    let b := writeMem (memKey .met x.load) x.body b
    let b := wrB (wrB b FSYS.BOOT_STAT.MET_OK true) FSYS.BOOT_STAT.MET_B (decide (s = 1))
    let b := { b with boot := { b.boot with metRun := x.hash, metSlot := s } }
    if enabled b pgCH then housePowerUp b else b

/-- FIELD_IMAGE_START: steps 4 to 7. -/
def doFieldStart (b : Blk) : Blk :=
  if b.boot.field.held || b.boot.field.run || !isOn b FPMU.HOLD.HOLD_RDY || warned b true then b
  else
    let b := wrB b FSYS.BOOT_STAT.HOLD_WAIT false
    let a := slotImage b 64 1 (2 ^ 32 + 0x50000000) 0x200000
    let c := slotImage b 64 1 (2 ^ 32 + 0x50200000) 0x200000
    let b := slotSkipped 64 c (slotSkipped 64 a b)
    match bestSlot a c (fun _ => true) with
    | none => b
    | some (x, s) =>
      let b := loadImage 64 .ctrl x b
      let b := startMetrology { b with boot := { b.boot with ctrlSlot := s } }
      let b := wrB (wrB b FSYS.BOOT_STAT.CTRL_OK true) FSYS.BOOT_STAT.CTRL_B (decide (s = 1))
      coilRecover (wrB (setSide true { b.boot.field with run := true } b) FSYS.WDT.RUN true)

/-! The field flash (R502). -/

/-- Whether a flash offset lies in the slot that runs, or in a metrology slot of a sealed module. -/
def flashGuarded (b : Blk) (a : Nat) : Bool :=
  (b.boot.ctrlSlot == a / 0x200000 && decide (a < 0x400000)) ||
    (decide (0x400000 ≤ a ∧ a < 0x600000) && (b.acc.sealed || decide (b.boot.metSlot = (a - 0x400000) / 0x100000)))

/-- FL_CTL: GO programs FL_BUF at FL_ADDR or erases the 4 KiB sector; REJ where refused. Only the control core's GO acts. -/
def actFlash (i : Init) (v : Nat) (b : Blk) : Blk :=
  if !v.testBit 31 then b
  else
    let a := rd b FSYS.FL_ADDR.ADDR
    if i ≠ .ctrl ∨ isOn b FSYS.FL_CTL.BUSY ∨ flashGuarded b a ∨ a % 256 ≠ 0 then wrB b FSYS.FL_CTL.REJ true
    else
      let b := wrB (wrB b FSYS.FL_CTL.BUSY true) FSYS.FL_CTL.REJ false
      { b with boot := { b.boot with flash := some { erase := v.testBit 30, addr := a } } }

/-- FLASH_OP_DONE. -/
def doFlashDone (b : Blk) : Blk :=
  match b.boot.flash with
  | none => b
  | some o =>
    let k := 2 ^ 32 + 0x50000000 + if o.erase then o.addr / 4096 * 4096 else o.addr
    let data := if o.erase then List.replicate 4096 0xFF
      else (List.range 64).flatMap fun j => le 4 (rd b (FSYS.FL_BUF.DATA j))
    wrB { writeMem k data b with boot := { b.boot with flash := none } } FSYS.FL_CTL.BUSY false

/-! The meanings. -/

/-- EVT_FWD at the host; one that carries field event 122 brings the power-fail warning with it (R472, R488). -/
def execEvtFwd (ev : Fin 128) (raw : Word) (s : State) : Out :=
  run (fun b => when (decide (ev = 122)) (doHostWarning true 0) (doEvtFwd ev.val raw.toNat b)) s

def execHoldReady (field : Bool) (us : Word) (s : State) : Out := run (doHoldReady field us.toNat) s

def execHoldTimeout (field : Bool) (s : State) : Out := run (doHoldTimeout field) s

def execPowerOnReset (field : Bool) (s : State) : Out := run (doPowerOn field) s

def execResetLand (field : Bool) (s : State) : Out := run (sideReset field 1 true) s

def execHostResetRelease (straps : Word) (rootOk : Bool) (peer : Option Bool) (s : State) : Out :=
  run (doHostRelease straps.toNat rootOk peer) s

def execFieldResetRelease (straps : Word) (rootOk : Bool) (s : State) : Out := run (doFieldRelease straps.toNat rootOk) s

def execSoftwareReset (i : Init) (v : Word) (s : State) : Out :=
  let f := i.side == .fieldSide
  run (writeAct i false (sys f SYS.SWRST.KEY).a v (actSwrst f)) s

def execBrownOut (field : Bool) (s : State) : Out := run (doBrownOut field) s

def execPfRecoveryReset (field : Bool) (s : State) : Out := run (doPfRecovery field) s

def execVinRestored (field : Bool) (vin : BitVec 16) (s : State) : Out := run (doVinRestored field vin.toNat) s

def execWatchdogKick (i : Init) (v : Word) (s : State) : Out :=
  let f := i.side == .fieldSide
  run (writeAct i false (sys f SYS.WDT_KICK.KICK).a v (actKick f)) s

def execWatchdogHalf (field : Bool) (s : State) : Out := run (doWdtHalf field) s

def execWatchdogTimeout (field : Bool) (s : State) : Out := run (doWdtTimeout field) s

def execFieldPfWarning (pfail : Bool) (vin : BitVec 16) (s : State) : Out := run (doFieldWarning pfail vin.toNat) s

def execHostPfWarning (fwd : Bool) (vin : BitVec 16) (s : State) : Out := run (doHostWarning fwd vin.toNat) s

def execDaybookCommit (s : State) : Out :=
  run (fun b => afterSequence false (seqDone b false) (doDaybookCommit b)) s

def execPfRecord (s : State) : Out := run (fun b => afterSequence true (seqDone b true) (gated pgCH doPfRecord b)) s

def execClockLost (field : Bool) (k : Fin 32) (s : State) : Out := run (doClockLost field k.val) s

def execClockRestored (field : Bool) (k : Fin 32) (s : State) : Out := run (doClockRestored field k.val) s

def execClockLossReset (field : Bool) (s : State) : Out := run (doClockReset field) s

def execRefclkLoss (field : Bool) (s : State) : Out := run (doRefLoss field) s

def execRefclkRestored (field : Bool) (s : State) : Out := run (doRefRestored field) s

def execCoreClockChange (i : Init) (v : Word) (s : State) : Out :=
  run (writeAct i false CLK.CORE_CFG.STEP.a v (fun _ b => b)) s

def execCoreClockDone (s : State) : Out := run doCoreDone s

def execHostBoot (img : Option (Fin 16 × List Byte)) (s : State) : Out :=
  run (doHostBoot (img.map fun x => (x.1.val, x.2))) s

def execLaneBootTimeout (n : Fin 16) (all : Bool) (s : State) : Out := run (doLaneBootTimeout n.val all) s

def execImageRequest (n : Fin 16) (s : State) : Out := run (doImageRequest n.val) s

def execFieldImageStart (s : State) : Out := run doFieldStart s

def execFlashProgram (i : Init) (v : Word) (s : State) : Out :=
  run (writeAct i false FSYS.FL_CTL.GO.a v (actFlash i)) s

def execFlashErase (i : Init) (v : Word) (s : State) : Out :=
  run (writeAct i false FSYS.FL_CTL.ERASE.a v (actFlash i)) s

def execFlashOpDone (s : State) : Out := run doFlashDone s

end Sys2Proof.Machine
end

