-- ==== Sys2Proof/Machine/Views.lean ====
section
/-!
DEFINITION. What a register shows where it shows something other than its stored word: header status (R25, R33, R34), time
(R200, R215, R217), the order book's window (R90), and the other displays that follow from the state. Frozen pages (R30),
soft resets (R29) and unpaired RED (R351) are applied here too.
-/

namespace Sys2Proof.Machine

open Sys2Proof.Num Sys2Proof.Machine.Crypto

/-- A number as a register word. -/
def word (n : Nat) : Word := BitVec.ofNat 32 n

/-- A mask of the numbers below n that pass. -/
def maskOf (n : Nat) (p : Nat → Bool) : Nat := sumN (((List.range n).filter p).map fun k => 2 ^ k)

/-- PAGE_STAT (R30, R33, R34). -/
def viewStat (b : Blk) (pg : Nat) : Word :=
  let l := lockOf b pg
  let open' := l.win.isSome && decide (0 < l.remain)
  word ((if open' then l.remain * 2 ^ 16 else 0) + rd b (hREJCNT pg) * 2 ^ 8 + rd b (hWRREJ pg) * 2 ^ 7 +
    b2n (sealable pg && b.acc.sealed) * 2 ^ 4 + b2n open' * 2 ^ 3 + rd b (hFRZ pg) * 2 ^ 2 + rd b (hBUSY pg) * 2 +
    rd b (hEN pg))

/-- PAGE_SEAL (R34). -/
def viewSeal (b : Blk) (pg : Nat) : Word :=
  if sealable pg then word (b.acc.sealGen % 2 ^ 16 * 2 ^ 16 + 2 + b2n b.acc.sealed) else 0

/-- A capture unit's registers (R215). -/
def viewCap (b : Blk) (field : Bool) (c sub : Nat) : Word :=
  let e := (Tab.at' (fun _ => []) b.time.caps (capNo field c)).head?
  match sub with
  | 4 => word ((e.map (·.ta)).getD 0)
  | 8 => word ((e.map (·.tb)).getD 0)
  | _ => word (cinfo b field c)

/-- The next tariff switch after `t`, up to `lim`, looking on at most `n` boundaries; 0 if none (R235, R256). -/
def nextSwitch (b : Blk) (lim now : Nat) : Nat → Nat → Nat
  | 0, _ => 0
  | n + 1, t =>
    let act := rd64 b TRF.ACT_AT.B
    let t' := (leastAbove t ([nextLocal b (zoneAt b t) t 60000000000, act] ++ zoneStarts b)).getD (lim + 1)
    if lim < t' then 0
    else
      let c := if act ≠ 0 ∧ act ≤ t' then
          wr (bankSwap b) TRF.TCTL.DEF_TRF b.house.pendDef
        else b
      if (tariffAt c (zoneAt c t') t').2.2 = now then nextSwitch b lim now n t' else t'

/-- CH's page: billing time and the high-water mark as they stand now, and what legal time comes from (R227). -/
def viewCH (b : Blk) (o : Nat) (w : Word) : Word :=
  if o = 0x74 then (⟨0, 30, 1⟩ : Fld).ins w (b2n (decide ((legalL b).2 < 2)))
  else if !isOn b CH.CSTAT.TIMED then w
  else if o = 0x54 ∨ o = 0x5C then word (billNow b)
  else if o = 0x58 ∨ o = 0x60 then word (billNow b / 2 ^ 32)
  else w

/-- TIME's page. -/
def viewTIME (b : Blk) (o : Nat) (w : Word) : Word :=
  if o = 0x44 then word (ofInt 32 (satS 32 ((eHost b 0 : Int) - eHost b 1)))
  else if 0x100 ≤ o ∧ o < 0x180 ∧ o % 16 ≠ 0 then viewCap b false ((o - 0x100) / 16) (o % 16)
  else if o = 0x400 ∨ o = 0x440 then word (eHost b ((o - 0x400) / 0x40))
  else if o = 0x404 ∨ o = 0x444 then word (eHost b ((o - 0x400) / 0x40) / 2 ^ 32)
  else w

/-- FTIME's page. -/
def viewFTIME (b : Blk) (o : Nat) (w : Word) : Word :=
  if o = 0x48 ∨ o = 0x50 then word (eField b ((o - 0x48) / 8))
  else if o = 0x4C ∨ o = 0x54 then word (eField b ((o - 0x48) / 8) / 2 ^ 32)
  else if o = 0x5C then word (b.time.rtc / 10 ^ 9)
  else if o = 0x60 then word (b.time.rtc % 10 ^ 9 * 32768 / 10 ^ 9)
  else if 0x80 ≤ o ∧ o < 0xC0 ∧ o % 16 ≠ 0 then viewCap b true ((o - 0x80) / 16) (o % 16)
  else w

/-- The event registers of EVC and FEVC: in service, pending, effective priority (R469, R470). -/
def viewEV (b : Blk) (field : Bool) (n : Nat) (w : Word) : Word :=
  let w := (⟨0, 9, 1⟩ : Fld).ins w (b2n (inService b field n))
  let w := (⟨0, 8, 1⟩ : Fld).ins w (b2n (pendingEv b field n))
  (⟨0, 0, 4⟩ : Fld).ins w (effPrio b field n)

/-- A port's grant in force in kW and 0.1 A (R73): this stack's as its plan has it; on the manager, another's as the last
level one gave it. -/
def portGrant (b : Blk) (p : Nat) : Nat × Nat :=
  if ownStack b p then
    let e := b.factor.plan.trunks.getD (p % 16) {}
    (e.kw, e.amps)
  else Tab.at' (fun _ => (0, 0)) b.factor.inForce p

/-- PORT_INFO (R57, R77, R79, R83, R90): this stack's ports by the plan in force; on the manager, another's by the last level
one and its stack's bid. -/
def portInfo (b : Blk) (p : Nat) : Nat × Nat :=
  if ownStack b p then
    let e := b.factor.plan.trunks.getD (p % 16) {}
    (e.reason, e.realised)
  else (Tab.at' (fun _ => 0) b.factor.reasons p, (bidOf b (p / 16)).realised.getD (p % 16) 0)

/-- BOOK's window (R90): a device that is not the manager shows its own ports only. A slot never used shows nothing. -/
def viewBOOK (b : Blk) (o : Nat) (w : Word) : Word :=
  let p := rd b BOOK.WIN.PORT
  let ok := isManager b || ownPort b p
  if o = 0x44 then
    let g := portGrant b p
    if ok then word (g.2 * 2 ^ 16 + g.1 % 2 ^ 16) else 0
  else if o = 0x48 then if ok then word (iEff b p % 2 ^ 16 * 2 ^ 16 + vEff b p % 2 ^ 16) else 0
  else if o = 0x4C then
    let x := portInfo b p
    let cls := match drawOf b p with
      | none => 0
      | some d => d.cls % 8
    if ok then word (x.1 % 16 * 2 ^ 28 + cls * 2 ^ 16 + x.2 % 2 ^ 16) else 0
  else if o = 0x50 then
    (⟨0, 0, 13⟩ : Fld).ins w (b.factor.book.filter fun e => orderLive e.2).length
  else if 0x400 ≤ o ∧ o < 0x600 then
    let j := (o - 0x400) / 0x20
    let x := orderOf b (16 * p + j)
    let r := x.req
    if !ok || x.state == 0 then 0
    else match o % 0x20 with
      | 0x00 => word (p * 2 ^ 24 + j * 2 ^ 20 + r.kind % 16 * 2 ^ 16 + r.cls % 8 * 2 ^ 13 + x.flt % 16 * 16 + x.state % 16)
      | 0x04 => word (r.iReq * 2 ^ 16 + r.vTgt % 2 ^ 16)
      | 0x08 => word (r.iMin * 2 ^ 16 + r.weight % 256 * 256 + r.src % 16 * 16)
      | 0x0C => word x.seq
      | 0x10 => word r.expire
      | 0x14 => word x.clrIn
      | 0x18 => if r.kind = 1 then word (x.grantI * 2 ^ 16 + x.grantKw % 2 ^ 16) else 0
      | _ => word x.closed
  else w

/-- FCTR.GRP_STAT: the local groups as they are, the others as reported (R64). -/
def viewGRP (b : Blk) (k : Nat) (w : Word) : Word :=
  if k / 3 = myPos b then (⟨0, 31, 1⟩ : Fld).ins w (b2n (grpAvail b (k % 3) && !b.bar.fieldLost))
  else if hasRep b (k / 3) then
    let g := grpRep b k
    word (b2n g.avail * 2 ^ 31 + b2n g.xfer * 2 ^ 30 + b2n g.blocked * 2 ^ 29 + g.derate % 512 * 2 ^ 16 + g.trunk % 32 * 256)
  else w

/-- MOD's page. -/
def viewMOD (b : Blk) (g o : Nat) (w : Word) : Word :=
  if o = 0x80 then
    let on := enabled b (pgMOD g)
    let act := if on then phAct b g else 0
    (⟨0, 31, 1⟩ : Fld).ins ((⟨0, 8, 8⟩ : Fld).ins ((⟨0, 4, 4⟩ : Fld).ins w (popcount 8 act)) act) (b2n (maySwitch b g))
  else if o = 0x84 then (⟨0, 0, 16⟩ : Fld).ins w (applied b g)
  else w

/-- CE's page. The engine's load is a matter of timing: a free value while any slot runs (R167). -/
def viewCE (b : Blk) (o : Nat) (w : Word) : Word :=
  if o = 0x54 then
    word (maskOf 16 (fun i => kindOf b i == 1) * 2 ^ 16 + maskOf 16 fun i => kindOf b i != 0)
  else if o = 0x58 then
    if (List.range 16).any fun i => kindOf b i != 0 then (⟨0, 0, 10⟩ : Fld).ins w (freeVal b % 1001) else w
  else if 0x400 ≤ o ∧ o < 0x800 ∧ (o - 0x400) % 0x40 = 0 ∧ kindOf b ((o - 0x400) / 0x40) = 1 then
    (⟨0, 15, 17⟩ : Fld).ins w (rd b CE.PLOOP.PERIOD_US)
  else w

/-- LUT.LSTAT (R169). -/
def viewLUT (b : Blk) (o : Nat) (w : Word) : Word :=
  if o = 0x64 then
    let live := fun t => Tab.at' (fun _ => ({} : LutLive)) b.ce.lut t
    let uses := fun t => (List.range 16).any fun i => slotUses b i t
    (⟨0, 16, 8⟩ : Fld).ins ((⟨0, 8, 8⟩ : Fld).ins w (maskOf 8 uses))
      (maskOf 8 fun t => decide (live t ≠ { hys := rd b (LUT.TBL.HYS t), pts := shadowPts b t }))
  else w

/-- LSW's masks. -/
def viewLSW (b : Blk) (o : Nat) (w : Word) : Word :=
  let cause := maskOf 48 fun n => decide (rd b (LSW.CH.CAUSE.CAUSE n) ≠ 0)
  let on := maskOf 48 fun n => isOn b (LSW.CH.STAT.OUT_ON n)
  match o with
  | 0x58 => word cause
  | 0x5C => word (cause / 2 ^ 32)
  | 0x60 => word on
  | 0x64 => word (on / 2 ^ 32)
  | _ => w

/-- PUB_DATA (R395): word 0 holds the first bytes of x and y. -/
def viewPub (b : Blk) (n : Nat) : Word :=
  let s := rd b (sFld n SRM.PUB_WIN.SLOT)
  let k := keySlot b (n + s)
  let i := rd b (sFld n SRM.PUB_WIN.WORD)
  if n = 64 ∧ 16 ≤ s then 0
  else if k.use.type = 5 then word (ofLE (slice (pubOf (ofBE k.key)) (4 * i) 4))
  else if k.use.type = 6 then word (ofLE (slice k.key (4 * i) 4))
  else 0

/-- TRF's page. -/
def viewTRF (b : Blk) (o : Nat) (w : Word) : Word :=
  let t := rd64 b CH.BTIME.B
  let next := nextSwitch b (t + 8 * 86400000000000) (rd b TRF.TNOW.TARIFF) 12000 t
  match o with
  | 0x48 => word next
  | 0x4C => word (next / 2 ^ 32)
  | 0x54 => word (pendEntry b (rd b TRF.PEND_IDX.IDX))
  | 0x5C => word (bankCrc (pendEntry b))
  | _ => w

/-- The block registers of a page, live. -/
def viewBlock (b : Blk) (a : Nat) : Word :=
  let pg := a / 0x1000 * 0x1000
  let o := a % 0x1000
  let w := wordOf b a
  if pg = pgTIME then viewTIME b o w
  else if pg = pgFTIME then viewFTIME b o w
  else if pg = pgEVC ∧ 0x400 ≤ o ∧ o < 0x800 then viewEV b false ((o - 0x400) / 4) w
  else if pg = pgFEVC ∧ 0x400 ≤ o ∧ o < 0x600 then viewEV b true ((o - 0x400) / 4) w
  else if pg = pgBOOK then viewBOOK b o w
  else if pg = pgFCTR ∧ 0x100 ≤ o ∧ o < 0x130 then viewGRP b ((o - 0x100) / 4) w
  else if pgMOD 0 ≤ pg ∧ pg ≤ pgMOD 2 then viewMOD b ((pg - pgMOD 0) / 0x1000) o w
  else if pg = pgCE then viewCE b o w
  else if pg = pgLUT then viewLUT b o w
  else if pg = pgLSW then viewLSW b o w
  else if pg = pgSRM ∧ o = 0xB4 then viewPub b 0
  else if pg = pgFSRM ∧ o = 0xB4 then viewPub b 64
  else if pg = pgTRF then viewTRF b o w
  else if pg = pgCH ∧ 0x54 ≤ o ∧ o ≤ 0x74 then viewCH b o w
  else if pgVP 0 ≤ pg ∧ pg ≤ pgVP 3 ∧ o = 0x84 then
    let n := (pg - pgVP 0) / 0x1000
    (⟨0, 0, 8⟩ : Fld).ins w (attenOf b n (rd b (VP.ATTEN.IDX n)))
  else if pgLANE 0 ≤ pg ∧ pg ≤ pgLANE 15 ∧ o = 0x48 then
    let n := (pg - pgLANE 0) / 0x1000
    if isOn b (LANE.RXEQ.ADAPT n) then (LANE.RXEQ.CTLE n).ins w (laneOf b n).ctle else w
  else if a = MESH.TM_DATA.CODES.a then word (meshTmWord b)
  else if a = MESH.RT_DATA.VALID.a then word (meshRtWord b)
  else if a = RED.TICK.TICK.a then word (tickNow b)
  else if a = DBK.DSTAT.MIR_UP.a then
    (⟨0, 29, 1⟩ : Fld).ins w (b2n (mirrorUp b))
  else if a = CLK.CSTAT.LANE_RX.a then
    (⟨0, 16, 16⟩ : Fld).ins w (maskOf 16 fun n => laneUp b n)
  else w

/-- The status and counter bits of a register, which FRZ holds (R30): its read-only fields, and its W1C ones (R480: a limit
breach while MON is frozen shows in LIM_STAT after release). -/
def roMask (a : Nat) : Word :=
  match pageAt (a / 0x1000 * 0x1000) with
  | none => 0
  | some (p, _) => match rowAt p (a % 0x1000) with
    | none => 0
    | some (r, _) => (r.fields.filter fun f => f.acc == .ro || f.acc == .w1c).foldl
        (fun m f => m ||| word ((2 ^ f.w - 1) * 2 ^ f.lo)) 0

/-- The word a register shows (R25, R29, R30): block registers read zero during a soft reset, read-only fields of a frozen
page keep what they showed. -/
def shown (b : Blk) (a : Nat) : Word :=
  let pg := a / 0x1000 * 0x1000
  let o := a % 0x1000
  if o = 0x10 then viewStat b pg
  else if o = 0x34 then viewSeal b pg
  else if o < 0x40 then wordOf b a
  else if isOn b (hBUSY pg) ∨ (pg = pgRED ∧ !paired b) then 0
  else
    let w := viewBlock b a
    match heldWord b a with
    | some x => (w &&& ~~~ roMask a) ||| (x &&& roMask a)
    | none => w

/-- The offsets of a page's block registers. -/
def blockOffsets (p : PageRow) : List Nat :=
  p.rows.flatMap fun r => (List.range r.cnt).flatMap fun i => (List.range r.cnt2).map fun k => r.off + r.st * i + r.st2 * k

/-- What a page's block registers show now. -/
def snapshot (b : Blk) (pg : Nat) : List (Nat × Word) :=
  match pageAt pg with
  | none => []
  | some (p, _) => (blockOffsets p).map fun o => (o, shown b (pg + o))

/-- Whether a register is the low word of a 64-bit pair (R24). -/
def wideLow (a : Nat) : Bool :=
  match pageAt (a / 0x1000 * 0x1000) with
  | none => false
  | some (p, _) => match rowAt p (a % 0x1000) with
    | none => false
    | some (r, _) => r.pair

/-- A core's or the host's read of a register of its map (R21 to R24, R215, R471); a read of CE_INFO or UE_INFO clears its
VALID (R467): a page the maps do not list ends in a bus
error, an offset a page does not list reads zero. -/
def readReg (i : Init) (a : Nat) (b : Blk) : Blk :=
  let pg := a / 0x1000 * 0x1000
  let o := a % 0x1000
  match pageAt pg with
  | none => answer b .busError
  | some (p, _) =>
    if (rowAt p o).isNone then answer (dropShadow i pg b) (.value 0)
    else if isOn b (hBUSY pg) ∧ 0x40 ≤ o then answer (dropShadow i pg b) (.value 0)
    else if (pg = pgEVC ∨ pg = pgFEVC) ∧ 0x100 ≤ o ∧ o < 0x140 ∧ o % 16 = 4 then doClaim i ((o - 0x100) / 16) b
    else if (pg = pgTIME ∧ 0x100 ≤ o ∧ o < 0x180 ∧ o % 16 = 12) ∨ (pg = pgFTIME ∧ 0x80 ≤ o ∧ o < 0xC0 ∧ o % 16 = 12) then
      doCaptureRead i ((o - if pg = pgTIME then 0x100 else 0x80) / 16) b
    else
      let w := match shadowOf b i pg with
        | some x => if x.key = a then x.hi else shown b a
        | Option.none => shown b a
      let b := dropShadow i pg b
      let b := if wideLow a then
          let x : Shadow := { page := pg, key := a + 4, hi := shown b (a + 4) }
          setShadow i pg (some x) b
        else b
      let b := if a = CE.ENG_STAT.LOAD.a then spend b else b
      let b := if a = MEM.CE_INFO.VALID.a then wrB b MEM.CE_INFO.VALID false else b
      let b := if a = MEM.UE_INFO.VALID.a then wrB b MEM.UE_INFO.VALID false else b
      answer b (.value w)

end Sys2Proof.Machine
end

