-- ==== Sys2Proof/Machine/Bar.lean ====
section
/-!
DEFINITION. The isolation barrier (chapter 19): heartbeats and the loss of a side (R18), its channels (R430), the host's
rings (R439) and the messages that reach them.
-/

namespace Sys2Proof.Machine

open Sys2Proof.Num

/-! Heartbeats (R18, R346, R433, R495). -/

/-- A side sends HEARTBEAT; a side held in reset sends none. -/
def doHeartbeatSend (field : Bool) (b : Blk) : Blk :=
  if (sideOf b field).held then b
  else if field then
    let b := { b with bar := { b.bar with cntF := (b.bar.cntF + 1) % 2 ^ 32 } }
    emit b (.heartbeat .fieldSide b.bar.cntF true (rd b FTIME.FCTL.FDOM))
  else
    let b := { b with bar := { b.bar with cntH := (b.bar.cntH + 1) % 2 ^ 32 } }
    emit b (.heartbeat .hostSide b.bar.cntH (!b.bar.fieldLost) 0)

/-- The fields both strap copies hold: ROLE, POS, PAIR, CAL_REQ, MAINS_HZ, INRUSH_DEF. -/
def commonStraps (w : Word) : Word := w &&& 0x70FC

/-- The host has regained the field side: it reads FSYS.STRAP into SYS.FSTRAP (R495). A difference found now is a strap error
as at reset: the modes follow, the lanes go down (R44), and coils energised open at zero current (`mustOpen`). -/
def readFieldStraps (b : Blk) : Blk :=
  let w := wordOf b FSYS.STRAP.ROLE.a
  let bad := decide (commonStraps w ≠ commonStraps (wordOf b SYS.STRAP.ROLE.a))
  let b := wr (wrB (wrB b SYS.FSTRAP.VALID true) SYS.FSTRAP.MISMATCH bad) SYS.FSTRAP.STRAP w.toNat
  if bad ∧ !isOn b SYS.STRAP.STRAP_ERR then
    strapError (showMode (formMode (wrB (forEach (List.range 16) laneStop b) SYS.STRAP.STRAP_ERR true)))
  else b

/-- A drop of a received message (R435): the counter, and the event of the side. -/
def barDrop (field : Bool) (f g : Fld) (k : Nat) (b : Blk) : Blk :=
  if field then raise pgFBAR 1 (incSat b g) else raise pgBAR k (incSat b f)

def dropCrc (field : Bool) (b : Blk) : Blk := barDrop field BAR.DROP_A.CRC FBAR.DROP_A.CRC 4 b
def dropType (field : Bool) (b : Blk) : Blk := barDrop field BAR.DROP_A.TYPE FBAR.DROP_A.TYPE 4 b
def dropGap (field : Bool) (b : Blk) : Blk := barDrop field BAR.DROP_B.GAP FBAR.DROP_B.GAP 6 b
def dropReasm (field : Bool) (b : Blk) : Blk := barDrop field BAR.DROP_B.REASM FBAR.DROP_B.REASM 6 b

/-- A good HEARTBEAT at the host. -/
def hostBeat (fdom : Nat) (b : Blk) : Blk :=
  let was := b.bar.fieldLost
  let b := { b with bar := { b.bar with fieldLost := false }, time := { b.time with hostFdom := fdom } }
  if was then showFail (raise pgBAR 1 (readFieldStraps (wrB b BAR.BSTAT.FIELD_LOST false))) else b

/-- A good HEARTBEAT at the field side. -/
def fieldBeat (healthy : Bool) (b : Blk) : Blk :=
  let was := b.bar.hostLost
  let b := { b with bar := { b.bar with hostLost := false, peerHealthy := healthy } }
  let b := if was then showFail (raise pgFBAR 0 (wrB b FBAR.FSTAT.HOST_LOST false)) else b
  if healthy then b else failAssert 2 b

/-- HEARTBEAT received: whether its CRC holds, whether a reserved bit is set, whether its SEQ shows a gap (R435). -/
def doHeartbeat (field crcOk reserved gap healthy : Bool) (fdom : Nat) (b : Blk) : Blk :=
  if !crcOk then dropCrc field b
  else
    let b := when gap (dropGap field) b
    if reserved then dropType field b
    else if field then fieldBeat healthy b else hostBeat fdom b

/-- Every port current owned or fed by this device ramps to zero (R18): the loops of its own by their law, its groups that
another device's loop commands as those that no command reaches (R20). -/
def rampAll (b : Blk) : Blk :=
  let b := forEach (List.range 3) (fun g b =>
    let x := modOf b g
    match x.last with
    | some c => if c.owner = myPos b ∨ x.timedOut then b else setMod g { x with timedOut := true, rampAcc := 0 } b
    | none => b) b
  forEach (List.range 16) (fun i b =>
    if kindOf b i = 1 ∧ pstate b i ≠ 0 ∧ pstate b i ≠ 5 ∧ !(slotOf b i).ramp then rampDown i b else b) b

/-- OTHER_SIDE_LOST: the side has received no HEARTBEAT for 1 ms. -/
def doSideLost (field : Bool) (b : Blk) : Blk :=
  if field then
    if b.bar.hostLost then b
    else
      let b := wrB { b with bar := { b.bar with hostLost := true } } FBAR.FSTAT.HOST_LOST true
      failAssert 1 (rampAll (fieldRecord 0x0002 [0] (raise pgFBAR 0 b)))
  else if b.bar.fieldLost then b
  else
    let b := wrB { b with bar := { b.bar with fieldLost := true } } BAR.BSTAT.FIELD_LOST true
    let b := hostRecord 0x0002 true [1] (raise pgBAR 0 b)
    if paired b then wr (setSync false (setActive false b)) RED.PSTAT.FAIL_CAUSE 2 else b

/-! Channels (R430). -/

/-- DEGRADED: fewer than four channels up in either direction. -/
def showDegraded (field : Bool) (b : Blk) : Blk :=
  if field then wrB b FBAR.FSTAT.DEGRADED (decide (rd b FBAR.FSTAT.UP ≠ 0xFF))
  else wrB b BAR.BSTAT.DEGRADED (decide (rd b BAR.BSTAT.RX_UP ≠ 15 ∨ rd b BAR.BSTAT.TX_UP ≠ 15))

/-- A channel of a side and direction goes down or comes up. -/
def doChannel (field tx : Bool) (c : Nat) (up : Bool) (b : Blk) : Blk :=
  if field then
    raise pgFBAR 0 (showDegraded true (wrBit b FBAR.FSTAT.UP (if tx then c else 4 + c) up))
  else
    raise pgBAR (if up then 3 else 2) (showDegraded false (wrBit b (if tx then BAR.BSTAT.TX_UP else BAR.BSTAT.RX_UP) c up))

/-! The host's rings (R439, R441). -/

/-- What the endpoint writes back from byte 8 of a descriptor on: length, type, OWN clear and the error bit. -/
def barBack (len type : Nat) (err : Bool) : List Byte := le 2 len ++ le 1 type ++ le 1 (b2n err * 64)

/-- The next index of a ring. -/
def ringNext (size head : Nat) : Nat := (head + 1) % max 1 size

/-- A message finds no free descriptor: counted and reported. -/
def barFull (b : Blk) : Blk := raise pgBAR 9 (incSat b BAR.DROP_B.RX_DROP)

/-- A message for the receive ring: without a free descriptor it is dropped. -/
def barReceive (type : Nat) (l : List Byte) (b : Blk) : Blk :=
  let size := rd b BAR.RX_RING.SIZE
  let a := rd64 b BAR.RX_BASE.IOVA + 16 * rd b BAR.RX_HEAD.HEAD
  if size = 0 then barFull b
  else
    let r := streamRead b 34 a 16
    if r.cause ≠ 0 then raise pgBAR 11 r.blk
    else if r.bad.isSome ∨ !(r.bytes.getD 11 0).toNat.testBit 7 then barFull r.blk
    else
      let w := streamWrite r.blk 34 (ofLE (r.bytes.take 8)) l
      if w.2.1 ≠ 0 then raise pgBAR 11 w.1
      else
        let d := streamWrite w.1 34 (a + 8) (barBack l.length type false)
        if d.2.1 ≠ 0 then raise pgBAR 11 d.1
        else raise pgBAR 8 (wr d.1 BAR.RX_HEAD.HEAD (ringNext size (rd d.1 BAR.RX_HEAD.HEAD)))

/-- Whether firmware may send a type through the ring, with a payload that R433 admits. -/
def barSendable (type : Nat) (l : List Byte) : Bool :=
  let n := l.length
  match type with
  | 0x01 => n == 8
  | 0x02 => decide (8 < n ∧ n % 4 = 0 ∧ n ≤ 264)
  | 0x07 => decide (16 ≤ n)
  | 0x08 => decide (16 ≤ n)
  | 0x09 => decide (9 ≤ n ∧ n ≤ 2056)
  | _ => false

/-- The endpoint takes the descriptor at TX_HEAD; false where it stops. A descriptor firmware may not send, or one that holds
poison (R16), comes back with its error bit and is not sent. -/
def barSendOne (b : Blk) : Blk × Bool :=
  let size := rd b BAR.TX_RING.SIZE
  let a := rd64 b BAR.TX_BASE.IOVA + 16 * rd b BAR.TX_HEAD.HEAD
  let r := streamRead b 34 a 16
  if r.cause ≠ 0 then (raise pgBAR 11 r.blk, false)
  else if r.bad.isSome ∨ !(r.bytes.getD 11 0).toNat.testBit 7 then (r.blk, false)
  else
    let len := ofLE ((r.bytes.drop 8).take 2)
    let type := (r.bytes.getD 10 0).toNat
    let p := streamRead r.blk 34 (ofLE (r.bytes.take 8)) (min len 2304)
    if p.cause ≠ 0 then (raise pgBAR 11 p.blk, false)
    else
      let b := if p.bad.isSome then raise pgBAR 5 (incSat p.blk BAR.DROP_B.POISON) else p.blk
      let ok := p.bad.isNone && decide (len ≤ 2304) && barSendable type p.bytes
      let b := if ok then emit b (.barrier type p.bytes) else b
      let d := streamWrite b 34 (a + 8) (barBack len type (!ok))
      if d.2.1 ≠ 0 then (raise pgBAR 11 d.1, false)
      else (raise pgBAR 10 (wr d.1 BAR.TX_HEAD.HEAD (ringNext size (rd d.1 BAR.TX_HEAD.HEAD))), true)

/-- The endpoint works through the queued descriptors, at most `n`. -/
def barSend : Nat → Blk → Blk
  | 0, b => b
  | n + 1, b =>
    let r := barSendOne b
    if r.2 then barSend n r.1 else r.1

/-- TX_RING.TAIL: the descriptors from TX_HEAD up to TAIL are queued. -/
def actTxRing (b : Blk) : Blk :=
  let size := rd b BAR.TX_RING.SIZE
  if size = 0 then b
  else
    let n := (rd b BAR.TX_RING.TAIL + size - rd b BAR.TX_HEAD.HEAD % size) % size + 1
    barSend n b

/-! Messages to the host's receive ring. -/

/-- REG_RSP (R436). -/
def doRegRsp (tag status : Nat) (data : List Nat) (b : Blk) : Blk :=
  let b := barReceive 3 (le 1 tag ++ le 1 status ++ le 1 data.length ++ le 1 0 ++ data.flatMap (le 4)) b
  if status ≠ 0 then raise pgBAR 7 b else b

/-- A signed 32-bit value of a record, in thousandths. -/
def milli (l : List Byte) (i : Nat) : Int := toInt 32 (ofLE ((l.drop i).take 4)) / 1000

/-- TALLY_SNAP: the powers, the energy and the number of the demand interval for the availability report (R64, R248). -/
def doTallySnap (l : List Byte) (b : Blk) : Blk :=
  let s := (milli l 80, milli l 84, ofLE ((l.drop 72).take 8) / 1000, ofLE ((l.drop 60).take 4))
  raise pgBAR 13 (barReceive 0x0B l { b with factor := { b.factor with snap := s } })

/-- METER_RECORD. -/
def doMeterRecord (l : List Byte) (b : Blk) : Blk := raise pgBAR 12 (barReceive 0x0C l b)

/-- A vehicle frame across the barrier: to the host's ring, or to the port's line (R275). -/
def doVehicleFrame (t1s toHost : Bool) (n time : Nat) (frame : List Byte) (b : Blk) : Blk :=
  if toHost then barReceive (if t1s then 8 else 7) (le 8 n ++ le 8 time ++ frame) b
  else doVehicleTx t1s n frame b

/-- A mesh MSDU across the barrier: to the host's ring, or to the mesh's queue (R291). -/
def doMeshFrame (toHost : Bool) (peer prio : Nat) (data : List Byte) (b : Blk) : Blk :=
  if toHost then barReceive 9 (le 1 peer ++ le 7 prio ++ data) b
  else if 3 < prio ∨ data.isEmpty ∨ 2048 < data.length then dropType true b
  else meshOp (doMeshFromHost peer prio data) b

def execHeartbeatSend (field : Bool) (s : State) : Out := run (doHeartbeatSend field) s

def execHeartbeat (field crcOk reserved gap healthy fdom : Bool) (s : State) : Out :=
  run (doHeartbeat field crcOk reserved gap healthy (b2n fdom)) s

def execOtherSideLost (field : Bool) (s : State) : Out := run (doSideLost field) s

def execBarrierChannelDown (field tx : Bool) (c : Fin 4) (s : State) : Out := run (doChannel field tx c.val false) s

def execBarrierChannelUp (field tx : Bool) (c : Fin 4) (s : State) : Out := run (doChannel field tx c.val true) s

def execBarrierReasmTimeout (field : Bool) (s : State) : Out := run (dropReasm field) s

def execRegRsp (tag status : Byte) (data : List Word) (s : State) : Out :=
  run (doRegRsp tag.toNat status.toNat (data.map (·.toNat))) s

def execTallySnap (rec : List Byte) (s : State) : Out := run (doTallySnap rec) s

def execMeterRecord (rec : List Byte) (s : State) : Out := run (doMeterRecord rec) s

def enterPlcFrame (p : Fin 4) (frame : List Byte) : Blk → Blk := doVehicleFrame false false p.val 0 frame

def execPlcFrame (toHost : Bool) (p : Fin 4) (time : BitVec 64) (frame : List Byte) (s : State) : Out :=
  if toHost then run (doVehicleFrame false true p.val time.toNat frame) s
  else runIn 2 (.plcFrame p frame) (enterPlcFrame p frame) s

def enterT1sFrame (p : Fin 4) (frame : List Byte) : Blk → Blk := doVehicleFrame true false p.val 0 frame

def execT1sFrame (toHost : Bool) (p : Fin 4) (time : BitVec 64) (frame : List Byte) (s : State) : Out :=
  if toHost then run (doVehicleFrame true true p.val time.toNat frame) s
  else runIn 2 (.t1sFrame p frame) (enterT1sFrame p frame) s

def enterMeshFrame (peer prio : Byte) (msdu : List Byte) : Blk → Blk := doMeshFrame false peer.toNat prio.toNat msdu

def execMeshFrame (toHost : Bool) (peer prio : Byte) (msdu : List Byte) (s : State) : Out :=
  if toHost then run (doMeshFrame true peer.toNat prio.toNat msdu) s
  else runIn 2 (.meshFrame peer prio msdu) (enterMeshFrame peer prio msdu) s

end Sys2Proof.Machine
end

