-- ==== Sys2Proof/Machine/Access.lean ====
section
/-!
DEFINITION. A register write as every path to it performs it: what the register does on a write, the header (R25 to R33),
enabling, disabling and soft reset of a block (R28, R29), freezing (R30); the commands that write and read registers by
their place in the map.
-/

namespace Sys2Proof.Machine

open Sys2Proof.Num

/-! Page keys. -/

/-- The page key of a field or host page index as an initiator names it. -/
def pageKey (i : Init) (p : Nat) : Nat := i.side.key + p % 256 * 0x1000

/-- The instance of a page name: its index less the first. -/
def inst (pg base : Nat) : Nat := (pg - base) / 0x1000

/-! What the registers do on a write. Each action sees the block as it was before the write (`b0`), the register and the
accepted bits of the word. -/

/-- SYS and FSYS (R491, R493, R502). -/
def actSYS (i : Init) (field : Bool) (a v : Nat) (b : Blk) : Blk :=
  if a = (sys field SYS.SWRST.KEY).a then actSwrst field v b
  else if a = (sys field SYS.WDT_KICK.KICK).a then actKick field v b
  else if a = FSYS.FL_CTL.GO.a then actFlash i v b
  else b

/-- EVC and FEVC (R471, R472). -/
def actEV (field : Bool) (a v : Nat) (b : Blk) : Blk :=
  let o := offOf a
  if a = EVC.FWD_CLR.CLR.a then actFwdClr v b
  else if 0x100 ≤ o ∧ o < 0x140 ∧ o % 16 = 8 then actComplete field ((o - 0x100) / 16) b
  else b

/-- MON and FMON (R476, R477). -/
def actMON (field : Bool) (b0 : Blk) (a v : Nat) (b : Blk) : Blk :=
  let o := offOf a
  if o = 0x40 then actSnap field v b
  else if 0x400 ≤ o ∧ (o - 0x400) % 0xC0 = 0 then
    let m := (o - 0x400) / 0xC0
    actMonCfg field m (isOn b0 ⟨monReg field m, 31, 1⟩) b
  else b

/-- MMU, DMA, MEM (R448, R452, R453, R458, R459, R447). -/
def actMem (b0 : Blk) (a v : Nat) (b : Blk) : Blk :=
  if a = MMU.INV.GO.a then actInvalidate v b
  else if a = MMU.FQ_POP.GO.a then actFqPop v b
  else if a = MEM.INJ.GO.a then actInj v b
  else if a = MEM.CNT_CLR.UE.a then actCntClr v b
  else if a / 0x1000 * 0x1000 = pgDMA ∧ 0x400 ≤ offOf a then
    let c := (offOf a - 0x400) / 0x40
    match (offOf a - 0x400) % 0x40 with
    | 0x00 => actDmaCfg c b
    | 0x0C => actDmaTail c (rd b0 (DMA.CH.RING.TAIL c)) b
    | 0x38 => actDmaCmd c v b
    | _ => b
  else b

/-- TIME (R203, R204, R207). -/
def actTIME (b0 : Blk) (a v : Nat) (b : Blk) : Blk :=
  let o := offOf a
  if a = TIME.STEP_GO.GO.a then actStepGo v b
  else if 0x400 ≤ o ∧ o < 0x480 then
    let d := (o - 0x400) / 0x40
    if a = (TIME.DOM.ADD_LO.FRAC d).a then
      setDom d { domOf b d with shadow := v } (wr b (TIME.DOM.ADD_LO.FRAC d) (rd b0 (TIME.DOM.ADD_LO.FRAC d)))
    else if a = (TIME.DOM.ADD_HI.INT d).a then
      let new := v % 256 * 2 ^ 32 + (domOf b d).shadow
      setAddend d (if 0x03FEF9DB23 ≤ new ∧ new ≤ 0x04010624DD then new else addendOf b0 d) b
    else if a = (TIME.DOM.SRC.SRC d).a then actSrc d (rd b0 (TIME.DOM.SRC.SRC d)) b
    else b
  else b

/-- SRM and FSRM (R396, R398, R403, R405, R408, R413). -/
def actSRM (host : Bool) (a v : Nat) (b : Blk) : Blk :=
  let n := if host then 0 else 64
  if a = SRM.OP_CTL.GO.a then actOp v b
  else if a = SRM.MINT_GO.GO.a then actMint v b
  else if a = SRM.KW_SEND.GO.a then actKwSend v b
  else if a = (if host then SRM.REVOKE.GO.a else FSRM.REVOKE.GO.a) then actRevoke host v b
  else if a = (sFld n SRM.ANCH_CTL.PROG).a then actAnchor n v b
  else if a = (sFld n SRM.ROLL_ADV.GO).a then actRollAdv n v b
  else b

/-- FCTR, BOOK, TRUNK (R46, R58, R59, R62, R95, R104, R109, R112). -/
def actFactor (a v : Nat) (b : Blk) : Blk :=
  if a = FCTR.GRP_ARM.ARM.a then actGrpArm v b
  else if a = FCTR.BOOK_CTL.RUN.a then actBookCtl b
  else if a = BOOK.SUB_GO.GO.a then actSubGo v b
  else if a = BOOK.CANCEL.GO.a then actCancel v b
  else if a = TRUNK.WELD_CLR.GO.a then actWeldClr v b
  else if a = TRUNK.OPS_PRESET.VALUE.a then actOpsPreset v b
  else if a = TRUNK.STOP_CLR.CLR.a then actStopClr v b
  else if a = TRUNK.COIL_EN.EN.a then actCoilEn b
  else b

/-- The load-switch channels a loop slot drives (R159, R354). -/
def slotChans (b : Blk) (i : Nat) : List Nat :=
  let n := rd b (CE.SLOT.BIND.TRUNK i) % 4
  (match kindOf b i with
    | 2 => [rd b (CE.COOL.COUT.PUMP n), rd b (CE.COOL.COUT.VALVE n)]
    | 3 => [rd b (CE.SLOT.IO.OUT_CH i)]
    | _ => []).filter (· < 48)

/-- Channels named anew by a write change driver (R354). -/
def slotsRebind (b0 b : Blk) : Blk :=
  forEach (List.range 16) (fun i b =>
    let was := slotChans b0 i
    let now := slotChans b i
    let b := forEach (was.filter fun c => !now.contains c) (fun c b => lswOwn 0 c (lswDrive c false 1000 b)) b
    forEach (now.filter fun c => !was.contains c) (lswOwn (kindOf b i)) b) b

/-- CE and LUT (R143, R163, R169, R354). -/
def actCE (b0 : Blk) (a v : Nat) (b : Blk) : Blk :=
  let o := offOf a
  if a = LUT.COMMIT.TBL.a then actLutCommit v b
  else if a / 0x1000 * 0x1000 ≠ pgCE then b
  else if a = CE.TUNE_GO.GO.a then actTuneGo v b
  else if 0x400 ≤ o ∧ (o - 0x400) % 0x40 = 0 then
    let i := (o - 0x400) / 0x40
    actSlotCfg i (rd b0 (CE.SLOT.CFG.KIND i)) b
  else slotsRebind b0 b

/-- The metrology pages (R51, R180, R181). -/
def actMet (b0 : Blk) (a v : Nat) (b : Blk) : Blk :=
  if a = MTR.CAL_COMMIT.GO.a then actCalCommit v b
  else if a = MTR.CAPT_CTL.GO.a then actCapture v b
  else if pgSNS 0 ≤ a ∧ a < pgSNS 8 ∧ offOf a = 0x40 then snsShow (inst (a / 0x1000 * 0x1000) (pgSNS 0)) false b
  else if a = CH.CCTL.LEGAL_DOM.a then actLegalDom (rd b0 CH.CCTL.LEGAL_DOM) b
  else b

/-- VP (R261, R265, R283). -/
def actVP (b0 : Blk) (a v : Nat) (b : Blk) : Blk :=
  let n := inst (a / 0x1000 * 0x1000) (pgVP 0)
  showPilot n <| match offOf a with
  | 0x40 => vpHold n (actVctl n (rd b0 (VP.VCTL.TYPE n)) (rd b0 (VP.VCTL.LOCK_CH n)) (rd b0 (VP.VCTL.UNLOCK_CH n)) b)
  | 0x54 => actLock (rd b0 (VP.LOCK.CMD n)) n b
  | 0xA8 => actArm n v b
  | _ => vpHold n b

/-- LSW (R354, R355, R360, R361). -/
def actLSW (a v : Nat) (b : Blk) : Blk :=
  let o := offOf a
  if a = LSW.ARM.CH.a then actLswArm v b
  else if 0x400 ≤ o then
    match (o - 0x400) % 0x20 with
    | 0x00 => actLswCfg ((o - 0x400) / 0x20) b
    | 0x04 => actLswOut ((o - 0x400) / 0x20) b
    | _ => b
  else b

/-- What an accepted write does beside storing its fields. -/
def regAct (b0 : Blk) (i : Init) (a v : Nat) (b : Blk) : Blk :=
  let pg := a / 0x1000 * 0x1000
  if pg = pgSYS then actSYS i false a v b
  else if pg = pgFSYS then actSYS i true a v b
  else if pg = pgEVC then actEV false a v b
  else if pg = pgFEVC then actEV true a v b
  else if pg = pgMON then actMON false b0 a v b
  else if pg = pgFMON then actMON true b0 a v b
  else if pg = pgMMU ∨ pg = pgDMA ∨ pg = pgMEM then actMem b0 a v b
  else if a = BAR.TX_RING.TAIL.a then actTxRing b
  else if pg = pgTIME then actTIME b0 a v b
  else if pg = pgSRM then actSRM true a v b
  else if pg = pgFSRM then actSRM false a v b
  else if a = DBK.WR_GO.GO.a then actWrGo v b
  else if pgLANE 0 ≤ pg ∧ pg ≤ pgLANE 15 ∧ offOf a = 0x40 then actLctl (inst pg (pgLANE 0)) v b
  else if a = RED.ARM.FORCE.a then actArmRed v b
  else if pg = pgFCTR ∨ pg = pgBOOK ∨ pg = pgTRUNK then actFactor a v b
  else if a = FBAR.MBX_CTL.GO.a then actMailboxGo v b
  else if pgMOD 0 ≤ pg ∧ pg ≤ pgMOD 2 ∧ offOf a = 0x40 then
    actGctl (inst pg (pgMOD 0)) (rd b0 (MOD.GCTL.SYNC_SEL (inst pg (pgMOD 0)))) b
  else if pgMOD 0 ≤ pg ∧ pg ≤ pgMOD 2 ∧ offOf a = 0x74 then loseTrims (inst pg (pgMOD 0)) b
  else if pgMOD 0 ≤ pg ∧ pg ≤ pgMOD 2 ∧ offOf a = 0x78 then actModArm (inst pg (pgMOD 0)) v b
  else if pg = pgCE ∨ pg = pgLUT then actCE b0 a v b
  else if pg = pgMTR ∨ pg = pgCH ∨ (pgSNS 0 ≤ pg ∧ pg ≤ pgSNS 7) then actMet b0 a v b
  else if pgVP 0 ≤ pg ∧ pg ≤ pgVP 3 then actVP b0 a v b
  else if pg = pgLSW then actLSW a v b
  else b

/-! Enabling and disabling (R28). -/

/-- Setting EN starts the block under its start-up rule. -/
def onEnable (pg : Nat) (b : Blk) : Blk :=
  if pgMOD 0 ≤ pg ∧ pg ≤ pgMOD 2 then
    let g := inst pg (pgMOD 0)
    startTrims g (setMod g { modOf b g with calDone := false, calRun := false } b)
  else if pgLANE 0 ≤ pg ∧ pg ≤ pgLANE 15 then retrain (inst pg (pgLANE 0)) b
  else if pgVP 0 ≤ pg ∧ pg ≤ pgVP 3 then
    let n := inst pg (pgVP 0)
    let lock := rd b (VP.VCTL.LOCK_CH n)
    let b := if lock < 48 ∧ rd b (VP.VCTL.UNLOCK_CH n) = 0xFF then lswDrive lock (isOn b (VP.LOCK.CMD n)) 1000 b else b
    vpHold n (showPilot n b)
  else if pg = pgLSW then forEach (List.range 48) lswRestart b
  else if pg = pgMTR then
    { b with met := { b.met with lastA := b.time.fa.inc / 2 ^ 32, lastB := b.time.fb.inc / 2 ^ 32, steps := [] } }
  else b

/-- A disabled block drives its outputs to their safe state and stops (R28). -/
def onDisable (pg : Nat) (b : Blk) : Blk :=
  if pgMOD 0 ≤ pg ∧ pg ≤ pgMOD 2 then pwmLow (inst pg (pgMOD 0)) b
  else if pgLANE 0 ≤ pg ∧ pg ≤ pgLANE 15 then laneStop (inst pg (pgLANE 0)) b
  else if pgETH 0 ≤ pg ∧ pg ≤ pgETH 1 then setEthLink (inst pg (pgETH 0)) false b
  else if pg = pgMESH then meshStop b
  else if pg = pgTHM then
    forEach (List.range 64) (fun c b => wrB b (THM.CHN.CSTAT.VALID c) false) { b with thm := { b.thm with running := false } }
  else if pg = pgMTR then forEach (bitsOf 5 b.met.active) (fun q b => drivePulse q false b) (flushSteps b)
  else if pgVP 0 ≤ pg ∧ pg ≤ pgVP 3 then
    let n := inst pg (pgVP 0)
    let chans := [rd b (VP.VCTL.LOCK_CH n), rd b (VP.VCTL.UNLOCK_CH n)].filter (· < 48)
    forEach chans (fun c b => lswDrive c false 1000 b)
      (showPilot n (setVp n { vpOf b n with pulse := 0, lockWin := false } b))
  else b

/-! Soft reset (R29). -/

/-- The bits of a register that show a present condition and no state of the block's own, which a soft reset does not change
(notes/assumptions/37.md): the straps and the modes, which change only as R39 and R41 say; the cause of the last reset; the
power-fail warning and reduced mode, latched until the side resets (R488); the hold-up's readiness; the clocks (R14) and
the barrier's links; the Daybook's seal and queue; the live tables' validity (R169); the emergency stops, whose path no
register reaches (R12). -/
def conditionMask (a : Nat) : Word :=
  if [SYS.STRAP.ROLE.a, FSYS.STRAP.ROLE.a, SYS.MODE.ROLE.a, SYS.RST_CAUSE.CAUSE.a, FSYS.RST_CAUSE.CAUSE.a,
    CLK.CSTAT.PLL_LOCK.a, BAR.BSTAT.FIELD_LOST.a, FBAR.FSTAT.HOST_LOST.a].contains a then 0xFFFFFFFF
  else if a = PMU.PFSTAT.WARN.a ∨ a = FPMU.PFSTAT.WARN.a then 0x90000000
  else if a = PMU.HOLD.HOLD_RDY.a ∨ a = FPMU.HOLD.HOLD_RDY.a then 0x80000000
  else if a = DBK.DSTAT.SEALED.a then 0x8000007F
  else if a = LUT.LSTAT.VALID.a then 0xFF
  else if pgVP 0 ≤ a ∧ a < pgVP 4 ∧ offOf a = 0x44 then 0x06000000
  else 0

/-- The block registers of a page return to their reset values, but for what MRAM and fuses hold and what shows a present
condition. -/
def resetPage (pg : Nat) (b : Blk) : Blk :=
  let mine := b.regs.filter fun e => e.1 / 0x1000 * 0x1000 == pg && decide (0x40 ≤ e.1 % 0x1000)
  forEach mine (fun e b =>
    let m := nvMask e.1 ||| conditionMask e.1
    setWord b e.1 ((resetWord e.1 &&& ~~~m) ||| (e.2 &&& m))) b |> when (calPage pg) calFactory

/-- The load-switch channels of a driver become free (R354). -/
def freeChans (p : Nat → Bool) (b : Blk) : Blk :=
  forEach ((List.range 48).filter p) (fun c b => lswOwn 0 c (lswDrive c false 1000 b)) b

/-- The hardware state of a host block returns to its reset. -/
def softHost (pg : Nat) (b : Blk) : Blk :=
  let m := b.memory
  let f := b.factor
  let ev := b.events
  if pg = pgMMU then { b with memory := { m with tlb := [], faults := [], inv := none } }
  else if pg = pgDMA then { b with memory := { m with dma := [], served := 31, order := [] } }
  else if pg = pgMEM then { b with memory := { m with thGiven := 0, scrubPos := [], passLate := 0 } }
  else if pg = pgTIME then
    { b with time := { b.time with ta := {}, tb := {}, caps := keep b.time.caps fun k => decide (8 ≤ k) } }
  else if pg = pgSRM then { b with srm := { b.srm with op := none } }
  else if pgLANE 0 ≤ pg ∧ pg ≤ pgLANE 15 then setLane (inst pg (pgLANE 0)) {} b
  else if pg = pgSTK then showPresent { b with lanes := { b.lanes with down := [], asked := [] } }
  else if pg = pgLINK then showLanes b
  else if pg = pgRED then
    wrB (setSync false { b with red := { peerSealed := b.red.peerSealed, fail := b.red.fail } }) RED.PSTAT.ACTIVE (paired b && isActive b)
  else if pg = pgFCTR then
    { b with factor := { book := f.book, nextSeq := f.nextSeq, acts := f.acts, inFlight := f.inFlight } }
  else if pg = pgBOOK then { b with factor := { f with book := [], cutBook := [], nextSeq := 1, acts := [], inFlight := none } }
  else if pg = pgEVC then { b with events := { ev with svc := keep ev.svc fun k => decide (4 ≤ k) } }
  else if pg = pgMON then { b with events := { ev with mons := keep ev.mons fun k => decide (16 ≤ k) } }
  else b

/-- The hardware state of a field block, or of TRUNK, returns to its reset; `b0` is the block before. What removes GATE_EN
from outside a modulator (emergency stop, clock loss, trunk stop, power fail: R12, R14, R108) goes on removing it. -/
def softField (pg : Nat) (b0 b : Blk) : Blk :=
  let ev := b.events
  let own := fun c => rd b0 (LSW.CH.STAT.OWNER c)
  if pg = pgTRUNK then
    freeChans (fun c => own c == 1) { b with trunk := { siteMask := b.trunk.siteMask, coilMram := b.trunk.coilMram } }
  else if pgMOD 0 ≤ pg ∧ pg ≤ pgMOD 2 then
    let g := inst pg (pgMOD 0)
    let gate := (modOf b0 g).gate &&& 0x17
    let b := wrB (wrB (pwmLow g b) (MOD.GSTAT.HW_OFF g) (decide (gate % 16 ≠ 0))) (MOD.GSTAT.PF_STOP g) (gate.testBit 4)
    setMod g { gate := gate, quiet := decide (gate ≠ 0) } b
  else if pg = pgCE then freeChans (fun c => own c == 2 || own c == 3) { b with ce := { lut := b.ce.lut } }
  else if pgVP 0 ≤ pg ∧ pg ≤ pgVP 3 then
    let n := inst pg (pgVP 0)
    freeChans (fun c => own c == 4 && (c == rd b0 (VP.VCTL.LOCK_CH n) || c == rd b0 (VP.VCTL.UNLOCK_CH n))) (showPilot n (setVp n { cp := (vpOf b n).cp } b))
  else if pg = pgLSW then
    let b := forEach (List.range 48) (fun c b => wr b (LSW.CH.STAT.OWNER c) (if own c = 5 then 0 else own c)) b
    let ch := (List.range 48).foldl (fun (t : Tab LswCh) c =>
      let x := lswOf b0 c
      Tab.put (fun _ => {}) t c { drvOn := x.drvOn, drvDuty := x.drvDuty }) []
    { b with lsw := { ch := ch } }
  else if pg = pgTHM then { b with thm := {} }
  else if pg = pgMESH then { b with mesh := {} }
  else if pg = pgMTR then { b with met := { stopped := b.met.stopped } }
  else if pg = pgFTIME then
    { b with time := { b.time with fa := { inc := b.time.fa.inc }, fb := { inc := b.time.fb.inc }, fdom := 0, caps := keep b.time.caps fun k => decide (k < 8) } }
  else if pg = pgFEVC then { b with events := { ev with svc := keep ev.svc fun k => decide (k < 4) } }
  else if pg = pgFMON then { b with events := { ev with mons := keep ev.mons fun k => decide (k < 16) } }
  else b

/-- Fields whose reset value is a strap (R41) take it again. -/
def restrap (pg : Nat) (b : Blk) : Blk :=
  if pgLANE 0 ≤ pg ∧ pg ≤ pgLANE 15 then
    let n := inst pg (pgLANE 0)
    wr (wr b (LANE.LCTL.RATE n) (rd b SYS.STRAP.LANE_RATE)) (LANE.LCTL.ALIGN n) (rd b SYS.STRAP.LANE_ALIGN)
  else if pg = pgLSW then
    let burst := decide (rd b FSYS.STRAP.INRUSH_DEF = 0 ∧ rd b FSYS.STRAP.ROLE ≠ 0) && !isOn b FSYS.STRAP.STRAP_ERR
    forEach (List.range 48) (fun c b => wrB b (LSW.CH.CFG.MODE c) burst) b
  else if pg = pgMTR then (if b.acc.sealed then b else wrB b MTR.MCTL.MAINS_HZ (isOn b FSYS.STRAP.MAINS_HZ))
  else if pg = pgMESH then wrB b MESH.SYNC.MAINS_HZ (isOn b FSYS.STRAP.MAINS_HZ)
  else b

/-- FRZ takes effect or ends (R30). -/
def freeze (pg : Nat) (on : Bool) (b : Blk) : Blk :=
  let l := if on then snapshot b pg else []
  { b with acc := { b.acc with frozen := Tab.put (fun _ => []) b.acc.frozen pg l } }

/-- SRST (R29). -/
def softReset (pg : Nat) (b : Blk) : Blk :=
  let b0 := b
  let b := when (decide (pg = pgMTR)) (onDisable pg) b
  let b := when (decide (pg = pgTRUNK)) coilsFall b
  let b := when (decide (pgLANE 0 ≤ pg ∧ pg ≤ pgLANE 15)) (laneStop (inst pg (pgLANE 0))) b
  let b := restrap pg (resetPage pg b)
  let b := softField pg b0 (softHost pg b)
  let b := setLock (freeze pg false (wrB b (hFRZ pg) false)) pg {}
  let b := when (decide (pg = pgLSW)) coilCheck (wrB b (hBUSY pg) true)
  when (enabled b pg) (onEnable pg) b

/-! The header (R25). -/

/-- What an accepted write of PAGE_CTL does. -/
def actCtl (b0 : Blk) (pg v : Nat) (b : Blk) : Blk :=
  let was := enabled b0 pg
  let now := enabled b pg
  let b := if was && !now then onDisable pg b else b
  let b := if isOn b (hFRZ pg) = isOn b0 (hFRZ pg) then b else freeze pg (isOn b (hFRZ pg)) b
  if v.testBit 1 then softReset pg b
  else if !was && now then onEnable pg b
  else b

/-- What a write of PAGE_STAT does: REJ_CNT clears with WR_REJ. -/
def actStat (pg v : Nat) (b : Blk) : Blk := if v.testBit 7 then wr b (hREJCNT pg) 0 else b

/-- The lock after a word written to PAGE_LOCK (R33). -/
def lockStep (i : Init) (v : Nat) (l : LockSt) : LockSt :=
  if l.win.isSome ∧ 0 < l.remain then
    if l.win = some i ∧ v = 0xC0DE then { l with seq := some i }
    else if l.win = some i ∧ v = 0x0DEC ∧ l.seq = some i then { win := some i, remain := 256 }
    else {}
  else if v = 0xC0DE then { seq := some i }
  else if v = 0x0DEC ∧ l.seq = some i then { win := some i, remain := 256 }
  else {}

/-! Register writes. -/

/-- A register write that takes effect now: the header's rules, or the register's own. -/
def regWriteNow (i : Init) (unl : Bool) (a : Nat) (v : Word) (b : Blk) : Blk :=
  let pg := a / 0x1000 * 0x1000
  let o := a % 0x1000
  if o = 0x0C then writeNow i unl a v (actCtl b pg) b
  else if o = 0x10 then writeNow i unl a v (actStat pg) b
  else if o = 0x28 then writeNow i unl a v (fun x => actEvtClr pg x 0) b
  else if o = 0x30 then writeNow i unl a v (fun _ c => setLock c pg (lockStep i v.toNat (lockOf b pg))) b
  else if pg = pgMTR ∧ 0xB0 ≤ o ∧ o < 0x100 ∧ o % 16 = 0 then pulseCfgWrite i unl ((o - 0xB0) / 16) v b
  else if a = DBK.REL_HI.SEQ.a then doRelease i v b
  else if pgVP 0 ≤ pg ∧ pg ≤ pgVP 3 ∧ o = 0x54 then
    let n := inst pg (pgVP 0)
    let may := lockMay b n (v.toNat / 2 ^ 31)
    let b := writeNow i unl a v (regAct b i a) b
    if may then b else vpCause 12 n b
  else writeNow i unl a v (regAct b i a) b

/-- A register write by an initiator (R23, R342). -/
def regWrite (i : Init) (a : Nat) (v : Word) (b : Blk) : Blk :=
  if lateWrite b a then writeLate i false a v b else regWriteNow i false a v b

/-- Whether a memory key lies in the field-MRAM region that holds the metrology partition's state (R10): its place is not
stated. -/
def metMram (k : Nat) : Bool := Config.metMram k

/-- An access of a page that is not one aligned word ends in a bus error (R22); it discards the initiator's shadow (R24).
A write by the control core to a page of the metrology core is rejected beside it and raises FSYS event 121 (R10). -/
def badAccess (i : Init) (pg : Nat) (write : Bool) (b : Blk) : Blk :=
  let b := dropShadow i pg b
  answer (when (decide (write = true ∧ i = .ctrl) && metOnly pg) (fun b => raise pgFSYS 1 (reject b pg)) b) .busError

/-- A store of bytes at an address of an initiator's map (R10, R15, R17, R22, R415): a page takes aligned words only; the
windows that are read only take none. -/
def storeAt (i : Init) (addr : Nat) (l : List Byte) (b : Blk) : Blk :=
  let bus := answer b .busError
  match regionAt i.side addr with
  | none => bus
  | some r =>
    if regionAt i.side (addr + l.length - 1) ≠ some r ∨ l.isEmpty then bus
    else match r with
    | .hostPages | .fieldPages =>
      let pg := pageKey i (addr % 0x100000 / 0x1000)
      if l.length = 4 ∧ addr % 4 = 0 then regWrite i (pg + addr % 0x1000) (word (ofLE l)) b
      else badAccess i pg true b
    | .bootRom | .bootFlash | .fieldFlash | .daybook => bus
    | .fieldMram =>
      if i = .host then bus
      else if i = .ctrl ∧ (List.range l.length).any fun k => metMram (addr + k) then
        answer (raise pgFSYS 1 b) .busError
      else answer (writeMem (memKey i addr) l b) .accepted
    | _ => if i = .host then bus else answer (writeMem (memKey i addr) l b) .accepted

/-- A read by an initiator that waits for a write of its own to take effect sees the value written (R23, R342). -/
def pendingWrite (b : Blk) (i : Init) (a : Nat) : Option LateWrite :=
  (b.red.writes ++ b.red.mine).reverse.find? fun w => decide (w.a = a ∧ w.init = i)

/-- A register read by an initiator. MBX_DATA is read by the metrology core alone (R438). -/
def regRead (i : Init) (a : Nat) (b : Blk) : Blk :=
  if (FBAR.MBX_DATA.DATA 0).a ≤ a ∧ a ≤ (FBAR.MBX_DATA.DATA 63).a ∧ i ≠ .met then
    answer (dropShadow i pgFBAR b) (.value 0)
  else match pendingWrite b i a with
    | none => readReg i a b
    | some w =>
      let c := (storeWord b i w.unl (a / 0x1000 * 0x1000) (a % 0x1000) w.v).blk
      answer (readReg i a b) (.value (shown c a))

/-- A load or fetch of `n` bytes at an address of an initiator's map (R15, R17, R22). -/
def loadAt (i : Init) (addr n : Nat) (fetch : Bool) (b : Blk) : Blk :=
  if regionAt i.side addr = some .hostPages ∨ regionAt i.side addr = some .fieldPages then
    let pg := pageKey i (addr % 0x100000 / 0x1000)
    if n = 4 ∧ addr % 4 = 0 ∧ !fetch then regRead i (pg + addr % 0x1000) b else badAccess i pg false b
  else if i = .host then answer b .busError
  else doMemoryRead i addr n fetch b

/-! The commands. -/

def execRegWrite (i : Init) (addr : BitVec 32) (data : List Byte) (s : State) : Out := run (storeAt i addr.toNat data) s

/-- A load or fetch of 1, 2, 4 or 8 bytes. -/
def execMemoryRead (i : Init) (addr : BitVec 32) (x : LoadForm) (s : State) : Out :=
  run (loadAt i addr.toNat (2 ^ x.w.val) x.fetch) s

/-- The low word of a 64-bit pair is read like any register; the shadow is taken (R24). -/
def execWideLowRead (i : Init) (p : BitVec 8) (off : BitVec 12) (s : State) : Out :=
  run (regRead i (pageKey i p.toNat + off.toNat / 4 * 4)) s

/-- PAGE_CTL written with one bit changed. -/
def ctlWrite (i : Init) (pg : Nat) (f : Word → Word) (b : Blk) : Blk := regWrite i (pg + 0x0C) (f (wordOf b (pg + 0x0C))) b

def execPageSoftReset (i : Init) (p : BitVec 8) (s : State) : Out := run (ctlWrite i (pageKey i p.toNat) (· ||| 2)) s

def execSoftResetDone (field : Bool) (p : BitVec 8) (s : State) : Out :=
  run (fun b => wrB b (hBUSY ((if field then 0x100000 else 0) + p.toNat * 0x1000)) false) s

def execPageEnable (i : Init) (p : BitVec 8) (s : State) : Out := run (ctlWrite i (pageKey i p.toNat) (· ||| 1)) s

def execPageDisable (i : Init) (p : BitVec 8) (s : State) : Out := run (ctlWrite i (pageKey i p.toNat) (· &&& ~~~1#32)) s

def execPageFreeze (i : Init) (p : BitVec 8) (on : Bool) (s : State) : Out :=
  run (ctlWrite i (pageKey i p.toNat) (fun w => if on then w ||| 4 else w &&& ~~~4#32)) s

def execPageLockWrite (i : Init) (p : BitVec 8) (v : Word) (s : State) : Out :=
  run (regWrite i (pageKey i p.toNat + 0x30) v) s

/-- The window of a page ends (R33); a sequence begun meanwhile goes on. -/
def closeWindow (pg : Nat) (b : Blk) : Blk := setLock b pg { seq := (lockOf b pg).seq }

def execUnlockWindowExpire (field : Bool) (p : BitVec 8) (s : State) : Out :=
  run (closeWindow ((if field then 0x100000 else 0) + p.toNat * 0x1000)) s

def execBarTxQueue (i : Init) (v : Word) (s : State) : Out := run (regWrite i BAR.TX_RING.TAIL.a v) s

def execPulseConfigWrite (i : Init) (q : Fin 5) (v : Word) (s : State) : Out :=
  run (regWrite i (MTR.PULSE.PCFG.CONST q.val).a v) s

end Sys2Proof.Machine
end

