-- ==== Sys2Proof/Machine/Tick.lean ====
section
/-!
DEFINITION. Register access from the host across the barrier (R436, R437) and the release of waiting inputs at the ticks of
the deterministic domain (R338 to R344).
-/

namespace Sys2Proof.Machine

open Sys2Proof.Num

/-! REG_RD and REG_WR. -/

/-- The field endpoint answers a request; a refused one is counted (R443, R444). -/
def regAnswer (tag page status : Nat) (data : List Nat) (b : Blk) : Blk :=
  let b := emit b (.regRsp tag status data)
  if status = 0 then b
  else raise pgFBAR 1 (wr (wr (incSat b FBAR.REFUSED.COUNT) FBAR.REFUSED.PAGE page) FBAR.REFUSED.STATUS status)

/-- The words of a host read from an offset on: the block and the words read. -/
def readRegs (pg : Nat) : Nat → Nat → Blk → Blk × List Nat
  | _, 0, b => (b, [])
  | off, n + 1, b =>
    let b := regRead .host (pg + off) b
    let w := match b.io.resp with
      | .value x => x.toNat
      | _ => 0
    let r := readRegs pg (off + 4) n b
    (r.1, w :: r.2)

/-- REG_RD (R436): a request whose COUNT or reserved bits R433 does not allow is dropped (R435). -/
def doRegRd (tag page off count rsv : Nat) (b : Blk) : Blk :=
  let pg := 0x100000 + page * 0x1000
  if count = 0 ∨ 64 < count ∨ rsv ≠ 0 then dropType true b
  else if (pageAt pg).isNone ∨ off % 4 ≠ 0 ∨ 0x1000 < off + 4 * count then regAnswer tag page 1 [] b
  else if !permBit b pg 0 then regAnswer tag page 2 [] b
  else
    let r := readRegs pg off count b
    regAnswer tag page 0 r.2 r.1

/-- The words of a host write from an offset on, up to the first refused one: the block and the status. -/
def writeRegs (pg : Nat) : Nat → List Word → Blk → Blk × Nat
  | _, [], b => (b, 0)
  | off, v :: l, b =>
    let st := (storeWord b .host false pg off v).status
    let b := regWrite .host (pg + off) v b
    if st = 0 then writeRegs pg (off + 4) l b else (b, st)

/-- The unlock sequence of R33 as the endpoint performs it. -/
def hostUnlock (pg : Nat) (b : Blk) : Blk :=
  let b := touchPage .host pg b
  setLock b pg (lockStep .host 0x0DEC (lockStep .host 0xC0DE (lockOf b pg)))

/-- Whether the host may have the unlock attribute on a page (R35, R437, R440); the status, or 0. -/
def unlockRule (b : Blk) (pg : Nat) : Nat :=
  if sealable pg && b.acc.sealed then 3
  else if !permBit b pg 2 then 2
  else if isOn b (hBUSY pg) then 4
  else 0

/-- The answer to a request waits for the last of its writes (R23). -/
def lateRsp (tag page status : Nat) (l : List LateWrite) : List LateWrite :=
  l.dropLast ++ (l.getLast?.map fun w => { w with rsp := some (tag, page, status) }).toList

/-- The answer to a REG_WR: at once, or, where its words wait for their release ticks on a pair, once the last of them has
taken effect (R23, R342); `b0` is the block before the words were written. -/
def wrAnswer (tag page status : Nat) (b0 b : Blk) : Blk :=
  let x := b.red
  if b0.red.writes.length < x.writes.length then setRed { x with writes := lateRsp tag page status x.writes } b
  else if b0.red.mine.length < x.mine.length then setRed { x with mine := lateRsp tag page status x.mine } b
  else regAnswer tag page status [] b

/-- REG_WR (R436). -/
def doRegWr (tag page off count attr rsv : Nat) (data : List Word) (b : Blk) : Blk :=
  let pg := 0x100000 + page * 0x1000
  if count = 0 ∨ 64 < count ∨ rsv ≠ 0 ∨ 1 < attr ∨ data.length ≠ count then dropType true b
  else if (pageAt pg).isNone ∨ off % 4 ≠ 0 ∨ 0x1000 < off + 4 * count then regAnswer tag page 1 [] b
  else
    let st := if attr = 1 then unlockRule b pg else 0
    if st ≠ 0 then regAnswer tag page st [] (reject b pg)
    else
      let b := if attr = 1 then hostUnlock pg b else b
      let r := writeRegs pg off data b
      wrAnswer tag page r.2 b r.1

/-! Release at a tick. -/

/-- A waiting write takes effect, under the unlock it was issued under; a clear of event bits meets the events of its cycle
(R31), and the REG_RSP that waits for it is sent (R23). -/
def releaseWrite (w : LateWrite) (b : Blk) : Blk :=
  let pg := w.a / 0x1000 * 0x1000
  let st := (storeWord b w.init w.unl pg (w.a % 0x1000) w.v).status
  let b := if w.a % 0x1000 = 0x28 then writeNow w.init w.unl w.a w.v (fun x => actEvtClr pg x w.same) b
    else regWriteNow w.init w.unl w.a w.v b
  match w.rsp with
  | none => b
  | some (tag, page, found) => regAnswer tag page (if found = 0 then st else found) [] b

/-- The page, offset and value a write's ticket carries. -/
def writeContent (a : Nat) (v : Word) : List Byte := le 2 (a / 0x1000) ++ le 2 (a % 0x1000) ++ le 4 v.toNat

/-- A write ticket at its release tick on the standby (R342): its own next write is applied; a write that differs or has not
been issued ends synchronism. -/
def releaseMatched (t : Ticket) (b : Blk) : Blk :=
  match b.red.mine with
  | [] => unsync 5 (raise pgRED 6 (incSat b RED.WR_STAT.WR_LATE))
  | w :: l =>
    let b := releaseWrite w (setRed { b.red with mine := l } b)
    if t.content.take 8 = writeContent w.a w.v then b
    else unsync 4 (raise pgRED 6 (incSat b RED.WR_STAT.WR_MISMATCH))

/-- What an asynchronous input does when it enters the deterministic domain. -/
def enterInput : Input → Blk → Blk
  | .captureEdge field c => enterCaptureEdge field c
  | .periodStart g imean vgrp => enterPeriodStart g imean vgrp
  | .desatQualify g p low => enterDesatQualify g p low
  | .availReport pos r => enterAvailReport pos r
  | .grantFrame f => enterGrantFrame f
  | .planFrame p => enterPlanFrame p
  | .sliceReconcile stack orders => enterSliceReconcile stack orders
  | .orderAccept m => enterOrderAccept m
  | .subResult m res x => enterSubResult m res x
  | .switchDieReport d vls chans => enterSwitchDieReport d vls chans
  | .hkRoundStart reads refDev => enterHkRoundStart reads refDev
  | .controlSample set => enterControlSample set
  | .plugInsert p mv => enterPlugInsert p mv
  | .plugRemove p mv => enterPlugRemove p mv
  | .plugFault p mv => enterPlugFault p mv
  | .pilotChange p hi lo => enterPilotChange p hi lo
  | .imdFault p => enterImdFault p
  | .imdClear p => enterImdClear p
  | .lockFeedbackChange p fb => enterLockFeedbackChange p fb
  | .soundingFrame p att => enterSoundingFrame p att
  | .plcJoined p => enterPlcJoined p
  | .t1sLinkChange p up => enterT1sLinkChange p up
  | .vehicleFrameRx p frame cut => enterVehicleFrameRx p frame cut
  | .buttonChange p k on => enterButtonChange p k on
  | .longPress p k => enterLongPress p k
  | .touchScan p raw => enterTouchScan p raw
  | .mainsZeroCross dev half => enterMainsZeroCross dev half
  | .meshFrameRx f => enterMeshFrameRx f
  | .meshAckRx a => enterMeshAckRx a
  | .meshAckMissing => enterMeshAckMissing
  | .mapUpdateRx n k m rate codes => enterMapUpdateRx n k m rate codes
  | .sessionOpen => enterSessionOpen
  | .sessionClose => enterSessionClose
  | .gridLimit => enterGridLimit
  | .replay => enterReplay
  | .setContract => enterSetContract
  | .billingReset => enterBillingReset
  | .calLoad => enterCalLoad
  | .calActivate => enterCalActivate
  | .zoneSet => enterZoneSet
  | .ackTamper => enterAckTamper
  | .seal => enterSeal
  | .unseal => enterUnseal
  | .handover t h => enterHandover t h
  | .metrologySample set => enterMetrologySample set
  | .mainsCycleEnd x => enterMainsCycleEnd x
  | .tamperEvent term open' => enterTamperEvent term open'
  | .bid x => enterBid x
  | .groupCommand cycle trunk mask refs owner => enterGroupCommand cycle trunk mask refs owner
  | .measurementFrame t cycle v i word => enterMeasurementFrame t cycle v i word
  | .plcFrame p frame => enterPlcFrame p frame
  | .t1sFrame p frame => enterT1sFrame p frame
  | .meshFrame peer prio msdu => enterMeshFrame peer prio msdu

/-- A ticket at its release tick (R340): an input this twin held as active; writes, adopted keys (R406) and digests (R344) of
the active's. The inputs of other sources enter a standby as their own commands. -/
def releaseTicket (t : Ticket) (b : Blk) : Blk :=
  let b := if isActive b then b else incWrap b RED.TKT_STAT.TICKETS
  match t.input with
  | some i => enterInput i b
  | none => match t.src with
  | 0x01 => releaseMatched t b
  | 0x02 => if t.content.length = 5 then srmAdopt (64 + (t.content.getD 0 0).toNat) (ofLE (t.content.drop 1)) b else b
  | 0x0F =>
    compareDigest ((t.release + 2 ^ 32 - rd b RED.CTL.LAG) % 2 ^ 32) (ofLE (t.content.take 8)) b
  | _ => b

/-- Own writes that no ticket of the active will match are applied: on a twin that is active or out of step. -/
def applyUnmatched (b : Blk) : Blk :=
  if (isActive b || !inSync b) && !(b.red.tickets.any fun t => t.src == 1) then
    forEach b.red.mine releaseWrite (setRed { b.red with mine := [] } b)
  else b

/-- What the release ticks that have come let in, earliest tick first and within a tick in ticket sequence order (R340):
firmware writes and tickets by release tick and sequence number. -/
def dueItems (b : Blk) : List (Nat × Nat × (LateWrite ⊕ Ticket)) :=
  let now := tickNow b
  let late := fun r => (now + 2 ^ 32 - r) % 2 ^ 32
  let old := fun n => (b.red.tseq + 2 ^ 16 - n) % 2 ^ 16
  let ws := (b.red.writes.filter fun w => !tickBefore now w.release).map fun w => (late w.release, old w.tseq, Sum.inl w)
  let ts := (b.red.tickets.filter fun t => !tickBefore now t.release).map fun t => (late t.release, old t.tseq, Sum.inr t)
  sortBy (fun x y => decide (y.1 < x.1 ∨ (x.1 = y.1 ∧ y.2.1 ≤ x.2.1))) (ws ++ ts)

/-- TICK_START: the inputs and writes whose release tick has come enter the domain in sequence; `differs` says that the use
list released now names other timed inputs than this twin has used (R339); `peer` is the partner's seal state where its
messages of the last tick showed it (R49). -/
def doTick (differs : Bool) (peer : Option Bool) (b : Blk) : Blk :=
  if !paired b then b
  else
    let now := tickNow b
    let due := dueItems b
    let b := if peer.isSome then sealParity (setRed { b.red with peerSealed := peer } b) else b
    let b := setRed { b.red with
      tickets := b.red.tickets.filter fun t => tickBefore now t.release
      writes := b.red.writes.filter fun w => tickBefore now w.release } b
    let b := forEach due (fun e b => match e.2.2 with
      | .inl w => releaseWrite w b
      | .inr t => releaseTicket t b) b
    let b := if differs && !isActive b then unsync 6 (raise pgRED 14 b) else b
    applyUnmatched b

/-- What a step does with no command waiting: 20 ns pass (notes/assumptions/3.md). -/
def idle (s : State) : Out := run (passTime 5) s

def execTickStart (x : TickNews) (s : State) : Out := run (doTick x.useDiffers x.peer) s

def execRegRd (tag page : Byte) (off : BitVec 16) (count : Byte) (rsv : BitVec 24) (s : State) : Out :=
  run (doRegRd tag.toNat page.toNat off.toNat count.toNat rsv.toNat) s

def execRegWr (tag page : Byte) (off : BitVec 16) (count attr : Byte) (rsv : BitVec 16) (data : List Word) (s : State) :
    Out :=
  run (doRegWr tag.toNat page.toNat off.toNat count.toNat attr.toNat rsv.toNat data) s

end Sys2Proof.Machine
end

