-- ==== Sys2Proof/Machine/Dispatch.lean ====
section
/-! DEFINITION. The dispatch: one arm for each command. -/

namespace Sys2Proof.Machine

def exec (i : Instr) (s : State) : Host.Outcome State Fault Refusal :=
  match i with
  | .regWrite x1 x2 x3 => Sys2Proof.Machine.execRegWrite x1 x2 x3 s
  | .wideLowRead x1 x2 x3 => Sys2Proof.Machine.execWideLowRead x1 x2 x3 s
  | .memoryRead x1 x2 x3 => Sys2Proof.Machine.execMemoryRead x1 x2 x3 s
  | .pageSoftReset x1 x2 => Sys2Proof.Machine.execPageSoftReset x1 x2 s
  | .softResetDone x1 x2 => Sys2Proof.Machine.execSoftResetDone x1 x2 s
  | .pageEnable x1 x2 => Sys2Proof.Machine.execPageEnable x1 x2 s
  | .pageDisable x1 x2 => Sys2Proof.Machine.execPageDisable x1 x2 s
  | .pageFreeze x1 x2 x3 => Sys2Proof.Machine.execPageFreeze x1 x2 x3 s
  | .pageLockWrite x1 x2 x3 => Sys2Proof.Machine.execPageLockWrite x1 x2 x3 s
  | .unlockWindowExpire x1 x2 => Sys2Proof.Machine.execUnlockWindowExpire x1 x2 s
  | .eventClear x1 x2 x3 x4 => Sys2Proof.Machine.execEventClear x1 x2 x3 x4 s
  | .evtFwdRepeat => Sys2Proof.Machine.execEvtFwdRepeat s
  | .evtFwd x1 x2 => Sys2Proof.Machine.execEvtFwd x1 x2 s
  | .fwdClear x1 x2 => Sys2Proof.Machine.execFwdClear x1 x2 s
  | .eventClaim x1 x2 => Sys2Proof.Machine.execEventClaim x1 x2 s
  | .eventComplete x1 x2 x3 => Sys2Proof.Machine.execEventComplete x1 x2 x3 s
  | .heartbeatSend x1 => Sys2Proof.Machine.execHeartbeatSend x1 s
  | .heartbeat x1 x2 x3 x4 x5 x6 => Sys2Proof.Machine.execHeartbeat x1 x2 x3 x4 x5 x6 s
  | .otherSideLost x1 => Sys2Proof.Machine.execOtherSideLost x1 s
  | .clockLost x1 x2 => Sys2Proof.Machine.execClockLost x1 x2 s
  | .clockLossReset x1 => Sys2Proof.Machine.execClockLossReset x1 s
  | .refclkLoss x1 => Sys2Proof.Machine.execRefclkLoss x1 s
  | .estopAssert x1 x2 => Sys2Proof.Machine.execEstopAssert x1 x2 s
  | .trunkStopRepeat => Sys2Proof.Machine.execTrunkStopRepeat s
  | .estopRelease x1 x2 => Sys2Proof.Machine.execEstopRelease x1 x2 s
  | .hostResetRelease x1 x2 x3 => Sys2Proof.Machine.execHostResetRelease x1 x2 x3 s
  | .fieldResetRelease x1 x2 => Sys2Proof.Machine.execFieldResetRelease x1 x2 s
  | .holdReady x1 x2 => Sys2Proof.Machine.execHoldReady x1 x2 s
  | .holdTimeout x1 => Sys2Proof.Machine.execHoldTimeout x1 s
  | .hostBoot x1 => Sys2Proof.Machine.execHostBoot x1 s
  | .imageRequest x1 => Sys2Proof.Machine.execImageRequest x1 s
  | .laneBootTimeout x1 x2 => Sys2Proof.Machine.execLaneBootTimeout x1 x2 s
  | .fieldImageStart => Sys2Proof.Machine.execFieldImageStart s
  | .powerOnReset x1 => Sys2Proof.Machine.execPowerOnReset x1 s
  | .resetLand x1 => Sys2Proof.Machine.execResetLand x1 s
  | .softwareReset x1 x2 => Sys2Proof.Machine.execSoftwareReset x1 x2 s
  | .watchdogKick x1 x2 => Sys2Proof.Machine.execWatchdogKick x1 x2 s
  | .watchdogHalf x1 => Sys2Proof.Machine.execWatchdogHalf x1 s
  | .watchdogTimeout x1 => Sys2Proof.Machine.execWatchdogTimeout x1 s
  | .fieldPfWarning x1 x2 => Sys2Proof.Machine.execFieldPfWarning x1 x2 s
  | .hostPfWarning x1 x2 => Sys2Proof.Machine.execHostPfWarning x1 x2 s
  | .pfGateRemove x1 => Sys2Proof.Machine.execPfGateRemove x1 s
  | .pfCommit x1 => Sys2Proof.Machine.execPfCommit x1 s
  | .pfRecord => Sys2Proof.Machine.execPfRecord s
  | .brownOut x1 => Sys2Proof.Machine.execBrownOut x1 s
  | .pfRecoveryReset x1 => Sys2Proof.Machine.execPfRecoveryReset x1 s
  | .coreClockChange x1 x2 => Sys2Proof.Machine.execCoreClockChange x1 x2 s
  | .coreClockDone => Sys2Proof.Machine.execCoreClockDone s
  | .flashProgram x1 x2 => Sys2Proof.Machine.execFlashProgram x1 x2 s
  | .flashErase x1 x2 => Sys2Proof.Machine.execFlashErase x1 x2 s
  | .flashOpDone => Sys2Proof.Machine.execFlashOpDone s
  | .bookRun x1 x2 => Sys2Proof.Machine.execBookRun x1 x2 s
  | .subGo x1 x2 => Sys2Proof.Machine.execSubGo x1 x2 s
  | .orderAccept x1 => Sys2Proof.Machine.execOrderAccept x1 s
  | .cancel x1 x2 => Sys2Proof.Machine.execCancel x1 x2 s
  | .subResult x1 x2 x3 => Sys2Proof.Machine.execSubResult x1 x2 x3 s
  | .groupArm x1 x2 => Sys2Proof.Machine.execGroupArm x1 x2 s
  | .clearingCut => Sys2Proof.Machine.execClearingCut s
  | .availReport x1 x2 => Sys2Proof.Machine.execAvailReport x1 x2 s
  | .bidDeadline => Sys2Proof.Machine.execBidDeadline s
  | .bid x1 => Sys2Proof.Machine.execBid x1 s
  | .levelOne => Sys2Proof.Machine.execLevelOne s
  | .grantFrame x1 => Sys2Proof.Machine.execGrantFrame x1 s
  | .grantDeadline => Sys2Proof.Machine.execGrantDeadline s
  | .planFrame x1 => Sys2Proof.Machine.execPlanFrame x1 s
  | .planDeadline => Sys2Proof.Machine.execPlanDeadline s
  | .planAdopt => Sys2Proof.Machine.execPlanAdopt s
  | .peerAbsent x1 x2 => Sys2Proof.Machine.execPeerAbsent x1 x2 s
  | .islandEnter => Sys2Proof.Machine.execIslandEnter s
  | .sliceReconcile x1 x2 => Sys2Proof.Machine.execSliceReconcile x1 x2 s
  | .loopCycleStart x1 x2 => Sys2Proof.Machine.execLoopCycleStart x1 x2 s
  | .loopCompute x1 => Sys2Proof.Machine.execLoopCompute x1 s
  | .loopDeadlineMiss x1 => Sys2Proof.Machine.execLoopDeadlineMiss x1 s
  | .cooloffEnd x1 => Sys2Proof.Machine.execCooloffEnd x1 s
  | .lutCommit x1 x2 => Sys2Proof.Machine.execLutCommit x1 x2 s
  | .tuneGo x1 => Sys2Proof.Machine.execTuneGo x1 s
  | .tuneAbort x1 => Sys2Proof.Machine.execTuneAbort x1 s
  | .tuneTimeout => Sys2Proof.Machine.execTuneTimeout s
  | .groupStatusSend => Sys2Proof.Machine.execGroupStatusSend s
  | .groupCommand x1 x2 x3 x4 x5 => Sys2Proof.Machine.execGroupCommand x1 x2 x3 x4 x5 s
  | .groupCommandApply x1 => Sys2Proof.Machine.execGroupCommandApply x1 s
  | .groupCmdTimeout x1 => Sys2Proof.Machine.execGroupCmdTimeout x1 s
  | .trunkStop x1 => Sys2Proof.Machine.execTrunkStop x1 s
  | .measurementFrame x1 x2 x3 x4 x5 => Sys2Proof.Machine.execMeasurementFrame x1 x2 x3 x4 x5 s
  | .trunkVoltage x1 x2 => Sys2Proof.Machine.execTrunkVoltage x1 x2 s
  | .groupStatus x1 x2 x3 => Sys2Proof.Machine.execGroupStatus x1 x2 x3 s
  | .handover x1 x2 => Sys2Proof.Machine.execHandover x1 x2 s
  | .stopLimitExpire x1 => Sys2Proof.Machine.execStopLimitExpire x1 s
  | .stopCoilRelease x1 => Sys2Proof.Machine.execStopCoilRelease x1 s
  | .trunkStopClear x1 x2 => Sys2Proof.Machine.execTrunkStopClear x1 x2 s
  | .xferShiftEnd x1 => Sys2Proof.Machine.execXferShiftEnd x1 s
  | .xferZeroHeld x1 => Sys2Proof.Machine.execXferZeroHeld x1 s
  | .xferZeroTimeout x1 => Sys2Proof.Machine.execXferZeroTimeout x1 s
  | .xferOpenEnd x1 => Sys2Proof.Machine.execXferOpenEnd x1 s
  | .xferDiverged x1 x2 => Sys2Proof.Machine.execXferDiverged x1 x2 s
  | .xferDivTimeout x1 => Sys2Proof.Machine.execXferDivTimeout x1 s
  | .xferMatched x1 x2 => Sys2Proof.Machine.execXferMatched x1 x2 s
  | .xferMatchTimeout x1 => Sys2Proof.Machine.execXferMatchTimeout x1 s
  | .xferCoilEnergise x1 x2 => Sys2Proof.Machine.execXferCoilEnergise x1 x2 s
  | .xferCloseEnd x1 => Sys2Proof.Machine.execXferCloseEnd x1 s
  | .xferCloseCheckEnd x1 x2 => Sys2Proof.Machine.execXferCloseCheckEnd x1 x2 s
  | .xferDeadCloseEnd x1 x2 => Sys2Proof.Machine.execXferDeadCloseEnd x1 x2 s
  | .failCloseRetest x1 x2 => Sys2Proof.Machine.execFailCloseRetest x1 x2 s
  | .trunkVoltageSilence x1 => Sys2Proof.Machine.execTrunkVoltageSilence x1 s
  | .weldClr x1 x2 => Sys2Proof.Machine.execWeldClr x1 x2 s
  | .weldRetestDone x1 x2 => Sys2Proof.Machine.execWeldRetestDone x1 x2 s
  | .opsPreset x1 x2 => Sys2Proof.Machine.execOpsPreset x1 x2 s
  | .phaseStart x1 x2 => Sys2Proof.Machine.execPhaseStart x1 x2 s
  | .deadTimeEnd x1 x2 => Sys2Proof.Machine.execDeadTimeEnd x1 x2 s
  | .phasePeakOff x1 x2 x3 => Sys2Proof.Machine.execPhasePeakOff x1 x2 x3 s
  | .phaseTonMax x1 x2 => Sys2Proof.Machine.execPhaseTonMax x1 x2 s
  | .periodStart x1 x2 x3 => Sys2Proof.Machine.execPeriodStart x1 x2 x3 s
  | .syncEdge x1 x2 x3 => Sys2Proof.Machine.execSyncEdge x1 x2 x3 s
  | .syncEdgeMissing x1 => Sys2Proof.Machine.execSyncEdgeMissing x1 s
  | .delayLineCal x1 => Sys2Proof.Machine.execDelayLineCal x1 s
  | .delayCalDone x1 x2 => Sys2Proof.Machine.execDelayCalDone x1 x2 s
  | .balanceStep x1 => Sys2Proof.Machine.execBalanceStep x1 s
  | .phaseImbalance x1 x2 x3 => Sys2Proof.Machine.execPhaseImbalance x1 x2 x3 s
  | .desatQualify x1 x2 x3 => Sys2Proof.Machine.execDesatQualify x1 x2 x3 s
  | .phaseFaultClear x1 x2 x3 x4 => Sys2Proof.Machine.execPhaseFaultClear x1 x2 x3 x4 s
  | .tripClear x1 x2 => Sys2Proof.Machine.execTripClear x1 x2 s
  | .metrologySample x1 => Sys2Proof.Machine.execMetrologySample x1 s
  | .controlSample x1 => Sys2Proof.Machine.execControlSample x1 s
  | .mainsCycleEnd x1 => Sys2Proof.Machine.execMainsCycleEnd x1 s
  | .sensorFaultQualify x1 x2 x3 => Sys2Proof.Machine.execSensorFaultQualify x1 x2 x3 s
  | .twinDisagree x1 => Sys2Proof.Machine.execTwinDisagree x1 s
  | .captureStart x1 x2 => Sys2Proof.Machine.execCaptureStart x1 x2 s
  | .captureDone => Sys2Proof.Machine.execCaptureDone s
  | .calCommit x1 => Sys2Proof.Machine.execCalCommit x1 s
  | .calCheck => Sys2Proof.Machine.execCalCheck s
  | .pulseStart x1 => Sys2Proof.Machine.execPulseStart x1 s
  | .pulseEnd x1 => Sys2Proof.Machine.execPulseEnd x1 s
  | .pulseConfigWrite x1 x2 x3 => Sys2Proof.Machine.execPulseConfigWrite x1 x2 x3 s
  | .addendCommit x1 x2 x3 => Sys2Proof.Machine.execAddendCommit x1 x2 x3 s
  | .stepGo x1 x2 => Sys2Proof.Machine.execStepGo x1 x2 s
  | .sourceChange x1 x2 x3 => Sys2Proof.Machine.execSourceChange x1 x2 x3 s
  | .ptpLockWrite x1 x2 x3 => Sys2Proof.Machine.execPtpLockWrite x1 x2 x3 s
  | .servoUpdate x1 x2 => Sys2Proof.Machine.execServoUpdate x1 x2 s
  | .sourceLost x1 => Sys2Proof.Machine.execSourceLost x1 s
  | .timeSyncSend => Sys2Proof.Machine.execTimeSyncSend s
  | .timeSync x1 x2 x3 x4 x5 => Sys2Proof.Machine.execTimeSync x1 x2 x3 x4 x5 s
  | .followerHoldover => Sys2Proof.Machine.execFollowerHoldover s
  | .fdomWrite x1 x2 => Sys2Proof.Machine.execFdomWrite x1 x2 s
  | .fdomApply => Sys2Proof.Machine.execFdomApply s
  | .captureEdge x1 x2 => Sys2Proof.Machine.execCaptureEdge x1 x2 s
  | .captureRead x1 x2 => Sys2Proof.Machine.execCaptureRead x1 x2 s
  | .ppsOutPulse => Sys2Proof.Machine.execPpsOutPulse s
  | .rtcTrim => Sys2Proof.Machine.execRtcTrim s
  | .vbatPowerOn => Sys2Proof.Machine.execVbatPowerOn s
  | .vbatChangeover x1 => Sys2Proof.Machine.execVbatChangeover x1 s
  | .mailboxGo x1 x2 => Sys2Proof.Machine.execMailboxGo x1 x2 s
  | .sessionOpen => Sys2Proof.Machine.execSessionOpen s
  | .sessionClose => Sys2Proof.Machine.execSessionClose s
  | .gridLimit => Sys2Proof.Machine.execGridLimit s
  | .replay => Sys2Proof.Machine.execReplay s
  | .setContract => Sys2Proof.Machine.execSetContract s
  | .billingReset => Sys2Proof.Machine.execBillingReset s
  | .calLoad => Sys2Proof.Machine.execCalLoad s
  | .calActivate => Sys2Proof.Machine.execCalActivate s
  | .zoneSet => Sys2Proof.Machine.execZoneSet s
  | .ackTamper => Sys2Proof.Machine.execAckTamper s
  | .seal => Sys2Proof.Machine.execSeal s
  | .unseal => Sys2Proof.Machine.execUnseal s
  | .subintervalEnd => Sys2Proof.Machine.execSubintervalEnd s
  | .tariffSwitch => Sys2Proof.Machine.execTariffSwitch s
  | .calendarActivation => Sys2Proof.Machine.execCalendarActivation s
  | .zoneChange => Sys2Proof.Machine.execZoneChange s
  | .gridLimitBoundary => Sys2Proof.Machine.execGridLimitBoundary s
  | .tallySnapshot x1 => Sys2Proof.Machine.execTallySnapshot x1 s
  | .periodicCommit => Sys2Proof.Machine.execPeriodicCommit s
  | .recordSignDone => Sys2Proof.Machine.execRecordSignDone s
  | .tamperEvent x1 x2 => Sys2Proof.Machine.execTamperEvent x1 x2 s
  | .plugInsert x1 x2 => Sys2Proof.Machine.execPlugInsert x1 x2 s
  | .plugRemove x1 x2 => Sys2Proof.Machine.execPlugRemove x1 x2 s
  | .plugFault x1 x2 => Sys2Proof.Machine.execPlugFault x1 x2 s
  | .pilotChange x1 x2 x3 => Sys2Proof.Machine.execPilotChange x1 x2 x3 s
  | .imdFault x1 => Sys2Proof.Machine.execImdFault x1 s
  | .dropClr x1 x2 => Sys2Proof.Machine.execDropClr x1 x2 s
  | .dischargeTimeout x1 => Sys2Proof.Machine.execDischargeTimeout x1 s
  | .lockCommand x1 x2 x3 => Sys2Proof.Machine.execLockCommand x1 x2 x3 s
  | .lockPulseEnd x1 => Sys2Proof.Machine.execLockPulseEnd x1 s
  | .lockTimeout x1 => Sys2Proof.Machine.execLockTimeout x1 s
  | .lockFeedbackLost x1 => Sys2Proof.Machine.execLockFeedbackLost x1 s
  | .lockClr x1 x2 => Sys2Proof.Machine.execLockClr x1 x2 s
  | .wake x1 x2 => Sys2Proof.Machine.execWake x1 x2 s
  | .soundRst x1 x2 => Sys2Proof.Machine.execSoundRst x1 x2 s
  | .soundingFrame x1 x2 => Sys2Proof.Machine.execSoundingFrame x1 x2 s
  | .plcJoined x1 => Sys2Proof.Machine.execPlcJoined x1 s
  | .modemPowerDown x1 => Sys2Proof.Machine.execModemPowerDown x1 s
  | .t1sLinkChange x1 x2 => Sys2Proof.Machine.execT1sLinkChange x1 x2 s
  | .vehicleFrameRx x1 x2 x3 => Sys2Proof.Machine.execVehicleFrameRx x1 x2 x3 s
  | .buttonChange x1 x2 x3 => Sys2Proof.Machine.execButtonChange x1 x2 x3 s
  | .longPress x1 x2 => Sys2Proof.Machine.execLongPress x1 x2 s
  | .touchScan x1 x2 => Sys2Proof.Machine.execTouchScan x1 x2 s
  | .touchRecal x1 x2 => Sys2Proof.Machine.execTouchRecal x1 x2 s
  | .recal x1 x2 => Sys2Proof.Machine.execRecal x1 x2 s
  | .plcFrame x1 x2 x3 x4 => Sys2Proof.Machine.execPlcFrame x1 x2 x3 x4 s
  | .t1sFrame x1 x2 x3 x4 => Sys2Proof.Machine.execT1sFrame x1 x2 x3 x4 s
  | .meshFrame x1 x2 x3 x4 => Sys2Proof.Machine.execMeshFrame x1 x2 x3 x4 s
  | .mainsZeroCross x1 x2 => Sys2Proof.Machine.execMainsZeroCross x1 x2 s
  | .meshSlotStart x1 => Sys2Proof.Machine.execMeshSlotStart x1 s
  | .meshTxStart x1 => Sys2Proof.Machine.execMeshTxStart x1 s
  | .meshFrameRx x1 => Sys2Proof.Machine.execMeshFrameRx x1 s
  | .meshAckRx x1 => Sys2Proof.Machine.execMeshAckRx x1 s
  | .meshAckMissing => Sys2Proof.Machine.execMeshAckMissing s
  | .mapUpdateRx x1 x2 x3 x4 x5 => Sys2Proof.Machine.execMapUpdateRx x1 x2 x3 x4 x5 s
  | .mapUpdateRepeat x1 x2 => Sys2Proof.Machine.execMapUpdateRepeat x1 x2 s
  | .msduLifetimeExpire x1 x2 x3 => Sys2Proof.Machine.execMsduLifetimeExpire x1 x2 x3 s
  | .routeAdvertise => Sys2Proof.Machine.execRouteAdvertise s
  | .neighbourLost x1 => Sys2Proof.Machine.execNeighbourLost x1 s
  | .routeLapse x1 x2 => Sys2Proof.Machine.execRouteLapse x1 x2 s
  | .meshLineFault => Sys2Proof.Machine.execMeshLineFault s
  | .meshLineResume x1 => Sys2Proof.Machine.execMeshLineResume x1 s
  | .laneRetrain x1 x2 x3 => Sys2Proof.Machine.execLaneRetrain x1 x2 x3 s
  | .laneAligned x1 x2 => Sys2Proof.Machine.execLaneAligned x1 x2 s
  | .laneLoss x1 => Sys2Proof.Machine.execLaneLoss x1 s
  | .laneFrameTimeout x1 => Sys2Proof.Machine.execLaneFrameTimeout x1 s
  | .linkResume x1 x2 x3 x4 => Sys2Proof.Machine.execLinkResume x1 x2 x3 x4 s
  | .linkHoldExpire x1 => Sys2Proof.Machine.execLinkHoldExpire x1 s
  | .linkHandshake x1 => Sys2Proof.Machine.execLinkHandshake x1 s
  | .helloSend x1 => Sys2Proof.Machine.execHelloSend x1 s
  | .helloRx x1 x2 => Sys2Proof.Machine.execHelloRx x1 x2 s
  | .tiolmoxFrameRx x1 x2 => Sys2Proof.Machine.execTiolmoxFrameRx x1 x2 s
  | .retxTimeout x1 x2 => Sys2Proof.Machine.execRetxTimeout x1 x2 s
  | .creditStarve x1 x2 => Sys2Proof.Machine.execCreditStarve x1 x2 s
  | .stackIdRequest x1 x2 x3 => Sys2Proof.Machine.execStackIdRequest x1 x2 x3 s
  | .stackNumberAssign x1 x2 x3 => Sys2Proof.Machine.execStackNumberAssign x1 x2 x3 s
  | .ethFrameRx x1 x2 => Sys2Proof.Machine.execEthFrameRx x1 x2 s
  | .ethTxQueue x1 x2 x3 => Sys2Proof.Machine.execEthTxQueue x1 x2 x3 s
  | .ethFrameTx x1 => Sys2Proof.Machine.execEthFrameTx x1 s
  | .tickStart x1 => Sys2Proof.Machine.execTickStart x1 s
  | .digestCompute => Sys2Proof.Machine.execDigestCompute s
  | .lockstepTicket x1 x2 x3 x4 => Sys2Proof.Machine.execLockstepTicket x1 x2 x3 x4 s
  | .lockstepSilence => Sys2Proof.Machine.execLockstepSilence s
  | .xfer x1 x2 => Sys2Proof.Machine.execXfer x1 x2 s
  | .autoXferStart => Sys2Proof.Machine.execAutoXferStart s
  | .xferPrecopyRound x1 => Sys2Proof.Machine.execXferPrecopyRound x1 s
  | .xferAdoptTick => Sys2Proof.Machine.execXferAdoptTick s
  | .xferStateLoaded x1 => Sys2Proof.Machine.execXferStateLoaded x1 s
  | .catchupEnd => Sys2Proof.Machine.execCatchupEnd s
  | .xferTimeout => Sys2Proof.Machine.execXferTimeout s
  | .xferRetry => Sys2Proof.Machine.execXferRetry s
  | .force x1 x2 => Sys2Proof.Machine.execForce x1 x2 s
  | .rejoin x1 x2 => Sys2Proof.Machine.execRejoin x1 x2 s
  | .pairFailIn x1 x2 x3 => Sys2Proof.Machine.execPairFailIn x1 x2 x3 s
  | .hbSilence x1 => Sys2Proof.Machine.execHbSilence x1 s
  | .takeoverOutputs => Sys2Proof.Machine.execTakeoverOutputs s
  | .channelStart x1 => Sys2Proof.Machine.execChannelStart x1 s
  | .inrushStageEnd x1 => Sys2Proof.Machine.execInrushStageEnd x1 s
  | .burstEnd x1 => Sys2Proof.Machine.execBurstEnd x1 s
  | .channelOvercurrent x1 => Sys2Proof.Machine.execChannelOvercurrent x1 s
  | .channelShort x1 => Sys2Proof.Machine.execChannelShort x1 s
  | .channelRetry x1 => Sys2Proof.Machine.execChannelRetry x1 s
  | .retryReset x1 => Sys2Proof.Machine.execRetryReset x1 s
  | .rearm x1 x2 => Sys2Proof.Machine.execRearm x1 x2 s
  | .thermalLatch x1 x2 => Sys2Proof.Machine.execThermalLatch x1 x2 s
  | .thermalRelease x1 x2 => Sys2Proof.Machine.execThermalRelease x1 x2 s
  | .thermClr x1 x2 => Sys2Proof.Machine.execThermClr x1 x2 s
  | .pwmPeriodStart x1 x2 => Sys2Proof.Machine.execPwmPeriodStart x1 x2 s
  | .compFreezeEnd x1 => Sys2Proof.Machine.execCompFreezeEnd x1 s
  | .coilPullEnd x1 => Sys2Proof.Machine.execCoilPullEnd x1 s
  | .openLoad x1 => Sys2Proof.Machine.execOpenLoad x1 s
  | .railUndervoltage x1 => Sys2Proof.Machine.execRailUndervoltage x1 s
  | .railRecover x1 => Sys2Proof.Machine.execRailRecover x1 s
  | .switchDieReport x1 x2 x3 => Sys2Proof.Machine.execSwitchDieReport x1 x2 x3 s
  | .switchDieHold x1 => Sys2Proof.Machine.execSwitchDieHold x1 s
  | .switchHoldExpire x1 => Sys2Proof.Machine.execSwitchHoldExpire x1 s
  | .switchDieLost x1 => Sys2Proof.Machine.execSwitchDieLost x1 s
  | .switchLinkReturn x1 => Sys2Proof.Machine.execSwitchLinkReturn x1 s
  | .hkRoundStart x1 x2 => Sys2Proof.Machine.execHkRoundStart x1 x2 s
  | .hkRoundPublish => Sys2Proof.Machine.execHkRoundPublish s
  | .rateDerateRelease x1 x2 => Sys2Proof.Machine.execRateDerateRelease x1 x2 s
  | .mintGo x1 => Sys2Proof.Machine.execMintGo x1 s
  | .keySelftestDone x1 => Sys2Proof.Machine.execKeySelftestDone x1 s
  | .keyOldZeroise x1 => Sys2Proof.Machine.execKeyOldZeroise x1 s
  | .revoke x1 x2 => Sys2Proof.Machine.execRevoke x1 x2 s
  | .revokedZeroise x1 => Sys2Proof.Machine.execRevokedZeroise x1 s
  | .kwSend x1 x2 => Sys2Proof.Machine.execKwSend x1 x2 s
  | .keyWrap x1 => Sys2Proof.Machine.execKeyWrap x1 s
  | .aesGcmEncrypt x1 x2 => Sys2Proof.Machine.execAesGcmEncrypt x1 x2 s
  | .aesGcmDecrypt x1 x2 => Sys2Proof.Machine.execAesGcmDecrypt x1 x2 s
  | .hmacSha256 x1 x2 => Sys2Proof.Machine.execHmacSha256 x1 x2 s
  | .sha256 x1 => Sys2Proof.Machine.execSha256 x1 s
  | .ecdsaSign x1 x2 => Sys2Proof.Machine.execEcdsaSign x1 x2 s
  | .ecdsaVerify x1 x2 => Sys2Proof.Machine.execEcdsaVerify x1 x2 s
  | .ecdh x1 x2 x3 => Sys2Proof.Machine.execEcdh x1 x2 x3 s
  | .importBlob x1 => Sys2Proof.Machine.execImportBlob x1 s
  | .loadInClear x1 => Sys2Proof.Machine.execLoadInClear x1 s
  | .cryptoOpComplete => Sys2Proof.Machine.execCryptoOpComplete s
  | .anchorProgram x1 x2 => Sys2Proof.Machine.execAnchorProgram x1 x2 s
  | .anchorRevoke x1 x2 => Sys2Proof.Machine.execAnchorRevoke x1 x2 s
  | .rollAdv x1 => Sys2Proof.Machine.execRollAdv x1 s
  | .dbkEntry x1 x2 x3 => Sys2Proof.Machine.execDbkEntry x1 x2 x3 s
  | .daybookWrite x1 x2 => Sys2Proof.Machine.execDaybookWrite x1 x2 s
  | .daybookCommit => Sys2Proof.Machine.execDaybookCommit s
  | .daybookRelease x1 x2 => Sys2Proof.Machine.execDaybookRelease x1 x2 s
  | .mirrorRecordRx x1 => Sys2Proof.Machine.execMirrorRecordRx x1 s
  | .mirrorAck x1 => Sys2Proof.Machine.execMirrorAck x1 s
  | .fullCopyDone => Sys2Proof.Machine.execFullCopyDone s
  | .coldRead x1 x2 => Sys2Proof.Machine.execColdRead x1 x2 s
  | .coldIdent => Sys2Proof.Machine.execColdIdent s
  | .barrierChannelDown x1 x2 x3 => Sys2Proof.Machine.execBarrierChannelDown x1 x2 x3 s
  | .barrierChannelUp x1 x2 x3 => Sys2Proof.Machine.execBarrierChannelUp x1 x2 x3 s
  | .barrierReasmTimeout x1 => Sys2Proof.Machine.execBarrierReasmTimeout x1 s
  | .regRd x1 x2 x3 x4 x5 => Sys2Proof.Machine.execRegRd x1 x2 x3 x4 x5 s
  | .regWr x1 x2 x3 x4 x5 x6 x7 => Sys2Proof.Machine.execRegWr x1 x2 x3 x4 x5 x6 x7 s
  | .regRsp x1 x2 x3 => Sys2Proof.Machine.execRegRsp x1 x2 x3 s
  | .tallySnap x1 => Sys2Proof.Machine.execTallySnap x1 s
  | .meterRecord x1 => Sys2Proof.Machine.execMeterRecord x1 s
  | .barTxQueue x1 x2 => Sys2Proof.Machine.execBarTxQueue x1 x2 s
  | .scrubRead x1 => Sys2Proof.Machine.execScrubRead x1 s
  | .scrubPassLate x1 => Sys2Proof.Machine.execScrubPassLate x1 s
  | .injGo x1 x2 => Sys2Proof.Machine.execInjGo x1 x2 s
  | .mmuInvalidate x1 x2 => Sys2Proof.Machine.execMmuInvalidate x1 x2 s
  | .mmuInvalidateDone => Sys2Proof.Machine.execMmuInvalidateDone s
  | .fqPop x1 => Sys2Proof.Machine.execFqPop x1 s
  | .dmaQueue x1 x2 x3 => Sys2Proof.Machine.execDmaQueue x1 x2 x3 s
  | .dmaBeat => Sys2Proof.Machine.execDmaBeat s
  | .resume x1 x2 => Sys2Proof.Machine.execResume x1 x2 s
  | .skip x1 x2 => Sys2Proof.Machine.execSkip x1 x2 s
  | .monitorSample x1 x2 x3 x4 => Sys2Proof.Machine.execMonitorSample x1 x2 x3 x4 s
  | .snap x1 x2 => Sys2Proof.Machine.execSnap x1 x2 s
  | .lockFeedbackChange x1 x2 => Sys2Proof.Machine.execLockFeedbackChange x1 x2 s
  | .imdClear x1 => Sys2Proof.Machine.execImdClear x1 s
  | .limiterRelease x1 => Sys2Proof.Machine.execLimiterRelease x1 s
  | .clockRestored x1 x2 => Sys2Proof.Machine.execClockRestored x1 x2 s
  | .vinRestored x1 x2 => Sys2Proof.Machine.execVinRestored x1 x2 s
  | .refclkRestored x1 => Sys2Proof.Machine.execRefclkRestored x1 s
  | .wrapCountChange x1 => Sys2Proof.Machine.execWrapCountChange x1 s
  | .controlBlock x1 x2 x3 => Sys2Proof.Machine.execControlBlock x1 x2 x3 s

end Sys2Proof.Machine
end

