-- ==== Sys2Proof/WellFormed.lean ====
section
/-!
DEFINITION. Which commands are well formed: the lengths the spec gives to what a command carries, where its operands'
types do not say it.
-/

namespace Sys2Proof

open Sys2Proof.Machine

/-- A command is well formed. -/
def Instr.wellFormed : Instr → Bool
  -- a store is of 1, 2, 4 or 8 bytes
  | .regWrite _ _ data => data.length == 1 || data.length == 2 || data.length == 4 || data.length == 8
  -- a register is aligned to 4 bytes (R22)
  | .wideLowRead _ _ off => off.toNat % 4 == 0
  -- a bid is 88 bytes (R65)
  | .bid x => x.frame.length == 88
  -- a reference for each group of the mask (R20, R434)
  | .groupCommand _ _ mask refs _ => refs.length == Num.popcount 12 mask.toNat
  -- a mean for each of 8 phases (R124)
  | .periodStart _ imean _ => imean.length == 8
  -- 58 carrier groups (R276)
  | .soundingFrame _ att => att.length == 58
  -- a vehicle frame (R275)
  | .vehicleFrameRx _ frame _ => decide (frame.length ≤ 2048)
  -- four electrodes (R282)
  | .touchScan _ raw => raw.length == 4
  -- a priority 0 to 3, an MSDU of 1 to 2,048 bytes (R433)
  | .meshFrame _ _ prio msdu => decide (prio.toNat ≤ 3 ∧ 1 ≤ msdu.length ∧ msdu.length ≤ 2048)
  -- a code for each carrier (R289)
  | .mapUpdateRx _ _ _ _ codes => codes.length == 917
  -- a SEQ for each class (R311)
  | .linkResume _ _ _ seqs => seqs.length == 4
  -- a header and a CRC at least (R312)
  | .tiolmoxFrameRx _ f => decide (14 ≤ f.length)
  -- content of a ticket (R340)
  | .lockstepTicket _ _ _ content => decide (content.length ≤ 240)
  -- a switch die reports 24 channels (R369)
  | .switchDieReport _ _ chans => chans.length == 24
  -- four conversions of each channel read (R375)
  | .hkRoundStart reads _ => reads.all fun r => decide (r.1 < 64) && r.2.length == 4
  -- one blob (R398)
  | .keyWrap blob => decide (blob.length ≤ 256)
  -- a Daybook payload holds 32 bytes at most (R433)
  | .dbkEntry _ _ payload => decide (payload.length ≤ 32)
  -- a Daybook record is 64 bytes (R416)
  | .mirrorRecordRx rec => rec.length == 64
  -- COUNT 1 to 64, reserved bytes 0 (R433)
  | .regRd _ _ _ count rsv => decide (1 ≤ count.toNat ∧ count.toNat ≤ 64) && rsv == 0
  -- COUNT words, reserved bits 0 (R433)
  | .regWr _ _ _ count attr rsv data => decide (1 ≤ count.toNat ∧ count.toNat ≤ 64) && data.length == count.toNat && decide (attr.toNat ≤ 1) && rsv == 0
  -- 64 words at most (R433)
  | .regRsp _ _ data => decide (data.length ≤ 64)
  -- the types of the operands say all
  | .memoryRead .. | .pageSoftReset .. | .softResetDone .. | .pageEnable .. | .pageDisable ..
  | .pageFreeze .. | .pageLockWrite .. | .unlockWindowExpire .. | .eventClear .. | .evtFwdRepeat | .evtFwd ..
  | .fwdClear .. | .eventClaim .. | .eventComplete .. | .heartbeatSend .. | .heartbeat .. | .otherSideLost ..
  | .clockLost .. | .clockLossReset .. | .refclkLoss .. | .estopAssert .. | .trunkStopRepeat
  | .estopRelease .. | .hostResetRelease .. | .fieldResetRelease .. | .holdReady .. | .holdTimeout ..
  | .hostBoot .. | .imageRequest .. | .laneBootTimeout .. | .fieldImageStart | .powerOnReset ..
  | .resetLand .. | .softwareReset .. | .watchdogKick .. | .watchdogHalf .. | .watchdogTimeout ..
  | .fieldPfWarning .. | .hostPfWarning .. | .pfGateRemove .. | .pfCommit .. | .pfRecord | .brownOut ..
  | .pfRecoveryReset .. | .coreClockChange .. | .coreClockDone | .flashProgram .. | .flashErase ..
  | .flashOpDone | .bookRun .. | .subGo .. | .orderAccept .. | .cancel .. | .subResult .. | .groupArm ..
  | .clearingCut | .availReport .. | .bidDeadline | .levelOne | .grantFrame .. | .grantDeadline
  | .planFrame .. | .planDeadline | .planAdopt | .peerAbsent .. | .islandEnter | .sliceReconcile ..
  | .loopCycleStart .. | .loopCompute .. | .loopDeadlineMiss .. | .cooloffEnd .. | .lutCommit .. | .tuneGo ..
  | .tuneAbort .. | .tuneTimeout | .groupStatusSend | .groupCommandApply .. | .groupCmdTimeout ..
  | .trunkStop .. | .measurementFrame .. | .trunkVoltage .. | .groupStatus .. | .handover ..
  | .stopLimitExpire .. | .stopCoilRelease .. | .trunkStopClear .. | .xferShiftEnd .. | .xferZeroHeld ..
  | .xferZeroTimeout .. | .xferOpenEnd .. | .xferDiverged .. | .xferDivTimeout .. | .xferMatched ..
  | .xferMatchTimeout .. | .xferCoilEnergise .. | .xferCloseEnd .. | .xferCloseCheckEnd ..
  | .xferDeadCloseEnd .. | .failCloseRetest .. | .trunkVoltageSilence .. | .weldClr .. | .weldRetestDone ..
  | .opsPreset .. | .phaseStart .. | .deadTimeEnd .. | .phasePeakOff .. | .phaseTonMax .. | .syncEdge ..
  | .syncEdgeMissing .. | .delayLineCal .. | .delayCalDone .. | .balanceStep .. | .phaseImbalance ..
  | .desatQualify .. | .phaseFaultClear .. | .tripClear .. | .metrologySample .. | .controlSample ..
  | .mainsCycleEnd .. | .sensorFaultQualify .. | .twinDisagree .. | .captureStart .. | .captureDone
  | .calCommit .. | .calCheck | .pulseStart .. | .pulseEnd .. | .pulseConfigWrite .. | .addendCommit ..
  | .stepGo .. | .sourceChange .. | .ptpLockWrite .. | .servoUpdate .. | .sourceLost .. | .timeSyncSend
  | .timeSync .. | .followerHoldover | .fdomWrite .. | .fdomApply | .captureEdge .. | .captureRead ..
  | .ppsOutPulse | .rtcTrim | .vbatPowerOn | .vbatChangeover .. | .mailboxGo .. | .sessionOpen
  | .sessionClose | .gridLimit | .replay | .setContract | .billingReset | .calLoad | .calActivate | .zoneSet
  | .ackTamper | .seal | .unseal | .subintervalEnd | .tariffSwitch | .calendarActivation | .zoneChange
  | .gridLimitBoundary | .tallySnapshot .. | .periodicCommit | .recordSignDone | .tamperEvent ..
  | .plugInsert .. | .plugRemove .. | .plugFault .. | .pilotChange .. | .imdFault .. | .dropClr ..
  | .dischargeTimeout .. | .lockCommand .. | .lockPulseEnd .. | .lockTimeout .. | .lockFeedbackLost ..
  | .lockClr .. | .wake .. | .soundRst .. | .plcJoined .. | .modemPowerDown .. | .t1sLinkChange ..
  | .buttonChange .. | .longPress .. | .touchRecal .. | .recal .. | .plcFrame .. | .t1sFrame ..
  | .mainsZeroCross .. | .meshSlotStart .. | .meshTxStart .. | .meshFrameRx .. | .meshAckRx ..
  | .meshAckMissing | .mapUpdateRepeat .. | .msduLifetimeExpire .. | .routeAdvertise | .neighbourLost ..
  | .routeLapse .. | .meshLineFault | .meshLineResume .. | .laneRetrain .. | .laneAligned .. | .laneLoss ..
  | .laneFrameTimeout .. | .linkHoldExpire .. | .linkHandshake .. | .helloSend .. | .helloRx ..
  | .retxTimeout .. | .creditStarve .. | .stackIdRequest .. | .stackNumberAssign .. | .ethFrameRx ..
  | .ethTxQueue .. | .ethFrameTx .. | .tickStart .. | .digestCompute | .lockstepSilence | .xfer ..
  | .autoXferStart | .xferPrecopyRound .. | .xferAdoptTick | .xferStateLoaded .. | .catchupEnd | .xferTimeout
  | .xferRetry | .force .. | .rejoin .. | .pairFailIn .. | .hbSilence .. | .takeoverOutputs
  | .channelStart .. | .inrushStageEnd .. | .burstEnd .. | .channelOvercurrent .. | .channelShort ..
  | .channelRetry .. | .retryReset .. | .rearm .. | .thermalLatch .. | .thermalRelease .. | .thermClr ..
  | .pwmPeriodStart .. | .compFreezeEnd .. | .coilPullEnd .. | .openLoad .. | .railUndervoltage ..
  | .railRecover .. | .switchDieHold .. | .switchHoldExpire .. | .switchDieLost .. | .switchLinkReturn ..
  | .hkRoundPublish | .rateDerateRelease .. | .mintGo .. | .keySelftestDone .. | .keyOldZeroise ..
  | .revoke .. | .revokedZeroise .. | .kwSend .. | .aesGcmEncrypt .. | .aesGcmDecrypt .. | .hmacSha256 ..
  | .sha256 .. | .ecdsaSign .. | .ecdsaVerify .. | .ecdh .. | .importBlob .. | .loadInClear ..
  | .cryptoOpComplete | .anchorProgram .. | .anchorRevoke .. | .rollAdv .. | .daybookWrite ..
  | .daybookCommit | .daybookRelease .. | .mirrorAck .. | .fullCopyDone | .coldRead .. | .coldIdent
  | .barrierChannelDown .. | .barrierChannelUp .. | .barrierReasmTimeout .. | .tallySnap .. | .meterRecord ..
  | .barTxQueue .. | .scrubRead .. | .scrubPassLate .. | .injGo .. | .mmuInvalidate .. | .mmuInvalidateDone
  | .fqPop .. | .dmaQueue .. | .dmaBeat | .resume .. | .skip .. | .monitorSample .. | .snap ..
  | .lockFeedbackChange .. | .imdClear .. | .limiterRelease .. | .clockRestored .. | .vinRestored ..
  | .refclkRestored .. | .wrapCountChange .. | .controlBlock .. => true

end Sys2Proof
end

