-- ==== Sys2Proof/Safety.lean ====
section
/-!
DEFINITION. What counts as a safe run: the form every state keeps, and that no step stops.
-/

namespace Sys2Proof.Machine

/-- The canonical form of a block: registers and memory list nothing that reads as unlisted and list it in order. -/
abbrev Blk.canonical (b : Blk) : Prop := Regs.wf b.regs ∧ Memory.wf b.mem

/-- The invariant of a state. -/
abbrev Inv (s : State) : Prop := s.blk.canonical

/-- A step goes on. -/
def Goes (o : Out) (p : State → Prop) : Prop := ∃ t, o = .next t ∧ p t

/-- A command completes: it answers a next state that holds the same waiting commands and a block with a property. -/
def Completes (i : Instr) (s : State) (p : Blk → Prop) : Prop := ∃ b, exec i s = .next { s with blk := b } ∧ p b

/-- What the write of a word to a register comes to (R534). -/
def writeOf (b : Blk) (i : Init) (a : Nat) (v : Word) : Wrote := storeWord b i false (a / 0x1000 * 0x1000) (a % 0x1000) v

/-- A write of a word to a register acts at once: no field is refused, and every bit set in the word is accepted. -/
abbrev Accepts (b : Blk) (i : Init) (a : Nat) (v : Word) : Prop :=
  lateWrite b a = false ∧ (writeOf b i a v).status = 0 ∧ (writeOf b i a v).mask ≠ 0 ∧
    v.toNat &&& (writeOf b i a v).mask = v.toNat

/-- No contactor coil is driven: no load switch that goes off drops one (R366). -/
abbrev NoCoil (b : Blk) : Prop := ∀ c, c < 24 → (lswOf b c).drvOn = false

/-- A run of some steps that never stops and keeps the invariant. -/
def SafeRun : Nat → State → Prop
  | 0, s => Inv s
  | n + 1, s => Inv s ∧ Goes (step s) (SafeRun n)

end Sys2Proof.Machine
end

