-- ==== Sys2Proof/Certificates/Slice0/Obligations.lean ====
section
/-!
DEFINITION. The statements for the provers. Most say, command by command, where a command completes and what its next
state then holds (`Completes`); the others state rules of the spec over all states, frames, and the invariant.
-/

open Sys2Proof Sys2Proof.Machine Sys2Proof.Num

namespace Sys2Proof.Stated

/-- The step a transfer's end leaves: none, or the retest of a welded coil that waited for it (R104). -/
abbrev endStep (x : XferSt) : Nat := if x.due < 24 then 13 else 0

/-- What a MAC reads of its present receive or transmit descriptor. -/
abbrev ethRead (b : Blk) (e tx : Nat) : StreamRead := streamRead b (32 + e) (ethDesc b e tx) 32

/-- A descriptor was read whole, clean and with OWN set. -/
abbrev ownedDesc (r : StreamRead) : Prop :=
  r.cause = 0 ∧ r.bad = none ∧ (r.bytes.getD 11 0).toNat.testBit 7 = true

/-- A received frame's data written to its buffer. -/
abbrev ethStore (b : Blk) (e : Nat) (f : List Byte) : Blk × Nat × Nat :=
  streamWrite (ethRead b e 0).blk (32 + e) (ofLE ((ethRead b e 0).bytes.take 8)) ((f.take (f.length - 4)).take 1518)

/-- The data of the frame a transmit descriptor names. -/
abbrev ethFetch (b : Blk) (e : Nat) : StreamRead :=
  streamRead (ethRead b e 1).blk (32 + e) (ofLE ((ethRead b e 1).bytes.take 8)) (ofLE (((ethRead b e 1).bytes.drop 8).take 2))

/-- The map and the symbols per segment a node's next frame takes. -/
abbrev meshSym (b : Blk) (nb : Nat) : Nat :=
  segSymbols (if nb = 0xFF then carriers b / 4 else mapBits b nb ((nbrOf b nb).slots.getD b.mesh.slot 0))

/-- The queued MSDUs that can be reached, in the order they are sent. -/
abbrev meshOrder (b : Blk) : List Msdu :=
  sortBy (fun x y => decide (x.prio ≤ y.prio)) (b.mesh.queue.filter fun m => (nextHop b m.dst).isSome)

/-- What MINT_GO asks for may be minted (R396). -/
abbrev mintable (b : Blk) : Prop :=
  ((rd b SRM.MINT_CFG.PARENT = 0xFF ∧ isOn b SRM.STAT.OPEN = false ∧ isOn b SRM.STAT.ROOT_OK = true) ∨
    (rd b SRM.MINT_CFG.PARENT ≤ 63 ∧ (keySlot b (rd b SRM.MINT_CFG.PARENT)).state = 1 ∧
      ((keySlot b (rd b SRM.MINT_CFG.PARENT)).gov.type = 4 ∨
        ((keySlot b (rd b SRM.MINT_CFG.PARENT)).gov.type = 5 ∧
          (keySlot b (rd b SRM.MINT_CFG.PARENT)).gov.usage.testBit 5 = true)))) ∧
  rd b SRM.MINT_CFG.DEST ≠ 0 ∧ rd b SRM.MINT_CFG.TYPE ≠ 0 ∧ rd b SRM.MINT_CFG.TYPE < 6 ∧
  attrOk (rd b SRM.MINT_CFG.DEST) (rd b SRM.MINT_CFG.TYPE) (rd b SRM.MINT_CFG.ENGINE) (rd b SRM.MINT_CFG.USAGE) = true ∧
  slotBusy b (rd b SRM.MINT_CFG.DEST) = false

/-- A load in clear is well formed (R398). -/
abbrev loadable (b : Blk) (len : Nat) : Prop :=
  ((rd b SRM.MINT_CFG.TYPE = 6 ∧ len = 64) ∨ (rd b SRM.MINT_CFG.TYPE = 7 ∧ 28 ≤ len ∧ len ≤ 248)) ∧
  attrOk (rd b SRM.MINT_CFG.DEST) (rd b SRM.MINT_CFG.TYPE) (rd b SRM.MINT_CFG.ENGINE) (rd b SRM.MINT_CFG.USAGE) = true ∧
  rd b SRM.MINT_CFG.DEST ≠ 0 ∧ slotBusy b (rd b SRM.MINT_CFG.DEST) = false

/-- The source bytes of an operation, read after OP_CTL is written and the slot's use counted. -/
abbrev opSource (b : Blk) (i : Init) (code slot dslot : Nat) : StreamRead :=
  let c := (writeOf b i SRM.OP_CTL.GO.a (opWord code slot dslot)).blk
  streamRead (if opKeyed code slot then sUsed slot c else c) 35 (rd64 b SRM.OP_SRC.IOVA) (rd b SRM.OP_LEN.LEN)

/-- An operation is taken: its code, its slot and its source are good. -/
abbrev opRuns (b : Blk) (i : Init) (code slot dslot : Nat) : Prop :=
  Accepts b i SRM.OP_CTL.GO.a (opWord code slot dslot) ∧ opAllowed b code slot = 0 ∧
    (opSource b i code slot dslot).cause = 0 ∧ (opSource b i code slot dslot).bad = none

/-- The operation a computation of the engine leaves running. -/
abbrev opTaken (b : Blk) (i : Init) (code slot : Nat) : CryptoOp :=
  let o := opCompute code (keySlot b slot).key (opSource b i code slot 0).bytes (slot == 0xFF)
  { slot := if opKeyed code slot then slot else 64, result := o.res, out := o.out, dst := rd64 b SRM.OP_DST.IOVA }

/-- The Counting House works (R10, R28). -/
abbrev houseOn (b : Blk) : Prop := enabled b pgCH = true ∧ clocked b pgCH = true ∧ isOn b FSYS.BOOT_STAT.MET_FAIL = false

/-- A frame in the mailbox for a CODE that passes every check (R225). -/
abbrev mailPasses (b : Blk) (code : Nat) (may : List Byte → Blk → Bool) : Prop :=
  houseOn b ∧ isOn b FBAR.MBX_STAT.BUSY = true ∧ payAt (mailFrame b) 2 1 = code ∧ (cmdCheck (mailFrame b) b).1 = 0 ∧
    b.house.tw = none ∧ may (framePay (mailFrame b)) b = true

/-- A number in the payload of the frame in the mailbox: `n` bytes at an offset. -/
abbrev mailAt (b : Blk) (o n : Nat) : Nat := payAt (framePay (mailFrame b)) o n

/-- The mailbox shows a command done. -/
abbrev mailDone (b : Blk) (code : Nat) : Prop :=
  isOn b FBAR.MBX_STAT.BUSY = false ∧ rd b CH.CMD_STAT.CODE = code ∧ rd b CH.CMD_STAT.RESULT = 0

/-- What the boundary rows settle: where the front end does not sample, steps waiting for a sample act and billing time
follows legal time first. -/
abbrev billStart (b : Blk) : Blk :=
  if enabled b pgMTR && !b.met.stopped then b
  else
    let c := firstTiming (flushSteps b)
    let c := setB (billNow c) c
    { c with house := { c.house with bPrev := billNow (firstTiming (flushSteps b)) } }

/-- The boundaries due have fired, and the registers show billing time. -/
abbrev billed (b b' : Blk) : Prop :=
  b'.house.live = (settle (billStart b)).house.live ∧ b'.house.pos = (settle (billStart b)).house.pos ∧
    rd64 b' CH.BTIME.B = b'.house.live.h % 2 ^ 64 ∧ rd64 b' CH.HWM.H = b'.house.live.h % 2 ^ 64

/-- The receive descriptor of the barrier's ring as the endpoint reads it. -/
abbrev barRead (b : Blk) : StreamRead := streamRead b 34 (rd64 b BAR.RX_BASE.IOVA + 16 * rd b BAR.RX_HEAD.HEAD) 16

/-- A message written to its receive buffer. -/
abbrev barStore (b : Blk) (l : List Byte) : Blk × Nat × Nat := streamWrite (barRead b).blk 34 (ofLE ((barRead b).bytes.take 8)) l

/-- A free receive descriptor takes a message of a type. -/
abbrev barAccepts (b : Blk) (type : Nat) (l : List Byte) : Prop :=
  rd b BAR.RX_RING.SIZE ≠ 0 ∧ ownedDesc (barRead b) ∧ (barStore b l).2.1 = 0 ∧
    (streamWrite (barStore b l).1 34 (rd64 b BAR.RX_BASE.IOVA + 16 * rd b BAR.RX_HEAD.HEAD + 8) (barBack l.length type false)).2.1 = 0

/-- The payload of REG_RSP. -/
abbrev rspBytes (tag status : Byte) (d : List Word) : List Byte :=
  le 1 tag.toNat ++ le 1 status.toNat ++ le 1 (d.map (·.toNat)).length ++ le 1 0 ++ (d.map (·.toNat)).flatMap (le 4)

/-- A host request names registers of a page that exists, with a count and an offset R433 allows. -/
abbrev reqForm (page : Byte) (off : BitVec 16) (count : Byte) : Prop :=
  count.toNat ≠ 0 ∧ count.toNat ≤ 64 ∧ (pageAt (0x100000 + page.toNat * 0x1000)).isNone = false ∧ off.toNat % 4 = 0 ∧
    off.toNat + 4 * count.toNat ≤ 0x1000

/-- The write of PAGE_CTL with one bit changed. -/
abbrev ctlOf (b : Blk) (i : Init) (pg : Nat) (f : Word → Word) : Wrote :=
  writeOf b i (pg + 0x0C) (f (wordOf b (pg + 0x0C)))

/-- A register that reads without a side effect of its own: no CLAIM, no CINFO, no mailbox word. -/
abbrev plainRead (a : Nat) : Prop :=
  ¬((FBAR.MBX_DATA.DATA 0).a ≤ a ∧ a ≤ (FBAR.MBX_DATA.DATA 63).a) ∧
  ¬((a / 0x1000 * 0x1000 = pgEVC ∨ a / 0x1000 * 0x1000 = pgFEVC) ∧ 0x100 ≤ a % 0x1000 ∧ a % 0x1000 < 0x140 ∧ a % 0x1000 % 16 = 4) ∧
  ¬((a / 0x1000 * 0x1000 = pgTIME ∧ 0x100 ≤ a % 0x1000 ∧ a % 0x1000 < 0x180 ∧ a % 0x1000 % 16 = 12) ∨
    (a / 0x1000 * 0x1000 = pgFTIME ∧ 0x80 ≤ a % 0x1000 ∧ a % 0x1000 < 0xC0 ∧ a % 0x1000 % 16 = 12))

/-- The side of an initiator is the field side. -/
abbrev onField (i : Init) : Bool := decide (i.side = .fieldSide)

/-- Where the events in service on a core are held. -/
abbrev coreNo (i : Init) (c : Nat) : Nat := if onField i then 4 + c else c

/-- A standby whose partner is gone may take over (R347). -/
abbrev mayTake (b : Blk) : Prop :=
  paired b = true ∧ isActive b = false ∧ inSync b = true ∧ isOn b FPMU.PFSTAT.WARN = false ∧ isOn b PMU.PFSTAT.WARN = false ∧
    healthy b = true

/-- A command changes no register outside some pages, and of the block only what `f` leaves out: memory, and the state of
every other part, are as before, and the queue. -/
abbrev Only (pgs : List Nat) (f : Blk → Blk) (i : Instr) : Prop :=
  ∀ s t : State, exec i s = .next t →
    t.pending = s.pending ∧ (∀ a, a / 0x1000 * 0x1000 ∉ pgs → wordOf t.blk a = wordOf s.blk a) ∧ f t.blk = f s.blk

/-- The block without its registers and what it sends. -/
abbrev bare (b : Blk) : Blk := { b with regs := [], io := {} }

/-- The amplitude and the period of a tune's oscillation: the means of the cycles measured. -/
abbrev tuneAmp (b : Blk) : Nat := b.ce.tune.sumA / rd b CE.TUNE.CYC

abbrev tuneTu (b : Blk) : Nat := b.ce.tune.sumT / rd b CE.TUNE.CYC

/-- The gains R165 gives for a relay step, an amplitude and a period. -/
abbrev gainKu (d amp : Nat) : Nat := 4 * d * 256 * 10000 / (31416 * amp)

/-- The register an address of the page window names to an initiator. -/
abbrev regAt (i : Init) (a : Nat) : Nat := pageKey i (a % 0x100000 / 0x1000) + a % 0x1000

/-- An aligned word stored to the page window. -/
abbrev wordStore (i : Init) (a : Nat) (d : List Byte) : Prop :=
  d.length = 4 ∧ a % 4 = 0 ∧ (regionAt i.side a = some .hostPages ∨ regionAt i.side a = some .fieldPages) ∧
    regionAt i.side (a + 3) = regionAt i.side a

/-- A register with a command row of its own beside REG_WRITE: the pulse configuration, the Daybook release and the lock. -/
abbrev ownRow (a : Nat) : Prop :=
  (pgMTR + 0xB0 ≤ a ∧ a < pgMTR + 0x100 ∧ a % 16 = 0) ∨ a = DBK.REL_HI.SEQ.a ∨ (pgVP 0 ≤ a ∧ a < pgVP 4 ∧ a % 0x1000 = 0x54)

/-- A firmware write held until its release tick (R342). -/
abbrev heldWrite (b : Blk) (i : Init) (a : Nat) (v : Word) : LateWrite :=
  { release := (tickNow b + 10 * rd b RED.CTL.WR_LAG) % 2 ^ 32, tseq := b.red.tseq, a := a, v := v, init := i,
    unl := unlockedFor (touchPage i (a / 0x1000 * 0x1000) b) i (a / 0x1000 * 0x1000) }

/-- A firmware write to a deterministic page of a pair waits for its release tick: the active tickets it to its partner, a
standby in step keeps its own until the ticket (R342). -/
abbrev held (b b' : Blk) (i : Init) (a : Nat) (v : Word) : Prop :=
  if isActive b then b'.red.writes = b.red.writes ++ [heldWrite b i a v] else b'.red.mine = b.red.mine ++ [heldWrite b i a v]

/-- A write that must wait and of which some bits are accepted. -/
abbrev Waits (b : Blk) (i : Init) (a : Nat) (v : Word) : Prop := lateWrite b a = true ∧ (writeOf b i a v).mask ≠ 0

/-- A window that takes stores of bytes from an initiator. -/
abbrev storable (i : Init) (a n : Nat) (r : Region) : Prop :=
  i ≠ .host ∧ (r = .hostSram ∨ r = .dram ∨ r = .tcm ∨ r = .fieldSram ∨
    (r = .fieldMram ∧ (i = .ctrl → ∀ k : Nat, k < n → metMram (a + k) = false)))

/-- A store that ends in a bus error: outside the windows or across one's end, to a window that is read only, by the host to
memory, of a page but not one aligned word, or to a page index the maps do not list (R17, R22). -/
abbrev badStore (i : Init) (a : Nat) (d : List Byte) : Prop :=
  d = [] ∨ regionAt i.side a = none ∨ regionAt i.side (a + d.length - 1) ≠ regionAt i.side a ∨
    (i = .host ∧ regionAt i.side a ≠ some .hostPages ∧ regionAt i.side a ≠ some .fieldPages) ∨
    regionAt i.side a = some .bootRom ∨ regionAt i.side a = some .bootFlash ∨ regionAt i.side a = some .fieldFlash ∨
    regionAt i.side a = some .daybook ∨
    ((regionAt i.side a = some .hostPages ∨ regionAt i.side a = some .fieldPages) ∧
      (d.length ≠ 4 ∨ a % 4 ≠ 0 ∨ (pageAt (regAt i a / 0x1000 * 0x1000)).isNone = true))

/-- The bits of a register that a soft reset leaves (R29): what MRAM and fuses hold, and what shows a present condition. -/
abbrev keptBits (a : Nat) : Word := nvMask a ||| conditionMask a

/-- The words of a host request written, after the unlock it may carry: the block and the status. -/
abbrev wroteRegs (b : Blk) (p : Byte) (o : BitVec 16) (t : Byte) (d : List Word) : Blk × Nat :=
  writeRegs (0x100000 + p.toNat * 0x1000) o.toNat d (if t.toNat = 1 then hostUnlock (0x100000 + p.toNat * 0x1000) b else b)

/-- Some word of a host request waits for its release tick (R342). -/
abbrev wordsWait (b : Blk) (p : Byte) (o : BitVec 16) (t : Byte) (d : List Word) : Bool :=
  decide (b.red.writes.length < (wroteRegs b p o t d).1.red.writes.length ∨
    b.red.mine.length < (wroteRegs b p o t d).1.red.mine.length)

/-- The causes a side shows after one more reset (R492): those it had while held, and only the power-on one where that is
among them. -/
abbrev causesAfter (b : Blk) (f : Bool) (k : Nat) : Nat :=
  addCause (if (sideOf b f).held then (sideOf b f).causes else 0) k

/-- The answers to register requests among what was sent. -/
abbrev answers (b : Blk) : List Msg := b.io.out.filter fun m => match m with
  | .regRsp _ _ _ => true
  | _ => false

end Sys2Proof.Stated

open Sys2Proof.Stated

/-- Where a commanded channel may start it is on after CHANNEL_START, and after CHANNEL_RETRY of a pending retry its
lead channel is on; INRUSH_STAGE_END enters the next profile stage that has a duration; BURST_END outside limiting
ends inrush; LIMITER_RELEASE clears LIMITING. -/
def Obligations.LoadSwitchStarts : Prop :=
  (∀ (c : Fin 48) (s : State),
      lswMayStart s.blk c.val = true → lswCmd s.blk c.val = true →
      (lswOf s.blk (lswLead s.blk c.val)).retry = false →
      Completes (.channelStart c) s fun b => (lswOf b c.val).live = true) ∧
  (∀ (c : Fin 48) (s : State),
      (lswOf s.blk (lswLead s.blk c.val)).retry = true → pfWarn s.blk = false →
      lswMayStart s.blk (lswLead s.blk c.val) = true → lswCmd s.blk (lswLead s.blk c.val) = true →
      Completes (.channelRetry c) s fun b => (lswOf b (lswLead s.blk c.val)).live = true ∧ (lswOf b (lswLead s.blk c.val)).retry = false) ∧
  (∀ (c : Fin 48) (j : Nat) (s : State),
      enabled s.blk pgLSW = true → NoCoil s.blk → isOn s.blk (LSW.CH.STAT.INRUSH c.val) = true →
      isOn s.blk (LSW.CH.CFG.MODE (lswLead s.blk c.val)) = false →
      lswStage s.blk (lswLead s.blk c.val) ((lswOf s.blk c.val).stage + 1) = some j →
      Completes (.inrushStageEnd c) s fun b => (lswOf b c.val).stage = j) ∧
  (∀ (c : Fin 48) (s : State),
      enabled s.blk pgLSW = true → NoCoil s.blk → isOn s.blk (LSW.CH.STAT.INRUSH c.val) = true →
      isOn s.blk (LSW.CH.CFG.MODE (lswLead s.blk c.val)) = true → isOn s.blk (LSW.CH.STAT.LIMITING c.val) = false →
      (∀ k ∈ lswPair s.blk c.val, isOn s.blk (LSW.CH.STAT.LIMITING k) = false) →
      Completes (.burstEnd c) s fun b => isOn b (LSW.CH.STAT.INRUSH c.val) = false) ∧
  (∀ (c : Fin 48) (s : State),
      enabled s.blk pgLSW = true → isOn s.blk (LSW.CH.STAT.INRUSH c.val) = true →
      Completes (.limiterRelease c) s fun b => isOn b (LSW.CH.STAT.LIMITING c.val) = false)

/-- With no contactor coil driven: CHANNEL_OVERCURRENT after inrush and CHANNEL_SHORT turn a channel off and set CAUSE
bit 1 or 0; THERMAL_LATCH at TJ_LIM latches it and turns it off; THERMAL_RELEASE below the hysteresis clears the
latch where TLATCH = 0; an accepted THERM_CLR of a cooled channel clears it; an accepted REARM and RETRY_RESET clear
the retry count. -/
def Obligations.LoadSwitchTrips : Prop :=
  (∀ (c : Fin 48) (cur : BitVec 16) (s : State),
      enabled s.blk pgLSW = true → NoCoil s.blk → 100 * rd s.blk (LSW.CH.CFG.I_OC c.val) < cur.toNat →
      (lswOf s.blk c.val).live = true → isOn s.blk (LSW.CH.STAT.INRUSH c.val) = false →
      Completes (.channelOvercurrent ⟨c, cur⟩) s fun b => isOn b (LSW.CH.STAT.OUT_ON c.val) = false ∧ rdBit b (LSW.CH.CAUSE.CAUSE c.val) 1 = true) ∧
  (∀ (c : Fin 48) (s : State),
      enabled s.blk pgLSW = true → NoCoil s.blk → (lswOf s.blk c.val).live = true →
      Completes (.channelShort c) s fun b => isOn b (LSW.CH.STAT.OUT_ON c.val) = false ∧ rdBit b (LSW.CH.CAUSE.CAUSE c.val) 0 = true) ∧
  (∀ (c : Fin 48) (tj : BitVec 16) (s : State),
      enabled s.blk pgLSW = true → NoCoil s.blk → isOn s.blk (LSW.CH.STAT.THERM_LATCH c.val) = false →
      10 * (rd s.blk (LSW.CH.CFG.TJ_LIM c.val) : Int) ≤ tj.toInt →
      Completes (.thermalLatch c tj) s fun b => isOn b (LSW.CH.STAT.THERM_LATCH c.val) = true ∧ isOn b (LSW.CH.STAT.OUT_ON c.val) = false) ∧
  (∀ (c : Fin 48) (tj : BitVec 16) (s : State),
      enabled s.blk pgLSW = true → isOn s.blk (LSW.CH.STAT.THERM_LATCH c.val) = true →
      isOn s.blk (LSW.CH.CFG.TLATCH c.val) = false →
      tj.toInt ≤ 10 * ((rd s.blk (LSW.CH.CFG.TJ_LIM c.val) : Int) - rd s.blk LSW.RAIL.TJ_HYS) →
      Completes (.thermalRelease c tj) s fun b => isOn b (LSW.CH.STAT.THERM_LATCH c.val) = false) ∧
  (∀ (i : Init) (c : BitVec 6) (s : State),
      Accepts s.blk i LSW.ARM.CH.a (BitVec.ofNat 32 (0x80 + c.toNat)) → c.toNat < 48 →
      isOn s.blk (LSW.CH.STAT.THERM_LATCH c.toNat) = true → lswCooled s.blk c.toNat = true →
      Completes (.thermClr i c) s fun b => isOn b (LSW.CH.STAT.THERM_LATCH c.toNat) = false) ∧
  (∀ (i : Init) (c : BitVec 6) (s : State),
      Accepts s.blk i LSW.ARM.CH.a (BitVec.ofNat 32 (0x40 + c.toNat)) → c.toNat < 48 →
      Completes (.rearm i c) s fun b => rd b (LSW.CH.STAT.RETRY (lswLead s.blk c.toNat)) = 0 ∧ isOn b (LSW.CH.STAT.EXHAUSTED (lswLead s.blk c.toNat)) = false) ∧
  (∀ (c : Fin 48) (s : State),
      enabled s.blk pgLSW = true → (lswOf s.blk c.val).live = true →
      Completes (.retryReset c) s fun b => rd b (LSW.CH.STAT.RETRY (lswLead s.blk c.val)) = 0)

/-- PWM_PERIOD_START of a channel on and past inrush takes the commanded duty and clears the new-duty mark;
COIL_PULL_END ends the pull; COMP_FREEZE_END releases the compensation of a rail's 24 channels; OPEN_LOAD shows OPEN
and CAUSE bit 4 of a channel whose load is not capacitive. -/
def Obligations.LoadSwitchDuty : Prop :=
  (∀ (c : Fin 48) (v : BitVec 16) (s : State),
      enabled s.blk pgLSW = true → (lswOf s.blk c.val).live = true →
      isOn s.blk (LSW.CH.STAT.INRUSH c.val) = false →
      Completes (.pwmPeriodStart c v) s fun b => (lswOf b c.val).duty = lswDuty s.blk c.val ∧ (lswOf b c.val).dutyNew = false) ∧
  (∀ (c : Fin 48) (s : State),
      enabled s.blk pgLSW = true → (lswOf s.blk c.val).pull = true →
      Completes (.coilPullEnd c) s fun b => (lswOf b c.val).pull = false) ∧
  (∀ (r : Fin 2) (s : State),
      enabled s.blk pgLSW = true →
      Completes (.compFreezeEnd r) s fun b => isOn b (lswFRZ r.val) = false ∧ ∀ k : Nat, k < 24 → isOn b (LSW.CH.STAT.FROZEN (24 * r.val + k)) = false) ∧
  (∀ (c : Fin 48) (cur : BitVec 16) (s : State),
      enabled s.blk pgLSW = true → cur.toNat < rd s.blk LSW.OPEN.OPEN_MA → (lswOf s.blk c.val).live = true →
      isOn s.blk (LSW.CH.STAT.INRUSH c.val) = false → rd s.blk (LSW.CH.CFG.LOAD (lswLead s.blk c.val)) ≠ 3 →
      Completes (.openLoad ⟨c, cur⟩) s fun b => isOn b (LSW.CH.STAT.OPEN c.val) = true ∧ rdBit b (LSW.CH.CAUSE.CAUSE c.val) 4 = true)

/-- RAIL_UNDERVOLTAGE shows the rail's UV and turns its 24 channels off; RAIL_RECOVER clears UV; SWITCH_DIE_REPORT shows
LINK and the rail voltage; SWITCH_DIE_LOST clears LINK and sets CAUSE bit 6 of the die's 24 channels;
SWITCH_DIE_HOLD puts the hold in force; SWITCH_HOLD_EXPIRE of a hold in force turns the die's channels off;
SWITCH_LINK_RETURN ends the hold and shows LINK. -/
def Obligations.LoadSwitchRails : Prop :=
  (∀ (r : Fin 2) (v : BitVec 16) (s : State),
      enabled s.blk pgLSW = true → NoCoil s.blk → v.toNat < rd s.blk LSW.RAIL.UV_TH →
      Completes (.railUndervoltage ⟨r, v⟩) s fun b => isOn b (lswUV r.val) = true ∧ ∀ k : Nat, k < 24 → (lswOf b (24 * r.val + k)).live = false) ∧
  (∀ (r : Fin 2) (v : BitVec 16) (s : State),
      enabled s.blk pgLSW = true → rd s.blk LSW.RAIL.UV_REL ≤ v.toNat →
      Completes (.railRecover ⟨r, v⟩) s fun b => isOn b (lswUV r.val) = false) ∧
  (∀ (d : Fin 2) (v : BitVec 16) (l : List ChanRep) (s : State),
      enabled s.blk pgLSW = true → takesNow s.blk = true →
      Completes (.switchDieReport d v l) s fun b => isOn b (lswLINK d.val) = true ∧ rd b (lswV d.val) = v.toNat) ∧
  (∀ (d : Fin 2) (s : State),
      enabled s.blk pgLSW = true →
      Completes (.switchDieLost d) s fun b => isOn b (lswLINK d.val) = false ∧ ∀ k : Nat, k < 24 → rdBit b (LSW.CH.CAUSE.CAUSE (24 * d.val + k)) 6 = true) ∧
  (∀ (d : Fin 2) (s : State), Completes (.switchDieHold d) s fun b => holdOf b d.val = 1) ∧
  (∀ (d : Fin 2) (s : State),
      holdOf s.blk d.val = 1 → NoCoil s.blk →
      Completes (.switchHoldExpire d) s fun b => holdOf b d.val = 2 ∧ ∀ k : Nat, k < 24 → isOn b (LSW.CH.STAT.OUT_ON (24 * d.val + k)) = false) ∧
  (∀ (d : Fin 2) (s : State),
      enabled s.blk pgLSW = true →
      Completes (.switchLinkReturn d) s fun b => holdOf b d.val = 0 ∧ isOn b (lswLINK d.val) = true)

/-- Each step of R99 to R105 that opens a contact completes: XFER_SHIFT_END goes from step 1 to 2, XFER_ZERO_HELD at
zero current from 2 to 3, XFER_OPEN_END from 3 to 4; a divergence proves the contact open, its timeout ends the
transfer and marks a welded source coil; a zero or match timeout ends the transfer; a match at the destination's
voltage is noted. -/
def Obligations.TransferOpens : Prop :=
  (∀ (g : Fin 3) (s : State),
      enabled s.blk pgTRUNK = true → (xferOf s.blk g.val).step = 1 →
      Completes (.xferShiftEnd g) s fun b => (xferOf b g.val).step = 2) ∧
  (∀ (g : Fin 3) (s : State),
      enabled s.blk pgTRUNK = true → (xferOf s.blk g.val).step = 2 → zeroCurrent s.blk g.val = true →
      Completes (.xferZeroHeld g) s fun b => (xferOf b g.val).step = 3) ∧
  (∀ (g : Fin 3) (s : State),
      enabled s.blk pgTRUNK = true → ((xferOf s.blk g.val).step = 1 ∨ (xferOf s.blk g.val).step = 2) →
      Completes (.xferZeroTimeout g) s fun b => (xferOf b g.val).step = endStep (xferOf s.blk g.val)) ∧
  (∀ (g : Fin 3) (s : State),
      enabled s.blk pgTRUNK = true → (xferOf s.blk g.val).step = 3 →
      Completes (.xferOpenEnd g) s fun b => (xferOf b g.val).step = 4 ∧ (xferOf b g.val).vsrc = trunkV s.blk (trunkOf s.blk g.val (xferOf s.blk g.val).src)) ∧
  (∀ (g : Fin 3) (s : State),
      enabled s.blk pgTRUNK = true → (xferOf s.blk g.val).step = 8 →
      Completes (.xferOpenEnd g) s fun b => (xferOf b g.val).step = 9 ∧ (xferOf b g.val).vsrc = trunkV s.blk (trunkOf s.blk g.val (xferOf s.blk g.val).dst)) ∧
  (∀ (g : Fin 3) (vg : BitVec 16) (s : State),
      enabled s.blk pgTRUNK = true → (xferOf s.blk g.val).step = 4 → (xferOf s.blk g.val).silent = false →
      diverged s.blk vg.toNat (testTrunk s.blk g.val) (xferOf s.blk g.val).vsrc = true →
      Completes (.xferDiverged g vg) s fun b => (xferOf b g.val).proven = true ∧ ((xferOf s.blk g.val).proof = false → (xferOf s.blk g.val).dst < 8 → (xferOf b g.val).step = 5)) ∧
  (∀ (g : Fin 3) (s : State),
      enabled s.blk pgTRUNK = true → (xferOf s.blk g.val).step = 4 →
      Completes (.xferDivTimeout g) s fun b => (xferOf b g.val).step = endStep (xferOf s.blk g.val) ∧ ((xferOf s.blk g.val).src < 8 → isOn b (TRUNK.COIL.STAT.WELDED (8 * g.val + (xferOf s.blk g.val).src)) = true)) ∧
  (∀ (g : Fin 3) (vg : BitVec 16) (s : State),
      enabled s.blk pgTRUNK = true → (xferOf s.blk g.val).step = 5 → (xferOf s.blk g.val).silent = false →
      mayClose s.blk vg.toNat (trunkOf s.blk g.val (xferOf s.blk g.val).dst) = true →
      Completes (.xferMatched g vg) s fun b => (xferOf b g.val).matched = true) ∧
  (∀ (g : Fin 3) (s : State),
      enabled s.blk pgTRUNK = true → (xferOf s.blk g.val).step = 5 →
      Completes (.xferMatchTimeout g) s fun b => (xferOf b g.val).step = endStep (xferOf s.blk g.val))

/-- XFER_COIL_ENERGISE of a matched transfer that nothing holds back goes to step 6, XFER_CLOSE_END to step 7; a close
check that finds the current of a live trunk, or a dead trunk that has followed to 150 V, ends the transfer and
stamps the closing; the retest after a failed close ends it; silence of the trunk voltage stops a step's clock. -/
def Obligations.TransferCloses : Prop :=
  (∀ (g : Fin 3) (vg : BitVec 16) (s : State),
      enabled s.blk pgTRUNK = true → (xferOf s.blk g.val).step = 5 → (xferOf s.blk g.val).matched = true →
      (xferOf s.blk g.val).silent = false → mayPower s.blk = true → rankWaits s.blk g.val = false →
      handWaits s.blk (trunkOf s.blk g.val (xferOf s.blk g.val).dst) = false →
      mayClose s.blk vg.toNat (trunkOf s.blk g.val (xferOf s.blk g.val).dst) = true →
      (List.range 8).any (fun r => coilOn s.blk (8 * g.val + r) || isOn s.blk (TRUNK.COIL.STAT.WELDED (8 * g.val + r))) = false →
      Completes (.xferCoilEnergise g vg) s fun b => (xferOf b g.val).step = 6) ∧
  (∀ (g : Fin 3) (s : State),
      enabled s.blk pgTRUNK = true → (xferOf s.blk g.val).step = 6 → (xferOf s.blk g.val).silent = false →
      Completes (.xferCloseEnd g) s fun b => (xferOf b g.val).step = 7) ∧
  (∀ (g : Fin 3) (im : BitVec 16) (s : State),
      enabled s.blk pgTRUNK = true → (xferOf s.blk g.val).step = 7 → (xferOf s.blk g.val).dead = false →
      (xferOf s.blk g.val).silent = false → 2 * rd s.blk TRUNK.ZERO.ZERO_I ≤ im.toNat →
      Completes (.xferCloseCheckEnd g im) s fun b => (xferOf b g.val).step = endStep (xferOf s.blk g.val) ∧ (xferOf b g.val).closedAt = some s.blk.time.clk) ∧
  (∀ (g : Fin 3) (vg : BitVec 16) (s : State),
      enabled s.blk pgTRUNK = true → (xferOf s.blk g.val).step = 7 → (xferOf s.blk g.val).dead = true →
      1500 ≤ vg.toNat →
      100 * (((vg.toNat : Int) - trunkV s.blk (trunkOf s.blk g.val (xferOf s.blk g.val).dst)).natAbs) ≤ rd s.blk TRUNK.MATCH.MATCH_PCT * vg.toNat →
      Completes (.xferDeadCloseEnd g vg) s fun b => (xferOf b g.val).step = endStep (xferOf s.blk g.val) ∧ (xferOf b g.val).closedAt = some s.blk.time.clk) ∧
  (∀ (g : Fin 3) (vg : BitVec 16) (s : State),
      enabled s.blk pgTRUNK = true → (xferOf s.blk g.val).step = 9 →
      Completes (.failCloseRetest g vg) s fun b => (xferOf b g.val).step = endStep (xferOf s.blk g.val)) ∧
  (∀ (g : Fin 3) (s : State),
      enabled s.blk pgTRUNK = true → 4 ≤ (xferOf s.blk g.val).step → (xferOf s.blk g.val).step ≤ 7 →
      Completes (.trunkVoltageSilence g) s fun b => (xferOf b g.val).silent = true) ∧
  (∀ (t : Fin 16) (v : BitVec 16) (s : State),
      enabled s.blk pgTRUNK = true → Completes (.trunkVoltage t v) s fun b => trunkV b t.val = v.toNat)

/-- TRUNK_STOP marks every trunk it names beside those already stopped; each TRUNK_STOP_REPEAT leaves one repeat fewer;
STOP_COIL_RELEASE at zero current starts the proof that a coil which must open is open, STOP_LIMIT_EXPIRE above it
shows the coil held after the stop; an accepted TRUNK_STOP_CLEAR releases the trunks it names. -/
def Obligations.TrunkStops : Prop :=
  (∀ (m : BitVec 16) (s : State),
      Completes (.trunkStop m) s fun b => rd b TRUNK.TSTOP.STOPPED = rd s.blk TRUNK.TSTOP.STOPPED ||| m.toNat) ∧
  (∀ (s : State),
      s.blk.trunk.stopLeft ≠ 0 →
      Completes (.trunkStopRepeat) s fun b => b.trunk.stopLeft = s.blk.trunk.stopLeft - 1) ∧
  (∀ (g : Fin 3) (s : State),
      enabled s.blk pgTRUNK = true → groupCoil s.blk g.val < 8 → mustOpen s.blk g.val = true →
      zeroCurrent s.blk g.val = true →
      Completes (.stopCoilRelease g) s fun b => (xferOf b g.val).step = 3 ∧ (xferOf b g.val).proof = true ∧ (xferOf b g.val).src = groupCoil s.blk g.val) ∧
  (∀ (g : Fin 3) (s : State),
      enabled s.blk pgTRUNK = true → groupCoil s.blk g.val < 8 → stopOpen s.blk g.val = true →
      zeroCurrent s.blk g.val = false →
      Completes (.stopLimitExpire g) s fun b => rd b (TRUNK.COIL.STAT.STATE (8 * g.val + groupCoil s.blk g.val)) = 5) ∧
  (∀ (i : Init) (v : Word) (s : State),
      Accepts s.blk i TRUNK.STOP_CLR.CLR.a v →
      (∀ t : Nat, t < 16 → v.toNat.testBit t = true → stopBarred s.blk t = false) →
      Completes (.trunkStopClear i v) s fun b => rd b TRUNK.TSTOP.STOPPED = rd s.blk TRUNK.TSTOP.STOPPED - (rd s.blk TRUNK.TSTOP.STOPPED &&& v.toNat))

/-- An accepted WELD_CLR clears FAIL_CLOSE of the coil it names and, where the coil is marked welded, starts the retest;
WELD_RETEST_DONE ends the retest; an accepted OPS_PRESET sets the coil's operation count. -/
def Obligations.CoilWear : Prop :=
  (∀ (i : Init) (v : Word) (s : State),
      Accepts s.blk i TRUNK.WELD_CLR.GO.a v → v.toNat.testBit 31 = true → v.toNat % 32 < 24 →
      enabled s.blk pgTRUNK = true →
      Completes (.weldClr i v) s fun b => isOn b (TRUNK.COIL.STAT.FAIL_CLOSE (v.toNat % 32)) = false ∧ (isOn s.blk (TRUNK.COIL.STAT.WELDED (v.toNat % 32)) = true → (xferOf s.blk (v.toNat % 32 / 8)).step = 0 → (xferOf b (v.toNat % 32 / 8)).step = 13 ∧ (xferOf b (v.toNat % 32 / 8)).coil = v.toNat % 32)) ∧
  (∀ (g : Fin 3) (vg : BitVec 16) (s : State),
      enabled s.blk pgTRUNK = true → (xferOf s.blk g.val).step = 13 →
      Completes (.weldRetestDone g vg) s fun b => (xferOf b g.val).step = endStep (xferOf s.blk g.val)) ∧
  (∀ (i : Init) (v : Word) (s : State),
      Accepts s.blk i TRUNK.OPS_PRESET.VALUE.a v → v.toNat / 2 ^ 24 % 32 < 24 →
      Completes (.opsPreset i v) s fun b => rd b (TRUNK.COIL.OPS.OPS (v.toNat / 2 ^ 24 % 32)) = v.toNat % 2 ^ 24)

/-- PHASE_START of an active phase that may switch goes to step 1, or skips where the peak reference is at or below
IPK_SKIP; DEAD_TIME_END turns the high side on or ends the period; PHASE_PEAK_OFF after the minimum on-time and
PHASE_TON_MAX turn the high side off, the latter with DLIM. -/
def Obligations.PhaseSwitching : Prop :=
  (∀ (g : Fin 3) (p : Fin 8) (s : State),
      enabled s.blk (pgMOD g.val) = true → (phAct s.blk g.val).testBit p.val = true →
      maySwitch s.blk g.val = true → pfWarn s.blk = false →
      rd s.blk (MOD.LIMIT.IPK_SKIP g.val) < phRef s.blk g.val p.val → phRef s.blk g.val p.val < 2 ^ 16 →
      applied s.blk g.val ≠ 0 → (modOf s.blk g.val).quiet = false →
      Completes (.phaseStart g p) s fun b => phStep b g.val p.val = 1 ∧ rd b (MOD.PH.PREF.REF g.val p.val) = phRef s.blk g.val p.val ∧ isOn b (MOD.PH.PSTAT.SKIP g.val p.val) = false) ∧
  (∀ (g : Fin 3) (p : Fin 8) (s : State),
      enabled s.blk (pgMOD g.val) = true → (phAct s.blk g.val).testBit p.val = true →
      maySwitch s.blk g.val = true → pfWarn s.blk = false →
      (phRef s.blk g.val p.val ≤ rd s.blk (MOD.LIMIT.IPK_SKIP g.val) ∨ applied s.blk g.val = 0) →
      Completes (.phaseStart g p) s fun b => isOn b (MOD.PH.PSTAT.SKIP g.val p.val) = true) ∧
  (∀ (g : Fin 3) (p : Fin 8) (s : State),
      enabled s.blk (pgMOD g.val) = true → phStep s.blk g.val p.val = 1 → pfWarn s.blk = false →
      Completes (.deadTimeEnd g p) s fun b => phStep b g.val p.val = 2 ∧ (modOf b g.val).pwmh.testBit p.val = true) ∧
  (∀ (g : Fin 3) (p : Fin 8) (s : State),
      enabled s.blk (pgMOD g.val) = true → phStep s.blk g.val p.val = 3 →
      Completes (.deadTimeEnd g p) s fun b => phStep b g.val p.val = 0) ∧
  (∀ (g : Fin 3) (p : Fin 8) (ton : BitVec 16) (cur : BitVec 12) (s : State),
      enabled s.blk (pgMOD g.val) = true → phStep s.blk g.val p.val = 2 →
      (phSet s.blk g.val p.val).least ≤ ton.toNat → 64 * ton.toNat ≤ (phSet s.blk g.val p.val).tonMax →
      dacCode s.blk g.val p.val ton.toNat ≤ cur.toNat →
      Completes (.phasePeakOff g p ⟨ton, cur⟩) s fun b => phStep b g.val p.val = 3 ∧ (modOf b g.val).pwmh.testBit p.val = false ∧ rd b (MOD.PH.PTIME.TON g.val p.val) = ton.toNat ∧ isOn b (MOD.PH.PSTAT.DLIM g.val p.val) = false) ∧
  (∀ (g : Fin 3) (p : Fin 8) (s : State),
      enabled s.blk (pgMOD g.val) = true → phStep s.blk g.val p.val = 2 →
      Completes (.phaseTonMax g p) s fun b => phStep b g.val p.val = 3 ∧ isOn b (MOD.PH.PSTAT.DLIM g.val p.val) = true ∧ (modOf b g.val).pwmh.testBit p.val = false)

/-- PERIOD_START takes the period set and spends the correction; a valid SYNC_EDGE counts up, a missing one counts as
missed; DELAY_LINE_CAL starts and DELAY_CAL_DONE ends a calibration; BALANCE_STEP leaves every active phase's trim
within TRIM_MAX; PHASE_IMBALANCE shows IMB as given. -/
def Obligations.PhaseAlignment : Prop :=
  (∀ (g : Fin 3) (im : List Int) (vg : Int) (s : State),
      enabled s.blk (pgMOD g.val) = true → takesNow s.blk = true →
      Completes (.periodStart g im vg) s fun b => (modOf b g.val).corr = 0 ∧ (modOf b g.val).perSet = 64 * rd s.blk (MOD.PERIOD.PER g.val) + rd s.blk (MOD.PERIOD.PER_FINE g.val)) ∧
  (∀ (g : Fin 3) (e dev : BitVec 32) (s : State),
      enabled s.blk (pgMOD g.val) = true → rd s.blk (MOD.GCTL.SYNC_SEL g.val) ≠ 0 →
      dev.toInt.natAbs * 1000 ≤ (modOf s.blk g.val).sync.tol * (modOf s.blk g.val).sync.div * (modOf s.blk g.val).perSet →
      Completes (.syncEdge g e dev) s fun b => (modOf b g.val).miss = 0 ∧ (modOf b g.val).valid = (modOf s.blk g.val).valid + 1) ∧
  (∀ (g : Fin 3) (s : State),
      enabled s.blk (pgMOD g.val) = true → rd s.blk (MOD.GCTL.SYNC_SEL g.val) ≠ 0 →
      Completes (.syncEdgeMissing g) s fun b => (modOf b g.val).miss = (modOf s.blk g.val).miss + 1) ∧
  (∀ (g : Fin 3) (s : State),
      enabled s.blk (pgMOD g.val) = true → Completes (.delayLineCal g) s fun b => (modOf b g.val).calRun = true) ∧
  (∀ (g : Fin 3) (taps : BitVec 8) (s : State),
      enabled s.blk (pgMOD g.val) = true →
      Completes (.delayCalDone g taps) s fun b => (modOf b g.val).calRun = false ∧ (modOf b g.val).calDone = true) ∧
  (∀ (g : Fin 3) (s : State),
      enabled s.blk (pgMOD g.val) = true → nAct s.blk g.val ≠ 0 → rd s.blk (MOD.BAL.K_BAL g.val) ≠ 0 →
      rd s.blk (MOD.IMB.BAL_MIN g.val) ≤ rd s.blk (MOD.MEAS.IGRP g.val) →
      isOn s.blk (MOD.GSTAT.CLAMPED g.val) = false → gateOn s.blk g.val = true →
      rd s.blk (MOD.BAL.TRIM_MAX g.val) < 2 ^ 15 →
      Completes (.balanceStep g) s fun b => ∀ p : Nat, p < 8 → (phAct s.blk g.val).testBit p = true → -(rd s.blk (MOD.BAL.TRIM_MAX g.val) : Int) ≤ rdI b (MOD.PH.PSTAT.TRIM g.val p) ∧ rdI b (MOD.PH.PSTAT.TRIM g.val p) ≤ (rd s.blk (MOD.BAL.TRIM_MAX g.val) : Int)) ∧
  (∀ (g : Fin 3) (p : Fin 8) (im : Bool) (s : State),
      enabled s.blk (pgMOD g.val) = true → im = imbalanced s.blk g.val p.val →
      Completes (.phaseImbalance g p im) s fun b => isOn b (MOD.PH.PSTAT.IMB g.val p.val) = im)

/-- DESAT_QUALIFY of a phase not yet faulted marks it in PH_FAULT and switches it off; an accepted PHASE_FAULT_CLEAR
clears the phases it names, an accepted TRIP_CLEAR clears TRIPPED; PF_GATE_REMOVE during a power-fail warning sets
PF_STOP and removes the gate for that cause. -/
def Obligations.PhaseFaults : Prop :=
  (∀ (g : Fin 3) (p : Fin 8) (low : Bool) (s : State),
      enabled s.blk (pgMOD g.val) = true → (rd s.blk (MOD.GSTAT.PH_FAULT g.val)).testBit p.val = false →
      takesNow s.blk = true →
      Completes (.desatQualify g p low) s fun b => (rd b (MOD.GSTAT.PH_FAULT g.val)).testBit p.val = true ∧ phStep b g.val p.val = 0) ∧
  (∀ (i : Init) (g : Fin 3) (ph d : BitVec 8) (s : State),
      Accepts (setMod g.val { modOf s.blk g.val with desat := d.toNat } s.blk) i (MOD.ARM.PH g.val).a (ph.setWidth 32) →
      Completes (.phaseFaultClear i g ph d) s fun b => ∀ p : Nat, p < 8 → ph.toNat.testBit p = true → (rd b (MOD.GSTAT.PH_FAULT g.val)).testBit p = false) ∧
  (∀ (i : Init) (g : Fin 3) (s : State),
      Accepts s.blk i (MOD.ARM.PH g.val).a 0x100 →
      Completes (.tripClear i g) s fun b => isOn b (MOD.GSTAT.TRIPPED g.val) = false) ∧
  (∀ (g : Fin 3) (s : State),
      enabled s.blk (pgMOD g.val) = true → pfWarn s.blk = true → isOn s.blk (MOD.GSTAT.PF_STOP g.val) = false →
      Completes (.pfGateRemove g) s fun b => isOn b (MOD.GSTAT.PF_STOP g.val) = true ∧ (modOf b g.val).gate.testBit 4 = true)

/-- A command for one group of this device, not stale and in time, is put last among that group's scheduled commands;
GROUP_COMMAND_APPLY takes the oldest, shows its reference and remembers it; GROUP_CMD_TIMEOUT of a group that has
applied a command marks it timed out. -/
def Obligations.GroupCommands : Prop :=
  (∀ (cyc : BitVec 32) (t : Fin 16) (mask : BitVec 12) (r : BitVec 16) (o : Fin 4) (g : Fin 3) (s : State),
      enabled s.blk (pgMOD g.val) = true → mask.toNat = 2 ^ gIdx s.blk g.val → (modOf s.blk g.val).last = none →
      (eFollow s.blk : Int) ≤ applyInstant s.blk cyc.toNat →
      Completes (.groupCommand cyc t mask [r] o) s fun b => (modOf b g.val).cmds = (modOf s.blk g.val).cmds ++ [{ cycle := cyc.toNat, trunk := t.val, ref := r.toNat, owner := o.val, late := (eFollow s.blk : Int) - applyInstant s.blk cyc.toNat }]) ∧
  (∀ (g : Fin 3) (c : CmdRt) (l : List CmdRt) (s : State),
      enabled s.blk (pgMOD g.val) = true → (modOf s.blk g.val).cmds = c :: l → (modOf s.blk g.val).last = none →
      (modOf s.blk g.val).only = none →
      Completes (.groupCommandApply g) s fun b => (modOf b g.val).cmds = l ∧ (modOf b g.val).last = some c ∧ rd b (MOD.IGPK.CMD g.val) = c.ref % 2 ^ 16) ∧
  (∀ (g : Fin 3) (s : State),
      enabled s.blk (pgMOD g.val) = true → (modOf s.blk g.val).last.isSome = true →
      (modOf s.blk g.val).timedOut = false →
      Completes (.groupCmdTimeout g) s fun b => (modOf b g.val).timedOut = true)

/-- A submission or withdrawal that the checks of R58 and R59 pass goes in flight to the manager; the manager's book
gives an accepted order the slot found and the next SEQ, and notes an accepted withdrawal; a fault counts against
the port's open DRAW, a block message blocks this device's groups; SUB_RESULT of the order in flight shows its
result and ends the flight; GRP_ARM unblocks the groups named; a write of RUN starts the clearings; a cut counts up,
stamps itself and takes all acts. -/
def Obligations.OrderBook : Prop :=
  (∀ (i : Init) (v : Word) (s : State),
      Accepts s.blk i BOOK.SUB_GO.GO.a v → v.toNat.testBit 0 = true → enabled s.blk pgBOOK = true →
      orderCheck s.blk (subOrder s.blk) = 0 → ownPort s.blk (subOrder s.blk).port = true → mayPower s.blk = true →
      Completes (.subGo i v) s fun b => b.factor.inFlight = some (.submit (subOrder s.blk))) ∧
  (∀ (i : Init) (v : Word) (s : State),
      Accepts s.blk i BOOK.CANCEL.GO.a v → v.toNat.testBit 0 = true → enabled s.blk pgBOOK = true →
      ownPort s.blk (v.toNat / 2 ^ 24) = true → cancelCheck s.blk (v.toNat / 2 ^ 24) (v.toNat / 2 ^ 20 % 16) = 0 →
      Completes (.cancel i v) s fun b => b.factor.inFlight = some (.withdraw (v.toNat / 2 ^ 24) (v.toNat / 2 ^ 20 % 16))) ∧
  (∀ (o : OrderReq) (k : Nat) (s : State),
      enabled s.blk pgBOOK = true → accepts s.blk = true → orderCheck s.blk o = 0 →
      (portSlots o.port).all (fun j => orderLive (orderOf s.blk j)) = false → slotFor s.blk o.port = some k →
      takesNow s.blk = true →
      Completes (.orderAccept (.submit o)) s fun b => orderOf b k = { req := o, state := 1, seq := s.blk.factor.nextSeq } ∧ b.factor.nextSeq = s.blk.factor.nextSeq + 1) ∧
  (∀ (p n : Nat) (s : State),
      enabled s.blk pgBOOK = true → accepts s.blk = true → cancelCheck s.blk p n = 0 → takesNow s.blk = true →
      Completes (.orderAccept (.withdraw p n)) s fun b => b.factor.acts = s.blk.factor.acts ++ [(16 * p + n, true)]) ∧
  (∀ (p : Nat) (k : Nat) (s : State),
      enabled s.blk pgBOOK = true → openOrder s.blk p 1 = some k → takesNow s.blk = true →
      Completes (.orderAccept (.fault p)) s fun b => (orderOf b k).flt = (orderOf s.blk k).flt + 1 ∧ (rd s.blk FCTR.LOOP.FAULT_LIMIT ≤ (orderOf s.blk k).flt + 1 → (orderOf b k).state = 6)) ∧
  (∀ (m : Nat) (s : State),
      enabled s.blk pgBOOK = true → takesNow s.blk = true →
      Completes (.orderAccept (.block m)) s fun b => ∀ k : Nat, k < 12 → k / 3 = myPos s.blk → m.testBit k = true → isOn b (FCTR.GRP_STAT.BLOCKED k) = true) ∧
  (∀ (m : OrderMsg) (res : BitVec 3) (slot : BitVec 4) (seq : BitVec 32) (s : State),
      enabled s.blk pgBOOK = true → ownPort s.blk (orderPort m) = true → s.blk.factor.inFlight = some m →
      takesNow s.blk = true →
      Completes (.subResult m res ⟨slot, seq⟩) s fun b => rd b BOOK.SUB_STAT.RESULT = res.toNat ∧ rd b BOOK.SUB_STAT.SLOT = slot.toNat ∧ rd b BOOK.SUB_SEQ.SEQ = seq.toNat ∧ isOn b BOOK.SUB_STAT.BUSY = false ∧ b.factor.inFlight = none) ∧
  (∀ (i : Init) (v : Word) (s : State),
      Accepts s.blk i FCTR.GRP_ARM.ARM.a v →
      Completes (.groupArm i v) s fun b => ∀ k : Nat, k < 12 → v.toNat.testBit k = true → isOn b (FCTR.GRP_STAT.BLOCKED k) = false) ∧
  (∀ (i : Init) (v : Word) (s : State),
      Accepts s.blk i FCTR.BOOK_CTL.RUN.a v → FCTR.BOOK_CTL.RUN.of v = 1 →
      Completes (.bookRun i v) s fun b => b.factor.ran = true ∧ isOn b FCTR.BOOK_CTL.RUN = true) ∧
  (∀ (s : State),
      enabled s.blk pgFCTR = true →
      Completes (.clearingCut) s fun b => rd b FCTR.CLR_NUM.CLR_NUM = (rd s.blk FCTR.CLR_NUM.CLR_NUM + 1) % 2 ^ 32 ∧ b.factor.cutAt = s.blk.time.clk ∧ (isManager s.blk = false ∨ isOn s.blk FCTR.BOOK_CTL.RUN = true → b.factor.acts = []) ∧ (s.blk.factor.regain = true → rd b SYS.MODE.SITE_STATE = 1))

/-- A stack master keeps the report of a position, the manager a stack's bid; at the bid deadline the manager's own bid
is stored and another stack's is sent; LEVEL_ONE of the manager, or of an isolated device, publishes a plan; a stack
master takes a grant frame for its stack and publishes its plan; a plan frame becomes the next plan; PLAN_ADOPT puts
it in force; a deadline with nothing received counts an overrun. -/
def Obligations.ClearingLevels : Prop :=
  (∀ (pos : Fin 4) (r : Report) (s : State),
      enabled s.blk pgFCTR = true → isMaster s.blk = true → takesNow s.blk = true →
      Completes (.availReport pos r) s fun b => if s.blk.factor.bidDone then b.factor.inbox = s.blk.factor.inbox ++ [(pos.val, r)] else repOf b pos.val = r) ∧
  (∀ (f : List Byte) (l : List Nat) (ng ab : BitVec 16) (s : State),
      enabled s.blk pgFCTR = true → isManager s.blk = true → frameLE f 4 1 < 16 → takesNow s.blk = true →
      Completes (.bid ⟨f, l, ng, ab⟩) s fun b => bidOf b (frameLE f 4 1) = bidFrom f l ng.toNat ab.toNat) ∧
  (∀ (s : State),
      enabled s.blk pgFCTR = true → runsTwo s.blk = true → isOn s.blk FCTR.BOOK_CTL.RUN = true →
      (isManager s.blk = true ∨ s.blk.factor.isolated = true) →
      Completes (.bidDeadline) s fun b => bidOf b (makeBid (atCut s.blk)).stack = makeBid (atCut s.blk) ∧ b.factor.bidDone = true) ∧
  (∀ (s : State),
      enabled s.blk pgFCTR = true → runsTwo s.blk = true → isOn s.blk FCTR.BOOK_CTL.RUN = true →
      isManager s.blk = false → s.blk.factor.isolated = false →
      Completes (.bidDeadline) s fun b => bidMsg (makeBid (atCut s.blk)) ∈ b.io.out ∧ b.factor.bidDone = true) ∧
  (∀ (s : State),
      enabled s.blk pgFCTR = true → isOn s.blk FCTR.BOOK_CTL.RUN = true → mayPower s.blk = true →
      (s.blk.factor.isolated = true ∨ isManager s.blk = true) →
      Completes (.levelOne) s fun b => b.factor.frameNew = true ∧ (s.blk.factor.planLate = false → b.factor.planNext.isSome = true)) ∧
  (∀ (s : State),
      enabled s.blk pgFCTR = true → isOn s.blk FCTR.BOOK_CTL.RUN = true → mayPower s.blk = true →
      s.blk.factor.isolated = false → isManager s.blk = true →
      Completes (.levelOne) s fun b => rd b FCTR.CAP_EFF.CAP_EFF = satU FCTR.CAP_EFF.CAP_EFF.w (portCap (atCut s.blk)).2.2.1 ∧ rd b FCTR.P_ALLOW.P_ALLOW = satU FCTR.P_ALLOW.P_ALLOW.w (portCap (atCut s.blk)).1 ∧ rd b FCTR.P_OVH.P_OVH = satU FCTR.P_OVH.P_OVH.w (portCap (atCut s.blk)).2.1) ∧
  (∀ (f : GrantFrame) (s : State),
      enabled s.blk pgFCTR = true → isMaster s.blk = true → rd s.blk SYS.MODE.ROLE = 1 →
      f.stack = sitePort s.blk 0 / 16 → rd s.blk SYS.MODE.SITE_STATE ≠ 3 → s.blk.factor.grantLate = false →
      takesNow s.blk = true →
      Completes (.grantFrame f) s fun b => b.factor.frame = some f ∧ (s.blk.factor.planLate = false → b.factor.planNext.isSome = true)) ∧
  (∀ (s : State),
      enabled s.blk pgFCTR = true → isMaster s.blk = true → rd s.blk SYS.MODE.ROLE = 1 →
      isOn s.blk FCTR.BOOK_CTL.RUN = true → s.blk.factor.frameNew = false →
      Completes (.grantDeadline) s fun b => rd b FCTR.CLR_STAT.OVERRUNS = min (rd s.blk FCTR.CLR_STAT.OVERRUNS + 1) 255 ∧ b.factor.grantLate = true) ∧
  (∀ (p : Plan) (s : State),
      enabled s.blk pgFCTR = true → s.blk.factor.planLate = false → takesNow s.blk = true →
      Completes (.planFrame p) s fun b => b.factor.planNext = some p) ∧
  (∀ (s : State),
      enabled s.blk pgFCTR = true → s.blk.factor.planNext = none →
      (runsTwo s.blk = false ∨ isOn s.blk FCTR.BOOK_CTL.RUN = true) →
      Completes (.planDeadline) s fun b => rd b FCTR.CLR_STAT.OVERRUNS = min (rd s.blk FCTR.CLR_STAT.OVERRUNS + 1) 255 ∧ b.factor.planLate = true) ∧
  (∀ (p : Plan) (s : State),
      enabled s.blk pgFCTR = true → s.blk.factor.planNext = some p →
      Completes (.planAdopt) s fun b => b.factor.plan = p ∧ b.factor.planNext = none)

/-- PEER_ABSENT of a stack clears its presence and its bid on the manager, and of a position its report on the stack
master; ISLAND_ENTER takes a holding stack into island state; SLICE_RECONCILE on the manager leaves of that stack's
orders only those of the slice; on a stack master in holding or island state it sends the slice, and the stack is
joined from the next cut. -/
def Obligations.LostPeers : Prop :=
  (∀ (n : Fin 16) (s : State),
      enabled s.blk pgFCTR = true → rd s.blk SYS.MODE.ROLE = 2 →
      Completes (.peerAbsent true n) s fun b => (rd b FCTR.PEERS.PRESENT).testBit n.val = false ∧ bidOf b n.val = {}) ∧
  (∀ (n : Fin 16) (s : State),
      enabled s.blk pgFCTR = true → isMaster s.blk = true →
      Completes (.peerAbsent false n) s fun b => repOf b n.val = {}) ∧
  (∀ (s : State),
      enabled s.blk pgFCTR = true → rd s.blk SYS.MODE.SITE_STATE = 2 →
      Completes (.islandEnter) s fun b => rd b SYS.MODE.SITE_STATE = 3) ∧
  (∀ (st : Fin 16) (l : List (Nat × Order)) (s : State),
      enabled s.blk pgFCTR = true → isManager s.blk = true → takesNow s.blk = true →
      Completes (.sliceReconcile st l) s fun b => ∀ e ∈ b.factor.book, e.1 / 256 = st.val → e.1 ∈ l.map (·.1)) ∧
  (∀ (st : Fin 16) (l : List (Nat × Order)) (s : State),
      enabled s.blk pgFCTR = true → isManager s.blk = false → isMaster s.blk = true →
      2 ≤ rd s.blk SYS.MODE.SITE_STATE → takesNow s.blk = true →
      Completes (.sliceReconcile st l) s fun b => b.factor.regain = true ∧ Msg.slice (sitePort s.blk 0 / 16) (ownSlice s.blk) ∈ b.io.out)

/-- At a cycle start with no power-fail warning, handover or drop in progress a slot releases the output last computed,
and every local port named opens a new measurement window; LOOP_COMPUTE of a slot in use shows the cycle computed; a
missed deadline keeps the released output; COOLOFF_END with retries left begins a soft start; a measurement frame is
kept for its trunk's loop; the new owner of a handover takes the state sent. -/
def Obligations.ControlLoops : Prop :=
  (∀ (sl : BitVec 16) (i : Fin 16) (s : State),
      enabled s.blk pgCE = true → sl.toNat = 2 ^ i.val → kindOf s.blk i.val ≠ 0 → pfWarn s.blk = false →
      (slotOf s.blk i.val).hand = 0 → (slotOf s.blk i.val).drop = false → (slotOf s.blk i.val).ending = false →
      Completes (.loopCycleStart sl 0) s fun b => (slotOf b i.val).rel = (slotOf s.blk i.val).u) ∧
  (∀ (sl : BitVec 16) (po : BitVec 4) (s : State),
      enabled s.blk pgCE = true →
      Completes (.loopCycleStart sl po) s fun b => ∀ n : Nat, n < 4 → po.toNat.testBit n = true → Tab.at' (fun _ => (0, 0, 0)) b.ce.win n = (0, 0, 0)) ∧
  (∀ (i : Fin 16) (s : State),
      enabled s.blk pgCE = true → kindOf s.blk i.val ≠ 0 →
      Completes (.loopCompute i) s fun b => rd b (CE.SLOT.CYCLE.CYCLE i.val) = slotCycle s.blk i.val) ∧
  (∀ (i : Fin 16) (s : State),
      enabled s.blk pgCE = true → kindOf s.blk i.val ≠ 0 →
      Completes (.loopDeadlineMiss i) s fun b => (slotOf b i.val).u = (slotOf s.blk i.val).rel) ∧
  (∀ (i : Fin 16) (s : State),
      enabled s.blk pgCE = true → kindOf s.blk i.val = 1 → pstate s.blk i.val = 4 →
      rd s.blk (CE.SLOT.STATE.RETRY i.val) ≤ rd s.blk CE.SSTART.RETRY_MAX →
      Completes (.cooloffEnd i) s fun b => pstate b i.val = 1 ∧ (slotOf b i.val).iRef = 0 ∧ (slotOf b i.val).coolUs = 0) ∧
  (∀ (t : Fin 16) (cyc : BitVec 32) (vp ip w : BitVec 16) (k : Fin 16) (s : State),
      enabled s.blk pgCE = true → (takesNow s.blk = true ∨ cycOlder cyc.toNat (cycleNow s.blk) = false) →
      kindOf s.blk k.val = 1 → rd s.blk (CE.SLOT.BIND.TRUNK k.val) = t.val →
      Completes (.measurementFrame t cyc vp ip w) s fun b => (slotOf b k.val).meas = some { cycle := cyc.toNat, v := vp.toNat, i := ip.toNat, iloc := w.toNat % 2 ^ 15, drop := w.getLsbD 15 }) ∧
  (∀ (t : Fin 16) (h : LoopSnap) (s : State),
      enabled s.blk pgCE = true → slotFor' s.blk t.val < 16 → (slotOf s.blk (slotFor' s.blk t.val)).hand = 1 →
      takesNow s.blk = true →
      Completes (.handover t (.state h)) s fun b => (slotOf b (slotFor' s.blk t.val)).handSnap = true ∧ (slotOf b (slotFor' s.blk t.val)).u = h.u ∧ (slotOf b (slotFor' s.blk t.val)).iRef = h.iRef) ∧
  (∀ (t : Fin 16) (s : State),
      enabled s.blk pgCE = true → slotFor' s.blk t.val < 16 → (slotOf s.blk (slotFor' s.blk t.val)).hand = 2 →
      takesNow s.blk = true → Completes (.handover t .abort) s fun b => (slotOf b (slotFor' s.blk t.val)).hand = 0)

/-- An accepted COMMIT of a valid shadow table puts it in force; an accepted TUNE_GO starts a tune of the slot named; an
abort and a timeout end a running tune with their cause; GROUP_STATUS_SEND sends each local group's DERATE,
GROUP_STATUS received keeps a group's. -/
def Obligations.GainsAndTuning : Prop :=
  (∀ (i : Init) (v : Word) (t : Fin 8) (s : State),
      Accepts s.blk i LUT.COMMIT.TBL.a v → enabled s.blk pgLUT = true → v.toNat.testBit t.val = true →
      shadowValid s.blk t.val = true →
      Completes (.lutCommit i v) s fun b => (rd b LUT.LSTAT.VALID).testBit t.val = true ∧ Tab.at' (fun _ => {}) b.ce.lut t.val = { hys := rd s.blk (LUT.TBL.HYS t.val), pts := shadowPts s.blk t.val }) ∧
  (∀ (i : Init) (s : State),
      Accepts s.blk i CE.TUNE_GO.GO.a 1 → enabled s.blk pgCE = true →
      Completes (.tuneGo i) s fun b => rd b CE.TUNE_STAT.STATE = 1 ∧ b.ce.tune = { slot := rd s.blk CE.TUNE.SLOT }) ∧
  (∀ (i : Init) (s : State),
      Accepts s.blk i CE.TUNE_GO.GO.a 2 → enabled s.blk pgCE = true → rd s.blk CE.TUNE_STAT.STATE = 1 →
      Completes (.tuneAbort i) s fun b => rd b CE.TUNE_STAT.STATE = 3 ∧ rd b CE.TUNE_STAT.CAUSE = 2 ∧ b.ce.tune = {}) ∧
  (∀ (s : State),
      enabled s.blk pgCE = true → rd s.blk CE.TUNE_STAT.STATE = 1 → s.blk.ce.tune.oscs = 0 →
      64 * (rd s.blk CE.TUNE.CYC + 2) * 16 ≤ s.blk.ce.tune.total →
      Completes (.tuneTimeout) s fun b => rd b CE.TUNE_STAT.STATE = 3 ∧ rd b CE.TUNE_STAT.CAUSE = 1 ∧ b.ce.tune = {}) ∧
  (∀ (s : State),
      enabled s.blk pgCE = true →
      Completes (.groupStatusSend) s fun b => ∀ g : Nat, g < 3 → Msg.grpStatus (gIdx s.blk g) (rd s.blk (FCTR.GRP_STAT.DERATE (gIdx s.blk g))) (grpPhase s.blk g).1 (grpPhase s.blk g).2 ∈ b.io.out) ∧
  (∀ (k : Fin 12) (d : BitVec 16) (u : BitVec 5) (j : Fin 4) (s : State),
      enabled s.blk pgCE = true →
      Completes (.groupStatus k d ⟨u, j⟩) s fun b => Tab.at' (fun _ => 256) b.ce.derate k.val = d.toNat ∧ (2 ≤ j.val → Tab.at' (fun _ => 16) b.trunk.leaving k.val = 16))

/-- A load or fetch of 1, 2, 4 or 8 bytes of a memory window with clean check bits answers them, one outside the windows
or of a register page that is no load of an aligned word ends in a bus error; a scrub read moves on a word and
starts again at the end; a late pass is marked; an accepted INJ arms; an accepted invalidation and its completion
leave no matching IOTLB entry; FQ_POP removes the oldest fault. -/
def Obligations.MemoryCommands : Prop :=
  (∀ (i : Init) (a : BitVec 32) (w : Fin 4) (f : Bool) (r : Region) (s : State),
      i ≠ .host → regionAt i.side a.toNat = some r → regionAt i.side (a.toNat + 2 ^ w.val - 1) = some r →
      r ≠ .hostPages → r ≠ .fieldPages →
      (∀ k : Nat, k < 2 ^ w.val → markOf s.blk (memKey i a.toNat + k) = .clean) →
      Completes (.memoryRead i a ⟨w, f⟩) s fun b => b.io.resp = loaded (memBytes s.blk (memKey i a.toNat) (2 ^ w.val))) ∧
  (∀ (i : Init) (a : BitVec 32) (w : Fin 4) (f : Bool) (s : State),
      regionAt i.side a.toNat = none ∨ ((regionAt i.side a.toNat = some .hostPages ∨ regionAt i.side a.toNat = some .fieldPages) ∧ (w.val ≠ 2 ∨ a.toNat % 4 ≠ 0 ∨ f = true)) →
      Completes (.memoryRead i a ⟨w, f⟩) s fun b => b.io.resp = .busError) ∧
  (∀ (m : Fin 7) (s : State),
      Completes (.scrubRead m) s fun b => Tab.at' (fun _ => 0) b.memory.scrubPos m.val = (if Tab.at' (fun _ => 0) s.blk.memory.scrubPos m.val + 4 < (scrubRange m.val).2 then Tab.at' (fun _ => 0) s.blk.memory.scrubPos m.val + 4 else 0)) ∧
  (∀ (m : Fin 3) (s : State),
      Completes (.scrubPassLate m) s fun b => rdBit b MEM.SSTAT.LATE m.val = true ∧ b.memory.passLate.testBit m.val = true) ∧
  (∀ (i : Init) (v : Word) (s : State),
      Accepts s.blk i MEM.INJ.GO.a (v ||| 0x80000000) →
      Completes (.injGo i v) s fun b => isOn b MEM.INJ.ARMED = true) ∧
  (∀ (i : Init) (v : Word) (s : State),
      Accepts s.blk i MMU.INV.GO.a (v ||| 0x80000000) → v.toNat / 2 ^ 29 % 4 ≠ 3 →
      Completes (.mmuInvalidate i v) s fun b => isOn b MMU.INV_STAT.BUSY = true ∧ b.memory.tlb.all (fun e => !invMatch (v.toNat / 2 ^ 29 % 4) (v.toNat % 64) (rd s.blk MMU.INV_ADDR.PAGE) e) = true) ∧
  (∀ (sc st pg : Nat) (s : State),
      s.blk.memory.inv = some (sc, st, pg) →
      Completes (.mmuInvalidateDone) s fun b => b.memory.inv = none ∧ isOn b MMU.INV_STAT.BUSY = false ∧ b.memory.tlb.all (fun e => !invMatch sc st pg e) = true) ∧
  (∀ (i : Init) (s : State),
      Accepts s.blk i MMU.FQ_POP.GO.a 1 →
      Completes (.fqPop i) s fun b => b.memory.faults = s.blk.memory.faults.tail)

/-- A write of RING.TAIL notes the descriptors it queues in order; a beat serves the channel chosen; an accepted RESUME
makes a channel idle or, with a descriptor held, waiting; an accepted SKIP whose write-back succeeds leaves the
descriptor behind. -/
def Obligations.DmaCommands : Prop :=
  (∀ (i : Init) (c : Fin 32) (v : Word) (s : State),
      Accepts s.blk i (DMA.CH.RING.TAIL c.val).a v →
      Completes (.dmaQueue i c v) s fun b => rd b (DMA.CH.RING.SIZE c.val) ≠ 0 → b.memory.order = s.blk.memory.order ++ (List.range ((rd b (DMA.CH.RING.TAIL c.val) + rd b (DMA.CH.RING.SIZE c.val) - rd s.blk (DMA.CH.RING.TAIL c.val) % rd b (DMA.CH.RING.SIZE c.val)) % rd b (DMA.CH.RING.SIZE c.val))).map fun k => (c.val, (rd s.blk (DMA.CH.RING.TAIL c.val) + k) % rd b (DMA.CH.RING.SIZE c.val))) ∧
  (∀ (c : Nat) (s : State), dmaChoose s.blk = some c → Completes (.dmaBeat) s fun b => b.memory.served = c) ∧
  (∀ (i : Init) (c : Fin 32) (s : State),
      Accepts s.blk i (DMA.CH.CMD.RESUME c.val).a 2 →
      Completes (.resume i c) s fun b => rd b (DMA.CH.CSTAT.STATE c.val) = (if (dmaDesc s.blk c.val).held then 2 else 0)) ∧
  (∀ (i : Init) (c : Fin 32) (s : State),
      Accepts s.blk i (DMA.CH.CMD.RESUME c.val).a 1 →
      (dmaWriteBack c.val 0x1000 true (wr (writeOf s.blk i (DMA.CH.CMD.RESUME c.val).a 1).blk (DMA.CH.CSTAT.CAUSE c.val) 0)).2 = true →
      Completes (.skip i c) s fun b => dmaDesc b c.val = {} ∧ rd b (DMA.CH.CSTAT.STATE c.val) = 0)

/-- An entry from the field or from firmware is queued; a commit of an unsealed Daybook writes the oldest entry under
the next sequence number; a release below NEXT_SEQ frees every record up to the bound; mirrored records are counted
and acknowledged, an acknowledgement never goes back; cold reads send the bytes asked for. -/
def Obligations.DaybookCommands : Prop :=
  (∀ (code : BitVec 16) (t : BitVec 64) (p : List Byte) (s : State),
      isOn s.blk DBK.DSTAT.SEALED = false →
      Completes (.dbkEntry code t p) s fun b => b.daybook.queue.length = s.blk.daybook.queue.length + 1 ∧ (b.daybook.queue.getLast?.map (·.payload)) = some p) ∧
  (∀ (i : Init) (v : Word) (s : State),
      Accepts s.blk i DBK.WR_GO.GO.a v → v.toNat.testBit 0 = true → isOn s.blk DBK.DSTAT.SEALED = false →
      s.blk.daybook.sealing = false → s.blk.daybook.queue.length < 48 →
      Completes (.daybookWrite i v) s fun b => b.daybook.queue.length = s.blk.daybook.queue.length + 1 ∧ rd b DBK.WR_STAT.RESULT = 0) ∧
  (∀ (r : DbReq) (l : List DbReq) (s : State),
      s.blk.daybook.queue = r :: l → isOn s.blk DBK.DSTAT.SEALED = false →
      Completes (.daybookCommit) s fun b => b.daybook.queue = l ∧ rd64 b DBK.NEXT_SEQ.SEQ = (rd64 s.blk DBK.NEXT_SEQ.SEQ + 1) % 2 ^ 64) ∧
  (∀ (i : Init) (v : Word) (s : State),
      Accepts s.blk i DBK.REL_HI.SEQ.a v →
      rd s.blk DBK.REL_LO.SEQ + 2 ^ 32 * v.toNat < rd64 s.blk DBK.NEXT_SEQ.SEQ → rd s.blk DBK.P_USED.USED ≤ 8192 →
      s.blk.memory.marks.all (fun e => decide (e.1 < 0xC000000 ∨ 0xC020000 ≤ e.1)) = true →
      Completes (.daybookRelease i v) s fun b => rd b DBK.P_USED.USED = 0 ∨ rd s.blk DBK.REL_LO.SEQ + 2 ^ 32 * v.toNat < slotSeq b (permA b.daybook.pHead)) ∧
  (∀ (r : List Byte) (s : State),
      isOn s.blk DBK.DSTAT.SEALED = false → s.blk.daybook.sealing = false →
      Completes (.mirrorRecordRx r) s fun b => rd b DBK.MIR_RX.COUNT = (rd s.blk DBK.MIR_RX.COUNT + 1) % 2 ^ 32 ∧ Msg.mirrorAck (r.getD 22 0).toNat (ofLE ((r.drop 4).take 8)) ∈ b.io.out) ∧
  (∀ (q : BitVec 64) (s : State),
      Completes (.mirrorAck q) s fun b => rd64 b DBK.MIR_ACK.SEQ = max (rd64 s.blk DBK.MIR_ACK.SEQ) q.toNat) ∧
  (∀ (s : State),
      isOn s.blk DBK.DSTAT.COPYING = true → s.blk.daybook.copyWait = none →
      Completes (.fullCopyDone) s fun b => isOn b DBK.DSTAT.COPYING = false) ∧
  (∀ (a : BitVec 23) (n : Nat) (s : State),
      Completes (.coldRead a n) s fun b => b.io.out = s.blk.io.out ++ [.coldBytes ((List.range n).map fun k => memByte s.blk (0x30000000 + (a.toNat + k) % 0x800000))]) ∧
  (∀ (s : State),
      Completes (.coldIdent) s fun b => b.io.out = s.blk.io.out ++ [.coldBytes (le 2 0x4442 ++ le 1 1 ++ le 1 0 ++ le 8 s.blk.daybook.identity ++ le 4 0)])

/-- An accepted ADD_HI whose addend is in range commits it; an accepted STEP_GO adds the offset to E and leaves it to be
mirrored; a change of source clears the servo; PTP_LOCK under source 1 is LOCKED; a servo update within the step
threshold adds the offset to F; a lost source shows holdover; the time to a wrap changes the wrap count by one. -/
def Obligations.HostTime : Prop :=
  (∀ (i : Init) (d : Fin 2) (v : Word) (s : State),
      Accepts s.blk i (TIME.DOM.ADD_HI.INT d.val).a v →
      0x03FEF9DB23 ≤ v.toNat % 256 * 2 ^ 32 + (domOf s.blk d.val).shadow →
      v.toNat % 256 * 2 ^ 32 + (domOf s.blk d.val).shadow ≤ 0x04010624DD →
      Completes (.addendCommit i d v) s fun b => addendOf b d.val = v.toNat % 256 * 2 ^ 32 + (domOf s.blk d.val).shadow) ∧
  (∀ (i : Init) (v : Word) (s : State),
      Accepts s.blk i TIME.STEP_GO.GO.a v → v.toNat.testBit 0 = true →
      Completes (.stepGo i v) s fun b => (domOf b (v.toNat / 2 % 2)).stepDue = some (Num.toInt 64 (rd s.blk TIME.STEP_LO.LO + 2 ^ 32 * rd s.blk TIME.STEP_HI.HI)) ∧ (domOf b (v.toNat / 2 % 2)).e = ((((domOf s.blk (v.toNat / 2 % 2)).e : Int) + Num.toInt 64 (rd s.blk TIME.STEP_LO.LO + 2 ^ 32 * rd s.blk TIME.STEP_HI.HI) * 2 ^ 32) % 2 ^ 96).toNat ∧ isOn b (TIME.DOM.STAT.SET (v.toNat / 2 % 2)) = true) ∧
  (∀ (i : Init) (d : Fin 2) (v : Word) (s : State),
      Accepts s.blk i (TIME.DOM.SRC.SRC d.val).a v → (TIME.DOM.SRC.SRC d.val).of v ≠ 0 →
      (TIME.DOM.SRC.SRC d.val).of v ≠ rd s.blk (TIME.DOM.SRC.SRC d.val) →
      Completes (.sourceChange i d v) s fun b => rd b (TIME.DOM.SRC.SRC d.val) = (TIME.DOM.SRC.SRC d.val).of v ∧ (domOf b d.val).freq = 0 ∧ (domOf b d.val).good = 0 ∧ (domOf b d.val).hist = []) ∧
  (∀ (i : Init) (d : Fin 2) (l : Bool) (s : State),
      Accepts s.blk i (TIME.DOM.SRC.SRC d.val).a ((TIME.DOM.SRC.PTP_LOCK d.val).ins (wordOf s.blk (TIME.DOM.SRC.SRC d.val).a) (b2n l)) →
      rd s.blk (TIME.DOM.SRC.SRC d.val) = 1 →
      Completes (.ptpLockWrite i d l) s fun b => isOn b (TIME.DOM.STAT.LOCKED d.val) = l) ∧
  (∀ (d : Fin 2) (o : BitVec 64) (s : State),
      (isStandby s.blk = true ∨ 2 ≤ rd s.blk (TIME.DOM.SRC.SRC d.val)) →
      isOn s.blk (TIME.DOM.STAT.SET d.val) = true → o.toInt.natAbs ≤ rd s.blk (TIME.DOM.STEP_THR.NS d.val) →
      Completes (.servoUpdate d o) s fun b => (domOf b d.val).freq = (domOf s.blk d.val).freq + o.toInt) ∧
  (∀ (d : Fin 2) (s : State),
      2 ≤ rd s.blk (TIME.DOM.SRC.SRC d.val) →
      Completes (.sourceLost d) s fun b => isOn b (TIME.DOM.STAT.LOCKED d.val) = false ∧ isOn b (TIME.DOM.STAT.HOLD d.val) = true) ∧
  (∀ (d : Fin 2) (s : State),
      addendOf s.blk d.val ≠ 0 → s.blk.boot.host.lost.testBit 2 = false →
      Completes (.wrapCountChange d) s fun b => (domOf b d.val).e / 2 ^ 64 = ((domOf s.blk d.val).e / 2 ^ 64 + 1) % 2 ^ 32)

/-- TIME_SYNC_SEND sends both domains' times, with a step due the step; a source edge on an enabled capture unit with
room adds an entry; a read of CINFO answers the oldest entry and drops it; a whole second of a set output domain of
a twin that drives gives the pulse; an accepted FDOM write shows it and FDOM_APPLY follows it; the RTC is trimmed,
cleared at first power, and kept over a change of supply. -/
def Obligations.TimeOutputs : Prop :=
  (∀ (s : State),
      (domOf s.blk 0).stepDue = none → (domOf s.blk 1).stepDue = none →
      Completes (.timeSyncSend) s fun b => b.io.out = s.blk.io.out ++ [.timeSync (eHost s.blk 0) (eHost s.blk 1) 0 (rd s.blk (TIME.DOM.STAT.SET 0) + 2 * rd s.blk (TIME.DOM.STAT.SET 1)) 0]) ∧
  (∀ (v : Int) (s : State),
      (domOf s.blk 0).stepDue = some v →
      Completes (.timeSyncSend) s fun b => (domOf b 0).stepDue = none ∧ b.io.out = s.blk.io.out ++ [.timeSync (eHost s.blk 0) (eHost s.blk 1) 1 (rd s.blk (TIME.DOM.STAT.SET 0) + 2 * rd s.blk (TIME.DOM.STAT.SET 1)) v]) ∧
  (∀ (f : Bool) (c : Fin 8) (s : State),
      (f = false ∨ c.val < 4) → rd s.blk ⟨capReg f c.val, 0, 3⟩ ≠ 0 →
      (Tab.at' (fun _ => []) s.blk.time.caps (capNo f c.val)).length < 4 → takesNow s.blk = true →
      Completes (.captureEdge f c) s fun b => (Tab.at' (fun _ => []) b.time.caps (capNo f c.val)).length = (Tab.at' (fun _ => []) s.blk.time.caps (capNo f c.val)).length + 1) ∧
  (∀ (i : Init) (c : Fin 8) (s : State),
      (i.side = .hostSide ∨ c.val < 4) → isOn s.blk (hBUSY (if onField i then pgFTIME else pgTIME)) = false →
      Completes (.captureRead i c) s fun b => Tab.at' (fun _ => []) b.time.caps (capNo (decide (i.side = .fieldSide)) c.val) = (Tab.at' (fun _ => []) s.blk.time.caps (capNo (decide (i.side = .fieldSide)) c.val)).tail ∧ b.io.resp = .value ((heldWord s.blk ((if onField i then pgFTIME + 0x8C else pgTIME + 0x10C) + 0x10 * c.val)).getD (BitVec.ofNat 32 (cinfo s.blk (onField i) c.val)))) ∧
  (∀ (s : State),
      isOn s.blk TIME.PPS_CTL.OUT_EN = true →
      isOn s.blk (TIME.DOM.STAT.SET (rd s.blk TIME.PPS_CTL.OUT_DOM)) = true → isStandby s.blk = false →
      Completes (.ppsOutPulse) s fun b => b.io.out = s.blk.io.out ++ [.ppsOut (rd s.blk TIME.PPS_CTL.WIDTH_MS)]) ∧
  (∀ (i : Init) (v : Word) (s : State),
      Accepts s.blk i FTIME.FCTL.FDOM.a v →
      Completes (.fdomWrite i v) s fun b => rd b FTIME.FCTL.FDOM = FTIME.FCTL.FDOM.of v) ∧
  (∀ (s : State), Completes (.fdomApply) s fun b => b.time.fdom = rd s.blk FTIME.FCTL.FDOM) ∧
  (∀ (s : State),
      copySet s.blk (legalField s.blk) = true →
      Completes (.rtcTrim) s fun b => b.time.rtc = eField s.blk (legalField s.blk) ∧ isOn b FTIME.RTC_STAT.TRIMMED = true) ∧
  (∀ (s : State),
      Completes (.vbatPowerOn) s fun b => b.time.rtc = 0 ∧ isOn b FTIME.RTC_STAT.RTC_SET = false) ∧
  (∀ (on : Bool) (s : State),
      Completes (.vbatChangeover on) s fun b => b.time.rtc = s.blk.time.rtc ∧ (on = true → isOn b FTIME.RTC_STAT.VBAT_RUN = true))

/-- A round starts outside a power-fail warning with its reference deviation; its publication ends it, empties the
window of mean currents and, unless the round was discarded, shows its number; a quiet group's cap returns to 256
and a quiet port's derating ends. -/
def Obligations.Housekeeping : Prop :=
  (∀ (l : List (Nat × List Int)) (dev : BitVec 16) (s : State),
      enabled s.blk pgTHM = true → clocked s.blk pgTHM = true → pfWarn s.blk = false → takesNow s.blk = true →
      Completes (.hkRoundStart l dev) s fun b => b.thm.running = true ∧ b.thm.refDev = dev.toInt ∧ b.thm.discard = false) ∧
  (∀ (s : State),
      enabled s.blk pgTHM = true → clocked s.blk pgTHM = true → pfWarn s.blk = false → s.blk.thm.running = true →
      Completes (.hkRoundPublish) s fun b => b.thm.running = false ∧ b.thm.win = [] ∧ (s.blk.thm.discard = false → s.blk.thm.refDev.natAbs ≤ 500 → rd b THM.ROUND_NUM.ROUND = s.blk.thm.round % 2 ^ 32)) ∧
  (∀ (n : Fin 4) (s : State),
      enabled s.blk pgTHM = true → clocked s.blk pgTHM = true → n.val < 3 → hkQuiet s.blk (4 + n.val) = true →
      Completes (.rateDerateRelease true n) s fun b => rd b (THM.GDER.GTEMP.CAP n.val) = 256) ∧
  (∀ (n : Fin 4) (s : State),
      enabled s.blk pgTHM = true → clocked s.blk pgTHM = true → isOn s.blk (THM.PDER.ACTIVE n.val) = true →
      hkQuiet s.blk n.val = true →
      Completes (.rateDerateRelease false n) s fun b => isOn b (THM.PDER.ACTIVE n.val) = false)

/-- On an enabled port PLUG_INSERT of a present sample shows the plug and no fault; PLUG_REMOVE of another sample ends
it and the modem's join; PLUG_FAULT of a fault sample shows it; PILOT_CHANGE shows the state or band; the insulation
input moves IMD_OK and hold bit 4; an accepted DROP_CLR with no hold condition ends the drop; DISCHARGE_TIMEOUT of a
live port in drop sets CAUSE bit 17. -/
def Obligations.VehiclePlugs : Prop :=
  (∀ (p : Fin 4) (mv : BitVec 16) (s : State),
      enabled s.blk (pgVP p.val) = true → plugClass s.blk p.val mv.toNat = 0 → takesNow s.blk = true →
      Completes (.plugInsert p mv) s fun b => isOn b (VP.VSTAT.PLUG p.val) = true ∧ isOn b (VP.VSTAT.PLUG_FAULT p.val) = false) ∧
  (∀ (p : Fin 4) (mv : BitVec 16) (s : State),
      enabled s.blk (pgVP p.val) = true → plugClass s.blk p.val mv.toNat ≠ 0 → takesNow s.blk = true →
      Completes (.plugRemove p mv) s fun b => isOn b (VP.VSTAT.PLUG p.val) = false ∧ (isOn s.blk (VP.VSTAT.PLUG p.val) = true → isOn b (VP.PLC_STAT.JOINED p.val) = false)) ∧
  (∀ (p : Fin 4) (mv : BitVec 16) (s : State),
      enabled s.blk (pgVP p.val) = true → takesNow s.blk = true →
      Completes (.plugFault p mv) s fun b => isOn b (VP.VSTAT.PLUG_FAULT p.val) = decide (plugClass s.blk p.val mv.toNat = 2)) ∧
  (∀ (p : Fin 4) (hi lo : BitVec 16) (s : State),
      enabled s.blk (pgVP p.val) = true → rd s.blk (VP.VCTL.TYPE p.val) ≠ 0 → takesNow s.blk = true →
      Completes (.pilotChange p hi lo) s fun b => rd b (VP.VSTAT.PILOT p.val) = (if rd s.blk (VP.VCTL.TYPE p.val) = 1 then pilotClass hi.toInt else pilotBand s.blk p.val hi.toInt)) ∧
  (∀ (p : Fin 4) (s : State),
      enabled s.blk (pgVP p.val) = true → takesNow s.blk = true →
      Completes (.imdFault p) s fun b => isOn b (VP.VSTAT.IMD_OK p.val) = false ∧ rdBit b (VP.VSTAT.HOLD p.val) 4 = true) ∧
  (∀ (p : Fin 4) (s : State),
      enabled s.blk (pgVP p.val) = true → takesNow s.blk = true →
      Completes (.imdClear p) s fun b => isOn b (VP.VSTAT.IMD_OK p.val) = true ∧ rdBit b (VP.VSTAT.HOLD p.val) 4 = false) ∧
  (∀ (i : Init) (p : Fin 4) (s : State),
      enabled s.blk (pgVP p.val) = true → Accepts s.blk i (VP.ARM.DROP_CLR p.val).a 1 →
      vpHoldBits s.blk p.val = 0 →
      Completes (.dropClr i p) s fun b => isOn b (VP.VSTAT.DROP_LATCH p.val) = false ∧ isOn b (VP.VSTAT.DROP p.val) = false) ∧
  (∀ (p : Fin 4) (s : State),
      enabled s.blk (pgVP p.val) = true → isOn s.blk (VP.VSTAT.DROP p.val) = true →
      isOn s.blk (VP.VSTAT.LIVE p.val) = true →
      Completes (.dischargeTimeout p) s fun b => rdBit b (VP.CAUSE.CAUSE p.val) 17 = true)

/-- A LOCK_COMMAND whose CMD is accepted shows it and starts the pulse of a bistable lock whose CMD it changed;
LOCK_PULSE_END ends it; LOCK_TIMEOUT and LOCK_FEEDBACK_LOST with feedback against CMD set LOCK_FAULT, an accepted
LOCK_CLR clears it; the feedback shows after FB_INV; an emergency stop removes the gate enables and stops the port's
trunk, and its release ends its cause of removal once no input is asserted. -/
def Obligations.VehicleLocks : Prop :=
  (∀ (i : Init) (p : Fin 4) (v : Word) (s : State),
      lateWrite s.blk (VP.LOCK.CMD p.val).a = false →
      (writeOf s.blk i (VP.LOCK.CMD p.val).a v).mask.testBit 31 = true →
      lockMay s.blk p.val (v.toNat / 2 ^ 31) = true →
      Completes (.lockCommand i p v) s fun b => rd b (VP.LOCK.CMD p.val) = v.toNat / 2 ^ 31 ∧ (enabled s.blk (pgVP p.val) = true → rd s.blk (VP.LOCK.CMD p.val) ≠ v.toNat / 2 ^ 31 → rd s.blk (VP.VCTL.LOCK_CH p.val) ≠ 0xFF → rd s.blk (VP.VCTL.UNLOCK_CH p.val) ≠ 0xFF → (vpOf b p.val).pulse = (if v.toNat / 2 ^ 31 = 1 then 1 else 2))) ∧
  (∀ (p : Fin 4) (s : State),
      enabled s.blk (pgVP p.val) = true → Completes (.lockPulseEnd p) s fun b => (vpOf b p.val).pulse = 0) ∧
  (∀ (p : Fin 4) (s : State),
      enabled s.blk (pgVP p.val) = true → (vpOf s.blk p.val).lockWin = true →
      isOn s.blk (VP.VSTAT.LOCKED p.val) ≠ isOn s.blk (VP.LOCK.CMD p.val) →
      Completes (.lockTimeout p) s fun b => isOn b (VP.VSTAT.LOCK_FAULT p.val) = true ∧ (vpOf b p.val).lockWin = false) ∧
  (∀ (p : Fin 4) (s : State),
      enabled s.blk (pgVP p.val) = true → isOn s.blk (VP.LOCK.CMD p.val) = true →
      (vpOf s.blk p.val).lockTest = true → isOn s.blk (VP.VSTAT.LOCKED p.val) = false →
      rd s.blk (VP.VCTL.LOCK_CH p.val) ≠ 0xFF →
      Completes (.lockFeedbackLost p) s fun b => isOn b (VP.VSTAT.LOCK_FAULT p.val) = true) ∧
  (∀ (p : Fin 4) (fb : Bool) (s : State),
      enabled s.blk (pgVP p.val) = true → takesNow s.blk = true →
      Completes (.lockFeedbackChange p fb) s fun b => isOn b (VP.VSTAT.LOCKED p.val) = (fb != isOn s.blk (VP.VCTL.FB_INV p.val))) ∧
  (∀ (i : Init) (p : Fin 4) (s : State),
      enabled s.blk (pgVP p.val) = true → Accepts s.blk i (VP.ARM.DROP_CLR p.val).a 4 →
      Completes (.lockClr i p) s fun b => isOn b (VP.VSTAT.LOCK_FAULT p.val) = false) ∧
  (∀ (site : Bool) (p : Fin 4) (s : State),
      isOn s.blk (if site then VP.VSTAT.SITE_ESTOP 0 else VP.VSTAT.ESTOP p.val) = false →
      Completes (.estopAssert site p) s fun b => isOn b (if site then VP.VSTAT.SITE_ESTOP 0 else VP.VSTAT.ESTOP p.val) = true ∧ rdBit b TRUNK.TSTOP.STOPPED (4 * myPos s.blk + p.val) = true ∧ ∀ g : Nat, g < 3 → isOn b (MOD.GSTAT.HW_OFF g) = true) ∧
  (∀ (p : Fin 4) (s : State),
      Completes (.estopRelease false p) s fun b => isOn b (VP.VSTAT.ESTOP p.val) = false ∧ (anyEstop b = false → ∀ g : Nat, g < 3 → (modOf b g).gate.testBit 0 = false)) ∧
  (∀ (p : Fin 4) (s : State),
      Completes (.estopRelease true p) s fun b => (∀ k : Nat, k < 4 → isOn b (VP.VSTAT.SITE_ESTOP k) = false) ∧ (anyEstop b = false → ∀ g : Nat, g < 3 → (modOf b g).gate.testBit 0 = false))

/-- An accepted WAKE wakes the modem or PHY of the port's type, SOUND_RST clears the averages; a sounding counts;
joining shows JOINED and LINK; the modem powers down; the T1S link shows; a vehicle frame crosses with the followed
domain's time, one cut off is counted; a host frame goes to the vehicle where the link is awake and may send. -/
def Obligations.VehicleLinks : Prop :=
  (∀ (i : Init) (p : Fin 4) (s : State),
      enabled s.blk (pgVP p.val) = true → Accepts s.blk i (VP.ARM.DROP_CLR p.val).a 16 →
      Completes (.wake i p) s fun b => (rd s.blk (VP.VCTL.TYPE p.val) = 1 → isOn b (VP.PLC_STAT.AWAKE p.val) = true) ∧ (rd s.blk (VP.VCTL.TYPE p.val) = 2 → isOn b (VP.T1S_STAT.AWAKE p.val) = true)) ∧
  (∀ (i : Init) (p : Fin 4) (s : State),
      enabled s.blk (pgVP p.val) = true → Accepts s.blk i (VP.ARM.DROP_CLR p.val).a 8 →
      Completes (.soundRst i p) s fun b => rd b (VP.PLC_STAT.SOUNDS p.val) = 0 ∧ (vpOf b p.val).sounds = 0 ∧ (vpOf b p.val).atten = []) ∧
  (∀ (p : Fin 4) (a : List (BitVec 8)) (s : State),
      enabled s.blk (pgVP p.val) = true → isOn s.blk (VP.PLC_STAT.AWAKE p.val) = true → takesNow s.blk = true →
      Completes (.soundingFrame p a) s fun b => (vpOf b p.val).sounds = (vpOf s.blk p.val).sounds + 1 ∧ rd b (VP.PLC_STAT.SOUNDS p.val) = min 255 (rd s.blk (VP.PLC_STAT.SOUNDS p.val) + 1)) ∧
  (∀ (p : Fin 4) (s : State),
      enabled s.blk (pgVP p.val) = true → isOn s.blk (VP.PLC_STAT.AWAKE p.val) = true → takesNow s.blk = true →
      Completes (.plcJoined p) s fun b => isOn b (VP.PLC_STAT.JOINED p.val) = true ∧ isOn b (VP.VSTAT.LINK p.val) = true) ∧
  (∀ (p : Fin 4) (s : State),
      enabled s.blk (pgVP p.val) = true → (vpOf s.blk p.val).down = true →
      isOn s.blk (VP.VSTAT.PLUG p.val) = false →
      Completes (.modemPowerDown p) s fun b => isOn b (VP.PLC_STAT.AWAKE p.val) = false ∧ (vpOf b p.val).down = false) ∧
  (∀ (p : Fin 4) (up : Bool) (s : State),
      enabled s.blk (pgVP p.val) = true → isOn s.blk (VP.T1S_STAT.AWAKE p.val) = true → takesNow s.blk = true →
      Completes (.t1sLinkChange p up) s fun b => isOn b (VP.T1S_STAT.LINK p.val) = up) ∧
  (∀ (p : Fin 4) (f : List Byte) (s : State),
      enabled s.blk (pgVP p.val) = true → isOn s.blk (VP.PLC_STAT.AWAKE p.val) = true → takesNow s.blk = true →
      Completes (.vehicleFrameRx p f false) s fun b => Msg.plcFrame p.val (eFollow s.blk) f ∈ b.io.out) ∧
  (∀ (p : Fin 4) (f : List Byte) (s : State),
      enabled s.blk (pgVP p.val) = true → isOn s.blk (VP.T1S_STAT.AWAKE p.val) = true → takesNow s.blk = true →
      Completes (.vehicleFrameRx p f true) s fun b => rd b (VP.FRM_CNT.DISC p.val) = min 65535 (rd s.blk (VP.FRM_CNT.DISC p.val) + 1) ∧ rdBit b (VP.CAUSE.CAUSE p.val) 18 = true) ∧
  (∀ (p : Fin 4) (t : BitVec 64) (f : List Byte) (s : State),
      enabled s.blk (pgVP p.val) = true → isOn s.blk (VP.PLC_STAT.AWAKE p.val) = true →
      isOn s.blk (VP.PLC_STAT.JOINED p.val) = true → (paired s.blk && !isActive s.blk) = false →
      takesNow s.blk = true → Completes (.plcFrame false p t f) s fun b => Msg.vehicleTx p.val false f ∈ b.io.out) ∧
  (∀ (p : Fin 4) (t : BitVec 64) (f : List Byte) (s : State),
      enabled s.blk (pgVP p.val) = true → isOn s.blk (VP.T1S_STAT.AWAKE p.val) = true → 60 ≤ f.length →
      f.length ≤ 1518 → (paired s.blk && !isActive s.blk) = false → takesNow s.blk = true →
      Completes (.t1sFrame false p t f) s fun b => Msg.vehicleTx p.val true f ∈ b.io.out)

/-- A qualified button change shows and sets CAUSE bit 6; a long press shows; a touch scan shows the raw counts of the
enabled electrodes; TOUCH_RECAL of a touched electrode and an accepted RECAL set BASE to RAW. -/
def Obligations.VehiclePerson : Prop :=
  (∀ (p : Fin 4) (k : Fin 2) (on : Bool) (s : State),
      enabled s.blk (pgVP p.val) = true → rdBit s.blk (VP.PERSON.BTN p.val) k.val ≠ on → takesNow s.blk = true →
      Completes (.buttonChange p k on) s fun b => rdBit b (VP.PERSON.BTN p.val) k.val = on ∧ rdBit b (VP.CAUSE.CAUSE p.val) 6 = true) ∧
  (∀ (p : Fin 4) (k : Fin 2) (s : State),
      enabled s.blk (pgVP p.val) = true → rdBit s.blk (VP.PERSON.BTN p.val) k.val = true → takesNow s.blk = true →
      Completes (.longPress p k) s fun b => rdBit b (VP.PERSON.LONG p.val) k.val = true) ∧
  (∀ (p : Fin 4) (raw : List (BitVec 16)) (s : State),
      enabled s.blk (pgVP p.val) = true → takesNow s.blk = true →
      Completes (.touchScan p raw) s fun b => ∀ e : Nat, e < 4 → isOn s.blk (VP.TCH.TCFG.EN p.val e) = true → rd b (VP.TCH.TRAW.RAW p.val e) = (raw.getD e 0).toNat) ∧
  (∀ (p : Fin 4) (e : Fin 4) (s : State),
      enabled s.blk (pgVP p.val) = true → isOn s.blk (VP.TCH.TSTAT.TOUCHED p.val e.val) = true →
      Completes (.touchRecal p e) s fun b => rd b (VP.TCH.TRAW.BASE p.val e.val) = rd s.blk (VP.TCH.TRAW.RAW p.val e.val) ∧ rdBit b (VP.CAUSE.CAUSE p.val) 10 = true) ∧
  (∀ (i : Init) (p : Fin 4) (s : State),
      enabled s.blk (pgVP p.val) = true → Accepts s.blk i (VP.ARM.DROP_CLR p.val).a 2 →
      Completes (.recal i p) s fun b => ∀ e : Nat, e < 4 → rd b (VP.TCH.TRAW.BASE p.val e) = rd s.blk (VP.TCH.TRAW.RAW p.val e))

/-- On the enabled mesh a zero crossing counts towards lock, a slot start shows, a node that won the channel puts the
segments that fit in the air, an acknowledgement or its absence ends the frame, a line fault cuts it off until the
line resumes, a decoded frame of this network makes its sender a neighbour and is counted. -/
def Obligations.MeshLine : Prop :=
  (∀ (d h : BitVec 16) (s : State),
      enabled s.blk pgMESH = true → clocked s.blk pgMESH = true → isOn s.blk MTR.ACSTAT.V_LOST = false →
      takesNow s.blk = true →
      Completes (.mainsZeroCross d h) s fun b => b.mesh.half = h.toNat ∧ b.mesh.cross = (if d.toInt.natAbs ≤ 50 then min 8 (s.blk.mesh.cross + 1) else 0) ∧ b.mesh.start = (if h.toNat = 0 then none else some (eFollow s.blk + 1000 * rdI s.blk MESH.SYNC.ZC_OFS))) ∧
  (∀ (k : Fin 6) (s : State),
      enabled s.blk pgMESH = true → clocked s.blk pgMESH = true →
      Completes (.meshSlotStart k) s fun b => b.mesh.slot = k.val) ∧
  (∀ (left : BitVec 16) (m : Msdu) (l : List Msdu) (s : State),
      enabled s.blk pgMESH = true → clocked s.blk pgMESH = true → (∀ a, s.blk.mesh.air = some a → a.1 = 0xFF) →
      isOn s.blk MESH.STAT.LINE_FAULT = false → pfWarn s.blk = false → meshOrder s.blk = m :: l → m.left ≠ [] →
      0 < slotLeft left.toNat s.blk * 9 / (370 * meshSym s.blk ((nextHop s.blk m.dst).getD 0xFF)) →
      Completes (.meshTxStart left) s fun b => isOn b MESH.STAT.TX_BUSY = true ∧ b.mesh.air.isSome = true) ∧
  (∀ (bits : Nat) (n z : Nat) (k : List (Nat × Nat × Nat)) (s : State),
      enabled s.blk pgMESH = true → clocked s.blk pgMESH = true → s.blk.mesh.air = some (n, z, k) → n ≠ 0xFF →
      takesNow s.blk = true →
      Completes (.meshAckRx (.segs bits)) s fun b => b.mesh.air = none ∧ isOn b MESH.STAT.TX_BUSY = false) ∧
  (∀ (n z : Nat) (p : Nat × MeshMap) (s : State),
      enabled s.blk pgMESH = true → clocked s.blk pgMESH = true →
      Tab.at' (fun _ => none) (nbrOf s.blk n).pend z = some p → takesNow s.blk = true →
      Completes (.meshAckRx (.update n z)) s fun b => (nbrOf b n).slots = (nbrOf s.blk n).slots.set z p.1) ∧
  (∀ (x : Nat × Nat × List (Nat × Nat × Nat)) (s : State),
      enabled s.blk pgMESH = true → clocked s.blk pgMESH = true → s.blk.mesh.air = some x → takesNow s.blk = true →
      Completes (.meshAckMissing) s fun b => b.mesh.air = none ∧ isOn b MESH.STAT.TX_BUSY = false) ∧
  (∀ (f : MeshRx) (s : State),
      enabled s.blk pgMESH = true → clocked s.blk pgMESH = true → f.net = rd s.blk MESH.MCTL.NET_ID →
      f.sender < 64 → f.sender ≠ meshId s.blk → takesNow s.blk = true →
      Completes (.meshFrameRx f) s fun b => isOn b (MESH.NBR.NSTAT.PRESENT f.sender) = true ∧ rd b MESH.CNT_RX.FRAMES = (rd s.blk MESH.CNT_RX.FRAMES + 1) % 65536) ∧
  (∀ (s : State),
      enabled s.blk pgMESH = true → clocked s.blk pgMESH = true →
      Completes (.meshLineFault) s fun b => isOn b MESH.STAT.LINE_FAULT = true ∧ b.mesh.air = none) ∧
  (∀ (c : Bool) (s : State),
      enabled s.blk pgMESH = true → clocked s.blk pgMESH = true →
      Completes (.meshLineResume c) s fun b => isOn b MESH.STAT.LINE_FAULT = (!c && isOn s.blk MESH.STAT.LINE_FAULT))

/-- A map update from a neighbour takes its slot and is acknowledged, a pending one is repeated, an advertisement
carries the best routes, a lost neighbour and a lapsed route leave the table, an MSDU past its life leaves the
queue, a host MSDU of a reachable peer is queued in clear segments where no key is set. -/
def Obligations.MeshRoutes : Prop :=
  (∀ (n : Fin 64) (k : Fin 6) (m : Fin 8) (r : Bool) (c : List (BitVec 3)) (s : State),
      enabled s.blk pgMESH = true → clocked s.blk pgMESH = true →
      isOn s.blk (MESH.NBR.NSTAT.PRESENT n.val) = true → meshDrives s.blk = true → takesNow s.blk = true →
      Completes (.mapUpdateRx n k m r c) s fun b => (nbrOf b n.val).slots = (nbrOf s.blk n.val).slots.set k.val m.val ∧ Msg.meshUpdAck n.val k.val ∈ b.io.out) ∧
  (∀ (n : Fin 64) (k : Fin 6) (p : Nat × MeshMap) (s : State),
      enabled s.blk pgMESH = true → clocked s.blk pgMESH = true → meshDrives s.blk = true →
      Tab.at' (fun _ => none) (nbrOf s.blk n.val).pend k.val = some p →
      Completes (.mapUpdateRepeat n k) s fun b => Msg.meshUpdate n.val k.val p.1 p.2.rate p.2.codes ∈ b.io.out) ∧
  (∀ (n : Fin 64) (k : BitVec 16) (s : State),
      enabled s.blk pgMESH = true → clocked s.blk pgMESH = true →
      Completes (.msduLifetimeExpire true n k) s fun b => b.mesh.queue = s.blk.mesh.queue.filter fun m => !(m.src == n.val && m.num == k.toNat)) ∧
  (∀ (n : Fin 64) (k : BitVec 16) (s : State),
      enabled s.blk pgMESH = true → clocked s.blk pgMESH = true →
      Completes (.msduLifetimeExpire false n k) s fun b => b.mesh.parts.all (fun p => !(p.src == n.val && p.num == k.toNat && !partDone p)) = true) ∧
  (∀ (s : State),
      enabled s.blk pgMESH = true → clocked s.blk pgMESH = true → meshDrives s.blk = true →
      isOn s.blk MESH.MCTL.RELAY = true →
      Completes (.routeAdvertise) s fun b => Msg.meshAdv ((meshId s.blk, 0, 0) :: (bestRoutes s.blk).map fun r => (r.1, r.2.2.2, r.2.2.1)) ((bestRoutes s.blk).map fun r => (r.2.1, r.1)) ∈ b.io.out) ∧
  (∀ (n : Fin 64) (s : State),
      enabled s.blk pgMESH = true → clocked s.blk pgMESH = true →
      isOn s.blk (MESH.NBR.NSTAT.PRESENT n.val) = true →
      Completes (.neighbourLost n) s fun b => isOn b (MESH.NBR.NSTAT.PRESENT n.val) = false ∧ b.mesh.routes.all (fun e => e.2.all fun r => r.1 != n.val) = true) ∧
  (∀ (d n : Fin 64) (s : State),
      enabled s.blk pgMESH = true → clocked s.blk pgMESH = true →
      Completes (.routeLapse d n) s fun b => (Tab.at' (fun _ => []) b.mesh.routes d.val).all (fun r => r.1 != n.val) = true) ∧
  (∀ (p q : Byte) (d : List Byte) (s : State),
      enabled s.blk pgMESH = true → clocked s.blk pgMESH = true → d ≠ [] → d.length ≤ 2048 → q.toNat ≤ 3 →
      (nextHop s.blk p.toNat).isSome = true → meshKey s.blk 2 = none → takesNow s.blk = true →
      Completes (.meshFrame false p q d) s fun b => b.mesh.queue = s.blk.mesh.queue ++ [{ src := meshId s.blk, dst := p.toNat, num := (s.blk.mesh.num + 1) % 2 ^ 16, prio := q.toNat, data := d, left := List.range ((d.length + 511) / 512) }])

/-- An accepted RETRAIN takes the lane's settings and drops alignment; LANE_ALIGNED shows the position; LANE_LOSS
counts; LANE_FRAME_TIMEOUT counts; LINK_RESUME from the same peer puts the lane up; LINK_HOLD_EXPIRE resets the
link; LINK_HANDSHAKE puts the lane up; hellos go out, and an acceptable one moves to the handshake while another is
refused. -/
def Obligations.LaneLinks : Prop :=
  (∀ (i : Init) (n : Fin 16) (v : Word) (s : State),
      Accepts s.blk i (LANE.LCTL.RETRAIN n.val).a v → v.toNat.testBit 0 = true →
      enabled s.blk (pgLANE n.val) = true → isOn s.blk SYS.STRAP.STRAP_ERR = false →
      isOn s.blk (LANE.STAT.HOLD n.val) = false →
      Completes (.laneRetrain i n v) s fun b => (laneOf b n.val).rate = rd b (LANE.LCTL.RATE n.val) ∧ isOn b (LANE.STAT.ALIGNED n.val) = false ∧ isOn b (LANE.STAT.UP n.val) = false) ∧
  (∀ (n : Fin 16) (p : BitVec 7) (s : State),
      enabled s.blk (pgLANE n.val) = true → isOn s.blk SYS.STRAP.STRAP_ERR = false →
      (rd s.blk (LANE.STAT.STATE n.val) = 1 ∨ rd s.blk (LANE.STAT.STATE n.val) = 5) → p.toNat ≤ 65 →
      Completes (.laneAligned n p) s fun b => isOn b (LANE.STAT.ALIGNED n.val) = true ∧ rd b (LANE.STAT.SLIP n.val) = p.toNat ∧ rd b (LANE.STAT.STATE n.val) = 2) ∧
  (∀ (n : Fin 16) (s : State),
      enabled s.blk (pgLANE n.val) = true → isOn s.blk (LANE.STAT.ALIGNED n.val) = true →
      Completes (.laneLoss n) s fun b => isOn b (LANE.STAT.ALIGNED n.val) = false ∧ isOn b (LANE.STAT.UP n.val) = false ∧ rd b (LANE.ERR.LOSSES n.val) = min 65535 (rd s.blk (LANE.ERR.LOSSES n.val) + 1)) ∧
  (∀ (n : Fin 16) (s : State),
      enabled s.blk (pgLANE n.val) = true →
      Completes (.laneFrameTimeout n) s fun b => rd b (LANE.CRC.TIMEOUTS n.val) = min 65535 (rd s.blk (LANE.CRC.TIMEOUTS n.val) + 1)) ∧
  (∀ (n : Fin 16) (a : Byte) (d : BitVec 64) (q : List (BitVec 16)) (s : State),
      isOn s.blk (LANE.STAT.HOLD n.val) = true → rd s.blk (LANE.STAT.STATE n.val) = 2 →
      a.toNat = rd s.blk (LANE.STAT.PEER n.val) → d.toNat = (laneOf s.blk n.val).peer →
      (∀ c : Nat, c < 4 → (laneOf s.blk n.val).tries.getD c 0 + 1 < rd s.blk LINK.LCTL.RETX_MAX) →
      Completes (.linkResume n a d q) s fun b => isOn b (LANE.STAT.HOLD n.val) = false ∧ isOn b (LANE.STAT.UP n.val) = true ∧ rd b (LANE.STAT.STATE n.val) = 4) ∧
  (∀ (n : Fin 16) (s : State),
      isOn s.blk (LANE.STAT.HOLD n.val) = true →
      Completes (.linkHoldExpire n) s fun b => isOn b (LANE.STAT.HOLD n.val) = false ∧ rd b (LANE.STAT.PEER n.val) = 0xFF ∧ (laneOf b n.val).unacked = []) ∧
  (∀ (n : Fin 16) (s : State),
      rd s.blk (LANE.STAT.STATE n.val) = 3 →
      Completes (.linkHandshake n) s fun b => isOn b (LANE.STAT.UP n.val) = true ∧ rd b (LANE.STAT.STATE n.val) = 4 ∧ (laneOf b n.val).rxSeq = [0, 0, 0, 0]) ∧
  (∀ (n : Fin 16) (s : State),
      tiolmox s.blk n.val = true → mayTalk s.blk n.val = true → rd s.blk (LANE.STAT.STATE n.val) = 2 →
      isOn s.blk (LANE.STAT.HOLD n.val) = false →
      Completes (.helloSend n) s fun b => b.io.out = s.blk.io.out ++ [.laneHello n.val (helloOf s.blk n.val)]) ∧
  (∀ (n : Fin 16) (h : Hello) (s : State),
      tiolmox s.blk n.val = true → rd s.blk (LANE.STAT.STATE n.val) = 2 →
      isOn s.blk (LANE.STAT.HOLD n.val) = false → judgeHello s.blk n.val h = 0 →
      Completes (.helloRx n h) s fun b => rd b (LANE.STAT.STATE n.val) = 3 ∧ rd b (LANE.STAT.PEER n.val) = h.addr % 256 ∧ (laneOf b n.val).peer = h.ident) ∧
  (∀ (n : Fin 16) (h : Hello) (s : State),
      tiolmox s.blk n.val = true → rd s.blk (LANE.STAT.STATE n.val) = 2 →
      isOn s.blk (LANE.STAT.HOLD n.val) = false → judgeHello s.blk n.val h ≠ 0 →
      Completes (.helloRx n h) s fun b => rd b STK.REFUSED.COUNT = min 65535 (rd s.blk STK.REFUSED.COUNT + 1) ∧ rd b STK.REFUSED.LANE = n.val)

/-- A Tiolmox frame with a good CRC is counted and its credit returned; a retransmission counts its frames; a starved
class raises LINK bit 7; credits and acknowledgements take effect; the manager gives a configured stack its number,
and a stack takes it; Ethernet moves a frame into an owned descriptor and out of one, and TX_TAIL takes what is
written. -/
def Obligations.LaneFrames : Prop :=
  (∀ (n : Fin 16) (f : List Byte) (s : State),
      tiolmox s.blk n.val = true → laneUp s.blk n.val = true → 16 ≤ f.length →
      Crc.crc32 (f.take (f.length - 4)) = ofLE (f.drop (f.length - 4)) →
      Completes (.tiolmoxFrameRx n f) s fun b => Msg.laneCtl n.val ((f.getD 0 0).toNat / 64) (.credit 1) ∈ b.io.out ∧ rd b (LINK.CLS.RX.FRAMES ((f.getD 0 0).toNat / 64)) = (rd s.blk (LINK.CLS.RX.FRAMES ((f.getD 0 0).toNat / 64)) + 1) % 2 ^ 32) ∧
  (∀ (n : Fin 16) (c : Fin 4) (s : State),
      2 ≤ c.val → laneUp s.blk n.val = true → ((laneOf s.blk n.val).unacked.filter fun e => e.1 == c.val) ≠ [] →
      Completes (.retxTimeout n c) s fun b => rd b (LINK.CLS.ERR.RETX c.val) = min 65535 (rd s.blk (LINK.CLS.ERR.RETX c.val) + ((laneOf s.blk n.val).unacked.filter fun e => e.1 == c.val).length)) ∧
  (∀ (n : Fin 16) (c : Fin 4) (s : State),
      laneUp s.blk n.val = true → (laneOf s.blk n.val).credits.getD c.val 0 = 0 → enabled s.blk pgLINK = true →
      Completes (.creditStarve n c) s fun b => rdBit b (hRAW pgLINK) 7 = true) ∧
  (∀ (n : Fin 16) (c : Fin 4) (m : Nat) (s : State),
      laneUp s.blk n.val = true → (laneOf s.blk n.val).queue = [] →
      Completes (.controlBlock n c (.credit m)) s fun b => (laneOf b n.val).credits = (laneOf s.blk n.val).credits.set c.val (min (bufs s.blk c.val) ((laneOf s.blk n.val).credits.getD c.val 0 + m))) ∧
  (∀ (n : Fin 16) (c : Fin 4) (q : Nat) (s : State),
      laneUp s.blk n.val = true → 2 ≤ c.val →
      Completes (.controlBlock n c (.ack q)) s fun b => (laneOf b n.val).unacked = (laneOf s.blk n.val).unacked.filter fun e => e.1 != c.val || seqBefore q e.2.1) ∧
  (∀ (d : Word) (n : Fin 16) (p : BitVec 4) (k : Nat) (s : State),
      rd s.blk SYS.MODE.ROLE = 2 →
      (List.range 16).find? (fun j => j != 0 && decide (rd s.blk (STK.MAP.ID.ID j) = d.toNat)) = some k →
      isOn s.blk (STK.MAP.MSTAT.JOINED k) = false → p.toNat ≤ 3 →
      Completes (.stackIdRequest d n p) s fun b => isOn b (STK.MAP.MSTAT.JOINED k) = true ∧ Tab.at' (fun _ => 0) b.lanes.down k = n.val + 1 ∧ Msg.stackIdDown n.val d.toNat k p.toNat ∈ b.io.out) ∧
  (∀ (d : Word) (n : Fin 16) (p : Fin 4) (s : State),
      rd s.blk SYS.MODE.ROLE = 1 → isOn s.blk SYS.STRAP.STRAP_ERR = false →
      (isMaster s.blk = false ∨ d.toNat = rd s.blk STK.STACK_ID.ID) →
      (rd s.blk SYS.MODE.STACK = 31 ∨ rd s.blk SYS.MODE.STACK = n.val) →
      Completes (.stackNumberAssign d n p) s fun b => rd b SYS.MODE.STACK = n.val ∧ rd b STK.SSTAT.DEPTH = p.val) ∧
  (∀ (e : Fin 2) (f : List Byte) (s : State),
      enabled s.blk (pgETH e.val) = true → clocked s.blk (pgETH e.val) = true →
      isOn s.blk (ETH.ESTAT.LINK e.val) = true → ethAccepts s.blk e.val f = true →
      Crc.crc32 (f.take (f.length - 4)) = ofLE (f.drop (f.length - 4)) → 64 ≤ f.length → f.length ≤ 1522 →
      rd s.blk (ETH.RX_RING.SIZE e.val) ≠ 0 → ownedDesc (ethRead s.blk e.val 0) →
      (ethStore s.blk e.val f).2.1 = 0 →
      (streamWrite (ethStore s.blk e.val f).1 (32 + e.val) (ethDesc s.blk e.val 0 + 8) (ethBack (ethStore s.blk e.val f).1 (f.length - 4) 0)).2.1 = 0 →
      Completes (.ethFrameRx e f) s fun b => rd b (ETH.FRAMES.RX e.val) = (rd s.blk (ETH.FRAMES.RX e.val) + 1) % 65536) ∧
  (∀ (i : Init) (e : Fin 2) (v : Word) (s : State),
      Accepts s.blk i (ETH.TX_RING.TAIL e.val).a v →
      Completes (.ethTxQueue i e v) s fun b => rd b (ETH.TX_RING.TAIL e.val) = (ETH.TX_RING.TAIL e.val).of v) ∧
  (∀ (e : Fin 2) (s : State),
      enabled s.blk (pgETH e.val) = true → clocked s.blk (pgETH e.val) = true →
      isOn s.blk (ETH.ESTAT.LINK e.val) = true → rd s.blk (ETH.TX_RING.SIZE e.val) ≠ 0 →
      ownedDesc (ethRead s.blk e.val 1) → (ethFetch s.blk e.val).cause = 0 → (ethFetch s.blk e.val).bad = none →
      60 ≤ ofLE (((ethRead s.blk e.val 1).bytes.drop 8).take 2) →
      ofLE (((ethRead s.blk e.val 1).bytes.drop 8).take 2) ≤ 1518 →
      Completes (.ethFrameTx e) s fun b => Msg.ethTx e.val ((ethFetch s.blk e.val).bytes ++ le 4 (Crc.crc32 (ethFetch s.blk e.val).bytes)) ∈ b.io.out)

/-- An accepted MINT_GO of a mintable key, and a loadable or well wrapped one, begins a replacement; a passed self-test
commits it; KEY_OLD_ZEROISE empties the other cell; an accepted REVOKE of a filled slot makes it revoked-pending and
REVOKED_ZEROISE empties it; KW_SEND sends the blob; KEY_WRAP shows the first failed check, and with none its key
enters the slot. -/
def Obligations.KeySlots : Prop :=
  (∀ (i : Init) (s : State),
      Accepts s.blk i SRM.MINT_GO.GO.a 1 → mintable s.blk →
      Completes (.mintGo i) s fun b => (keySlot b (rd s.blk SRM.MINT_CFG.DEST)).pend.map (·.type) = some (rd s.blk SRM.MINT_CFG.TYPE) ∧ isOn b SRM.LD_STAT.BUSY = true ∧ rd b SRM.LD_STAT.RESULT = 0) ∧
  (∀ (n : Fin 80) (a : KeyAttr) (s : State),
      (keySlot s.blk n.val).pend = some a → selfTest a ((keySlot s.blk n.val).cell a.cell) = true →
      Completes (.keySelftestDone n) s fun b => (keySlot b n.val).pend = none ∧ (keySlot b n.val).w0 = some a ∧ (keySlot b n.val).w1 = some a ∧ (keySlot b n.val).old = true) ∧
  (∀ (n : Fin 80) (s : State),
      (keySlot s.blk n.val).old = true → (keySlot s.blk n.val).adopt = false → inFlight s.blk n.val = false →
      Completes (.keyOldZeroise n) s fun b => (keySlot b n.val).old = false ∧ (keySlot b n.val).cell (1 - (keySlot s.blk n.val).gov.cell) = []) ∧
  (∀ (i : Init) (v : Word) (s : State),
      i.side = .hostSide → Accepts s.blk i SRM.REVOKE.GO.a v → v.toNat.testBit 7 = true → v.toNat % 64 ≠ 0 →
      (keySlot s.blk (v.toNat % 64)).gov.type ≠ 0 → (keySlot s.blk (v.toNat % 64)).revoked = false →
      Completes (.revoke i v) s fun b => (keySlot b (v.toNat % 64)).revoked = true ∧ rd b SRM.LD_STAT.RESULT = 0) ∧
  (∀ (i : Init) (v : Word) (s : State),
      i.side = .fieldSide → Accepts s.blk i FSRM.REVOKE.GO.a v → v.toNat.testBit 7 = true → v.toNat % 16 ≠ 0 →
      (keySlot s.blk (64 + v.toNat % 16)).gov.type ≠ 0 → (keySlot s.blk (64 + v.toNat % 16)).revoked = false →
      Completes (.revoke i v) s fun b => (keySlot b (64 + v.toNat % 16)).revoked = true ∧ rd b FSRM.KW_STAT.RESULT = 0) ∧
  (∀ (n : Fin 80) (s : State),
      (keySlot s.blk n.val).revoked = true → inFlight s.blk n.val = false →
      Completes (.revokedZeroise n) s fun b => (keySlot b n.val).revoked = false ∧ (keySlot b n.val).gov.type = 0 ∧ (keySlot b n.val).c0 = [] ∧ (keySlot b n.val).c1 = []) ∧
  (∀ (i : Init) (v : Word) (s : State),
      Accepts s.blk i SRM.KW_SEND.GO.a v → v.toNat.testBit 7 = true → (keySlot s.blk (v.toNat % 64)).state = 1 →
      (keySlot s.blk (v.toNat % 64)).gov.type = 7 → (keySlot s.blk (v.toNat % 64)).gov.usage.testBit 6 = true →
      Completes (.kwSend i v) s fun b => Msg.keyWrap (keySlot s.blk (v.toNat % 64)).key ∈ b.io.out ∧ rd b SRM.LD_STAT.RESULT = 0) ∧
  (∀ (l : List Byte) (s : State),
      Completes (.keyWrap l) s fun b => rd b FSRM.KW_STAT.RESULT = blobCheck s.blk false l ∧ (blobCheck s.blk false l = 0 → (keySlot b (bAt l 2 % 64 + 64)).pend.isSome = true))

/-- A GO of an operation whose slot allows it and whose source reads without fault leaves it running with its result and
output; an agreement that yields a secret, a blob without failed check and a loadable content begin a replacement;
CRYPTO_OP_COMPLETE shows the result and its length and clears BUSY. -/
def Obligations.CryptoOperations : Prop :=
  (∀ (i : Init) (k : BitVec 8) (s : State),
      opRuns s.blk i 1 k.toNat 0 →
      Completes (.aesGcmEncrypt i k) s fun b => b.srm.op = some (opTaken s.blk i 1 k.toNat) ∧ isOn b SRM.OP_STAT.BUSY = true) ∧
  (∀ (i : Init) (k : BitVec 8) (s : State),
      opRuns s.blk i 2 k.toNat 0 →
      Completes (.aesGcmDecrypt i k) s fun b => b.srm.op = some (opTaken s.blk i 2 k.toNat) ∧ isOn b SRM.OP_STAT.BUSY = true) ∧
  (∀ (i : Init) (k : BitVec 8) (s : State),
      opRuns s.blk i 3 k.toNat 0 →
      Completes (.hmacSha256 i k) s fun b => b.srm.op = some (opTaken s.blk i 3 k.toNat) ∧ isOn b SRM.OP_STAT.BUSY = true) ∧
  (∀ (i : Init) (s : State),
      opRuns s.blk i 4 0 0 →
      Completes (.sha256 i) s fun b => b.srm.op = some (opTaken s.blk i 4 0) ∧ isOn b SRM.OP_STAT.BUSY = true) ∧
  (∀ (i : Init) (k : BitVec 8) (s : State),
      opRuns s.blk i 5 k.toNat 0 →
      Completes (.ecdsaSign i k) s fun b => b.srm.op = some (opTaken s.blk i 5 k.toNat) ∧ isOn b SRM.OP_STAT.BUSY = true) ∧
  (∀ (i : Init) (k : BitVec 8) (s : State),
      opRuns s.blk i 6 k.toNat 0 →
      Completes (.ecdsaVerify i k) s fun b => b.srm.op = some (opTaken s.blk i 6 k.toNat) ∧ isOn b SRM.OP_STAT.BUSY = true) ∧
  (∀ (i : Init) (k : BitVec 8) (d : BitVec 6) (s : State),
      opRuns s.blk i 7 k.toNat d.toNat → d.toNat ≠ 0 → slotBusy s.blk d.toNat = false →
      Completes (.ecdh i k d) s fun b => isOn b SRM.OP_STAT.BUSY = true ∧ ((Crypto.ecdh (ofBE (keySlot s.blk k.toNat).key) (opSource s.blk i 7 k.toNat d.toNat).bytes).isSome = true → (keySlot b d.toNat).pend.map (·.type) = some 4)) ∧
  (∀ (i : Init) (s : State),
      opRuns s.blk i 8 0 0 →
      Completes (.importBlob i) s fun b => isOn b SRM.OP_STAT.BUSY = true ∧ rd b SRM.LD_STAT.RESULT = blobCheck (opSource s.blk i 8 0 0).blk true (opSource s.blk i 8 0 0).bytes) ∧
  (∀ (i : Init) (s : State),
      opRuns s.blk i 9 0 0 → loadable s.blk (opSource s.blk i 9 0 0).bytes.length →
      Completes (.loadInClear i) s fun b => isOn b SRM.OP_STAT.BUSY = true ∧ (keySlot b (rd s.blk SRM.MINT_CFG.DEST)).pend.map (·.type) = some (rd s.blk SRM.MINT_CFG.TYPE)) ∧
  (∀ (o : CryptoOp) (s : State),
      s.blk.srm.op = some o →
      (o.out = [] ∨ (streamWrite { s.blk with srm := { s.blk.srm with op := none } } 35 o.dst o.out).2.1 = 0) →
      Completes (.cryptoOpComplete) s fun b => b.srm.op = none ∧ isOn b SRM.OP_STAT.BUSY = false ∧ rd b SRM.OP_STAT.RESULT = o.result % 256 ∧ rd b SRM.OP_STAT.OUT_LEN = o.out.length % 65536)

/-- On both sides an accepted PROG stores the staged hash and shows the anchor programmed, an accepted REVOKE of an
anchor that is not the last shows it revoked, and an accepted ROLL_ADV below the running version raises the floor by
one, to 64 at most. -/
def Obligations.AnchorsAndFloor : Prop :=
  (∀ (i : Init) (k : Fin 4) (s : State),
      i.side = .hostSide → Accepts s.blk i SRM.ANCH_CTL.PROG.a (BitVec.ofNat 32 (4 + k.val)) →
      Completes (.anchorProgram i k) s fun b => rdBit b SRM.STAT.ANCH_PROG k.val = true ∧ Tab.at' (fun _ => []) b.srm.anchors (k.val + 0) = (List.range 8).flatMap fun j => le 4 (rd s.blk (sFld 0 (SRM.ANCH_STAGE.HASH j)))) ∧
  (∀ (i : Init) (k : Fin 4) (s : State),
      i.side = .fieldSide → Accepts s.blk i FSRM.ANCH_CTL.PROG.a (BitVec.ofNat 32 (4 + k.val)) →
      Completes (.anchorProgram i k) s fun b => rdBit b FSRM.STAT.ANCH_PROG k.val = true ∧ Tab.at' (fun _ => []) b.srm.anchors (k.val + 4) = (List.range 8).flatMap fun j => le 4 (rd s.blk (sFld 64 (SRM.ANCH_STAGE.HASH j)))) ∧
  (∀ (i : Init) (k : Fin 4) (s : State),
      i.side = .hostSide → Accepts s.blk i SRM.ANCH_CTL.PROG.a (BitVec.ofNat 32 (8 + k.val)) →
      ¬((anchorsOk s.blk 0).contains k.val = true ∧ (anchorsOk s.blk 0).length = 1) →
      Completes (.anchorRevoke i k) s fun b => rdBit b SRM.STAT.ANCH_REV k.val = true) ∧
  (∀ (i : Init) (k : Fin 4) (s : State),
      i.side = .fieldSide → Accepts s.blk i FSRM.ANCH_CTL.PROG.a (BitVec.ofNat 32 (8 + k.val)) →
      ¬((anchorsOk s.blk 64).contains k.val = true ∧ (anchorsOk s.blk 64).length = 1) →
      Completes (.anchorRevoke i k) s fun b => rdBit b FSRM.STAT.ANCH_REV k.val = true) ∧
  (∀ (i : Init) (s : State),
      i.side = .hostSide → Accepts s.blk i SRM.ROLL_ADV.GO.a 1 →
      rd s.blk SRM.STAT.FLOOR < rd s.blk SRM.BOOT_SVN.SVN →
      Completes (.rollAdv i) s fun b => rd b SRM.STAT.FLOOR = min 64 (rd s.blk SRM.STAT.FLOOR + 1)) ∧
  (∀ (i : Init) (s : State),
      i.side = .fieldSide → Accepts s.blk i FSRM.ROLL_ADV.GO.a 1 →
      rd s.blk FSRM.STAT.FLOOR < rd s.blk FSRM.BOOT_SVN.SVN →
      Completes (.rollAdv i) s fun b => rd b FSRM.STAT.FLOOR = min 64 (rd s.blk FSRM.STAT.FLOOR + 1))

/-- A metrology sample shows every channel's raw value, an AC channel's after its PH_DELAY (whose interpolation is a
free function of the model, log 23), and ends the step list; a control sample shows each voltage channel's value and
validity; the end of a mains cycle, at a crossing while the reference voltage is there and after the fixed number of
samples while it is lost, shows its frequency and whether the mains is lost; a condition that holds for its time
shows, and a disagreement of twins shows its channel. -/
def Obligations.MetrologySamples : Prop :=
  (∀ (x : SensorSet) (s : State),
      enabled s.blk pgMTR = true → clocked s.blk pgMTR = true → s.blk.met.stopped = false → takesNow s.blk = true →
      Completes (.metrologySample x) s fun b => (∀ v : Nat, v < 7 → rdI b (MTR.VCH.VRAW.X v) = satS 24 (delayed (32 + v) (if 4 ≤ v then rdI s.blk (MTR.VCH.VPH.PH_DELAY v) else 0) (x.volt.getD v 0) s.blk).2) ∧ (∀ n : Nat, n < 8 → enabled s.blk (pgSNS n) = true → rdI b (SNS.SRAW.X n) = satS 24 (headX (rd s.blk (SNS.SCFG.TYPE n)) (isOn s.blk (SNS.SCFG.INV n)) (delayedSet n (x.cur.getD n []) s.blk).2)) ∧ b.met.steps = []) ∧
  (∀ (x : SensorSet) (s : State),
      metSamples s.blk = true → takesNow s.blk = true →
      Completes (.controlSample x) s fun b => ∀ v : Nat, v < 7 → isOn b (MTR.VCH.VCTL.INVALID v) = isOn s.blk (MTR.VCH.VCTL.OVR v) ∧ rdI b (MTR.VCH.VCTL.V v) = ctrlValue (voltY s.blk v (x.volt.getD v 0))) ∧
  (∀ (c : Bool) (f : Word) (s : State),
      enabled s.blk pgMTR = true → clocked s.blk pgMTR = true → isOn s.blk MTR.MCTL.AC_EN = true →
      s.blk.met.ac.n ≠ 0 → s.blk.met.stopped = false → acLost s.blk.met.ac f.toNat s.blk = !c →
      (c = true ∨ fixedCycle s.blk ≤ s.blk.met.ac.n) → takesNow s.blk = true →
      Completes (.mainsCycleEnd ⟨c, f⟩) s fun b => b.met.ac = {} ∧ rd b MTR.FREQ.FREQ = min 65535 f.toNat ∧ isOn b MTR.ACSTAT.V_LOST = acLost s.blk.met.ac f.toNat s.blk) ∧
  (∀ (ch : Fin 15) (c : SnsCond) (on : Bool) (s : State),
      ch.val < 8 → enabled s.blk (pgSNS ch.val) = true → condNow s.blk ch.val c on = on →
      Completes (.sensorFaultQualify ch c on) s fun b => isOn b (condFld ch.val c) = on) ∧
  (∀ (ch : Fin 15) (on : Bool) (s : State),
      8 ≤ ch.val → enabled s.blk pgMTR = true → clocked s.blk pgMTR = true →
      decide (ovrBound ≤ (rdI s.blk (MTR.VCH.VRAW.X (ch.val - 8))).natAbs) = on →
      Completes (.sensorFaultQualify ch .ovr on) s fun b => isOn b (MTR.VCH.VCTL.OVR (ch.val - 8)) = on) ∧
  (∀ (c : Fin 15) (s : State),
      enabled s.blk pgMTR = true → clocked s.blk pgMTR = true → paired s.blk = true →
      Completes (.twinDisagree c) s fun b => rdBit b MTR.PAIR_STAT.DIFF c.val = true)

/-- An accepted capture GO starts it empty, and CAPTURE_DONE ends a full one; CAL_COMMIT stores the check word and
CAL_CHECK compares it; a due pulse is counted and its end clears the output; a write of a pulse's source or constant
clears its accumulator and count. -/
def Obligations.CalibrationAndPulses : Prop :=
  (∀ (i : Init) (v : Word) (s : State),
      Accepts s.blk i MTR.CAPT_CTL.GO.a (v ||| 1) → enabled s.blk pgMTR = true → clocked s.blk pgMTR = true →
      Completes (.captureStart i v) s fun b => isOn b MTR.CAPT_STAT.BUSY = true ∧ rd b MTR.CAPT_STAT.DONE_N = 0 ∧ rd64 b MTR.CAPT_SUM.SUM = 0 ∧ rd64 b MTR.CAPT_SQ.SQ = 0) ∧
  (∀ (s : State),
      enabled s.blk pgMTR = true → clocked s.blk pgMTR = true → isOn s.blk MTR.CAPT_STAT.BUSY = true →
      rd s.blk MTR.CAPT_CTL.N ≤ rd s.blk MTR.CAPT_STAT.DONE_N →
      Completes (.captureDone) s fun b => isOn b MTR.CAPT_STAT.BUSY = false) ∧
  (∀ (i : Init) (s : State),
      Accepts s.blk i MTR.CAL_COMMIT.GO.a 1 → enabled s.blk pgMTR = true → clocked s.blk pgMTR = true →
      Completes (.calCommit i) s fun b => isOn b MTR.CAL_STAT.CAL_OK = true ∧ rd b MTR.CAL_CRC.CRC = calCrc (writeOf s.blk i MTR.CAL_COMMIT.GO.a 1).blk ∧ rd b MTR.CAL_STAT.COMMITS = min 65535 (rd s.blk MTR.CAL_STAT.COMMITS + 1)) ∧
  (∀ (s : State),
      enabled s.blk pgMTR = true → clocked s.blk pgMTR = true →
      Completes (.calCheck) s fun b => isOn b MTR.CAL_STAT.CAL_OK = (isOn s.blk MTR.CAL_STAT.CAL_OK && decide (rd s.blk MTR.CAL_STAT.COMMITS = 0 ∨ calCrc s.blk = rd s.blk MTR.CAL_CRC.CRC))) ∧
  (∀ (q : Fin 5) (s : State),
      enabled s.blk pgMTR = true → clocked s.blk pgMTR = true →
      36 * 10 ^ 22 ≤ Tab.at' (fun _ => 0) s.blk.met.pulse q.val → s.blk.met.active.testBit q.val = false →
      Completes (.pulseStart q) s fun b => rd b (MTR.PULSE.PCNT.COUNT q.val) = (rd s.blk (MTR.PULSE.PCNT.COUNT q.val) + 1) % 2 ^ 32 ∧ b.met.active.testBit q.val = true ∧ Tab.at' (fun _ => 0) b.met.pulse q.val = Tab.at' (fun _ => 0) s.blk.met.pulse q.val - 36 * 10 ^ 22) ∧
  (∀ (q : Fin 5) (s : State),
      enabled s.blk pgMTR = true → clocked s.blk pgMTR = true → s.blk.met.active.testBit q.val = true →
      Completes (.pulseEnd q) s fun b => b.met.active.testBit q.val = false) ∧
  (∀ (i : Init) (q : Fin 5) (v : Word) (s : State),
      Accepts s.blk i (MTR.PULSE.PCFG.CONST q.val).a v →
      (writeOf s.blk i (MTR.PULSE.PCFG.CONST q.val).a v).mask / 2 ^ 12 ≠ 0 →
      Completes (.pulseConfigWrite i q v) s fun b => Tab.at' (fun _ => 0) b.met.pulse q.val = 0 ∧ rd b (MTR.PULSE.PCNT.COUNT q.val) = 0)

/-- Each boundary row fires every boundary due and shows billing time; a tally snapshot goes out and clears the means; a
periodic commit stores the live state; a signed record leaves the queue under the next SEQ; a tamper opening shows
and is counted, its end shows; a TIME_SYNC judges agreement and loads a copy not yet set; three missing ones show
holdover. -/
def Obligations.BillingBoundaries : Prop :=
  (∀ (s : State), houseOn s.blk → Completes (.subintervalEnd) s fun b => billed s.blk b) ∧
  (∀ (s : State), houseOn s.blk → Completes (.tariffSwitch) s fun b => billed s.blk b) ∧
  (∀ (s : State), houseOn s.blk → Completes (.calendarActivation) s fun b => billed s.blk b) ∧
  (∀ (s : State), houseOn s.blk → Completes (.zoneChange) s fun b => billed s.blk b) ∧
  (∀ (s : State), houseOn s.blk → Completes (.gridLimitBoundary) s fun b => billed s.blk b) ∧
  (∀ (n : BitVec 32) (s : State),
      houseOn s.blk → sends s.blk = true →
      Completes (.tallySnapshot n) s fun b => b.house.feedE = 0 ∧ b.house.portE = 0 ∧ b.house.snapDt = 0 ∧ (b.io.out.getLast?.map fun m => match m with | .tallySnap _ => true | _ => false) = some true) ∧
  (∀ (s : State), houseOn s.blk → Completes (.periodicCommit) s fun b => b.house.copy = s.blk.house.live) ∧
  (∀ (r : AedRec) (l : List AedRec) (s : State),
      houseOn s.blk → s.blk.house.queue = r :: l →
      Completes (.recordSignDone) s fun b => b.house.queue = l ∧ rd64 b CH.SEQ.SEQ = (rd64 s.blk CH.SEQ.SEQ + 1) % 2 ^ 64) ∧
  (∀ (t : Bool) (s : State),
      takesNow s.blk = true →
      Completes (.tamperEvent t true) s fun b => isOn b (if t then CH.TAMPER.TERM_OPEN else CH.TAMPER.COVER_OPEN) = true ∧ rd b (if t then CH.TAMPER.TERM_CNT else CH.TAMPER.COVER_CNT) = min 255 (rd s.blk (if t then CH.TAMPER.TERM_CNT else CH.TAMPER.COVER_CNT) + 1)) ∧
  (∀ (t : Bool) (s : State),
      takesNow s.blk = true →
      Completes (.tamperEvent t false) s fun b => isOn b (if t then CH.TAMPER.TERM_OPEN else CH.TAMPER.COVER_OPEN) = false) ∧
  (∀ (x y : BitVec 64) (m z : BitVec 2) (v : BitVec 64) (s : State),
      Completes (.timeSync x y m z v) s fun b => (isOn b FTIME.FSTAT.AGREE = decide (((eField b 0 : Int) - eField b 1).natAbs ≤ rd s.blk FTIME.FCTL.SW_TOL_NS)) ∧ ((copyOf s.blk 0).synced = false → eField b 0 = x.toNat) ∧ ((copyOf s.blk 1).synced = false → eField b 1 = y.toNat)) ∧
  (∀ (s : State),
      Completes (.followerHoldover) s fun b => isOn b FTIME.FSTAT.HOLD = true ∧ rd b FTIME.FSTAT.SYNC_MISS = min 65535 (rd s.blk FTIME.FSTAT.SYNC_MISS + 3))

/-- An accepted GO makes the mailbox busy with the frame's length. A frame that passes every check completes with RESULT
0: SESSION_OPEN opens the port's session under its reference, SESSION_CLOSE ends it, GRID_LIMIT takes the limit and
its times, REPLAY sends the record again. -/
def Obligations.MailboxCommands : Prop :=
  (∀ (i : Init) (v : Word) (s : State),
      Accepts s.blk i FBAR.MBX_CTL.GO.a v → v.toNat.testBit 0 = true →
      Completes (.mailboxGo i v) s fun b => isOn b FBAR.MBX_STAT.BUSY = true ∧ rd b FBAR.MBX_STAT.LEN = rd s.blk (FBAR.MBX_DATA.DATA 1) % 512) ∧
  (∀ (s : State),
      mailPasses s.blk 0x01 maySessionOpen → takesNow s.blk = true →
      Completes (.sessionOpen) s fun b => mailDone b 0x01 ∧ (sessOf b (mailAt s.blk 0 1)).map (·.ref) = some (mailAt s.blk 8 8)) ∧
  (∀ (s : State),
      mailPasses s.blk 0x02 maySessionClose → takesNow s.blk = true →
      Completes (.sessionClose) s fun b => mailDone b 0x02 ∧ sessOf b (mailAt s.blk 0 1) = none ∧ (recordsBarred s.blk = false → b.house.queue.length = s.blk.house.queue.length + 1)) ∧
  (∀ (s : State),
      mailPasses s.blk 0x03 anyState → takesNow s.blk = true →
      Completes (.gridLimit) s fun b => mailDone b 0x03 ∧ rd b DMD.GRID.KW = mailAt s.blk 0 4 ∧ rd64 b DMD.GRID_START.B = mailAt s.blk 4 8 ∧ rd64 b DMD.GRID_END.B = mailAt s.blk 12 8) ∧
  (∀ (r : List Byte) (s : State),
      mailPasses s.blk 0x04 mayReplay → ringRecord s.blk (mailAt s.blk 0 8) = some r → sends s.blk = true →
      takesNow s.blk = true → Completes (.replay) s fun b => mailDone b 0x04 ∧ Msg.meterRecord r ∈ b.io.out)

/-- A signed frame that passes every check completes with RESULT 0 and its nonce is stored: SET_CONTRACT, BILLING_RESET,
CAL_LOAD, CAL_ACTIVATE of a later time, ZONE_SET and ACK_TAMPER take effect, SEAL and UNSEAL change the seal. -/
def Obligations.SignedCommands : Prop :=
  (∀ (s : State),
      mailPasses s.blk 0x10 anyState → takesNow s.blk = true →
      Completes (.setContract) s fun b => mailDone b 0x10 ∧ rd64 b CH.NONCE.NONCE = payAt (mailFrame s.blk) 16 8 ∧ rd b DMD.CONTRACT.KW = mailAt s.blk 0 4) ∧
  (∀ (s : State),
      mailPasses s.blk 0x11 anyState → takesNow s.blk = true →
      Completes (.billingReset) s fun b => mailDone b 0x11 ∧ rd64 b CH.NONCE.NONCE = payAt (mailFrame s.blk) 16 8 ∧ b.house.live.resetDue = true) ∧
  (∀ (s : State),
      mailPasses s.blk 0x12 mayCalLoad → takesNow s.blk = true →
      Completes (.calLoad) s fun b => mailDone b 0x12 ∧ rd64 b CH.NONCE.NONCE = payAt (mailFrame s.blk) 16 8 ∧ ∀ k : Nat, k < 32 → k < mailAt s.blk 2 2 → pendEntry b (mailAt s.blk 0 2 + k) = mailAt s.blk (4 + 4 * k) 4) ∧
  (∀ (s : State),
      mailPasses s.blk 0x13 mayCalActivate → (moveB s.blk).house.live.h < mailAt s.blk 0 8 →
      takesNow s.blk = true →
      Completes (.calActivate) s fun b => mailDone b 0x13 ∧ rd64 b CH.NONCE.NONCE = payAt (mailFrame s.blk) 16 8 ∧ rd64 b TRF.ACT_AT.B = mailAt s.blk 0 8 ∧ b.house.pendDef = mailAt s.blk 12 1) ∧
  (∀ (s : State),
      mailPasses s.blk 0x14 anyState → takesNow s.blk = true →
      Completes (.zoneSet) s fun b => mailDone b 0x14 ∧ rd64 b CH.NONCE.NONCE = payAt (mailFrame s.blk) 16 8 ∧ rd b (TRF.ZONE.START.START (mailAt s.blk 0 1)) = mailAt s.blk 4 4 ∧ rd b (TRF.ZONE.OFS.OFS (mailAt s.blk 0 1)) = mailAt s.blk 8 4) ∧
  (∀ (s : State),
      mailPasses s.blk 0x15 mayAckTamper → takesNow s.blk = true →
      Completes (.ackTamper) s fun b => mailDone b 0x15 ∧ rd64 b CH.NONCE.NONCE = payAt (mailFrame s.blk) 16 8 ∧ isOn b CH.CSTAT.BROKEN = false ∧ rd b CH.TAMPER.COVER_CNT = 0 ∧ rd b CH.TAMPER.TERM_CNT = 0) ∧
  (∀ (s : State),
      mailPasses s.blk 0x16 maySeal → takesNow s.blk = true →
      Completes (.seal) s fun b => mailDone b 0x16 ∧ rd64 b CH.NONCE.NONCE = payAt (mailFrame s.blk) 16 8 ∧ b.acc.sealed = true ∧ isOn b SYS.MODE.SEALED = true ∧ b.acc.sealGen = (s.blk.acc.sealGen + 1) % 2 ^ 16) ∧
  (∀ (s : State),
      mailPasses s.blk 0x17 mayUnseal → takesNow s.blk = true →
      Completes (.unseal) s fun b => mailDone b 0x17 ∧ rd64 b CH.NONCE.NONCE = payAt (mailFrame s.blk) 16 8 ∧ b.acc.sealed = false ∧ isOn b SYS.MODE.SEALED = false)

/-- A store of bytes to memory stores them; a word to a register whose fields all accept it is stored and acts (R534),
for every register of every page but the three with rows of their own; a word none of whose bits is accepted changes
nothing of the register, and where a rule rejects it WR_REJ and REJ_CNT show it; stores of another width,
misaligned, or outside what takes stores, end in a bus error and leave memory as it was, and the control core's at
the metrology core's pages are counted and raise FSYS event 121 (R10, R22). On a pair a write to a deterministic
page waits for its release tick (R342). A read of a pair's low word takes the shadow of its high word, which the
next read of the high word answers (R24); during a soft reset both read zero (R29). EN, FRZ and SRST take effect
where accepted; SRST returns the registers of a block, except what MRAM, fuses and present conditions hold, and sets
BUSY; a word to PAGE_LOCK steps the lock and the end of the window closes it. Which bits show a present condition is
the model's choice (notes/assumptions/37.md). -/
def Obligations.PageCommands : Prop :=
  (∀ (i : Init) (a : BitVec 32) (d : List Byte) (r : Region) (s : State),
      storable i a.toNat d.length r → d ≠ [] → regionAt i.side a.toNat = some r →
      regionAt i.side (a.toNat + d.length - 1) = some r →
      Completes (.regWrite i a d) s fun b => b.mem = (writeMem (memKey i a.toNat) d s.blk).mem ∧ b.io.resp = .accepted) ∧
  (∀ (i : Init) (a : BitVec 32) (d : List Byte) (s : State),
      wordStore i a.toNat d → 0x40 ≤ a.toNat % 0x1000 → ¬ ownRow (regAt i a.toNat) →
      Accepts s.blk i (regAt i a.toNat) (word (ofLE d)) →
      Completes (.regWrite i a d) s fun b => b = regAct s.blk i (regAt i a.toNat) (ofLE d) (writeOf s.blk i (regAt i a.toNat) (word (ofLE d))).blk) ∧
  (∀ (i : Init) (a : BitVec 32) (d : List Byte) (s : State),
      wordStore i a.toNat d → (a.toNat % 0x1000 = 0x24 ∨ a.toNat % 0x1000 = 0x2C) →
      Accepts s.blk i (regAt i a.toNat) (word (ofLE d)) →
      Completes (.regWrite i a d) s fun b => b = (writeOf s.blk i (regAt i a.toNat) (word (ofLE d))).blk) ∧
  (∀ (i : Init) (a : BitVec 32) (d : List Byte) (s : State),
      wordStore i a.toNat d → regAt i a.toNat ≠ DBK.REL_HI.SEQ.a →
      (writeOf s.blk i (regAt i a.toNat) (word (ofLE d))).mask = 0 →
      1 < (writeOf s.blk i (regAt i a.toNat) (word (ofLE d))).status →
      Completes (.regWrite i a d) s fun b => b.io.resp = .rejected ∧ isOn b (hWRREJ (regAt i a.toNat / 0x1000 * 0x1000)) = true ∧ rd b (hREJCNT (regAt i a.toNat / 0x1000 * 0x1000)) = min 255 (rd s.blk (hREJCNT (regAt i a.toNat / 0x1000 * 0x1000)) + 1)) ∧
  (∀ (i : Init) (a : BitVec 32) (d : List Byte) (s : State),
      badStore i a.toNat d → Completes (.regWrite i a d) s fun b => b.io.resp = .busError ∧ b.mem = s.blk.mem) ∧
  (∀ (a : BitVec 32) (d : List Byte) (s : State),
      regionAt .fieldSide a.toNat = some .fieldPages →
      regionAt .fieldSide (a.toNat + d.length - 1) = some .fieldPages → d ≠ [] →
      metOnly (regAt .ctrl a.toNat / 0x1000 * 0x1000) = true →
      Completes (.regWrite .ctrl a d) s fun b => b.io.resp = .busError ∧ isOn b (hWRREJ (regAt .ctrl a.toNat / 0x1000 * 0x1000)) = true ∧ rd b (hREJCNT (regAt .ctrl a.toNat / 0x1000 * 0x1000)) = min 255 (rd s.blk (hREJCNT (regAt .ctrl a.toNat / 0x1000 * 0x1000)) + 1) ∧ (enabled s.blk pgFSYS = true → rdBit b (hRAW pgFSYS) 1 = true)) ∧
  (∀ (i : Init) (a : BitVec 32) (d : List Byte) (s : State),
      wordStore i a.toNat d → Waits s.blk i (regAt i a.toNat) (word (ofLE d)) →
      Completes (.regWrite i a d) s fun b => held s.blk b i (regAt i a.toNat) (word (ofLE d))) ∧
  (∀ (i : Init) (p : BitVec 8) (o : BitVec 12) (s : State),
      wideLow (pageKey i p.toNat + o.toNat / 4 * 4) = true → plainRead (pageKey i p.toNat + o.toNat / 4 * 4) →
      (isOn s.blk (hBUSY (pageKey i p.toNat)) = false ∨ o.toNat < 0x40) →
      pendingWrite s.blk i (pageKey i p.toNat + o.toNat / 4 * 4) = none →
      Completes (.wideLowRead i p o) s fun b => (shadowOf b i (pageKey i p.toNat)).map (fun x => (x.key, x.hi)) = some (pageKey i p.toNat + o.toNat / 4 * 4 + 4, shown (dropShadow i (pageKey i p.toNat) s.blk) (pageKey i p.toNat + o.toNat / 4 * 4 + 4)) ∧ ((shadowOf s.blk i (pageKey i p.toNat)).all (fun x => x.key != pageKey i p.toNat + o.toNat / 4 * 4) = true → b.io.resp = .value (shown s.blk (pageKey i p.toNat + o.toNat / 4 * 4)))) ∧
  (∀ (i : Init) (p : BitVec 8) (o : BitVec 12) (x : Shadow) (s : State),
      (pageAt (pageKey i p.toNat)).isSome = true →
      (((pageAt (pageKey i p.toNat)).map (·.1)).bind (rowAt · (o.toNat / 4 * 4))).isSome = true →
      plainRead (pageKey i p.toNat + o.toNat / 4 * 4) →
      (isOn s.blk (hBUSY (pageKey i p.toNat)) = false ∨ o.toNat < 0x40) →
      pendingWrite s.blk i (pageKey i p.toNat + o.toNat / 4 * 4) = none →
      shadowOf s.blk i (pageKey i p.toNat) = some x → x.key = pageKey i p.toNat + o.toNat / 4 * 4 →
      Completes (.wideLowRead i p o) s fun b => b.io.resp = .value x.hi) ∧
  (∀ (i : Init) (p : BitVec 8) (o : BitVec 12) (s : State),
      (pageAt (pageKey i p.toNat)).isSome = true → isOn s.blk (hBUSY (pageKey i p.toNat)) = true → 0x40 ≤ o.toNat →
      pendingWrite s.blk i (pageKey i p.toNat + o.toNat / 4 * 4) = none →
      Completes (.wideLowRead i p o) s fun b => b.io.resp = .value 0 ∧ shadowOf b i (pageKey i p.toNat) = none) ∧
  (∀ (i : Init) (p : BitVec 8) (s : State),
      Accepts s.blk i (pageKey i p.toNat + 0x0C) (wordOf s.blk (pageKey i p.toNat + 0x0C) ||| 1) →
      Completes (.pageEnable i p) s fun b => enabled b (pageKey i p.toNat) = true) ∧
  (∀ (i : Init) (p : BitVec 8) (s : State),
      Waits s.blk i (pageKey i p.toNat + 0x0C) (wordOf s.blk (pageKey i p.toNat + 0x0C) ||| 1) →
      Completes (.pageEnable i p) s fun b => held s.blk b i (pageKey i p.toNat + 0x0C) (wordOf s.blk (pageKey i p.toNat + 0x0C) ||| 1)) ∧
  (∀ (i : Init) (p : BitVec 8) (s : State),
      lateWrite s.blk (pageKey i p.toNat + 0x0C) = false →
      (ctlOf s.blk i (pageKey i p.toNat) (· &&& ~~~1#32)).mask.testBit 0 = true →
      (match pageAt (pageKey i p.toNat) with | some (r, _) => r.alwaysOn | none => true) = false →
      Completes (.pageDisable i p) s fun b => enabled b (pageKey i p.toNat) = false) ∧
  (∀ (i : Init) (p : BitVec 8) (s : State),
      Waits s.blk i (pageKey i p.toNat + 0x0C) (wordOf s.blk (pageKey i p.toNat + 0x0C) &&& ~~~1#32) →
      Completes (.pageDisable i p) s fun b => held s.blk b i (pageKey i p.toNat + 0x0C) (wordOf s.blk (pageKey i p.toNat + 0x0C) &&& ~~~1#32)) ∧
  (∀ (i : Init) (p : BitVec 8) (on : Bool) (s : State),
      lateWrite s.blk (pageKey i p.toNat + 0x0C) = false →
      (ctlOf s.blk i (pageKey i p.toNat) (fun w => if on then w ||| 4 else w &&& ~~~4#32)).mask.testBit 2 = true →
      (wordOf s.blk (pageKey i p.toNat + 0x0C)).getLsbD 1 = false →
      Completes (.pageFreeze i p on) s fun b => isOn b (hFRZ (pageKey i p.toNat)) = on) ∧
  (∀ (i : Init) (p : BitVec 8) (on : Bool) (s : State),
      Waits s.blk i (pageKey i p.toNat + 0x0C) (if on then wordOf s.blk (pageKey i p.toNat + 0x0C) ||| 4 else wordOf s.blk (pageKey i p.toNat + 0x0C) &&& ~~~4#32) →
      Completes (.pageFreeze i p on) s fun b => held s.blk b i (pageKey i p.toNat + 0x0C) (if on then wordOf s.blk (pageKey i p.toNat + 0x0C) ||| 4 else wordOf s.blk (pageKey i p.toNat + 0x0C) &&& ~~~4#32)) ∧
  (∀ (i : Init) (p : BitVec 8) (s : State),
      Accepts s.blk i (pageKey i p.toNat + 0x0C) (wordOf s.blk (pageKey i p.toNat + 0x0C) ||| 2) →
      Completes (.pageSoftReset i p) s fun b => isOn b (hBUSY (pageKey i p.toNat)) = true ∧ isOn b (hFRZ (pageKey i p.toNat)) = false ∧ lockOf b (pageKey i p.toNat) = {}) ∧
  (∀ (i : Init) (p : BitVec 8) (o : Nat) (s : State),
      Accepts s.blk i (pageKey i p.toNat + 0x0C) (wordOf s.blk (pageKey i p.toNat + 0x0C) ||| 2) →
      pageKey i p.toNat ∈ [pgMMU, pgDMA, pgMEM, pgMON, pgFMON, pgTHM] → 0x40 ≤ o → o < 0x1000 →
      Completes (.pageSoftReset i p) s fun b => wordOf b (pageKey i p.toNat + o) = (resetWord (pageKey i p.toNat + o) &&& ~~~ keptBits (pageKey i p.toNat + o)) ||| (wordOf s.blk (pageKey i p.toNat + o) &&& keptBits (pageKey i p.toNat + o))) ∧
  (∀ (i : Init) (p : BitVec 8) (s : State),
      Waits s.blk i (pageKey i p.toNat + 0x0C) (wordOf s.blk (pageKey i p.toNat + 0x0C) ||| 2) →
      Completes (.pageSoftReset i p) s fun b => held s.blk b i (pageKey i p.toNat + 0x0C) (wordOf s.blk (pageKey i p.toNat + 0x0C) ||| 2)) ∧
  (∀ (f : Bool) (p : BitVec 8) (s : State),
      Completes (.softResetDone f p) s fun b => isOn b (hBUSY ((if f then 0x100000 else 0) + p.toNat * 0x1000)) = false) ∧
  (∀ (i : Init) (p : BitVec 8) (v : Word) (s : State),
      (writeOf s.blk i (pageKey i p.toNat + 0x30) v).mask ≠ 0 →
      Completes (.pageLockWrite i p v) s fun b => lockOf b (pageKey i p.toNat) = lockStep i v.toNat (lockOf s.blk (pageKey i p.toNat))) ∧
  (∀ (f : Bool) (p : BitVec 8) (s : State),
      Completes (.unlockWindowExpire f p) s fun b => (lockOf b ((if f then 0x100000 else 0) + p.toNat * 0x1000)).win = none ∧ (lockOf b ((if f then 0x100000 else 0) + p.toNat * 0x1000)).seq = (lockOf s.blk ((if f then 0x100000 else 0) + p.toNat * 0x1000)).seq)

/-- EVT_CLR clears the bits written but for events of the same cycle; forwarded events are repeated, shown at the host
and cleared there; CLAIM answers the eligible event of highest priority and takes it into service, COMPLETE ends the
innermost; a sample of an event pair, an interval or a timed probe enters an enabled monitor, while a monitor that
is off or has a reserved source takes none; SNAP copies the monitors chosen. Which probes MONITOR_SAMPLE brings is
the model's choice (notes/assumptions/10.md). -/
def Obligations.EventsAndMonitors : Prop :=
  (∀ (i : Init) (p : BitVec 8) (v e : Word) (s : State),
      Accepts s.blk i (i.side.key + p.toNat * 0x1000 + 0x28) v →
      Completes (.eventClear i p v e) s fun b => ∀ k : Nat, k < 32 → rdBit b (hRAW (i.side.key + p.toNat * 0x1000)) k = ((rdBit s.blk (hRAW (i.side.key + p.toNat * 0x1000)) k && !v.toNat.testBit k) || (enabled s.blk (i.side.key + p.toNat * 0x1000) && (e.toNat &&& eventMask (i.side.key + p.toNat * 0x1000)).testBit k))) ∧
  (∀ (n : Nat) (s : State),
      firstForwarded s.blk = some n →
      Completes (.evtFwdRepeat) s fun b => b.io.out = s.blk.io.out ++ [.evtFwd n (fwdRaw s.blk)]) ∧
  (∀ (e : Fin 128) (v : Word) (s : State),
      Completes (.evtFwd e v) s fun b => rd b EVC.FWD_RAW.RAW = rd s.blk EVC.FWD_RAW.RAW ||| v.toNat ∧ rd b EVC.FWD_CFG.LAST = e.val ∧ (e.val = 122 → isOn b PMU.PFSTAT.WARN = true)) ∧
  (∀ (i : Init) (v : Word) (s : State),
      Accepts s.blk i EVC.FWD_CLR.CLR.a v →
      Completes (.fwdClear i v) s fun b => ∀ k : Nat, k < 32 → rdBit b EVC.FWD_RAW.RAW k = (rdBit s.blk EVC.FWD_RAW.RAW k && !v.toNat.testBit k)) ∧
  (∀ (i : Init) (c : Fin 4) (n : Nat) (s : State),
      i ≠ .host → (onField i = false ∨ c.val < 2) →
      isOn s.blk (hBUSY (if onField i then pgFEVC else pgEVC)) = false →
      bestBy (fun x y => decide (effPrio s.blk (onField i) x < effPrio s.blk (onField i) y)) (eligible s.blk (onField i) c.val) = some n →
      Completes (.eventClaim i c) s fun b => b.io.resp = .value (BitVec.ofNat 32 (2 ^ 31 + effPrio s.blk (onField i) n * 256 + n)) ∧ svcOf b (coreNo i c.val) = (n, curLevel s.blk (onField i) c.val) :: svcOf s.blk (coreNo i c.val)) ∧
  (∀ (i : Init) (c : Fin 4) (e : BitVec 8) (x : Nat × Nat) (l : List (Nat × Nat)) (s : State),
      Accepts s.blk i (coreReg (onField i) c.val + 8) (e.setWidth 32) → svcOf s.blk (coreNo i c.val) = x :: l →
      Completes (.eventComplete i c e) s fun b => svcOf b (coreNo i c.val) = l ∧ rd b ⟨coreReg (onField i) c.val + 0xC, 0, 5⟩ = x.2 % 32) ∧
  (∀ (f : Bool) (m : Fin 16) (x : BitVec 32) (r : BitVec 16) (s : State),
      enabled s.blk (if f then pgFMON else pgMON) = true → isOn s.blk ⟨monReg f m.val, 31, 1⟩ = true →
      (rd s.blk ⟨monReg f m.val, 20, 4⟩ = 1 ∨ rd s.blk ⟨monReg f m.val, 20, 4⟩ = 2 ∨ (rd s.blk ⟨monReg f m.val, 20, 4⟩ = 3 ∧ timedProbe f (rd s.blk ⟨monReg f m.val, 8, 8⟩) = true)) →
      (monOf s.blk f m.val).count ≠ 2 ^ 48 - 1 →
      Completes (.monitorSample f m x r) s fun b => (monOf b f m.val).count = (monOf s.blk f m.val).count + 1 ∧ (monOf b f m.val).sum = satS 64 ((monOf s.blk f m.val).sum + x.toInt) ∧ (monOf b f m.val).least = min (monOf s.blk f m.val).least x.toInt ∧ (monOf b f m.val).most = max (monOf s.blk f m.val).most x.toInt ∧ (monOf b f m.val).restarts = min 65535 ((monOf s.blk f m.val).restarts + r.toNat)) ∧
  (∀ (f : Bool) (m : Fin 16) (x : BitVec 32) (r : BitVec 16) (s : State),
      (rd s.blk ⟨monReg f m.val, 20, 4⟩ = 0 ∨ 3 < rd s.blk ⟨monReg f m.val, 20, 4⟩) →
      Completes (.monitorSample f m x r) s fun b => b = s.blk) ∧
  (∀ (i : Init) (v : Word) (s : State),
      Accepts s.blk i ((if onField i then pgFMON else pgMON) + 0x40) v → v.toNat.testBit 31 = true →
      Completes (.snap i v) s fun b => ∀ m : Nat, m < 16 → v.toNat.testBit m = true → wordOf b (monReg (onField i) m + 0x10) = BitVec.ofNat 32 (monOf s.blk (onField i) m).count ∧ (v.toNat.testBit 30 = true → monOf b (onField i) m = {}))

/-- A HEARTBEAT is sent and counted by a side out of reset; a good one ends the loss of the other side, and its absence
shows it; a channel going down or coming up shows; a reassembly timeout counts; REG_RD and REG_WR that the host may
make are answered with their data and status, a write whose words wait on a pair by the answer the last of them
carries (R23); a malformed request is dropped and counted, one without permission answered with status 2 and
counted; messages enter the host's ring. -/
def Obligations.BarrierCommands : Prop :=
  (∀ (s : State),
      s.blk.boot.field.held = false →
      Completes (.heartbeatSend true) s fun b => b.io.out = s.blk.io.out ++ [.heartbeat .fieldSide ((s.blk.bar.cntF + 1) % 2 ^ 32) true (rd s.blk FTIME.FCTL.FDOM)]) ∧
  (∀ (s : State),
      s.blk.boot.host.held = false →
      Completes (.heartbeatSend false) s fun b => b.io.out = s.blk.io.out ++ [.heartbeat .hostSide ((s.blk.bar.cntH + 1) % 2 ^ 32) (!s.blk.bar.fieldLost) 0]) ∧
  (∀ (g h d : Bool) (s : State),
      Completes (.heartbeat true true false g h d) s fun b => b.bar.hostLost = false ∧ b.bar.peerHealthy = h) ∧
  (∀ (g h d : Bool) (s : State),
      Completes (.heartbeat false true false g h d) s fun b => b.bar.fieldLost = false ∧ b.time.hostFdom = b2n d) ∧
  (∀ (s : State),
      s.blk.bar.hostLost = false →
      Completes (.otherSideLost true) s fun b => b.bar.hostLost = true ∧ isOn b FBAR.FSTAT.HOST_LOST = true) ∧
  (∀ (s : State),
      s.blk.bar.fieldLost = false →
      Completes (.otherSideLost false) s fun b => b.bar.fieldLost = true ∧ isOn b BAR.BSTAT.FIELD_LOST = true) ∧
  (∀ (f t : Bool) (c : Fin 4) (s : State),
      Completes (.barrierChannelDown f t c) s fun b => rdBit b (if f then FBAR.FSTAT.UP else if t then BAR.BSTAT.TX_UP else BAR.BSTAT.RX_UP) (if f && !t then 4 + c.val else c.val) = false) ∧
  (∀ (f t : Bool) (c : Fin 4) (s : State),
      Completes (.barrierChannelUp f t c) s fun b => rdBit b (if f then FBAR.FSTAT.UP else if t then BAR.BSTAT.TX_UP else BAR.BSTAT.RX_UP) (if f && !t then 4 + c.val else c.val) = true) ∧
  (∀ (f : Bool) (s : State),
      Completes (.barrierReasmTimeout f) s fun b => rd b (if f then FBAR.DROP_B.REASM else BAR.DROP_B.REASM) = min 255 (rd s.blk (if f then FBAR.DROP_B.REASM else BAR.DROP_B.REASM) + 1)) ∧
  (∀ (g p : Byte) (o : BitVec 16) (n : Byte) (s : State),
      reqForm p o n → permBit s.blk (0x100000 + p.toNat * 0x1000) 0 = true →
      Completes (.regRd g p o n 0) s fun b => Msg.regRsp g.toNat 0 (readRegs (0x100000 + p.toNat * 0x1000) o.toNat n.toNat s.blk).2 ∈ b.io.out) ∧
  (∀ (g p : Byte) (o : BitVec 16) (n t : Byte) (d : List Word) (s : State),
      reqForm p o n → d.length = n.toNat → t.toNat ≤ 1 →
      (t.toNat = 1 → unlockRule s.blk (0x100000 + p.toNat * 0x1000) = 0) → wordsWait s.blk p o t d = false →
      Completes (.regWr g p o n t 0 d) s fun b => Msg.regRsp g.toNat (writeRegs (0x100000 + p.toNat * 0x1000) o.toNat d (if t.toNat = 1 then hostUnlock (0x100000 + p.toNat * 0x1000) s.blk else s.blk)).2 [] ∈ b.io.out) ∧
  (∀ (g p : Byte) (o : BitVec 16) (n t : Byte) (d : List Word) (w : LateWrite) (s : State),
      reqForm p o n → d.length = n.toNat → t.toNat ≤ 1 →
      (t.toNat = 1 → unlockRule s.blk (0x100000 + p.toNat * 0x1000) = 0) →
      s.blk.red.writes.length < (wroteRegs s.blk p o t d).1.red.writes.length →
      (wroteRegs s.blk p o t d).1.red.writes.getLast? = some w →
      Completes (.regWr g p o n t 0 d) s fun b => b.red.writes.getLast? = some { w with rsp := some (g.toNat, p.toNat, (wroteRegs s.blk p o t d).2) } ∧ b.io.out = (wroteRegs s.blk p o t d).1.io.out) ∧
  (∀ (g p : Byte) (o : BitVec 16) (n : Byte) (v : BitVec 24) (s : State),
      (n.toNat = 0 ∨ 64 < n.toNat ∨ v ≠ 0) →
      Completes (.regRd g p o n v) s fun b => answers b = answers s.blk ∧ rd b FBAR.DROP_A.TYPE = min 65535 (rd s.blk FBAR.DROP_A.TYPE + 1)) ∧
  (∀ (g p : Byte) (o : BitVec 16) (n : Byte) (s : State),
      reqForm p o n → permBit s.blk (0x100000 + p.toNat * 0x1000) 0 = false →
      Completes (.regRd g p o n 0) s fun b => Msg.regRsp g.toNat 2 [] ∈ b.io.out ∧ rd b FBAR.REFUSED.COUNT = min 65535 (rd s.blk FBAR.REFUSED.COUNT + 1) ∧ rd b FBAR.REFUSED.STATUS = 2) ∧
  (∀ (g t : Byte) (d : List Word) (s : State),
      barAccepts s.blk 3 (rspBytes g t d) →
      Completes (.regRsp g t d) s fun b => rd b BAR.RX_HEAD.HEAD = (rd s.blk BAR.RX_HEAD.HEAD + 1) % rd s.blk BAR.RX_RING.SIZE) ∧
  (∀ (l : List Byte) (s : State),
      Completes (.tallySnap l) s fun b => b.factor.snap = (milli l 80, milli l 84, ofLE ((l.drop 72).take 8) / 1000, ofLE ((l.drop 60).take 4))) ∧
  (∀ (l : List Byte) (s : State),
      barAccepts s.blk 0x0C l →
      Completes (.meterRecord l) s fun b => rd b BAR.RX_HEAD.HEAD = (rd s.blk BAR.RX_HEAD.HEAD + 1) % rd s.blk BAR.RX_RING.SIZE) ∧
  (∀ (i : Init) (v : Word) (s : State),
      Accepts s.blk i BAR.TX_RING.TAIL.a v →
      Completes (.barTxQueue i v) s fun b => rd b BAR.TX_RING.TAIL = BAR.TX_RING.TAIL.of v)

/-- Power-on, a reset land, a brown-out and a lost reference hold the side with their cause, after a power-on with that
one only; a software reset, a recovery, a watchdog and a clock loss reset it and show their cause; a release ends a
hold, samples the straps after a power-on or a reset land, and shows the causes, but a lost reference goes on
holding; a lost clock shows, a PWM or CTRL loss removes the gate enables, and its return shows. -/
def Obligations.ResetsAndClocks : Prop :=
  (∀ (f : Bool) (s : State),
      Completes (.powerOnReset f) s fun b => (sideOf b f).held = true ∧ (sideOf b f).causes = 1) ∧
  (∀ (f : Bool) (s : State),
      Completes (.resetLand f) s fun b => (sideOf b f).held = true ∧ (sideOf b f).causes = causesAfter s.blk f 1) ∧
  (∀ (f : Bool) (s : State),
      warned s.blk f = true →
      Completes (.brownOut f) s fun b => (sideOf b f).held = true ∧ (sideOf b f).causes = causesAfter s.blk f 2) ∧
  (∀ (f : Bool) (s : State),
      Completes (.refclkLoss f) s fun b => (sideOf b f).held = true ∧ (sideOf b f).holds.testBit 7 = true ∧ (sideOf b f).causes = causesAfter s.blk f 7) ∧
  (∀ (f : Bool) (s : State),
      (sideOf s.blk f).held = true → (sideOf s.blk f).holds = 128 →
      Completes (.refclkRestored f) s fun b => (sideOf b f).held = false ∧ rd b (sys f SYS.RST_CAUSE.CAUSE) = (sideOf s.blk f).causes % 256) ∧
  (∀ (f : Bool) (s : State),
      (sideOf s.blk f).held = true → (sideOf s.blk f).holds.testBit 7 = true → (sideOf s.blk f).holds ≠ 128 →
      Completes (.refclkRestored f) s fun b => (sideOf b f).held = true ∧ (sideOf b f).holds = (sideOf s.blk f).holds - 128) ∧
  (∀ (w : Word) (o : Bool) (q : Option Bool) (s : State),
      s.blk.boot.host.held = true → s.blk.boot.host.holds.testBit 7 = false →
      Completes (.hostResetRelease w o q) s fun b => b.boot.host.held = false ∧ rd b SYS.RST_CAUSE.CAUSE = s.blk.boot.host.causes % 256 ∧ (samples s.blk.boot.host = true → rd b SYS.STRAP.ROLE = w.toNat / 4 % 4 ∧ isOn b SYS.STRAP.STRAP_ERR = strapBad w.toNat)) ∧
  (∀ (w : Word) (o : Bool) (q : Option Bool) (s : State),
      s.blk.boot.host.held = true → s.blk.boot.host.holds.testBit 7 = true →
      Completes (.hostResetRelease w o q) s fun b => b.boot.host.held = true ∧ b.boot.host.holds = 128) ∧
  (∀ (w : Word) (o : Bool) (s : State),
      s.blk.boot.field.held = true → s.blk.boot.field.holds.testBit 7 = true →
      Completes (.fieldResetRelease w o) s fun b => b.boot.field.held = true ∧ b.boot.field.holds = 128) ∧
  (∀ (w : Word) (o : Bool) (s : State),
      s.blk.boot.field.held = true → s.blk.boot.field.holds.testBit 7 = false →
      Completes (.fieldResetRelease w o) s fun b => b.boot.field.held = false ∧ rd b FSYS.RST_CAUSE.CAUSE = s.blk.boot.field.causes % 256 ∧ (samples s.blk.boot.field = true → rd b FSYS.STRAP.ROLE = w.toNat / 4 % 4 ∧ isOn b FSYS.STRAP.STRAP_ERR = strapBad w.toNat)) ∧
  (∀ (i : Init) (s : State),
      Accepts s.blk i (sys (onField i) SYS.SWRST.KEY).a 0x5257 → (sideOf s.blk (onField i)).held = false →
      Completes (.softwareReset i 0x5257) s fun b => rdBit b (sys (onField i) SYS.RST_CAUSE.CAUSE) 5 = true ∧ (sideOf b (onField i)).held = false) ∧
  (∀ (f : Bool) (s : State),
      (sideOf s.blk f).held = false → seqDone s.blk f = true → (sideOf s.blk f).vinBack = true →
      Completes (.pfRecoveryReset f) s fun b => rdBit b (sys f SYS.RST_CAUSE.CAUSE) 3 = true ∧ (sideOf b f).held = false) ∧
  (∀ (f : Bool) (s : State),
      (sideOf s.blk f).held = false → (sideOf s.blk f).lost % 4 ≠ 0 →
      Completes (.clockLossReset f) s fun b => rdBit b (sys f SYS.RST_CAUSE.CAUSE) 6 = true ∧ (sideOf b f).held = false) ∧
  (∀ (k : Fin 32) (s : State),
      Completes (.clockLost true k) s fun b => b.boot.field.lost.testBit k.val = true ∧ (k.val < 2 → ∀ g : Nat, g < 3 → isOn b (MOD.GSTAT.HW_OFF g) = true)) ∧
  (∀ (k : Fin 32) (s : State),
      (k.val < 4 ∨ 16 ≤ k.val) →
      Completes (.clockLost false k) s fun b => b.boot.host.lost.testBit k.val = true ∧ rd b CLK.LOSS.LAST = k.val % 16) ∧
  (∀ (k : Fin 32) (s : State),
      (k.val = 6 ∨ k.val = 7) →
      Completes (.clockLost false k) s fun b => isOn b (if k.val = 7 then CLK.CSTAT.PLL_LOCK else CLK.CSTAT.LANE_REF) = false) ∧
  (∀ (k : Fin 32) (s : State),
      Completes (.clockRestored true k) s fun b => b.boot.field.lost.testBit k.val = false) ∧
  (∀ (k : Fin 32) (s : State),
      (k.val < 4 ∨ 16 ≤ k.val) → s.blk.boot.host.lost.testBit k.val = true →
      Completes (.clockRestored false k) s fun b => b.boot.host.lost.testBit k.val = false ∧ rdBit b ⟨CLK.CSTAT.ISLANDS.a, 0, 32⟩ k.val = true) ∧
  (∀ (k : Fin 32) (s : State),
      (k.val = 6 ∨ k.val = 7) →
      Completes (.clockRestored false k) s fun b => isOn b (if k.val = 7 then CLK.CSTAT.PLL_LOCK else CLK.CSTAT.LANE_REF) = true)

/-- A charged hold-up shows and its capacitance, an uncharged one shows HOLD_LOW; HOST_BOOT from a lane runs a good
image, from flash what boots; a lane boot that times out shows its result; an image asked for is served;
FIELD_IMAGE_START runs what the flash holds; kicks, half time (an event of the host only) and timeouts of the
watchdogs; a CORE step takes effect; flash commands start, and end with the page programmed or the sector erased. -/
def Obligations.BootAndWatchdogs : Prop :=
  (∀ (f : Bool) (u : Word) (s : State),
      Completes (.holdReady f u) s fun b => isOn b (pmu f PMU.HOLD.HOLD_RDY) = true ∧ rd b (pmu f PMU.HOLD.C_EST) = min 65535 (rdivN u.toNat (if f then 288 else 192))) ∧
  (∀ (f : Bool) (s : State),
      isOn s.blk (pmu f PMU.HOLD.HOLD_RDY) = false →
      Completes (.holdTimeout f) s fun b => isOn b (pmu f PMU.HOLD.HOLD_LOW) = true) ∧
  (∀ (n : Fin 16) (l : List Byte) (x : Image) (s : State),
      rd s.blk SYS.STRAP.BOOT = 2 → s.blk.boot.host.held = false → s.blk.boot.host.run = false →
      isOn s.blk PMU.HOLD.HOLD_RDY = true → warned s.blk false = false →
      candidate s.blk 0 0 (l.length - 256) l = some x →
      Completes (.hostBoot (some (n, l))) s fun b => b.boot.host.run = true ∧ isOn b SYS.BOOT_STAT.LANE = true ∧ rd b SYS.BOOT_STAT.LANE_NUM = n.val ∧ rd b SYS.BOOT_STAT.GEN = x.gen % 65536 ∧ b.boot.image = l) ∧
  (∀ (s : State),
      rd s.blk SYS.STRAP.BOOT = 0 → s.blk.boot.host.held = false → s.blk.boot.host.run = false →
      isOn s.blk PMU.HOLD.HOLD_RDY = true → warned s.blk false = false →
      Completes (.hostBoot none) s fun b => b.boot.host.run = (bootFlash s.blk).2 ∧ rd b SYS.BOOT_STAT.RESULT = (if (bootFlash s.blk).2 then 0 else 1)) ∧
  (∀ (n : Fin 16) (s : State),
      s.blk.boot.host.held = false → s.blk.boot.host.run = false → rd s.blk SYS.STRAP.BOOT ≠ 0 →
      Completes (.laneBootTimeout n false) s fun b => b.boot.asked.testBit n.val = true) ∧
  (∀ (n : Fin 16) (s : State),
      s.blk.boot.host.held = false → s.blk.boot.host.run = false → rd s.blk SYS.STRAP.BOOT ≠ 0 →
      rd s.blk SYS.STRAP.BOOT ≠ 3 → Completes (.laneBootTimeout n true) s fun b => rd b SYS.BOOT_STAT.RESULT = 2) ∧
  (∀ (n : Fin 16) (s : State),
      isOn s.blk SYS.BOOT_CTL.SERVE = true → s.blk.boot.host.run = true → s.blk.red.coresHeld = false →
      Completes (.imageRequest n) s fun b => Msg.bootImage n.val s.blk.boot.image ∈ b.io.out) ∧
  (∀ (s : State),
      s.blk.boot.field.held = false → s.blk.boot.field.run = false → isOn s.blk FPMU.HOLD.HOLD_RDY = true →
      warned s.blk true = false →
      Completes (.fieldImageStart) s fun b => isOn b FSYS.BOOT_STAT.HOLD_WAIT = false ∧ b.boot.field.run = (bestSlot (slotImage s.blk 64 1 (2 ^ 32 + 0x50000000) 0x200000) (slotImage s.blk 64 1 (2 ^ 32 + 0x50200000) 0x200000) fun _ => true).isSome) ∧
  (∀ (i : Init) (s : State),
      Accepts s.blk i (sys (onField i) SYS.WDT_KICK.KICK).a 0xA5C3 →
      Completes (.watchdogKick i 0xA5C3) s fun b => (sideOf b (onField i)).wdtDue = false) ∧
  (∀ (i : Init) (v : Word) (s : State),
      Accepts s.blk i (sys (onField i) SYS.WDT_KICK.KICK).a v → v ≠ 0xA5C3 →
      Completes (.watchdogKick i v) s fun b => (sideOf b (onField i)).badKicks = (sideOf s.blk (onField i)).badKicks + 1) ∧
  (∀ (s : State),
      isOn s.blk SYS.WDT.RUN = true → enabled s.blk pgSYS = true →
      Completes (.watchdogHalf false) s fun b => rdBit b (hRAW pgSYS) 2 = true) ∧
  (∀ (f : Bool) (s : State),
      (sideOf s.blk f).held = false → isOn s.blk (sys f SYS.WDT.RUN) = true →
      (warned s.blk f = false ∨ seqDone s.blk f = true) →
      Completes (.watchdogTimeout f) s fun b => rdBit b (sys f SYS.RST_CAUSE.CAUSE) 4 = true ∧ (sideOf b f).held = false) ∧
  (∀ (s : State), Completes (.watchdogHalf true) s fun b => b = s.blk) ∧
  (∀ (f : Bool) (s : State),
      isOn s.blk (sys f SYS.WDT.RUN) = true → warned s.blk f = true → seqDone s.blk f = false →
      Completes (.watchdogTimeout f) s fun b => (sideOf b f).wdtDue = true) ∧
  (∀ (i : Init) (v : Word) (s : State),
      Accepts s.blk i CLK.CORE_CFG.STEP.a v →
      Completes (.coreClockChange i v) s fun b => rd b CLK.CORE_CFG.STEP = v.toNat % 16) ∧
  (∀ (s : State),
      isOn s.blk PMU.PFSTAT.REDUCED = false →
      Completes (.coreClockDone) s fun b => b.boot.coreStep = rd s.blk CLK.CORE_CFG.STEP) ∧
  (∀ (i : Init) (v : Word) (s : State),
      Accepts s.blk i FSYS.FL_CTL.GO.a v → v.toNat.testBit 31 = true → i = .ctrl →
      isOn s.blk FSYS.FL_CTL.BUSY = false → flashGuarded s.blk (rd s.blk FSYS.FL_ADDR.ADDR) = false →
      rd s.blk FSYS.FL_ADDR.ADDR % 256 = 0 →
      Completes (.flashProgram i v) s fun b => isOn b FSYS.FL_CTL.BUSY = true ∧ b.boot.flash = some { erase := v.toNat.testBit 30, addr := rd s.blk FSYS.FL_ADDR.ADDR }) ∧
  (∀ (i : Init) (v : Word) (s : State),
      Accepts s.blk i FSYS.FL_CTL.GO.a v → v.toNat.testBit 31 = true → i = .ctrl →
      isOn s.blk FSYS.FL_CTL.BUSY = false → flashGuarded s.blk (rd s.blk FSYS.FL_ADDR.ADDR) = false →
      rd s.blk FSYS.FL_ADDR.ADDR % 256 = 0 →
      Completes (.flashErase i v) s fun b => isOn b FSYS.FL_CTL.BUSY = true ∧ b.boot.flash = some { erase := v.toNat.testBit 30, addr := rd s.blk FSYS.FL_ADDR.ADDR }) ∧
  (∀ (o : FlashOp) (s : State),
      s.blk.boot.flash = some o →
      Completes (.flashOpDone) s fun b => b.boot.flash = none ∧ isOn b FSYS.FL_CTL.BUSY = false ∧ b.mem = (writeMem (2 ^ 32 + 0x50000000 + if o.erase then o.addr / 4096 * 4096 else o.addr) (if o.erase then List.replicate 4096 0xFF else (List.range 64).flatMap fun j => le 4 (rd s.blk (FSYS.FL_BUF.DATA j))) s.blk).mem)

/-- A warning shows on its side and moves it to reduced mode, on the field noting t_w for the commit, on the host
stopping descriptor fetch; the commit stores the live state, stops the front end and notes why, and the record ends
the sequence; a supply voltage reported afterwards shows, and whether it is in range again; a reported VIN not below
PF_TH is no warning. -/
def Obligations.PowerFail : Prop :=
  (∀ (v : BitVec 16) (s : State),
      rd s.blk FPMU.PFCTL.PF_TH ≤ v.toNat → Completes (.fieldPfWarning false v) s fun b => b = s.blk) ∧
  (∀ (p : Bool) (v : BitVec 16) (s : State),
      warned s.blk true = false → (p = true ∨ v.toNat < rd s.blk FPMU.PFCTL.PF_TH) →
      Completes (.fieldPfWarning p v) s fun b => warned b true = true ∧ isOn b FPMU.PFSTAT.REDUCED = true ∧ b.house.tw.isSome = true) ∧
  (∀ (w : Bool) (v : BitVec 16) (s : State),
      warned s.blk false = false → (w = true ∨ v.toNat < rd s.blk PMU.PFCTL.PF_TH) →
      Completes (.hostPfWarning w v) s fun b => warned b false = true ∧ isOn b PMU.PFSTAT.REDUCED = true ∧ b.memory.noFetch = true) ∧
  (∀ (q : Bool) (s : State),
      houseOn s.blk → s.blk.house.tw.isSome = true → s.blk.house.committed = false →
      Completes (.pfCommit q) s fun b => b.house.copy = b.house.live ∧ b.house.committed = true ∧ b.met.stopped = true ∧ b.house.why = b2n (!q)) ∧
  (∀ (s : State),
      houseOn s.blk → s.blk.house.tw.isSome = true → s.blk.house.committed = true →
      (s.blk.boot.field.wdtDue = false ∨ seqDone s.blk true = true) →
      Completes (.pfRecord) s fun b => b.house.tw = none ∧ b.house.queue = []) ∧
  (∀ (f : Bool) (v : BitVec 16) (s : State),
      warned s.blk f = true →
      Completes (.vinRestored f v) s fun b => (sideOf b f).vinBack = vinOk f v.toNat ∧ rd b (pmu f PMU.VMEAS.VIN) = v.toNat)

/-- On the active of a pair every asynchronous input is held under a ticket (R340) and enters the domain, there too, at
its release tick; a partner whose seal differs makes the sealed twin the active one (R49). On a standby: a tick at
which a write ticket finds no own write, or at which the use list differs, ends synchronism with its cause; a digest
ticket at its tick counts a match and shows both digests; a ticket that comes in order and in time waits for its
tick; silence ends synchronism on both twins; a digest is the state's at its tick, and the active sends it. -/
def Obligations.PairLockstep : Prop :=
  (∀ (u : Bool) (t : Ticket) (s : State),
      paired s.blk = true → isActive s.blk = false → s.blk.red.writes = [] → s.blk.red.tickets = [t] →
      t.input = none → tickBefore (tickNow s.blk) t.release = false → t.src = 1 → s.blk.red.mine = [] →
      inSync s.blk = true →
      Completes (.tickStart ⟨u, none⟩) s fun b => inSync b = false ∧ rd b RED.PSTAT.UNSYNC_CAUSE = 5 ∧ b.red.tickets = []) ∧
  (∀ (s : State),
      paired s.blk = true → isActive s.blk = false → inSync s.blk = true → s.blk.red.writes = [] →
      s.blk.red.tickets = [] → s.blk.red.mine = [] →
      Completes (.tickStart ⟨true, none⟩) s fun b => inSync b = false ∧ rd b RED.PSTAT.UNSYNC_CAUSE = 6) ∧
  (∀ (t : Ticket) (d : Nat) (s : State),
      paired s.blk = true → isActive s.blk = false → s.blk.red.writes = [] → s.blk.red.tickets = [t] →
      t.input = none → tickBefore (tickNow s.blk) t.release = false → t.src = 0x0F → s.blk.red.mine = [] →
      rd s.blk RED.PSTAT.XSTATE ≠ 5 → d = ofLE (t.content.take 8) →
      s.blk.red.digests.find? (fun e => e.1 == (t.release + 2 ^ 32 - rd s.blk RED.CTL.LAG) % 2 ^ 32) = some ((t.release + 2 ^ 32 - rd s.blk RED.CTL.LAG) % 2 ^ 32, d) →
      Completes (.tickStart ⟨false, none⟩) s fun b => rd b RED.DIG_CNT.MATCH = (rd s.blk RED.DIG_CNT.MATCH + 1) % 2 ^ 16 ∧ rd64 b RED.DIG_OWN.DIG = d % 2 ^ 64 ∧ rd64 b RED.DIG_PEER.DIG = d % 2 ^ 64 ∧ b.red.tickets = []) ∧
  (∀ (u p : Bool) (s : State),
      paired s.blk = true → s.blk.red.writes = [] → s.blk.red.tickets = [] → s.blk.red.mine = [] →
      p ≠ s.blk.acc.sealed →
      Completes (.tickStart ⟨u, some p⟩) s fun b => b.red.peerSealed = some p ∧ isActive b = s.blk.acc.sealed ∧ inSync b = false) ∧
  (∀ (u : Bool) (t : Ticket) (i : Input) (s : State),
      paired s.blk = true → isActive s.blk = true → s.blk.red.writes = [] → s.blk.red.tickets = [t] →
      s.blk.red.mine = [] → t.input = some i → tickBefore (tickNow s.blk) t.release = false →
      Completes (.tickStart ⟨u, none⟩) s fun b => b = applyUnmatched (enterInput i (setRed { s.blk.red with tickets := [] } s.blk))) ∧
  (∀ (u : Bool) (s : State),
      paired s.blk = true → s.blk.red.writes = [] → s.blk.red.tickets = [] → u = false ∨ isActive s.blk = true →
      s.blk.red.mine = [] → Completes (.tickStart ⟨u, none⟩) s fun b => b.red = s.blk.red ∧ b.regs = s.blk.regs) ∧
  (∀ (r : Word) (q : BitVec 16) (z : Byte) (c : List Byte) (s : State),
      paired s.blk = true → isActive s.blk = false → s.blk.red.expect.getD q.toNat = q.toNat →
      tickBefore (tickNow s.blk) r.toNat = true →
      Completes (.lockstepTicket r q z c) s fun b => b.red.expect = some ((q.toNat + 1) % 65536) ∧ b.red.tickets = s.blk.red.tickets ++ [{ release := r.toNat, tseq := q.toNat, src := z.toNat, content := c }]) ∧
  (∀ (r : Word) (q : BitVec 16) (z : Byte) (c : List Byte) (s : State),
      paired s.blk = true → isActive s.blk = false → inSync s.blk = true →
      s.blk.red.expect.getD q.toNat = q.toNat → tickBefore (tickNow s.blk) r.toNat = false →
      Completes (.lockstepTicket r q z c) s fun b => inSync b = false ∧ rd b RED.PSTAT.UNSYNC_CAUSE = 3 ∧ rd b RED.TKT_LATE.LATE = min (rd s.blk RED.TKT_LATE.LATE + 1) 65535) ∧
  (∀ (s : State),
      paired s.blk = true → inSync s.blk = true →
      Completes (.lockstepSilence) s fun b => inSync b = false ∧ rd b RED.PSTAT.UNSYNC_CAUSE = 7) ∧
  (∀ (s : State),
      paired s.blk = true → isActive s.blk = false →
      Completes (.digestCompute) s fun b => b.red.digests.head? = some (tickNow s.blk, stateDigest s.blk)) ∧
  (∀ (s : State),
      paired s.blk = true → isActive s.blk = true →
      Completes (.digestCompute) s fun b => Msg.ticket ((tickNow s.blk + rd s.blk RED.CTL.LAG) % 2 ^ 32) s.blk.red.tseq 0x0F (le 8 (stateDigest s.blk)) ∈ b.io.out) ∧
  (∀ (p : Fin 4) (time : BitVec 64) (frame : List Byte) (s : State),
      takesNow s.blk = false →
      Completes (.plcFrame false p time frame) s fun b => b = ticketed 2 [] s.blk (some (.plcFrame p frame))) ∧
  (∀ (p : Fin 4) (time : BitVec 64) (frame : List Byte) (s : State),
      takesNow s.blk = false →
      Completes (.t1sFrame false p time frame) s fun b => b = ticketed 2 [] s.blk (some (.t1sFrame p frame))) ∧
  (∀ (peer prio : Byte) (msdu : List Byte) (s : State),
      takesNow s.blk = false →
      Completes (.meshFrame false peer prio msdu) s fun b => b = ticketed 2 [] s.blk (some (.meshFrame peer prio msdu))) ∧
  (∀ (m : OrderMsg) (s : State),
      takesNow s.blk = false →
      Completes (.orderAccept m) s fun b => b = ticketed 3 [] s.blk (some (.orderAccept m))) ∧
  (∀ (m : OrderMsg) (res : BitVec 3) (x : BookPlace) (s : State),
      takesNow s.blk = false →
      Completes (.subResult m res x) s fun b => b = ticketed 3 [] s.blk (some (.subResult m res x))) ∧
  (∀ (t : Fin 16) (cycle : BitVec 32) (v i word : BitVec 16) (s : State),
      takesNow s.blk = false → cycOlder cycle.toNat (cycleNow s.blk) = true →
      Completes (.measurementFrame t cycle v i word) s fun b => b = ticketed 4 [] s.blk (some (.measurementFrame t cycle v i word))) ∧
  (∀ (t : Fin 16) (h : HandItem) (s : State),
      takesNow s.blk = false → Completes (.handover t h) s fun b => b = ticketed 3 [] s.blk (some (.handover t h))) ∧
  (∀ (pos : Fin 4) (r : Report) (s : State),
      takesNow s.blk = false →
      Completes (.availReport pos r) s fun b => b = ticketed 3 [] s.blk (some (.availReport pos r))) ∧
  (∀ (x : BidData) (s : State),
      takesNow s.blk = false → Completes (.bid x) s fun b => b = ticketed 3 [] s.blk (some (.bid x))) ∧
  (∀ (f : GrantFrame) (s : State),
      takesNow s.blk = false → Completes (.grantFrame f) s fun b => b = ticketed 3 [] s.blk (some (.grantFrame f))) ∧
  (∀ (p : Plan) (s : State),
      takesNow s.blk = false → Completes (.planFrame p) s fun b => b = ticketed 3 [] s.blk (some (.planFrame p))) ∧
  (∀ (stack : Fin 16) (orders : List (Nat × Order)) (s : State),
      takesNow s.blk = false →
      Completes (.sliceReconcile stack orders) s fun b => b = ticketed 3 [] s.blk (some (.sliceReconcile stack orders))) ∧
  (∀ (set : SensorSet) (s : State),
      takesNow s.blk = false →
      Completes (.metrologySample set) s fun b => b = ticketed 5 [] s.blk (some (.metrologySample set))) ∧
  (∀ (x : CycleEnd) (s : State),
      takesNow s.blk = false →
      Completes (.mainsCycleEnd x) s fun b => b = ticketed 5 [] s.blk (some (.mainsCycleEnd x))) ∧
  (∀ (term open' : Bool) (s : State),
      takesNow s.blk = false →
      Completes (.tamperEvent term open') s fun b => b = ticketed 13 [] s.blk (some (.tamperEvent term open'))) ∧
  (∀ (s : State),
      takesNow s.blk = false → Completes (.sessionOpen) s fun b => b = ticketed 2 [] s.blk (some .sessionOpen)) ∧
  (∀ (s : State),
      takesNow s.blk = false → Completes (.sessionClose) s fun b => b = ticketed 2 [] s.blk (some .sessionClose)) ∧
  (∀ (s : State),
      takesNow s.blk = false → Completes (.gridLimit) s fun b => b = ticketed 2 [] s.blk (some .gridLimit)) ∧
  (∀ (s : State),
      takesNow s.blk = false → Completes (.replay) s fun b => b = ticketed 2 [] s.blk (some .replay)) ∧
  (∀ (s : State),
      takesNow s.blk = false → Completes (.setContract) s fun b => b = ticketed 2 [] s.blk (some .setContract)) ∧
  (∀ (s : State),
      takesNow s.blk = false → Completes (.billingReset) s fun b => b = ticketed 2 [] s.blk (some .billingReset)) ∧
  (∀ (s : State),
      takesNow s.blk = false → Completes (.calLoad) s fun b => b = ticketed 2 [] s.blk (some .calLoad)) ∧
  (∀ (s : State),
      takesNow s.blk = false → Completes (.calActivate) s fun b => b = ticketed 2 [] s.blk (some .calActivate)) ∧
  (∀ (s : State),
      takesNow s.blk = false → Completes (.zoneSet) s fun b => b = ticketed 2 [] s.blk (some .zoneSet)) ∧
  (∀ (s : State),
      takesNow s.blk = false → Completes (.ackTamper) s fun b => b = ticketed 2 [] s.blk (some .ackTamper)) ∧
  (∀ (s : State),
      takesNow s.blk = false → Completes (.seal) s fun b => b = ticketed 2 [] s.blk (some .seal)) ∧
  (∀ (s : State),
      takesNow s.blk = false → Completes (.unseal) s fun b => b = ticketed 2 [] s.blk (some .unseal)) ∧
  (∀ (d : Fin 2) (vls : BitVec 16) (chans : List ChanRep) (s : State),
      takesNow s.blk = false →
      Completes (.switchDieReport d vls chans) s fun b => b = ticketed 10 [] s.blk (some (.switchDieReport d vls chans))) ∧
  (∀ (dev : BitVec 16) (half : BitVec 16) (s : State),
      takesNow s.blk = false →
      Completes (.mainsZeroCross dev half) s fun b => b = ticketed 5 [] s.blk (some (.mainsZeroCross dev half))) ∧
  (∀ (f : MeshRx) (s : State),
      takesNow s.blk = false →
      Completes (.meshFrameRx f) s fun b => b = ticketed 11 [] s.blk (some (.meshFrameRx f))) ∧
  (∀ (a : MeshAck) (s : State),
      takesNow s.blk = false → Completes (.meshAckRx a) s fun b => b = ticketed 11 [] s.blk (some (.meshAckRx a))) ∧
  (∀ (s : State),
      takesNow s.blk = false →
      Completes (.meshAckMissing) s fun b => b = ticketed 11 [] s.blk (some .meshAckMissing)) ∧
  (∀ (n : Fin 64) (k : Fin 6) (m : Fin 8) (rate : Bool) (codes : List (BitVec 3)) (s : State),
      takesNow s.blk = false →
      Completes (.mapUpdateRx n k m rate codes) s fun b => b = ticketed 11 [] s.blk (some (.mapUpdateRx n k m rate codes))) ∧
  (∀ (g : Fin 3) (imean : List Int) (vgrp : Int) (s : State),
      takesNow s.blk = false →
      Completes (.periodStart g imean vgrp) s fun b => b = ticketed 7 [] s.blk (some (.periodStart g imean vgrp))) ∧
  (∀ (g : Fin 3) (p : Fin 8) (low : Bool) (s : State),
      takesNow s.blk = false →
      Completes (.desatQualify g p low) s fun b => b = ticketed 7 [] s.blk (some (.desatQualify g p low))) ∧
  (∀ (cycle : BitVec 32) (trunk : Fin 16) (mask : BitVec 12) (refs : List (BitVec 16)) (owner : Fin 4) (s : State),
      takesNow s.blk = false → applyInstant s.blk cycle.toNat < (eFollow s.blk : Int) →
      Completes (.groupCommand cycle trunk mask refs owner) s fun b => b = ticketed 4 [] s.blk (some (.groupCommand cycle trunk mask refs owner))) ∧
  (∀ (reads : List (Nat × List Int)) (refDev : BitVec 16) (s : State),
      takesNow s.blk = false →
      Completes (.hkRoundStart reads refDev) s fun b => b = ticketed 9 [] s.blk (some (.hkRoundStart reads refDev))) ∧
  (∀ (field : Bool) (c : Fin 8) (s : State),
      takesNow s.blk = false →
      Completes (.captureEdge field c) s fun b => b = ticketed 12 [] s.blk (some (.captureEdge field c))) ∧
  (∀ (set : SensorSet) (s : State),
      takesNow s.blk = false →
      Completes (.controlSample set) s fun b => b = ticketed 6 [] s.blk (some (.controlSample set))) ∧
  (∀ (p : Fin 4) (mv : BitVec 16) (s : State),
      takesNow s.blk = false →
      Completes (.plugInsert p mv) s fun b => b = ticketed 8 [] s.blk (some (.plugInsert p mv))) ∧
  (∀ (p : Fin 4) (mv : BitVec 16) (s : State),
      takesNow s.blk = false →
      Completes (.plugRemove p mv) s fun b => b = ticketed 8 [] s.blk (some (.plugRemove p mv))) ∧
  (∀ (p : Fin 4) (mv : BitVec 16) (s : State),
      takesNow s.blk = false →
      Completes (.plugFault p mv) s fun b => b = ticketed 8 [] s.blk (some (.plugFault p mv))) ∧
  (∀ (p : Fin 4) (hi lo : BitVec 16) (s : State),
      takesNow s.blk = false →
      Completes (.pilotChange p hi lo) s fun b => b = ticketed 8 [] s.blk (some (.pilotChange p hi lo))) ∧
  (∀ (p : Fin 4) (s : State),
      takesNow s.blk = false → Completes (.imdFault p) s fun b => b = ticketed 8 [] s.blk (some (.imdFault p))) ∧
  (∀ (p : Fin 4) (s : State),
      takesNow s.blk = false → Completes (.imdClear p) s fun b => b = ticketed 8 [] s.blk (some (.imdClear p))) ∧
  (∀ (p : Fin 4) (fb : Bool) (s : State),
      takesNow s.blk = false →
      Completes (.lockFeedbackChange p fb) s fun b => b = ticketed 8 [] s.blk (some (.lockFeedbackChange p fb))) ∧
  (∀ (p : Fin 4) (att : List (BitVec 8)) (s : State),
      takesNow s.blk = false →
      Completes (.soundingFrame p att) s fun b => b = ticketed 11 [] s.blk (some (.soundingFrame p att))) ∧
  (∀ (p : Fin 4) (s : State),
      takesNow s.blk = false → Completes (.plcJoined p) s fun b => b = ticketed 8 [] s.blk (some (.plcJoined p))) ∧
  (∀ (p : Fin 4) (up : Bool) (s : State),
      takesNow s.blk = false →
      Completes (.t1sLinkChange p up) s fun b => b = ticketed 8 [] s.blk (some (.t1sLinkChange p up))) ∧
  (∀ (p : Fin 4) (frame : List Byte) (cut : Bool) (s : State),
      takesNow s.blk = false →
      Completes (.vehicleFrameRx p frame cut) s fun b => b = ticketed 11 [] s.blk (some (.vehicleFrameRx p frame cut))) ∧
  (∀ (p : Fin 4) (k : Fin 2) (on : Bool) (s : State),
      takesNow s.blk = false →
      Completes (.buttonChange p k on) s fun b => b = ticketed 8 [] s.blk (some (.buttonChange p k on))) ∧
  (∀ (p : Fin 4) (k : Fin 2) (s : State),
      takesNow s.blk = false →
      Completes (.longPress p k) s fun b => b = ticketed 8 [] s.blk (some (.longPress p k))) ∧
  (∀ (p : Fin 4) (raw : List (BitVec 16)) (s : State),
      takesNow s.blk = false →
      Completes (.touchScan p raw) s fun b => b = ticketed 8 [] s.blk (some (.touchScan p raw)))

/-- A transfer asked for or automatic starts where it may; pre-copy rounds go on until 64 KiB or 8 rounds; the adopt
tick, the load, the end of catch-up and a timeout set XSTATE; a failed transfer is retried while tries remain;
ARM.FORCE gives up the outputs, ARM.REJOIN withdraws; a standby that may take over becomes active; its outputs
follow and are counted. -/
def Obligations.PairTransferAndTakeover : Prop :=
  (∀ (i : Init) (v : Word) (s : State),
      paired s.blk = true → Accepts s.blk i RED.ARM.XFER.a v → v = 2 → mayTransfer s.blk = true →
      Completes (.xfer i v) s fun b => rd b RED.PSTAT.XSTATE = 1 ∧ rd b RED.PSTAT.XROUND = 0) ∧
  (∀ (s : State),
      mayTransfer s.blk = true → isOn s.blk RED.CTL.AUTO_XFER = true → rd s.blk RED.PSTAT.XSTATE = 0 →
      isActive s.blk = false → Completes (.autoXferStart) s fun b => rd b RED.PSTAT.XSTATE = 1 ∧ b.red.tries = 0) ∧
  (∀ (m : Word) (s : State),
      rd s.blk RED.PSTAT.XSTATE = 1 ∨ rd s.blk RED.PSTAT.XSTATE = 2 → s.blk.red.roundsDone = false →
      Completes (.xferPrecopyRound m) s fun b => rd b RED.PSTAT.XSTATE = 2 ∧ (b.red.roundsDone = true ↔ (m.toNat ≤ 65536 ∨ 8 ≤ rd s.blk RED.PSTAT.XROUND + 1))) ∧
  (∀ (s : State),
      rd s.blk RED.PSTAT.XSTATE = 2 → s.blk.red.roundsDone = true →
      Completes (.xferAdoptTick) s fun b => rd b RED.PSTAT.XSTATE = 3) ∧
  (∀ (dom : Blk) (s : State),
      isActive s.blk = false → rd s.blk RED.PSTAT.XSTATE = 3 →
      Completes (.xferStateLoaded dom) s fun b => rd b RED.PSTAT.XSTATE = 4 ∧ isOn b RED.PSTAT.CATCHUP = true ∧ b.house = dom.house ∧ b.ce = dom.ce ∧ b.mod1 = dom.mod1 ∧ b.acc = s.blk.acc) ∧
  (∀ (s : State),
      rd s.blk RED.PSTAT.XSTATE = 4 →
      Completes (.catchupEnd) s fun b => rd b RED.PSTAT.XSTATE = 5 ∧ isOn b RED.PSTAT.CATCHUP = false ∧ b.red.good = 0) ∧
  (∀ (s : State),
      rd s.blk RED.PSTAT.XSTATE ≠ 0 → rd s.blk RED.PSTAT.XSTATE ≠ 6 →
      Completes (.xferTimeout) s fun b => rd b RED.PSTAT.XSTATE = 6) ∧
  (∀ (s : State),
      mayTransfer s.blk = true → rd s.blk RED.PSTAT.XSTATE = 6 → s.blk.red.tries < rd s.blk RED.CTL.XFER_TRY →
      Completes (.xferRetry) s fun b => rd b RED.PSTAT.XSTATE = 1 ∧ b.red.tries = s.blk.red.tries + 1) ∧
  (∀ (i : Init) (v : Word) (s : State),
      paired s.blk = true → Accepts s.blk i RED.ARM.FORCE.a v → v = 1 → s.blk.red.fail = none →
      s.blk.bar.hostLost = false → s.blk.bar.fieldLost = false → s.blk.boot.host.held = false →
      Completes (.force i v) s fun b => b.red.fail = some (5, true) ∧ isOn b RED.PSTAT.OWN_FAIL = true ∧ rd b RED.PSTAT.FAIL_CAUSE = 5 ∧ isActive b = false) ∧
  (∀ (i : Init) (v : Word) (s : State),
      paired s.blk = true → Accepts s.blk i RED.ARM.REJOIN.a v → v = 4 → isOn s.blk RED.PSTAT.OWN_FAIL = true →
      causeCleared s.blk = true →
      Completes (.rejoin i v) s fun b => isOn b RED.PSTAT.OWN_FAIL = false ∧ rd b RED.PSTAT.FAIL_CAUSE = 0 ∧ b.red.fail = none) ∧
  (∀ (on h a : Bool) (s : State),
      paired s.blk = true →
      Completes (.pairFailIn on h a) s fun b => isOn b RED.PSTAT.PEER_FAIL = on ∧ isOn b RED.PSTAT.PEER_HB = h ∧ isOn b RED.PSTAT.PEER_ACT = a) ∧
  (∀ (h : Bool) (s : State),
      mayTake s.blk →
      Completes (.pairFailIn true h false) s fun b => isActive b = true ∧ inSync b = false ∧ b.red.takenOver = true) ∧
  (∀ (s : State),
      mayTake s.blk →
      Completes (.hbSilence false) s fun b => isActive b = true ∧ inSync b = false ∧ b.red.takenOver = true) ∧
  (∀ (s : State),
      paired s.blk = true → isActive s.blk = false → isOn s.blk RED.PSTAT.PEER_FAIL = false →
      Completes (.hbSilence true) s fun b => isActive b = false ∧ isOn b RED.PSTAT.HB_FAULT = true) ∧
  (∀ (s : State),
      paired s.blk = true → isActive s.blk = true → s.blk.red.outDue = true →
      Completes (.takeoverOutputs) s fun b => rd b RED.SW_CNT.TAKEOVERS = min (rd s.blk RED.SW_CNT.TAKEOVERS + 1) 65535 ∧ b.red.outDue = false)

/-- With a command at the front of the queue, a step is that command's effect on the state with the rest of the queue:
FIRST IN, FIRST OUT. -/
def Obligations.StepRunsFront : Prop :=
  ∀ (c : Instr) (rest : List Instr) (s : State), s.pending = c :: rest → step s = exec c { s with pending := rest }

/-- Every command answers a next state with the queue as it was. The model's choice (notes/assumptions/3.md): a step on
an empty queue lets 20 ns of the block's time pass, and leaves memory and the registers outside TIME (where a
counter's wrap is an event) as they are. -/
def Obligations.EveryStepGoesOn : Prop :=
  (∀ (c : Instr) (s : State), ∃ b, exec c s = .next { s with blk := b }) ∧
  (∀ s : State, s.pending = [] →
    Goes (step s) fun t => t.pending = [] ∧ t.blk.time.clk = s.blk.time.clk + 20 ∧ t.blk.mem = s.blk.mem ∧
      ∀ a, a / 0x1000 * 0x1000 ≠ pgTIME → wordOf t.blk a = wordOf s.blk a)

/-- After reset the registers and memory are in their canonical form. -/
def Obligations.ResetInv : Prop :=
  Inv State.reset

/-- After reset the queue is empty, nothing is sent, memory lists nothing, and registers hold the values the spec gives:
lags and tries of a pair, shadow cycles, slew rates, retry limits, calibration interval, coil economy, PTP and MMU
settings; always-on pages are enabled, the others not. -/
def Obligations.ResetValues : Prop :=
  (State.reset.pending = [] ∧ State.reset.blk.io.out = [] ∧ State.reset.blk.mem = []) ∧
  (rd State.reset.blk RED.CTL.LAG = 3 ∧ rd State.reset.blk RED.CTL.WR_LAG = 10 ∧ rd State.reset.blk RED.CTL.XFER_TRY = 3 ∧
    rd State.reset.blk RED.XFER_CFG.XFER_MS = 2000 ∧ rd State.reset.blk FCTR.LOOP.SHADOW = 4) ∧
  (∀ g : Nat, g < 3 → rd State.reset.blk (MOD.CAL.CAL_MS g) = 10 ∧ rd State.reset.blk (MOD.IMB.BAL_MIN g) = 400) ∧
  (∀ t : Nat, t < 16 → rd State.reset.blk (CE.PSLEW.I_SLEW t) = 100 ∧ rd State.reset.blk (CE.PSLEW.V_SLEW t) = 200) ∧
  (rd State.reset.blk LSW.COIL.PULL_MS = 100 ∧ rd State.reset.blk LSW.COIL.HOLD_DUTY = 40) ∧
  (∀ p ∈ [pgSYS, pgPMU, pgCLK, pgEVC, pgMEM, pgBAR, pgTIME, pgSRM, pgDBK, pgRED, pgFSYS, pgFPMU, pgFEVC, pgFBAR, pgFTIME],
    enabled State.reset.blk p = true) ∧
  (∀ p ∈ [pgMON, pgMMU, pgDMA, pgLINK, pgSTK, pgFCTR, pgBOOK, pgTRUNK, pgFMON, pgMOD 0, pgMOD 1, pgMOD 2, pgCE, pgLUT, pgMESH,
    pgLSW, pgTHM], enabled State.reset.blk p = false)

/-- From every state whose registers and memory are in canonical form, whatever else it holds, a step that answers a
next state leaves them in canonical form: no command lists a word or byte that reads as unlisted, or lists one twice
or out of order. -/
def Obligations.StepKeepsInv : Prop :=
  ∀ s t : State, Inv s → step s = .next t → Inv t

/-- A modulator's sequence changes no register outside its own page and nothing of another group; a load-switch start,
retry or period changes no register outside LSW; a transfer step changes no register outside TRUNK and its group's
page. Memory, and every other part of the block, are unchanged. -/
def Obligations.PowerStageFrames : Prop :=
  (∀ (g : Fin 3) (p : Fin 8), Only [pgMOD g] (fun b => setMod g {} (bare b)) (.phaseStart g p)) ∧
  (∀ (g : Fin 3) (p : Fin 8), Only [pgMOD g] (fun b => setMod g {} (bare b)) (.deadTimeEnd g p)) ∧
  (∀ (g : Fin 3) (p : Fin 8) (x : BitVec 16) (y : BitVec 12), Only [pgMOD g] (fun b => setMod g {} (bare b)) (.phasePeakOff g p ⟨x, y⟩)) ∧
  (∀ (g : Fin 3) (p : Fin 8), Only [pgMOD g] (fun b => setMod g {} (bare b)) (.phaseTonMax g p)) ∧
  (∀ (g : Fin 3) (p : Fin 8) (x : Bool), Only [pgMOD g] (fun b => setMod g {} (bare b)) (.phaseImbalance g p x)) ∧
  (∀ (g : Fin 3), Only [pgMOD g] (fun b => setMod g {} (bare b)) (.syncEdgeMissing g)) ∧
  (∀ (g : Fin 3), Only [pgMOD g] (fun b => setMod g {} (bare b)) (.delayLineCal g)) ∧
  (∀ (g : Fin 3) (x : BitVec 8), Only [pgMOD g] (fun b => setMod g {} (bare b)) (.delayCalDone g x)) ∧
  (∀ (g : Fin 3), Only [pgMOD g] (fun b => setMod g {} (bare b)) (.balanceStep g)) ∧
  (∀ (g : Fin 3), Only [pgMOD g] (fun b => setMod g {} (bare b)) (.pfGateRemove g)) ∧
  (∀ (g : Fin 3), Only [pgMOD g] (fun b => setMod g {} (bare b)) (.groupCmdTimeout g)) ∧
  (∀ (g : Fin 3) (x y : BitVec 32), Only [pgMOD g, pgFMON] (fun b => { setMod g {} (bare b) with events := {} }) (.syncEdge g x y)) ∧
  (∀ (g : Fin 3), Only [pgMOD g, pgFMON] (fun b => { setMod g {} (bare b) with events := {} }) (.groupCommandApply g)) ∧
  (∀ (c : Fin 48), Only [pgLSW] (fun b => { bare b with lsw := {} }) (.channelStart c)) ∧
  (∀ (c : Fin 48), Only [pgLSW] (fun b => { bare b with lsw := {} }) (.channelRetry c)) ∧
  (∀ (c : Fin 48), Only [pgLSW] (fun b => { bare b with lsw := {} }) (.limiterRelease c)) ∧
  (∀ (c : Fin 48), Only [pgLSW] (fun b => { bare b with lsw := {} }) (.retryReset c)) ∧
  (∀ (c : Fin 48) (v : BitVec 16), Only [pgLSW] (fun b => { bare b with lsw := {} }) (.pwmPeriodStart c v)) ∧
  (∀ (c : Fin 48), Only [pgLSW] (fun b => { bare b with lsw := {} }) (.coilPullEnd c)) ∧
  (∀ (r : Fin 2), Only [pgLSW] (fun b => { bare b with lsw := {} }) (.compFreezeEnd r)) ∧
  (∀ (c : Fin 48) (v : BitVec 16), Only [pgLSW] (fun b => { bare b with lsw := {} }) (.openLoad ⟨c, v⟩)) ∧
  (∀ (r : Fin 2) (v : BitVec 16), Only [pgLSW] (fun b => { bare b with lsw := {} }) (.railRecover ⟨r, v⟩)) ∧
  (∀ (r : Fin 2), Only [pgLSW] (fun b => { bare b with lsw := {} }) (.switchDieHold r)) ∧
  (∀ (g : Fin 3) (v : BitVec 16), Only [] (fun b => { bare b with trunk := {} }) (.xferMatched g v)) ∧
  (∀ (n : Fin 16) (v : BitVec 16), Only [] (fun b => { bare b with trunk := {} }) (.trunkVoltage n v)) ∧
  (∀ (g : Fin 3), Only [] (fun b => { bare b with trunk := {} }) (.trunkVoltageSilence g)) ∧
  (∀ (g : Fin 3), Only [pgTRUNK, pgLINK] (fun b => { bare b with trunk := {}, ce := {}, lanes := {} }) (.xferCloseEnd g)) ∧
  (∀ (g : Fin 3) (v : BitVec 16), Only [pgTRUNK] (fun b => { bare b with trunk := {} }) (.weldRetestDone g v)) ∧
  (∀ (g : Fin 3), Only [pgTRUNK, pgMOD g] (fun b => { bare b with trunk := {}, mod0 := {}, mod1 := {}, mod2 := {} }) (.xferOpenEnd g)) ∧
  (∀ (g : Fin 3), Only [pgTRUNK, pgMOD g, pgLINK] (fun b => { bare b with trunk := {}, ce := {}, mod0 := {}, mod1 := {}, mod2 := {}, lanes := {} }) (.xferZeroTimeout g)) ∧
  (∀ (g : Fin 3), Only [pgTRUNK, pgMOD g, pgLINK] (fun b => { bare b with trunk := {}, ce := {}, mod0 := {}, mod1 := {}, mod2 := {}, lanes := {} }) (.xferMatchTimeout g)) ∧
  (∀ (g : Fin 3), Only [pgTRUNK, pgMOD g] (fun b => { bare b with trunk := {}, ce := {}, mod0 := {}, mod1 := {}, mod2 := {} }) (.xferShiftEnd g)) ∧
  (∀ (g : Fin 3) (v : BitVec 16), Only [pgTRUNK, pgMOD g] (fun b => { bare b with trunk := {}, ce := {}, mod0 := {}, mod1 := {}, mod2 := {} }) (.xferDiverged g v))

/-- A port's lock, discharge and touch commands change no register outside their port's page; the mesh's slot, line and
route commands none outside MESH; a lane's commands none outside its page, LINK and STK. Memory, and every other
part of the block, are unchanged. -/
def Obligations.PortAndLineFrames : Prop :=
  (∀ (p : Fin 4), Only [pgVP p] (fun b => { bare b with vp := [] }) (.lockTimeout p)) ∧
  (∀ (p e : Fin 4), Only [pgVP p] (fun b => { bare b with vp := [] }) (.touchRecal p e)) ∧
  (∀ (p : Fin 4), Only [pgVP p] (fun b => { bare b with vp := [] }) (.modemPowerDown p)) ∧
  (∀ (p : Fin 4), Only [pgVP p] (fun b => { bare b with vp := [] }) (.dischargeTimeout p)) ∧
  (∀ (p : Fin 4), Only [pgVP p] (fun b => { bare b with vp := [] }) (.lockFeedbackLost p)) ∧
  (∀ (p : Fin 4), Only [pgVP p, pgLSW] (fun b => { bare b with vp := [], lsw := {} }) (.lockPulseEnd p)) ∧
  (∀ (p : Fin 4), Only [pgVP p, pgRED, pgLINK] (fun b => { bare b with vp := [], lanes := {}, red := {} }) (.plcJoined p)) ∧
  (∀ (p : Fin 4) (k : Fin 2), Only [pgVP p, pgRED, pgLINK] (fun b => { bare b with vp := [], lanes := {}, red := {} }) (.longPress p k)) ∧
  (∀ (p : Fin 4) (u : Bool), Only [pgVP p, pgRED, pgLINK] (fun b => { bare b with vp := [], lanes := {}, red := {} }) (.t1sLinkChange p u)) ∧
  (∀ (p : Fin 4) (v : BitVec 16), Only [pgVP p, pgRED, pgLINK] (fun b => { bare b with vp := [], lanes := {}, red := {} }) (.plugInsert p v)) ∧
  (∀ (k : Fin 6), Only [pgMESH] (fun b => { bare b with mesh := {} }) (.meshSlotStart k)) ∧
  (∀ (x : BitVec 16), Only [pgMESH] (fun b => { bare b with mesh := {} }) (.meshTxStart x)) ∧
  (Only [pgMESH] (fun b => { bare b with mesh := {} }) .meshLineFault) ∧
  (∀ (x : Bool), Only [pgMESH] (fun b => { bare b with mesh := {} }) (.meshLineResume x)) ∧
  (∀ (n : Fin 64) (k : Fin 6), Only [pgMESH] (fun b => { bare b with mesh := {} }) (.mapUpdateRepeat n k)) ∧
  (∀ (x : Bool) (n : Fin 64) (v : BitVec 16), Only [pgMESH] (fun b => { bare b with mesh := {} }) (.msduLifetimeExpire x n v)) ∧
  (Only [pgMESH] (fun b => { bare b with mesh := {} }) .routeAdvertise) ∧
  (∀ (n : Fin 64), Only [pgMESH] (fun b => { bare b with mesh := {} }) (.neighbourLost n)) ∧
  (∀ (d n : Fin 64), Only [pgMESH] (fun b => { bare b with mesh := {} }) (.routeLapse d n)) ∧
  (∀ (n : Fin 16), Only [pgLANE n, pgLINK, pgSTK, pgRED, pgDBK, pgETH 0, pgETH 1] (fun b => { bare b with lanes := {}, red := {}, daybook := {} }) (.laneLoss n)) ∧
  (∀ (n : Fin 16), Only [pgLANE n, pgLINK, pgSTK, pgRED, pgDBK, pgETH 0, pgETH 1] (fun b => { bare b with lanes := {}, red := {}, daybook := {} }) (.linkHoldExpire n)) ∧
  (∀ (n : Fin 16) (c : Fin 4), Only [pgLANE n, pgLINK, pgSTK, pgRED, pgDBK, pgETH 0, pgETH 1] (fun b => { bare b with lanes := {}, red := {}, daybook := {} }) (.retxTimeout n c)) ∧
  (∀ (n : Fin 16) (c : Fin 4) (k : LaneCtl), Only [pgLANE n, pgLINK, pgSTK, pgRED, pgDBK, pgETH 0, pgETH 1] (fun b => { bare b with lanes := {}, red := {}, daybook := {} }) (.controlBlock n c k)) ∧
  (∀ (n : Fin 16) (x : BitVec 7), Only [pgLANE n] (fun b => { bare b with lanes := {} }) (.laneAligned n x)) ∧
  (∀ (n : Fin 16), Only [pgLANE n] (fun b => { bare b with lanes := {} }) (.laneFrameTimeout n)) ∧
  (∀ (n : Fin 16) (c : Fin 4), Only [pgLANE n, pgLINK, pgSTK] (fun b => { bare b with lanes := {} }) (.creditStarve n c)) ∧
  (∀ (n : Fin 16), Only [pgLANE n, pgLINK, pgSTK] (fun b => { bare b with lanes := {} }) (.helloSend n)) ∧
  (∀ (n : Fin 16) (h : Hello), Only [pgLANE n, pgLINK, pgSTK] (fun b => { bare b with lanes := {} }) (.helloRx n h))

/-- Time commands change no register outside TIME and FTIME; metrology checks none outside MTR and SNS; a mailbox
command of the Counting House none outside CH, DMD, TRF, FSRM and FBAR. Memory, the front end's accumulators under a
mailbox command, and every other part of the block, are unchanged. -/
def Obligations.TimeAndBillingFrames : Prop :=
  (∀ (d : Fin 2) (o : BitVec 64), Only [pgTIME, pgFTIME] (fun b => { bare b with time := {} }) (.servoUpdate d o)) ∧
  (∀ (d : Fin 2), Only [pgTIME, pgFTIME] (fun b => { bare b with time := {} }) (.sourceLost d)) ∧
  (Only [pgTIME, pgFTIME] (fun b => { bare b with time := {} }) .ppsOutPulse) ∧
  (Only [pgTIME, pgFTIME] (fun b => { bare b with time := {} }) .rtcTrim) ∧
  (Only [pgTIME, pgFTIME] (fun b => { bare b with time := {} }) .vbatPowerOn) ∧
  (∀ (v : Bool), Only [pgTIME, pgFTIME] (fun b => { bare b with time := {} }) (.vbatChangeover v)) ∧
  (Only [pgTIME, pgFTIME] (fun b => { bare b with time := {} }) .timeSyncSend) ∧
  (Only [pgTIME, pgFTIME] (fun b => { bare b with time := {} }) .fdomApply) ∧
  (∀ (i : Init) (c : Fin 8), Only [] (fun b => { bare b with time := {}, acc := {} }) (.captureRead i c)) ∧
  (∀ (c : Fin 15), Only [pgMTR] (bare) (.twinDisagree c)) ∧
  (Only [pgMTR] (bare) .calCheck) ∧
  (Only [pgMTR] (bare) .captureDone) ∧
  (∀ (c : Fin 15) (k : SnsCond) (v : Bool), Only [pgMTR, pgSNS 0, pgSNS 1, pgSNS 2, pgSNS 3, pgSNS 4, pgSNS 5, pgSNS 6, pgSNS 7] (bare) (.sensorFaultQualify c k v)) ∧
  (∀ (q : Fin 5), Only [pgMTR] (fun b => { bare b with met := {} }) (.pulseStart q)) ∧
  (∀ (q : Fin 5), Only [pgMTR] (fun b => { bare b with met := {} }) (.pulseEnd q)) ∧
  (Only [pgCH, pgDMD, pgTRF, pgFBAR, pgFSRM, pgRED, pgLINK] (fun b => { bare b with house := {}, lanes := {}, red := {} }) .sessionOpen) ∧
  (Only [pgCH, pgDMD, pgTRF, pgFBAR, pgFSRM, pgRED, pgLINK] (fun b => { bare b with house := {}, lanes := {}, red := {} }) .sessionClose) ∧
  (Only [pgCH, pgDMD, pgTRF, pgFBAR, pgFSRM, pgRED, pgLINK] (fun b => { bare b with house := {}, lanes := {}, red := {} }) .gridLimit) ∧
  (Only [pgCH, pgDMD, pgTRF, pgFBAR, pgFSRM, pgRED, pgLINK] (fun b => { bare b with house := {}, lanes := {}, red := {} }) .replay) ∧
  (Only [pgCH, pgDMD, pgTRF, pgFBAR, pgFSRM, pgRED, pgLINK] (fun b => { bare b with house := {}, lanes := {}, red := {} }) .setContract) ∧
  (Only [pgCH, pgDMD, pgTRF, pgFBAR, pgFSRM, pgRED, pgLINK] (fun b => { bare b with house := {}, lanes := {}, red := {} }) .billingReset) ∧
  (Only [pgCH, pgDMD, pgTRF, pgFBAR, pgFSRM, pgRED, pgLINK] (fun b => { bare b with house := {}, lanes := {}, red := {} }) .calLoad) ∧
  (Only [pgCH, pgDMD, pgTRF, pgFBAR, pgFSRM, pgRED, pgLINK] (fun b => { bare b with house := {}, lanes := {}, red := {} }) .ackTamper) ∧
  (Only [] (fun b => { bare b with house := {} }) .periodicCommit) ∧
  (∀ (v : BitVec 32), Only [pgCH, pgFSRM] (fun b => { bare b with house := {} }) (.tallySnapshot v)) ∧
  (Only [pgCH, pgFSRM] (fun b => { bare b with house := {} }) .recordSignDone)

/-- Key zeroisation, Daybook acknowledgements, MMU and scrub ends, pair silences, monitor samples, claims, channel
states, hold-up and clock ends, loop misses and clearing deadlines change no register outside their own pages.
Memory, and every other part of the block, are unchanged. -/
def Obligations.SystemFrames : Prop :=
  (∀ (n : Fin 80), Only [pgSRM, pgFSRM] (fun b => { bare b with srm := {} }) (.keyOldZeroise n)) ∧
  (∀ (n : Fin 80), Only [pgSRM, pgFSRM] (fun b => { bare b with srm := {} }) (.revokedZeroise n)) ∧
  (∀ (c : BitVec 16) (x : BitVec 64) (l : List Byte), Only [pgDBK] (fun b => { bare b with daybook := {} }) (.dbkEntry c x l)) ∧
  (∀ (x : BitVec 64), Only [pgDBK] (fun b => { bare b with daybook := {} }) (.mirrorAck x)) ∧
  (Only [pgDBK] (fun b => { bare b with daybook := {} }) .fullCopyDone) ∧
  (Only [pgMMU] (fun b => { bare b with memory := {} }) .mmuInvalidateDone) ∧
  (∀ (m : Fin 3), Only [pgMEM] (fun b => { bare b with memory := {} }) (.scrubPassLate m)) ∧
  (Only [pgRED, pgSYS] (fun b => { bare b with red := {} }) .lockstepSilence) ∧
  (∀ (r : Word) (q : BitVec 16) (z : Byte) (c : List Byte), Only [pgRED, pgSYS, pgFMON] (fun b => { bare b with red := {}, events := {} }) (.lockstepTicket r q z c)) ∧
  (Only [pgRED] (fun b => { bare b with red := {} }) .catchupEnd) ∧
  (Only [pgRED] (fun b => { bare b with red := {} }) .xferTimeout) ∧
  (∀ (f : Bool) (m : Fin 16) (x : BitVec 32) (r : BitVec 16), Only [pgMON, pgFMON] (fun b => { bare b with events := {} }) (.monitorSample f m x r)) ∧
  (∀ (i : Init) (c : Fin 4), Only [pgEVC, pgFEVC] (fun b => { bare b with events := {}, acc := { b.acc with shadows := [] } }) (.eventClaim i c)) ∧
  (∀ (f x : Bool) (c : Fin 4), Only [pgBAR, pgFBAR] (bare) (.barrierChannelDown f x c)) ∧
  (∀ (f x : Bool) (c : Fin 4), Only [pgBAR, pgFBAR] (bare) (.barrierChannelUp f x c)) ∧
  (∀ (f : Bool), Only [pgBAR, pgFBAR] (bare) (.barrierReasmTimeout f)) ∧
  (∀ (f : Bool), Only [] (fun b => { bare b with bar := {} }) (.heartbeatSend f)) ∧
  (Only [] (bare) .coldIdent) ∧
  (∀ (a : BitVec 23) (n : Nat), Only [] (bare) (.coldRead a n)) ∧
  (∀ (f : Bool) (u : Word), Only [pgPMU, pgFPMU] (bare) (.holdReady f u)) ∧
  (∀ (f : Bool), Only [pgPMU, pgFPMU] (bare) (.holdTimeout f)) ∧
  (∀ (f : Bool) (v : BitVec 16), Only [pgPMU, pgFPMU] (fun b => { bare b with boot := {} }) (.vinRestored f v)) ∧
  (Only [pgCLK] (fun b => { bare b with boot := {} }) .coreClockDone) ∧
  (∀ (f : Bool), Only [pgSYS, pgFSYS] (bare) (.watchdogHalf f)) ∧
  (∀ (n : Fin 16), Only [pgCE] (fun b => { bare b with ce := {} }) (.loopDeadlineMiss n)) ∧
  (∀ (n : Fin 16), Only [pgCE] (fun b => { bare b with ce := {} }) (.cooloffEnd n)) ∧
  (Only [pgCE] (fun b => { bare b with ce := {} }) .tuneTimeout) ∧
  (∀ (n : Fin 12) (d : BitVec 16) (j : BitVec 5) (z : Fin 4), Only [] (fun b => { bare b with ce := {}, trunk := {} }) (.groupStatus n d ⟨j, z⟩)) ∧
  (∀ (n : Fin 16) (c : BitVec 32) (v i x : BitVec 16), Only [pgRED, pgLINK, pgFMON] (fun b => { bare b with ce := {}, red := {}, lanes := {}, events := {} }) (.measurementFrame n c v i x)) ∧
  (Only [pgFCTR] (fun b => { bare b with factor := {} }) .grantDeadline) ∧
  (Only [pgFCTR] (fun b => { bare b with factor := {} }) .planDeadline) ∧
  (Only [pgFCTR, pgSYS] (bare) .islandEnter) ∧
  (∀ (x : Bool) (n : Fin 16), Only [pgFCTR, pgSYS] (fun b => { bare b with factor := {} }) (.peerAbsent x n))

/-- With CFG.COMP = 1, the effective duty is recomputed at each period start: DUTY_EFF = min(1,000, ⌊DUTY × V_REF /
V_rail⌋). V_rail is the rail voltage in 0.1 V averaged over the period just ended (the command's operand), V_REF is
RAIL.V_REF. With COMP = 0, DUTY_EFF = DUTY. For a lone channel driven by firmware, on and past its inrush, neither
frozen, held nor in coil pull-in. -/
def Obligations.EffectiveDuty : Prop :=
  (∀ (c : Fin 48) (v : BitVec 16) (s : State),
      enabled s.blk pgLSW = true → lswLead s.blk c.val = c.val → (lswOf s.blk c.val).live = true →
      isOn s.blk (LSW.CH.STAT.INRUSH c.val) = false → (lswOf s.blk c.val).pull = false →
      isOn s.blk (LSW.CH.STAT.FROZEN c.val) = false → holdOf s.blk (railOf c.val) ≠ 1 →
      lswEcon s.blk c.val = false → rd s.blk (LSW.CH.STAT.OWNER c.val) = 0 → v.toNat ≠ 0 →
      isOn s.blk (LSW.CH.CFG.COMP c.val) = true →
      Completes (.pwmPeriodStart c v) s fun b => rd b (LSW.CH.STAT.DUTY_EFF c.val) = min 1000 (rd s.blk (LSW.CH.OUT.DUTY c.val) * rd s.blk LSW.RAIL.V_REF / v.toNat)) ∧
  (∀ (c : Fin 48) (v : BitVec 16) (s : State),
      enabled s.blk pgLSW = true → lswLead s.blk c.val = c.val → (lswOf s.blk c.val).live = true →
      isOn s.blk (LSW.CH.STAT.INRUSH c.val) = false → (lswOf s.blk c.val).pull = false →
      isOn s.blk (LSW.CH.STAT.FROZEN c.val) = false → holdOf s.blk (railOf c.val) ≠ 1 →
      lswEcon s.blk c.val = false → rd s.blk (LSW.CH.STAT.OWNER c.val) = 0 →
      isOn s.blk (LSW.CH.CFG.COMP c.val) = false →
      Completes (.pwmPeriodStart c v) s fun b => rd b (LSW.CH.STAT.DUTY_EFF c.val) = rd s.blk (LSW.CH.OUT.DUTY c.val))

/-- A step of R129 is skipped, and the trims are held, when IGRP < BAL_MIN (reset 40.0 A), when CLAMPED is set, or when
GATE_EN is removed. -/
def Obligations.BalanceHold : Prop :=
  ∀ (g : Fin 3) (s : State),
      rd s.blk (MOD.MEAS.IGRP g.val) < rd s.blk (MOD.IMB.BAL_MIN g.val) ∨ isOn s.blk (MOD.GSTAT.CLAMPED g.val) = true ∨ gateOn s.blk g.val = false →
      Completes (.balanceStep g) s fun b => (∀ p : Nat, p < 8 → rdI b (MOD.PH.PSTAT.TRIM g.val p) = rdI s.blk (MOD.PH.PSTAT.TRIM g.val p)) ∧ rd Blk.reset (MOD.IMB.BAL_MIN g.val) = 400

/-- KU = ⌊4 × D × 256 × 10,000 / (31,416 × AMP)⌋, KP_SUG = ⌊KU × 45 / 100⌋, KI_SUG = ⌊KP_SUG × 256 × 100 / (83 × TU)⌋,
where the oscillation has an amplitude and a period and the results fit their fields. -/
def Obligations.TuneResults : Prop :=
  ∀ b : Blk, 0 < tuneAmp b → tuneAmp b < 65536 → 0 < tuneTu b → tuneTu b < 65536 →
    gainKu (rd b CE.TUNE.D) (tuneAmp b) < 2 ^ 32 → gainKu (rd b CE.TUNE.D) (tuneAmp b) * 45 / 100 < 65536 →
    gainKu (rd b CE.TUNE.D) (tuneAmp b) * 45 / 100 * 256 * 100 / (83 * tuneTu b) < 65536 →
    rd (tuneResult b) CE.TUNE_RES.AMP = tuneAmp b ∧ rd (tuneResult b) CE.TUNE_RES.TU = tuneTu b ∧
    rd (tuneResult b) CE.TUNE_KU.KU = gainKu (rd b CE.TUNE.D) (tuneAmp b) ∧
    rd (tuneResult b) CE.TUNE_SUG.KP_SUG = rd (tuneResult b) CE.TUNE_KU.KU * 45 / 100 ∧
    rd (tuneResult b) CE.TUNE_SUG.KI_SUG = rd (tuneResult b) CE.TUNE_SUG.KP_SUG * 256 * 100 / (83 * tuneTu b)

/-- A write that some field refuses sets PAGE_STAT.WR_REJ and counts in REJ_CNT, and every bit of the register that the
write did not take keeps its value. (A write of PAGE_STAT itself, which may clear the two, is stated apart.) -/
def Obligations.RejectedWrites : Prop :=
  ∀ (b : Blk) (i : Init) (u : Bool) (pg off : Nat) (v : Word), pg % 0x1000 = 0 → off < 0x1000 → off ≠ 0x10 →
    i.side.key = pg / 0x100000 * 0x100000 → (pageAt pg).isSome = true → (storeWord b i u pg off v).status ≠ 0 →
    isOn (storeWord b i u pg off v).blk (hWRREJ pg) = true ∧
    rd (storeWord b i u pg off v).blk (hREJCNT pg) = min (rd b (hREJCNT pg) + 1) 255 ∧
    ∀ k : Nat, k < 32 → (storeWord b i u pg off v).mask.testBit k = false →
      (wordOf (storeWord b i u pg off v).blk (pg + off)).getLsbD k = (wordOf b (pg + off)).getLsbD k
end

