-- ==== Sys2Proof/Laws/Tab.lean ====
section
/-!
SUPPORT. What a sparse table's operations do: a read after a write, and that a write keeps the canonical form.
-/

namespace Sys2Proof.Tab

variable {α : Type}

theorem rising_mono {lo hi : Nat} {t : Tab α} (h : rising hi t = true) (hl : lo ≤ hi) : rising lo t = true := by
  cases t with
  | nil => rfl
  | cons e t =>
    simp only [rising, Bool.and_eq_true, decide_eq_true_eq] at h ⊢
    exact ⟨by omega, h.2⟩

theorem at'_drop_same (d : Nat → α) (t : Tab α) (k : Nat) : at' d (drop k t) k = d k := by
  induction t with
  | nil => rfl
  | cons e t ih =>
    by_cases h1 : k = e.1
    · simpa [drop, h1] using h1 ▸ ih
    · simp [drop, at', h1, ih]

theorem at'_drop_ne (d : Nat → α) (t : Tab α) {j k : Nat} (hj : j ≠ k) : at' d (drop k t) j = at' d t j := by
  induction t with
  | nil => rfl
  | cons e t ih =>
    by_cases h1 : k = e.1
    · have h2 : j ≠ e.1 := by omega
      simp only [drop, h1, if_true, at', h2, if_false]
      exact h1 ▸ ih
    · simp only [drop, h1, if_false, at', ih]

theorem at'_list_same (d : Nat → α) (t : Tab α) (k : Nat) (x : α) : at' d (list k x t) k = x := by
  induction t with
  | nil => simp [list, at']
  | cons e t ih =>
    by_cases h1 : k = e.1
    · simp [list, at', h1]
    · by_cases h2 : k < e.1
      · simp [list, at', h1, h2]
      · simp [list, at', h1, h2, ih]

theorem at'_list_ne (d : Nat → α) (t : Tab α) {j k : Nat} (hj : j ≠ k) (x : α) :
    at' d (list k x t) j = at' d t j := by
  induction t with
  | nil => simp [list, at', hj]
  | cons e t ih =>
    by_cases h1 : k = e.1
    · have h2 : j ≠ e.1 := by omega
      simp [list, at', h1, h2]
    · by_cases h2 : k < e.1
      · simp [list, at', h1, h2, hj]
      · simp only [list, h1, h2, if_false, at', ih]

theorem rising_drop {lo : Nat} {t : Tab α} (h : rising lo t = true) (k : Nat) : rising lo (drop k t) = true := by
  induction t generalizing lo with
  | nil => rfl
  | cons e t ih =>
    simp only [rising, Bool.and_eq_true, decide_eq_true_eq] at h
    by_cases h1 : k = e.1
    · simp only [drop, h1, if_true]
      exact h1 ▸ rising_mono (ih h.2) (by omega)
    · simp only [drop, h1, if_false, rising, Bool.and_eq_true, decide_eq_true_eq]
      exact ⟨h.1, ih h.2⟩

theorem rising_list {lo : Nat} {t : Tab α} (h : rising lo t = true) {k : Nat} (hk : lo ≤ k) (x : α) :
    rising lo (list k x t) = true := by
  induction t generalizing lo with
  | nil => simp [list, rising, hk]
  | cons e t ih =>
    simp only [rising, Bool.and_eq_true, decide_eq_true_eq] at h
    by_cases h1 : k = e.1
    · subst h1
      simp only [list, if_true, rising, Bool.and_eq_true, decide_eq_true_eq]
      exact ⟨hk, h.2⟩
    · by_cases h2 : k < e.1
      · simp only [list, h1, h2, if_false, if_true, rising, Bool.and_eq_true, decide_eq_true_eq]
        exact ⟨hk, by omega, h.2⟩
      · simp only [list, h1, h2, if_false, rising, Bool.and_eq_true, decide_eq_true_eq]
        exact ⟨h.1, ih h.2 (by omega)⟩

theorem all_drop {p : Nat × α → Bool} {t : Tab α} (h : t.all p = true) (k : Nat) : (drop k t).all p = true := by
  induction t with
  | nil => rfl
  | cons e t ih =>
    simp only [List.all_cons, Bool.and_eq_true] at h
    by_cases h1 : k = e.1
    · simp only [drop, h1, if_true]
      exact h1 ▸ ih h.2
    · simp only [drop, h1, if_false, List.all_cons, Bool.and_eq_true]
      exact ⟨h.1, ih h.2⟩

theorem all_list {p : Nat × α → Bool} {t : Tab α} (h : t.all p = true) {k : Nat} {x : α} (hx : p (k, x) = true) :
    (list k x t).all p = true := by
  induction t with
  | nil => simp [list, hx]
  | cons e t ih =>
    have h' := h
    simp only [List.all_cons, Bool.and_eq_true] at h
    by_cases h1 : k = e.1
    · subst h1
      simp only [list, if_true, List.all_cons, Bool.and_eq_true]
      exact ⟨hx, h.2⟩
    · by_cases h2 : k < e.1
      · simp only [list, h1, h2, if_false, if_true, List.all_cons, Bool.and_eq_true]
        exact ⟨hx, h.1, h.2⟩
      · simp only [list, h1, h2, if_false, List.all_cons, Bool.and_eq_true]
        exact ⟨h.1, ih h.2⟩

theorem rising_filter {lo : Nat} {t : Tab α} (h : rising lo t = true) (p : Nat × α → Bool) :
    rising lo (t.filter p) = true := by
  induction t generalizing lo with
  | nil => rfl
  | cons e t ih =>
    simp only [rising, Bool.and_eq_true, decide_eq_true_eq] at h
    rw [List.filter_cons]
    split
    · simp only [rising, Bool.and_eq_true, decide_eq_true_eq]
      exact ⟨h.1, ih h.2⟩
    · exact rising_mono (ih h.2) (by omega)

variable [DecidableEq α]

theorem wf_nil (d : Nat → α) : wf d [] = true := rfl

theorem rising_of_wf {d : Nat → α} {t : Tab α} (h : wf d t = true) : rising 0 t = true := by
  simp only [wf, Bool.and_eq_true] at h
  exact h.1

/-- A write keeps the canonical form. -/
theorem wf_put {d : Nat → α} {t : Tab α} (h : wf d t = true) (k : Nat) (x : α) : wf d (put d t k x) = true := by
  simp only [wf, Bool.and_eq_true] at h ⊢
  unfold put
  split
  · exact ⟨rising_drop h.1 k, all_drop h.2 k⟩
  · next hx => exact ⟨rising_list h.1 (Nat.zero_le k) x, all_list h.2 (by simpa using hx)⟩

/-- Fewer entries keep the canonical form. -/
theorem wf_filter {d : Nat → α} {t : Tab α} (h : wf d t = true) (p : Nat × α → Bool) : wf d (t.filter p) = true := by
  simp only [wf, Bool.and_eq_true] at h ⊢
  refine ⟨rising_filter h.1 p, ?_⟩
  have h2 := h.2
  rw [List.all_eq_true] at h2 ⊢
  intro e he
  exact h2 e ((List.mem_filter.mp he).1)

/-- A read after a write of the same key gives the value written, whatever the table lists. -/
theorem at'_put_same (d : Nat → α) (t : Tab α) (k : Nat) (x : α) : at' d (put d t k x) k = x := by
  unfold put
  split
  · next hx => rw [at'_drop_same d, hx]
  · exact at'_list_same d t k x

/-- A write leaves every other key alone. -/
theorem at'_put_ne (d : Nat → α) (t : Tab α) {j k : Nat} (hj : j ≠ k) (x : α) : at' d (put d t k x) j = at' d t j := by
  unfold put
  split
  · exact at'_drop_ne d t hj
  · exact at'_list_ne d t hj x

end Sys2Proof.Tab
end

