-- ==== Sys2Proof/Laws/Regs.lean ====
section
/-!
SUPPORT. Reading and writing registers and their fields: a field reads what was written to it, other registers and other
bits stay, and every write keeps the canonical form.
-/

namespace Sys2Proof.Machine

open Sys2Proof.Num

variable {b : Blk} {F G : Fld} {a c v n : Nat} {w : Word}

/-- The bits of a word with a field replaced. -/
theorem Fld.ins_bit (F : Fld) (x : Word) (v i : Nat) :
    (F.ins x v).toNat.testBit i =
      if F.lo ≤ i ∧ i - F.lo < F.w ∧ i < 32 then v.testBit (i - F.lo) else x.toNat.testBit i := by
  have hx : ∀ y : Word, y.toNat.testBit i = y.getLsbD i := fun _ => rfl
  rw [hx, hx]
  unfold Fld.ins
  rw [Nat.mul_comm (2 ^ F.w - 1), Nat.mul_comm (v % 2 ^ F.w)]
  simp only [BitVec.getLsbD_or, BitVec.getLsbD_and, BitVec.getLsbD_not, BitVec.getLsbD_ofNat,
    Nat.testBit_two_pow_mul, Nat.testBit_two_pow_sub_one, Nat.testBit_mod_two_pow]
  by_cases h3 : i < 32
  · by_cases h1 : F.lo ≤ i
    · by_cases h2 : i - F.lo < F.w <;> simp [h1, h2, h3]
    · simp [h1, h3]
  · have : x.getLsbD i = false := BitVec.getLsbD_of_ge x i (by omega)
    simp [h3, this]

/-- A field put into a word reads back. -/
theorem Fld.of_ins (h : F.lo + F.w ≤ 32) (x : Word) (v : Nat) : F.of (F.ins x v) = v % 2 ^ F.w := by
  unfold Fld.of
  apply Nat.eq_of_testBit_eq
  intro i
  rw [Nat.testBit_mod_two_pow, Nat.testBit_mod_two_pow, BitVec.toNat_ushiftRight, Nat.testBit_shiftRight,
    Fld.ins_bit]
  by_cases hi : i < F.w
  · have h1 : F.lo + i < 32 := by omega
    simp [hi, h1]
  · simp [hi]

/-- Bits outside a field stay. -/
theorem Fld.of_ins_ne (h : G.lo + G.w ≤ F.lo ∨ F.lo + F.w ≤ G.lo) (x : Word) (v : Nat) :
    G.of (F.ins x v) = G.of x := by
  unfold Fld.of
  apply Nat.eq_of_testBit_eq
  intro i
  rw [Nat.testBit_mod_two_pow, Nat.testBit_mod_two_pow, BitVec.toNat_ushiftRight, Nat.testBit_shiftRight,
    BitVec.toNat_ushiftRight, Nat.testBit_shiftRight, Fld.ins_bit]
  by_cases hi : i < G.w
  · have : ¬ (F.lo ≤ G.lo + i ∧ G.lo + i - F.lo < F.w ∧ G.lo + i < 32) := by omega
    simp [this]
  · simp [hi]

theorem wordOf_setWord_same : wordOf (setWord b a w) a = w := Tab.at'_put_same _ _ a w

theorem wordOf_setWord_ne (hn : c ≠ a) : wordOf (setWord b a w) c = wordOf b c := Tab.at'_put_ne _ _ hn w

theorem setWord_wf (h : Regs.wf b.regs) : Regs.wf (setWord b a w).regs := Tab.wf_put h a w

theorem wr_wf (h : Regs.wf b.regs) : Regs.wf (wr b F v).regs := setWord_wf h

/-- A field reads back what was written, cut to its width. -/
theorem rd_wr_same (hw : F.lo + F.w ≤ 32) : rd (wr b F v) F = v % 2 ^ F.w := by
  unfold rd wr
  rw [wordOf_setWord_same, Fld.of_ins hw]

/-- A write of a field leaves every other register. -/
theorem wordOf_wr_ne (hn : c ≠ F.a) : wordOf (wr b F v) c = wordOf b c := wordOf_setWord_ne hn

/-- A write of a field leaves every field of another register, and every other field of its own. -/
theorem rd_wr_ne (hn : G.a ≠ F.a ∨ G.lo + G.w ≤ F.lo ∨ F.lo + F.w ≤ G.lo) :
    rd (wr b F v) G = rd b G := by
  by_cases ha : G.a = F.a
  · have hd : G.lo + G.w ≤ F.lo ∨ F.lo + F.w ≤ G.lo := by
      rcases hn with hn | hn
      · exact absurd ha hn
      · exact hn
    unfold rd wr
    rw [ha, wordOf_setWord_same, Fld.of_ins_ne hd]
  · unfold rd
    rw [wordOf_wr_ne ha]

theorem isOn_wrB_same (hw : F.lo + F.w ≤ 32) (h1 : 0 < F.w) (x : Bool) :
    isOn (wrB b F x) F = x := by
  unfold isOn wrB
  rw [rd_wr_same hw]
  have h2 : 2 ≤ 2 ^ F.w := by
    calc 2 = 2 ^ 1 := rfl
      _ ≤ 2 ^ F.w := Nat.pow_le_pow_right (by decide) h1
  cases x
  · simp [b2n]
  · have : 1 % 2 ^ F.w = 1 := Nat.mod_eq_of_lt (by omega)
    simp [b2n, this]

/-- A count that saturates never exceeds its field's limit. -/
theorem satU_le (w n : Nat) : satU w n ≤ 2 ^ w - 1 := Nat.min_le_right _ _

end Sys2Proof.Machine
end

