-- ==== Sys2Proof/Laws/Canon.lean ====
section
/-!
SUPPORT. The canonical form of registers and memory is kept by the operations every meaning is built from.
-/

namespace Sys2Proof.Machine

variable {b : Blk} {F : Fld}

/-- The canonical form as one proposition, which no rewriting opens. -/
@[irreducible] def Canon (b : Blk) : Prop := b.canonical

theorem canon_iff (b : Blk) : Canon b ↔ b.canonical := by unfold Canon; rfl

theorem Canon.regs (h : Canon b) : Tab.wf resetWord b.regs = true := ((canon_iff b).mp h).1
theorem Canon.mem (h : Canon b) : Tab.wf memDefault b.mem = true := ((canon_iff b).mp h).2

/-- A block whose registers and memory have the form has it, whatever else it holds. -/
theorem canon_mk {r : Tab Word} {m : List Host.Cell} (hr : Tab.wf resetWord r = true) (hm : Tab.wf memDefault m = true)
    (x1 x2 x3 x4 x5 x6 x7 x8 x9 x10 x11 x12 x13 x14 x15 x16 x17 x18 x19 x20 x21 x22 x23) :
    Canon ⟨r, m, x1, x2, x3, x4, x5, x6, x7, x8, x9, x10, x11, x12, x13, x14, x15, x16, x17, x18, x19, x20, x21, x22,
      x23⟩ := (canon_iff _).mpr ⟨hr, hm⟩

/-- A block met on the way keeps the form, and what follows is shown with that. -/
theorem canon_cut {x : Blk} {p : Prop} (hx : Canon x) (hp : Canon x → p) : p := hp hx

/-- The same for a pair whose first part is a block, and for the answers that carry one. -/
theorem canon_cutP {α : Type} {x : Blk × α} {p : Prop} (hx : Canon x.1) (hp : Canon x.1 → p) : p := hp hx
theorem canon_cutB1 {x : Read1} {p : Prop} (hx : Canon x.blk) (hp : Canon x.blk → p) : p := hp hx
theorem canon_cutBN {x : ReadN} {p : Prop} (hx : Canon x.blk) (hp : Canon x.blk → p) : p := hp hx
theorem canon_cutBX {x : Xlat} {p : Prop} (hx : Canon x.blk) (hp : Canon x.blk → p) : p := hp hx
theorem canon_cutBS {x : StreamRead} {p : Prop} (hx : Canon x.blk) (hp : Canon x.blk → p) : p := hp hx
theorem canon_cutBW {x : Wrote} {p : Prop} (hx : Canon x.blk) (hp : Canon x.blk → p) : p := hp hx

/-- A block that a pair was taken apart into. -/
theorem canon_fst {α : Type} {q : Blk × α} {x : Blk} {y : α} (e : q = (x, y)) (h : Canon q.1) : Canon x := by
  rw [e] at h; exact h
theorem canon_snd {α : Type} {q : α × Blk} {x : Blk} {y : α} (e : q = (y, x)) (h : Canon q.2) : Canon x := by
  rw [e] at h; exact h

theorem canon_ite {c : Prop} [Decidable c] {x y : Blk} (hx : Canon x) (hy : Canon y) : Canon (if c then x else y) := by
  split
  · exact hx
  · exact hy

theorem setWord_canon (h : Canon b) (a : Nat) (w : Word) : Canon (setWord b a w) :=
  canon_mk (setWord_wf h.regs) h.mem ..
theorem wr_canon (h : Canon b) (v : Nat) : Canon (wr b F v) := setWord_canon h _ _
theorem wrB_canon (h : Canon b) (v : Bool) : Canon (wrB b F v) := wr_canon h _
theorem wrI_canon (h : Canon b) (v : Int) : Canon (wrI b F v) := wr_canon h _
theorem wrS_canon (h : Canon b) (v : Int) : Canon (wrS b F v) := wr_canon h _
theorem wrU_canon (h : Canon b) (v : Nat) : Canon (wrU b F v) := wr_canon h _
theorem incSat_canon (h : Canon b) (n : Nat) : Canon (incSat b F n) := wr_canon h _
theorem incWrap_canon (h : Canon b) (n : Nat) : Canon (incWrap b F n) := wr_canon h _
theorem wrBit_canon (h : Canon b) (i : Nat) (v : Bool) : Canon (wrBit b F i v) := wr_canon h _
theorem wr64_canon (h : Canon b) (v : Nat) : Canon (wr64 b F v) := setWord_canon (setWord_canon h _ _) _ _
theorem emit_canon (h : Canon b) (m : Msg) : Canon (emit b m) := canon_mk h.regs h.mem ..
theorem answer_canon (h : Canon b) (r : Resp) : Canon (answer b r) := canon_mk h.regs h.mem ..
theorem spend_canon (h : Canon b) : Canon (spend b) := canon_mk h.regs h.mem ..
theorem setByte_canon (h : Canon b) (k : Nat) (v : Byte) : Canon (setByte b k v) :=
  canon_mk h.regs (Tab.wf_put h.mem k v) ..

theorem when_canon {f : Blk → Blk} (h : Canon b) (hf : ∀ y, Canon y → Canon (f y)) (c : Bool) : Canon (when c f b) := by
  unfold when
  split
  · exact hf b h
  · exact h

theorem forEach_canon {α : Type} {f : α → Blk → Blk} (h : Canon b) (hf : ∀ x y, Canon y → Canon (f x y)) (l : List α) :
    Canon (forEach l f b) := by
  unfold forEach
  induction l generalizing b with
  | nil => exact h
  | cons x l ih => exact ih (hf x b h)

/-- What `run` of an operation that keeps the form answers keeps it. -/
theorem run_canon {f : Blk → Blk} {s t : State} (hf : ∀ y, Canon y → Canon (f y)) (h : Inv s) (e : run f s = .next t) :
    Inv t := by
  cases e
  exact (canon_iff _).mp (hf _ ((canon_iff _).mpr h))

end Sys2Proof.Machine
end

