-- ==== Sys2Proof/Laws/CanonOps.lean ====
section
/-!
SUPPORT. The operations of Machine/Ops.lean keep the canonical form.
-/

set_option linter.unusedTactic false
set_option linter.unreachableTactic false

namespace Sys2Proof.Machine

theorem reject_canon {b : Blk} (hC : Canon b) (pg : Nat) :
    Canon (reject b pg) := by
  unfold reject; try lift_lets -merge
  repeat' first
    | with_reducible assumption
    | (intro y; apply canon_cut (x := y); subst y; rotate_left; clear_value y)
    | (intro y; first | apply canon_cutP (x := y) | apply canon_cutB1 (x := y) | apply canon_cutBN (x := y) | apply canon_cutBX (x := y) | apply canon_cutBS (x := y) | apply canon_cutBW (x := y)); (subst y; rotate_left; clear_value y)
    | (intro y; clear_value y)
    | intro y
    | with_reducible apply wrB_canon
    | with_reducible apply incSat_canon
    | (with_reducible apply Canon.regs; with_reducible assumption)
    | (with_reducible apply Canon.mem; with_reducible assumption)
    | (with_reducible apply Canon.regs)
    | (with_reducible apply Canon.mem)
    | (apply canon_fst; with_reducible assumption)
    | (apply canon_snd; with_reducible assumption)
    | with_reducible apply canon_ite
    | split
    | dsimp only
    | with_reducible apply canon_mk

theorem raiseHw_canon {b : Blk} (hC : Canon b) (pg : Nat) (k : Nat) :
    Canon (raiseHw pg k b) := by
  unfold raiseHw; try lift_lets -merge
  repeat' first
    | with_reducible assumption
    | (intro y; apply canon_cut (x := y); subst y; rotate_left; clear_value y)
    | (intro y; first | apply canon_cutP (x := y) | apply canon_cutB1 (x := y) | apply canon_cutBN (x := y) | apply canon_cutBX (x := y) | apply canon_cutBS (x := y) | apply canon_cutBW (x := y)); (subst y; rotate_left; clear_value y)
    | (intro y; clear_value y)
    | intro y
    | with_reducible apply wrBit_canon
    | with_reducible apply emit_canon
    | (with_reducible apply Canon.regs; with_reducible assumption)
    | (with_reducible apply Canon.mem; with_reducible assumption)
    | (with_reducible apply Canon.regs)
    | (with_reducible apply Canon.mem)
    | (apply canon_fst; with_reducible assumption)
    | (apply canon_snd; with_reducible assumption)
    | with_reducible apply canon_ite
    | split
    | dsimp only
    | with_reducible apply canon_mk

theorem raise_canon {b : Blk} (hC : Canon b) (pg : Nat) (k : Nat) :
    Canon (raise pg k b) := by
  unfold raise; try lift_lets -merge
  repeat' first
    | with_reducible assumption
    | (intro y; apply canon_cut (x := y); subst y; rotate_left; clear_value y)
    | (intro y; first | apply canon_cutP (x := y) | apply canon_cutB1 (x := y) | apply canon_cutBN (x := y) | apply canon_cutBX (x := y) | apply canon_cutBS (x := y) | apply canon_cutBW (x := y)); (subst y; rotate_left; clear_value y)
    | (intro y; clear_value y)
    | intro y
    | with_reducible apply raiseHw_canon
    | (with_reducible apply Canon.regs; with_reducible assumption)
    | (with_reducible apply Canon.mem; with_reducible assumption)
    | (with_reducible apply Canon.regs)
    | (with_reducible apply Canon.mem)
    | (apply canon_fst; with_reducible assumption)
    | (apply canon_snd; with_reducible assumption)
    | with_reducible apply canon_ite
    | split
    | dsimp only
    | with_reducible apply canon_mk

theorem setDom_canon {b : Blk} (hC : Canon b) (d : Nat) (x : DomSt) :
    Canon (setDom d x b) := by
  unfold setDom; try lift_lets -merge
  repeat' first
    | with_reducible assumption
    | (intro y; apply canon_cut (x := y); subst y; rotate_left; clear_value y)
    | (intro y; first | apply canon_cutP (x := y) | apply canon_cutB1 (x := y) | apply canon_cutBN (x := y) | apply canon_cutBX (x := y) | apply canon_cutBS (x := y) | apply canon_cutBW (x := y)); (subst y; rotate_left; clear_value y)
    | (intro y; clear_value y)
    | intro y
    | (with_reducible apply Canon.regs; with_reducible assumption)
    | (with_reducible apply Canon.mem; with_reducible assumption)
    | (with_reducible apply Canon.regs)
    | (with_reducible apply Canon.mem)
    | (apply canon_fst; with_reducible assumption)
    | (apply canon_snd; with_reducible assumption)
    | with_reducible apply canon_ite
    | split
    | dsimp only
    | with_reducible apply canon_mk

theorem setCopy_canon {b : Blk} (hC : Canon b) (d : Nat) (x : CopySt) :
    Canon (setCopy d x b) := by
  unfold setCopy; try lift_lets -merge
  repeat' first
    | with_reducible assumption
    | (intro y; apply canon_cut (x := y); subst y; rotate_left; clear_value y)
    | (intro y; first | apply canon_cutP (x := y) | apply canon_cutB1 (x := y) | apply canon_cutBN (x := y) | apply canon_cutBX (x := y) | apply canon_cutBS (x := y) | apply canon_cutBW (x := y)); (subst y; rotate_left; clear_value y)
    | (intro y; clear_value y)
    | intro y
    | (with_reducible apply Canon.regs; with_reducible assumption)
    | (with_reducible apply Canon.mem; with_reducible assumption)
    | (with_reducible apply Canon.regs)
    | (with_reducible apply Canon.mem)
    | (apply canon_fst; with_reducible assumption)
    | (apply canon_snd; with_reducible assumption)
    | with_reducible apply canon_ite
    | split
    | dsimp only
    | with_reducible apply canon_mk

theorem hostRecord_canon {b : Blk} (hC : Canon b) (code : Nat) (perm : Bool) (payload : List Byte) :
    Canon (hostRecord code perm payload b) := by
  unfold hostRecord; try lift_lets -merge
  repeat' first
    | with_reducible assumption
    | (intro y; apply canon_cut (x := y); subst y; rotate_left; clear_value y)
    | (intro y; first | apply canon_cutP (x := y) | apply canon_cutB1 (x := y) | apply canon_cutBN (x := y) | apply canon_cutBX (x := y) | apply canon_cutBS (x := y) | apply canon_cutBW (x := y)); (subst y; rotate_left; clear_value y)
    | (intro y; clear_value y)
    | intro y
    | with_reducible apply wrU_canon
    | (with_reducible apply Canon.regs; with_reducible assumption)
    | (with_reducible apply Canon.mem; with_reducible assumption)
    | (with_reducible apply Canon.regs)
    | (with_reducible apply Canon.mem)
    | (apply canon_fst; with_reducible assumption)
    | (apply canon_snd; with_reducible assumption)
    | with_reducible apply canon_ite
    | split
    | dsimp only
    | with_reducible apply canon_mk

theorem fieldRecord_canon {b : Blk} (hC : Canon b) (code : Nat) (payload : List Byte) :
    Canon (fieldRecord code payload b) := by
  unfold fieldRecord; try lift_lets -merge
  repeat' first
    | with_reducible assumption
    | (intro y; apply canon_cut (x := y); subst y; rotate_left; clear_value y)
    | (intro y; first | apply canon_cutP (x := y) | apply canon_cutB1 (x := y) | apply canon_cutBN (x := y) | apply canon_cutBX (x := y) | apply canon_cutBS (x := y) | apply canon_cutBW (x := y)); (subst y; rotate_left; clear_value y)
    | (intro y; clear_value y)
    | intro y
    | with_reducible apply emit_canon
    | (with_reducible apply Canon.regs; with_reducible assumption)
    | (with_reducible apply Canon.mem; with_reducible assumption)
    | (with_reducible apply Canon.regs)
    | (with_reducible apply Canon.mem)
    | (apply canon_fst; with_reducible assumption)
    | (apply canon_snd; with_reducible assumption)
    | with_reducible apply canon_ite
    | split
    | dsimp only
    | with_reducible apply canon_mk

theorem setMark_canon {b : Blk} (hC : Canon b) (k : Nat) (m : Mark) :
    Canon (setMark b k m) := by
  unfold setMark; try lift_lets -merge
  repeat' first
    | with_reducible assumption
    | (intro y; apply canon_cut (x := y); subst y; rotate_left; clear_value y)
    | (intro y; first | apply canon_cutP (x := y) | apply canon_cutB1 (x := y) | apply canon_cutBN (x := y) | apply canon_cutBX (x := y) | apply canon_cutBS (x := y) | apply canon_cutBW (x := y)); (subst y; rotate_left; clear_value y)
    | (intro y; clear_value y)
    | intro y
    | (with_reducible apply Canon.regs; with_reducible assumption)
    | (with_reducible apply Canon.mem; with_reducible assumption)
    | (with_reducible apply Canon.regs)
    | (with_reducible apply Canon.mem)
    | (apply canon_fst; with_reducible assumption)
    | (apply canon_snd; with_reducible assumption)
    | with_reducible apply canon_ite
    | split
    | dsimp only
    | with_reducible apply canon_mk

theorem putBytes_canon {b : Blk} (hC : Canon b) (k : Nat) (l : List Byte) : Canon (putBytes k l b) := by
  induction l generalizing k b with
  | nil => exact hC
  | cons x t ih => exact ih (setByte_canon hC k x) (k + 1)

end Sys2Proof.Machine
end

