-- ==== Sys2Proof/Laws/CanonModOps.lean ====
section
/-!
SUPPORT. The operations of Machine/ModOps.lean keep the canonical form.
-/

set_option linter.unusedTactic false
set_option linter.unreachableTactic false

namespace Sys2Proof.Machine

theorem setMod_canon {b : Blk} (hC : Canon b) (g : Nat) (x : ModSt) :
    Canon (setMod g x b) := by
  unfold setMod; try lift_lets -merge
  repeat' first
    | with_reducible assumption
    | (intro y; apply canon_cut (x := y); subst y; rotate_left; clear_value y)
    | (intro y; first | apply canon_cutP (x := y) | apply canon_cutB1 (x := y) | apply canon_cutBN (x := y) | apply canon_cutBX (x := y) | apply canon_cutBS (x := y) | apply canon_cutBW (x := y)); (subst y; rotate_left; clear_value y)
    | (intro y; clear_value y)
    | intro y
    | (with_reducible apply Canon.regs; with_reducible assumption)
    | (with_reducible apply Canon.mem; with_reducible assumption)
    | (with_reducible apply Canon.regs)
    | (with_reducible apply Canon.mem)
    | (apply canon_fst; with_reducible assumption)
    | (apply canon_snd; with_reducible assumption)
    | with_reducible apply canon_ite
    | split
    | dsimp only
    | with_reducible apply canon_mk

theorem pwmLow_canon {b : Blk} (hC : Canon b) (g : Nat) :
    Canon (pwmLow g b) := by
  unfold pwmLow; try lift_lets -merge
  repeat' first
    | with_reducible assumption
    | (intro y; apply canon_cut (x := y); subst y; rotate_left; clear_value y)
    | (intro y; first | apply canon_cutP (x := y) | apply canon_cutB1 (x := y) | apply canon_cutBN (x := y) | apply canon_cutBX (x := y) | apply canon_cutBS (x := y) | apply canon_cutBW (x := y)); (subst y; rotate_left; clear_value y)
    | (intro y; clear_value y)
    | intro y
    | with_reducible apply setMod_canon
    | (with_reducible apply Canon.regs; with_reducible assumption)
    | (with_reducible apply Canon.mem; with_reducible assumption)
    | (with_reducible apply Canon.regs)
    | (with_reducible apply Canon.mem)
    | (apply canon_fst; with_reducible assumption)
    | (apply canon_snd; with_reducible assumption)
    | with_reducible apply canon_ite
    | split
    | dsimp only
    | with_reducible apply canon_mk

theorem gateRemove_canon {b : Blk} (hC : Canon b) (g : Nat) (cause : Nat) :
    Canon (gateRemove g cause b) := by
  unfold gateRemove; try lift_lets -merge
  repeat' first
    | with_reducible assumption
    | (intro y; apply canon_cut (x := y); subst y; rotate_left; clear_value y)
    | (intro y; first | apply canon_cutP (x := y) | apply canon_cutB1 (x := y) | apply canon_cutBN (x := y) | apply canon_cutBX (x := y) | apply canon_cutBS (x := y) | apply canon_cutBW (x := y)); (subst y; rotate_left; clear_value y)
    | (intro y; clear_value y)
    | intro y
    | with_reducible apply pwmLow_canon
    | with_reducible apply setMod_canon
    | with_reducible apply wrB_canon
    | with_reducible apply raise_canon
    | (with_reducible apply Canon.regs; with_reducible assumption)
    | (with_reducible apply Canon.mem; with_reducible assumption)
    | (with_reducible apply Canon.regs)
    | (with_reducible apply Canon.mem)
    | (apply canon_fst; with_reducible assumption)
    | (apply canon_snd; with_reducible assumption)
    | with_reducible apply canon_ite
    | split
    | dsimp only
    | with_reducible apply canon_mk

theorem gateRestore_canon {b : Blk} (hC : Canon b) (g : Nat) (cause : Nat) :
    Canon (gateRestore g cause b) := by
  unfold gateRestore; try lift_lets -merge
  repeat' first
    | with_reducible assumption
    | (intro y; apply canon_cut (x := y); subst y; rotate_left; clear_value y)
    | (intro y; first | apply canon_cutP (x := y) | apply canon_cutB1 (x := y) | apply canon_cutBN (x := y) | apply canon_cutBX (x := y) | apply canon_cutBS (x := y) | apply canon_cutBW (x := y)); (subst y; rotate_left; clear_value y)
    | (intro y; clear_value y)
    | intro y
    | with_reducible apply setMod_canon
    | with_reducible apply wrB_canon
    | (with_reducible apply Canon.regs; with_reducible assumption)
    | (with_reducible apply Canon.mem; with_reducible assumption)
    | (with_reducible apply Canon.regs)
    | (with_reducible apply Canon.mem)
    | (apply canon_fst; with_reducible assumption)
    | (apply canon_snd; with_reducible assumption)
    | with_reducible apply canon_ite
    | split
    | dsimp only
    | with_reducible apply canon_mk

theorem setClamp_canon {b : Blk} (hC : Canon b) (g : Nat) (on : Bool) :
    Canon (setClamp g on b) := by
  unfold setClamp; try lift_lets -merge
  repeat' first
    | with_reducible assumption
    | (intro y; apply canon_cut (x := y); subst y; rotate_left; clear_value y)
    | (intro y; first | apply canon_cutP (x := y) | apply canon_cutB1 (x := y) | apply canon_cutBN (x := y) | apply canon_cutBX (x := y) | apply canon_cutBS (x := y) | apply canon_cutBW (x := y)); (subst y; rotate_left; clear_value y)
    | (intro y; clear_value y)
    | intro y
    | with_reducible apply wrB_canon
    | with_reducible apply setMod_canon
    | (with_reducible apply Canon.regs; with_reducible assumption)
    | (with_reducible apply Canon.mem; with_reducible assumption)
    | (with_reducible apply Canon.regs)
    | (with_reducible apply Canon.mem)
    | (apply canon_fst; with_reducible assumption)
    | (apply canon_snd; with_reducible assumption)
    | with_reducible apply canon_ite
    | split
    | dsimp only
    | with_reducible apply canon_mk

theorem blockGroup_canon {b : Blk} (hC : Canon b) (g : Nat) :
    Canon (blockGroup g b) := by
  unfold blockGroup; try lift_lets -merge
  repeat' first
    | with_reducible assumption
    | (intro y; apply canon_cut (x := y); subst y; rotate_left; clear_value y)
    | (intro y; first | apply canon_cutP (x := y) | apply canon_cutB1 (x := y) | apply canon_cutBN (x := y) | apply canon_cutBX (x := y) | apply canon_cutBS (x := y) | apply canon_cutBW (x := y)); (subst y; rotate_left; clear_value y)
    | (intro y; clear_value y)
    | intro y
    | with_reducible apply wrB_canon
    | (with_reducible apply Canon.regs; with_reducible assumption)
    | (with_reducible apply Canon.mem; with_reducible assumption)
    | (with_reducible apply Canon.regs)
    | (with_reducible apply Canon.mem)
    | (apply canon_fst; with_reducible assumption)
    | (apply canon_snd; with_reducible assumption)
    | with_reducible apply canon_ite
    | split
    | dsimp only
    | with_reducible apply canon_mk

theorem setLock_canon {b : Blk} (hC : Canon b) (pg : Nat) (l : LockSt) :
    Canon (setLock b pg l) := by
  unfold setLock; try lift_lets -merge
  repeat' first
    | with_reducible assumption
    | (intro y; apply canon_cut (x := y); subst y; rotate_left; clear_value y)
    | (intro y; first | apply canon_cutP (x := y) | apply canon_cutB1 (x := y) | apply canon_cutBN (x := y) | apply canon_cutBX (x := y) | apply canon_cutBS (x := y) | apply canon_cutBW (x := y)); (subst y; rotate_left; clear_value y)
    | (intro y; clear_value y)
    | intro y
    | (with_reducible apply Canon.regs; with_reducible assumption)
    | (with_reducible apply Canon.mem; with_reducible assumption)
    | (with_reducible apply Canon.regs)
    | (with_reducible apply Canon.mem)
    | (apply canon_fst; with_reducible assumption)
    | (apply canon_snd; with_reducible assumption)
    | with_reducible apply canon_ite
    | split
    | dsimp only
    | with_reducible apply canon_mk

end Sys2Proof.Machine
end

