-- ==== Sys2Proof/Laws/CanonLaneOps.lean ====
section
/-!
SUPPORT. The operations of Machine/LaneOps.lean keep the canonical form.
-/

set_option linter.unusedTactic false
set_option linter.unreachableTactic false

namespace Sys2Proof.Machine

theorem setLane_canon {b : Blk} (hC : Canon b) (n : Nat) (x : LaneSt) :
    Canon (setLane n x b) := by
  unfold setLane; try lift_lets -merge
  repeat' first
    | with_reducible assumption
    | (intro y; apply canon_cut (x := y); subst y; rotate_left; clear_value y)
    | (intro y; first | apply canon_cutP (x := y) | apply canon_cutB1 (x := y) | apply canon_cutBN (x := y) | apply canon_cutBX (x := y) | apply canon_cutBS (x := y) | apply canon_cutBW (x := y)); (subst y; rotate_left; clear_value y)
    | (intro y; clear_value y)
    | intro y
    | (with_reducible apply Canon.regs; with_reducible assumption)
    | (with_reducible apply Canon.mem; with_reducible assumption)
    | (with_reducible apply Canon.regs)
    | (with_reducible apply Canon.mem)
    | (apply canon_fst; with_reducible assumption)
    | (apply canon_snd; with_reducible assumption)
    | with_reducible apply canon_ite
    | split
    | dsimp only
    | with_reducible apply canon_mk

theorem lanePump_canon {b : Blk} (hC : Canon b) (k n : Nat) :
    Canon (lanePump k n b) := by
  induction k generalizing b with
  | zero => exact hC
  | succ k ih =>
  unfold lanePump; try lift_lets -merge
  repeat' first
    | with_reducible assumption
    | (intro y; apply canon_cut (x := y); subst y; rotate_left; clear_value y)
    | (intro y; first | apply canon_cutP (x := y) | apply canon_cutB1 (x := y) | apply canon_cutBN (x := y) | apply canon_cutBX (x := y) | apply canon_cutBS (x := y) | apply canon_cutBW (x := y)); (subst y; rotate_left; clear_value y)
    | (intro y; clear_value y)
    | intro y
    | with_reducible apply ih
    | with_reducible apply incWrap_canon
    | with_reducible apply emit_canon
    | with_reducible apply setLane_canon
    | (with_reducible apply Canon.regs; with_reducible assumption)
    | (with_reducible apply Canon.mem; with_reducible assumption)
    | (with_reducible apply Canon.regs)
    | (with_reducible apply Canon.mem)
    | (apply canon_fst; with_reducible assumption)
    | (apply canon_snd; with_reducible assumption)
    | with_reducible apply canon_ite
    | split
    | dsimp only
    | with_reducible apply canon_mk

theorem laneGo_canon {b : Blk} (hC : Canon b) (n : Nat) :
    Canon (laneGo n b) := by
  unfold laneGo; try lift_lets -merge
  repeat' first
    | with_reducible assumption
    | (intro y; apply canon_cut (x := y); subst y; rotate_left; clear_value y)
    | (intro y; first | apply canon_cutP (x := y) | apply canon_cutB1 (x := y) | apply canon_cutBN (x := y) | apply canon_cutBX (x := y) | apply canon_cutBS (x := y) | apply canon_cutBW (x := y)); (subst y; rotate_left; clear_value y)
    | (intro y; clear_value y)
    | intro y
    | with_reducible apply lanePump_canon
    | (with_reducible apply Canon.regs; with_reducible assumption)
    | (with_reducible apply Canon.mem; with_reducible assumption)
    | (with_reducible apply Canon.regs)
    | (with_reducible apply Canon.mem)
    | (apply canon_fst; with_reducible assumption)
    | (apply canon_snd; with_reducible assumption)
    | with_reducible apply canon_ite
    | split
    | dsimp only
    | with_reducible apply canon_mk

theorem laneQueue_canon {b : Blk} (hC : Canon b) (n : Nat) (c : Nat) (t : LaneItem) :
    Canon (laneQueue n c t b) := by
  unfold laneQueue; try lift_lets -merge
  repeat' first
    | with_reducible assumption
    | (intro y; apply canon_cut (x := y); subst y; rotate_left; clear_value y)
    | (intro y; first | apply canon_cutP (x := y) | apply canon_cutB1 (x := y) | apply canon_cutBN (x := y) | apply canon_cutBX (x := y) | apply canon_cutBS (x := y) | apply canon_cutBW (x := y)); (subst y; rotate_left; clear_value y)
    | (intro y; clear_value y)
    | intro y
    | with_reducible apply laneGo_canon
    | with_reducible apply setLane_canon
    | (with_reducible apply Canon.regs; with_reducible assumption)
    | (with_reducible apply Canon.mem; with_reducible assumption)
    | (with_reducible apply Canon.regs)
    | (with_reducible apply Canon.mem)
    | (apply canon_fst; with_reducible assumption)
    | (apply canon_snd; with_reducible assumption)
    | with_reducible apply canon_ite
    | split
    | dsimp only
    | with_reducible apply canon_mk

theorem sendTo_canon {b : Blk} (hC : Canon b) (addr : Nat) (c : Nat) (m : Msg) :
    Canon (sendTo addr c m b) := by
  unfold sendTo; try lift_lets -merge
  repeat' first
    | with_reducible assumption
    | (intro y; apply canon_cut (x := y); subst y; rotate_left; clear_value y)
    | (intro y; first | apply canon_cutP (x := y) | apply canon_cutB1 (x := y) | apply canon_cutBN (x := y) | apply canon_cutBX (x := y) | apply canon_cutBS (x := y) | apply canon_cutBW (x := y)); (subst y; rotate_left; clear_value y)
    | (intro y; clear_value y)
    | intro y
    | with_reducible refine when_canon ?_ ?_ _
    | with_reducible apply raise_canon
    | with_reducible refine forEach_canon ?_ ?_ _
    | with_reducible apply laneQueue_canon
    | (with_reducible apply Canon.regs; with_reducible assumption)
    | (with_reducible apply Canon.mem; with_reducible assumption)
    | (with_reducible apply Canon.regs)
    | (with_reducible apply Canon.mem)
    | (apply canon_fst; with_reducible assumption)
    | (apply canon_snd; with_reducible assumption)
    | with_reducible apply canon_ite
    | split
    | dsimp only
    | with_reducible apply canon_mk

theorem toPos_canon {b : Blk} (hC : Canon b) (p : Nat) (c : Nat) (m : Msg) :
    Canon (toPos p c m b) := by
  unfold toPos; try lift_lets -merge
  repeat' first
    | with_reducible assumption
    | (intro y; apply canon_cut (x := y); subst y; rotate_left; clear_value y)
    | (intro y; first | apply canon_cutP (x := y) | apply canon_cutB1 (x := y) | apply canon_cutBN (x := y) | apply canon_cutBX (x := y) | apply canon_cutBS (x := y) | apply canon_cutBW (x := y)); (subst y; rotate_left; clear_value y)
    | (intro y; clear_value y)
    | intro y
    | with_reducible apply sendTo_canon
    | (with_reducible apply Canon.regs; with_reducible assumption)
    | (with_reducible apply Canon.mem; with_reducible assumption)
    | (with_reducible apply Canon.regs)
    | (with_reducible apply Canon.mem)
    | (apply canon_fst; with_reducible assumption)
    | (apply canon_snd; with_reducible assumption)
    | with_reducible apply canon_ite
    | split
    | dsimp only
    | with_reducible apply canon_mk

theorem toManager_canon {b : Blk} (hC : Canon b) (m : Msg) :
    Canon (toManager m b) := by
  unfold toManager; try lift_lets -merge
  repeat' first
    | with_reducible assumption
    | (intro y; apply canon_cut (x := y); subst y; rotate_left; clear_value y)
    | (intro y; first | apply canon_cutP (x := y) | apply canon_cutB1 (x := y) | apply canon_cutBN (x := y) | apply canon_cutBX (x := y) | apply canon_cutBS (x := y) | apply canon_cutBW (x := y)); (subst y; rotate_left; clear_value y)
    | (intro y; clear_value y)
    | intro y
    | with_reducible apply sendTo_canon
    | (with_reducible apply Canon.regs; with_reducible assumption)
    | (with_reducible apply Canon.mem; with_reducible assumption)
    | (with_reducible apply Canon.regs)
    | (with_reducible apply Canon.mem)
    | (apply canon_fst; with_reducible assumption)
    | (apply canon_snd; with_reducible assumption)
    | with_reducible apply canon_ite
    | split
    | dsimp only
    | with_reducible apply canon_mk

theorem toStack_canon {b : Blk} (hC : Canon b) (s : Nat) (m : Msg) :
    Canon (toStack s m b) := by
  unfold toStack; try lift_lets -merge
  repeat' first
    | with_reducible assumption
    | (intro y; apply canon_cut (x := y); subst y; rotate_left; clear_value y)
    | (intro y; first | apply canon_cutP (x := y) | apply canon_cutB1 (x := y) | apply canon_cutBN (x := y) | apply canon_cutBX (x := y) | apply canon_cutBS (x := y) | apply canon_cutBW (x := y)); (subst y; rotate_left; clear_value y)
    | (intro y; clear_value y)
    | intro y
    | with_reducible apply sendTo_canon
    | (with_reducible apply Canon.regs; with_reducible assumption)
    | (with_reducible apply Canon.mem; with_reducible assumption)
    | (with_reducible apply Canon.regs)
    | (with_reducible apply Canon.mem)
    | (apply canon_fst; with_reducible assumption)
    | (apply canon_snd; with_reducible assumption)
    | with_reducible apply canon_ite
    | split
    | dsimp only
    | with_reducible apply canon_mk

theorem toMembers_canon {b : Blk} (hC : Canon b) (m : Msg) :
    Canon (toMembers m b) := by
  unfold toMembers; try lift_lets -merge
  repeat' first
    | with_reducible assumption
    | (intro y; apply canon_cut (x := y); subst y; rotate_left; clear_value y)
    | (intro y; first | apply canon_cutP (x := y) | apply canon_cutB1 (x := y) | apply canon_cutBN (x := y) | apply canon_cutBX (x := y) | apply canon_cutBS (x := y) | apply canon_cutBW (x := y)); (subst y; rotate_left; clear_value y)
    | (intro y; clear_value y)
    | intro y
    | with_reducible refine forEach_canon ?_ ?_ _
    | with_reducible apply sendTo_canon
    | with_reducible apply laneQueue_canon
    | (with_reducible apply Canon.regs; with_reducible assumption)
    | (with_reducible apply Canon.mem; with_reducible assumption)
    | (with_reducible apply Canon.regs)
    | (with_reducible apply Canon.mem)
    | (apply canon_fst; with_reducible assumption)
    | (apply canon_snd; with_reducible assumption)
    | with_reducible apply canon_ite
    | split
    | dsimp only
    | with_reducible apply canon_mk

theorem toPartner_canon {b : Blk} (hC : Canon b) (c : Nat) (m : Msg) :
    Canon (toPartner c m b) := by
  unfold toPartner; try lift_lets -merge
  repeat' first
    | with_reducible assumption
    | (intro y; apply canon_cut (x := y); subst y; rotate_left; clear_value y)
    | (intro y; first | apply canon_cutP (x := y) | apply canon_cutB1 (x := y) | apply canon_cutBN (x := y) | apply canon_cutBX (x := y) | apply canon_cutBS (x := y) | apply canon_cutBW (x := y)); (subst y; rotate_left; clear_value y)
    | (intro y; clear_value y)
    | intro y
    | with_reducible refine forEach_canon ?_ ?_ _
    | with_reducible apply laneQueue_canon
    | (with_reducible apply Canon.regs; with_reducible assumption)
    | (with_reducible apply Canon.mem; with_reducible assumption)
    | (with_reducible apply Canon.regs)
    | (with_reducible apply Canon.mem)
    | (apply canon_fst; with_reducible assumption)
    | (apply canon_snd; with_reducible assumption)
    | with_reducible apply canon_ite
    | split
    | dsimp only
    | with_reducible apply canon_mk

theorem sendRt_canon {b : Blk} (hC : Canon b) (ps : List Nat) (m : Msg) :
    Canon (sendRt ps m b) := by
  unfold sendRt; try lift_lets -merge
  repeat' first
    | with_reducible assumption
    | (intro y; apply canon_cut (x := y); subst y; rotate_left; clear_value y)
    | (intro y; first | apply canon_cutP (x := y) | apply canon_cutB1 (x := y) | apply canon_cutBN (x := y) | apply canon_cutBX (x := y) | apply canon_cutBS (x := y) | apply canon_cutBW (x := y)); (subst y; rotate_left; clear_value y)
    | (intro y; clear_value y)
    | intro y
    | with_reducible refine forEach_canon ?_ ?_ _
    | with_reducible apply laneQueue_canon
    | (with_reducible apply Canon.regs; with_reducible assumption)
    | (with_reducible apply Canon.mem; with_reducible assumption)
    | (with_reducible apply Canon.regs)
    | (with_reducible apply Canon.mem)
    | (apply canon_fst; with_reducible assumption)
    | (apply canon_snd; with_reducible assumption)
    | with_reducible apply canon_ite
    | split
    | dsimp only
    | with_reducible apply canon_mk

theorem toTrunks_canon {b : Blk} (hC : Canon b) (ts : List Nat) (m : Msg) :
    Canon (toTrunks ts m b) := by
  unfold toTrunks; try lift_lets -merge
  repeat' first
    | with_reducible assumption
    | (intro y; apply canon_cut (x := y); subst y; rotate_left; clear_value y)
    | (intro y; first | apply canon_cutP (x := y) | apply canon_cutB1 (x := y) | apply canon_cutBN (x := y) | apply canon_cutBX (x := y) | apply canon_cutBS (x := y) | apply canon_cutBW (x := y)); (subst y; rotate_left; clear_value y)
    | (intro y; clear_value y)
    | intro y
    | with_reducible apply sendRt_canon
    | (with_reducible apply Canon.regs; with_reducible assumption)
    | (with_reducible apply Canon.mem; with_reducible assumption)
    | (with_reducible apply Canon.regs)
    | (with_reducible apply Canon.mem)
    | (apply canon_fst; with_reducible assumption)
    | (apply canon_snd; with_reducible assumption)
    | with_reducible apply canon_ite
    | split
    | dsimp only
    | with_reducible apply canon_mk

theorem toOwner_canon {b : Blk} (hC : Canon b) (t : Nat) (m : Msg) :
    Canon (toOwner t m b) := by
  unfold toOwner; try lift_lets -merge
  repeat' first
    | with_reducible assumption
    | (intro y; apply canon_cut (x := y); subst y; rotate_left; clear_value y)
    | (intro y; first | apply canon_cutP (x := y) | apply canon_cutB1 (x := y) | apply canon_cutBN (x := y) | apply canon_cutBX (x := y) | apply canon_cutBS (x := y) | apply canon_cutBW (x := y)); (subst y; rotate_left; clear_value y)
    | (intro y; clear_value y)
    | intro y
    | with_reducible apply sendRt_canon
    | (with_reducible apply Canon.regs; with_reducible assumption)
    | (with_reducible apply Canon.mem; with_reducible assumption)
    | (with_reducible apply Canon.regs)
    | (with_reducible apply Canon.mem)
    | (apply canon_fst; with_reducible assumption)
    | (apply canon_snd; with_reducible assumption)
    | with_reducible apply canon_ite
    | split
    | dsimp only
    | with_reducible apply canon_mk

theorem laneFlush_canon {b : Blk} (hC : Canon b) :
    Canon (laneFlush b) := by
  unfold laneFlush; try lift_lets -merge
  repeat' first
    | with_reducible assumption
    | (intro y; apply canon_cut (x := y); subst y; rotate_left; clear_value y)
    | (intro y; first | apply canon_cutP (x := y) | apply canon_cutB1 (x := y) | apply canon_cutBN (x := y) | apply canon_cutBX (x := y) | apply canon_cutBS (x := y) | apply canon_cutBW (x := y)); (subst y; rotate_left; clear_value y)
    | (intro y; clear_value y)
    | intro y
    | with_reducible refine forEach_canon ?_ ?_ _
    | with_reducible apply sendTo_canon
    | (with_reducible apply Canon.regs; with_reducible assumption)
    | (with_reducible apply Canon.mem; with_reducible assumption)
    | (with_reducible apply Canon.regs)
    | (with_reducible apply Canon.mem)
    | (apply canon_fst; with_reducible assumption)
    | (apply canon_snd; with_reducible assumption)
    | with_reducible apply canon_ite
    | split
    | dsimp only
    | with_reducible apply canon_mk

theorem ticketed_canon {b : Blk} (hC : Canon b) (src : Nat) (content : List Byte) (input : Option Input := none) :
    Canon (ticketed src content b input) := by
  unfold ticketed; try lift_lets -merge
  repeat' first
    | with_reducible assumption
    | (intro y; apply canon_cut (x := y); subst y; rotate_left; clear_value y)
    | (intro y; first | apply canon_cutP (x := y) | apply canon_cutB1 (x := y) | apply canon_cutBN (x := y) | apply canon_cutBX (x := y) | apply canon_cutBS (x := y) | apply canon_cutBW (x := y)); (subst y; rotate_left; clear_value y)
    | (intro y; clear_value y)
    | intro y
    | with_reducible apply incWrap_canon
    | with_reducible apply toPartner_canon
    | with_reducible apply emit_canon
    | (with_reducible apply Canon.regs; with_reducible assumption)
    | (with_reducible apply Canon.mem; with_reducible assumption)
    | (with_reducible apply Canon.regs)
    | (with_reducible apply Canon.mem)
    | (apply canon_fst; with_reducible assumption)
    | (apply canon_snd; with_reducible assumption)
    | with_reducible apply canon_ite
    | split
    | dsimp only
    | with_reducible apply canon_mk

end Sys2Proof.Machine
end

