-- ==== Sys2Proof/Laws/CanonRedOps.lean ====
section
/-!
SUPPORT. The operations of Machine/RedOps.lean keep the canonical form.
-/

set_option linter.unusedTactic false
set_option linter.unreachableTactic false

namespace Sys2Proof.Machine

theorem setRed_canon {b : Blk} (hC : Canon b) (x : RedSt) :
    Canon (setRed x b) := by
  unfold setRed; try lift_lets -merge
  repeat' first
    | with_reducible assumption
    | (intro y; apply canon_cut (x := y); subst y; rotate_left; clear_value y)
    | (intro y; first | apply canon_cutP (x := y) | apply canon_cutB1 (x := y) | apply canon_cutBN (x := y) | apply canon_cutBX (x := y) | apply canon_cutBS (x := y) | apply canon_cutBW (x := y)); (subst y; rotate_left; clear_value y)
    | (intro y; clear_value y)
    | intro y
    | (with_reducible apply Canon.regs; with_reducible assumption)
    | (with_reducible apply Canon.mem; with_reducible assumption)
    | (with_reducible apply Canon.regs)
    | (with_reducible apply Canon.mem)
    | (apply canon_fst; with_reducible assumption)
    | (apply canon_snd; with_reducible assumption)
    | with_reducible apply canon_ite
    | split
    | dsimp only
    | with_reducible apply canon_mk

theorem setSync_canon {b : Blk} (hC : Canon b) (v : Bool) :
    Canon (setSync v b) := by
  unfold setSync; try lift_lets -merge
  repeat' first
    | with_reducible assumption
    | (intro y; apply canon_cut (x := y); subst y; rotate_left; clear_value y)
    | (intro y; first | apply canon_cutP (x := y) | apply canon_cutB1 (x := y) | apply canon_cutBN (x := y) | apply canon_cutBX (x := y) | apply canon_cutBS (x := y) | apply canon_cutBW (x := y)); (subst y; rotate_left; clear_value y)
    | (intro y; clear_value y)
    | intro y
    | with_reducible apply wrB_canon
    | (with_reducible apply Canon.regs; with_reducible assumption)
    | (with_reducible apply Canon.mem; with_reducible assumption)
    | (with_reducible apply Canon.regs)
    | (with_reducible apply Canon.mem)
    | (apply canon_fst; with_reducible assumption)
    | (apply canon_snd; with_reducible assumption)
    | with_reducible apply canon_ite
    | split
    | dsimp only
    | with_reducible apply canon_mk

theorem setActive_canon {b : Blk} (hC : Canon b) (v : Bool) :
    Canon (setActive v b) := by
  unfold setActive; try lift_lets -merge
  repeat' first
    | with_reducible assumption
    | (intro y; apply canon_cut (x := y); subst y; rotate_left; clear_value y)
    | (intro y; first | apply canon_cutP (x := y) | apply canon_cutB1 (x := y) | apply canon_cutBN (x := y) | apply canon_cutBX (x := y) | apply canon_cutBS (x := y) | apply canon_cutBW (x := y)); (subst y; rotate_left; clear_value y)
    | (intro y; clear_value y)
    | intro y
    | with_reducible apply wrB_canon
    | (with_reducible apply Canon.regs; with_reducible assumption)
    | (with_reducible apply Canon.mem; with_reducible assumption)
    | (with_reducible apply Canon.regs)
    | (with_reducible apply Canon.mem)
    | (apply canon_fst; with_reducible assumption)
    | (apply canon_snd; with_reducible assumption)
    | with_reducible apply canon_ite
    | split
    | dsimp only
    | with_reducible apply canon_mk

theorem unsync_canon {b : Blk} (hC : Canon b) (cause : Nat) :
    Canon (unsync cause b) := by
  unfold unsync; try lift_lets -merge
  repeat' first
    | with_reducible assumption
    | (intro y; apply canon_cut (x := y); subst y; rotate_left; clear_value y)
    | (intro y; first | apply canon_cutP (x := y) | apply canon_cutB1 (x := y) | apply canon_cutBN (x := y) | apply canon_cutBX (x := y) | apply canon_cutBS (x := y) | apply canon_cutBW (x := y)); (subst y; rotate_left; clear_value y)
    | (intro y; clear_value y)
    | intro y
    | with_reducible apply raise_canon
    | with_reducible apply wr_canon
    | with_reducible apply setSync_canon
    | with_reducible apply emit_canon
    | (with_reducible apply Canon.regs; with_reducible assumption)
    | (with_reducible apply Canon.mem; with_reducible assumption)
    | (with_reducible apply Canon.regs)
    | (with_reducible apply Canon.mem)
    | (apply canon_fst; with_reducible assumption)
    | (apply canon_snd; with_reducible assumption)
    | with_reducible apply canon_ite
    | split
    | dsimp only
    | with_reducible apply canon_mk

theorem setVp_canon {b : Blk} (hC : Canon b) (n : Nat) (x : VpSt) :
    Canon (setVp n x b) := by
  unfold setVp; try lift_lets -merge
  repeat' first
    | with_reducible assumption
    | (intro y; apply canon_cut (x := y); subst y; rotate_left; clear_value y)
    | (intro y; first | apply canon_cutP (x := y) | apply canon_cutB1 (x := y) | apply canon_cutBN (x := y) | apply canon_cutBX (x := y) | apply canon_cutBS (x := y) | apply canon_cutBW (x := y)); (subst y; rotate_left; clear_value y)
    | (intro y; clear_value y)
    | intro y
    | (with_reducible apply Canon.regs; with_reducible assumption)
    | (with_reducible apply Canon.mem; with_reducible assumption)
    | (with_reducible apply Canon.regs)
    | (with_reducible apply Canon.mem)
    | (apply canon_fst; with_reducible assumption)
    | (apply canon_snd; with_reducible assumption)
    | with_reducible apply canon_ite
    | split
    | dsimp only
    | with_reducible apply canon_mk

theorem showPilot_canon {b : Blk} (hC : Canon b) (n : Nat) :
    Canon (showPilot n b) := by
  unfold showPilot; try lift_lets -merge
  repeat' first
    | with_reducible assumption
    | (intro y; apply canon_cut (x := y); subst y; rotate_left; clear_value y)
    | (intro y; first | apply canon_cutP (x := y) | apply canon_cutB1 (x := y) | apply canon_cutBN (x := y) | apply canon_cutBX (x := y) | apply canon_cutBS (x := y) | apply canon_cutBW (x := y)); (subst y; rotate_left; clear_value y)
    | (intro y; clear_value y)
    | intro y
    | with_reducible apply emit_canon
    | with_reducible apply setVp_canon
    | (with_reducible apply Canon.regs; with_reducible assumption)
    | (with_reducible apply Canon.mem; with_reducible assumption)
    | (with_reducible apply Canon.regs)
    | (with_reducible apply Canon.mem)
    | (apply canon_fst; with_reducible assumption)
    | (apply canon_snd; with_reducible assumption)
    | with_reducible apply canon_ite
    | split
    | dsimp only
    | with_reducible apply canon_mk

theorem driveLands_canon {b : Blk} (hC : Canon b) :
    Canon (driveLands b) := by
  unfold driveLands; try lift_lets -merge
  repeat' first
    | with_reducible assumption
    | (intro y; apply canon_cut (x := y); subst y; rotate_left; clear_value y)
    | (intro y; first | apply canon_cutP (x := y) | apply canon_cutB1 (x := y) | apply canon_cutBN (x := y) | apply canon_cutBX (x := y) | apply canon_cutBS (x := y) | apply canon_cutBW (x := y)); (subst y; rotate_left; clear_value y)
    | (intro y; clear_value y)
    | intro y
    | with_reducible refine forEach_canon ?_ ?_ _
    | with_reducible apply showPilot_canon
    | with_reducible apply emit_canon
    | (with_reducible apply Canon.regs; with_reducible assumption)
    | (with_reducible apply Canon.mem; with_reducible assumption)
    | (with_reducible apply Canon.regs)
    | (with_reducible apply Canon.mem)
    | (apply canon_fst; with_reducible assumption)
    | (apply canon_snd; with_reducible assumption)
    | with_reducible apply canon_ite
    | split
    | dsimp only
    | with_reducible apply canon_mk

theorem joinSite_canon {b : Blk} (hC : Canon b) :
    Canon (joinSite b) := by
  unfold joinSite; try lift_lets -merge
  repeat' first
    | with_reducible assumption
    | (intro y; apply canon_cut (x := y); subst y; rotate_left; clear_value y)
    | (intro y; first | apply canon_cutP (x := y) | apply canon_cutB1 (x := y) | apply canon_cutBN (x := y) | apply canon_cutBX (x := y) | apply canon_cutBS (x := y) | apply canon_cutBW (x := y)); (subst y; rotate_left; clear_value y)
    | (intro y; clear_value y)
    | intro y
    | with_reducible refine when_canon ?_ ?_ _
    | with_reducible apply driveLands_canon
    | with_reducible apply wr_canon
    | (with_reducible apply Canon.regs; with_reducible assumption)
    | (with_reducible apply Canon.mem; with_reducible assumption)
    | (with_reducible apply Canon.regs)
    | (with_reducible apply Canon.mem)
    | (apply canon_fst; with_reducible assumption)
    | (apply canon_snd; with_reducible assumption)
    | with_reducible apply canon_ite
    | split
    | dsimp only
    | with_reducible apply canon_mk

theorem showFail_canon {b : Blk} (hC : Canon b) :
    Canon (showFail b) := by
  unfold showFail; try lift_lets -merge
  repeat' first
    | with_reducible assumption
    | (intro y; apply canon_cut (x := y); subst y; rotate_left; clear_value y)
    | (intro y; first | apply canon_cutP (x := y) | apply canon_cutB1 (x := y) | apply canon_cutBN (x := y) | apply canon_cutBX (x := y) | apply canon_cutBS (x := y) | apply canon_cutBW (x := y)); (subst y; rotate_left; clear_value y)
    | (intro y; clear_value y)
    | intro y
    | with_reducible apply wr_canon
    | with_reducible apply wrB_canon
    | with_reducible apply setRed_canon
    | with_reducible apply setSync_canon
    | with_reducible apply setActive_canon
    | with_reducible apply raise_canon
    | with_reducible apply hostRecord_canon
    | (with_reducible apply Canon.regs; with_reducible assumption)
    | (with_reducible apply Canon.mem; with_reducible assumption)
    | (with_reducible apply Canon.regs)
    | (with_reducible apply Canon.mem)
    | (apply canon_fst; with_reducible assumption)
    | (apply canon_snd; with_reducible assumption)
    | with_reducible apply canon_ite
    | split
    | dsimp only
    | with_reducible apply canon_mk

theorem failAssert_canon {b : Blk} (hC : Canon b) (cause : Nat) :
    Canon (failAssert cause b) := by
  unfold failAssert; try lift_lets -merge
  repeat' first
    | with_reducible assumption
    | (intro y; apply canon_cut (x := y); subst y; rotate_left; clear_value y)
    | (intro y; first | apply canon_cutP (x := y) | apply canon_cutB1 (x := y) | apply canon_cutBN (x := y) | apply canon_cutBX (x := y) | apply canon_cutBS (x := y) | apply canon_cutBW (x := y)); (subst y; rotate_left; clear_value y)
    | (intro y; clear_value y)
    | intro y
    | with_reducible apply driveLands_canon
    | with_reducible apply showFail_canon
    | with_reducible apply setRed_canon
    | (with_reducible apply Canon.regs; with_reducible assumption)
    | (with_reducible apply Canon.mem; with_reducible assumption)
    | (with_reducible apply Canon.regs)
    | (with_reducible apply Canon.mem)
    | (apply canon_fst; with_reducible assumption)
    | (apply canon_snd; with_reducible assumption)
    | with_reducible apply canon_ite
    | split
    | dsimp only
    | with_reducible apply canon_mk

theorem transferFail_canon {b : Blk} (hC : Canon b) :
    Canon (transferFail b) := by
  unfold transferFail; try lift_lets -merge
  repeat' first
    | with_reducible assumption
    | (intro y; apply canon_cut (x := y); subst y; rotate_left; clear_value y)
    | (intro y; first | apply canon_cutP (x := y) | apply canon_cutB1 (x := y) | apply canon_cutBN (x := y) | apply canon_cutBX (x := y) | apply canon_cutBS (x := y) | apply canon_cutBW (x := y)); (subst y; rotate_left; clear_value y)
    | (intro y; clear_value y)
    | intro y
    | with_reducible apply wrB_canon
    | with_reducible apply wr_canon
    | with_reducible apply raise_canon
    | with_reducible apply setRed_canon
    | (with_reducible apply Canon.regs; with_reducible assumption)
    | (with_reducible apply Canon.mem; with_reducible assumption)
    | (with_reducible apply Canon.regs)
    | (with_reducible apply Canon.mem)
    | (apply canon_fst; with_reducible assumption)
    | (apply canon_snd; with_reducible assumption)
    | with_reducible apply canon_ite
    | split
    | dsimp only
    | with_reducible apply canon_mk

theorem sealParity_canon {b : Blk} (hC : Canon b) :
    Canon (sealParity b) := by
  unfold sealParity; try lift_lets -merge
  repeat' first
    | with_reducible assumption
    | (intro y; apply canon_cut (x := y); subst y; rotate_left; clear_value y)
    | (intro y; first | apply canon_cutP (x := y) | apply canon_cutB1 (x := y) | apply canon_cutBN (x := y) | apply canon_cutBX (x := y) | apply canon_cutBS (x := y) | apply canon_cutBW (x := y)); (subst y; rotate_left; clear_value y)
    | (intro y; clear_value y)
    | intro y
    | with_reducible apply driveLands_canon
    | with_reducible apply setActive_canon
    | with_reducible apply unsync_canon
    | (with_reducible apply Canon.regs; with_reducible assumption)
    | (with_reducible apply Canon.mem; with_reducible assumption)
    | (with_reducible apply Canon.regs)
    | (with_reducible apply Canon.mem)
    | (apply canon_fst; with_reducible assumption)
    | (apply canon_snd; with_reducible assumption)
    | with_reducible apply canon_ite
    | split
    | dsimp only
    | with_reducible apply canon_mk

end Sys2Proof.Machine
end

