-- ==== Sys2Proof/Laws/CanonOperands.lean ====
section
/-!
SUPPORT. The operations of Machine/Operands.lean keep the canonical form.
-/

set_option linter.unusedTactic false
set_option linter.unreachableTactic false

namespace Sys2Proof.Machine

theorem setShadow_canon {b : Blk} (hC : Canon b) (i : Init) (pg : Nat) (x : Option Shadow) :
    Canon (setShadow i pg x b) := by
  unfold setShadow; try lift_lets -merge
  repeat' first
    | with_reducible assumption
    | (intro y; apply canon_cut (x := y); subst y; rotate_left; clear_value y)
    | (intro y; first | apply canon_cutP (x := y) | apply canon_cutB1 (x := y) | apply canon_cutBN (x := y) | apply canon_cutBX (x := y) | apply canon_cutBS (x := y) | apply canon_cutBW (x := y)); (subst y; rotate_left; clear_value y)
    | (intro y; clear_value y)
    | intro y
    | (with_reducible apply Canon.regs; with_reducible assumption)
    | (with_reducible apply Canon.mem; with_reducible assumption)
    | (with_reducible apply Canon.regs)
    | (with_reducible apply Canon.mem)
    | (apply canon_fst; with_reducible assumption)
    | (apply canon_snd; with_reducible assumption)
    | with_reducible apply canon_ite
    | split
    | dsimp only
    | with_reducible apply canon_mk

theorem dropShadow_canon {b : Blk} (hC : Canon b) (i : Init) (pg : Nat) :
    Canon (dropShadow i pg b) := by
  unfold dropShadow; try lift_lets -merge
  repeat' first
    | with_reducible assumption
    | (intro y; apply canon_cut (x := y); subst y; rotate_left; clear_value y)
    | (intro y; first | apply canon_cutP (x := y) | apply canon_cutB1 (x := y) | apply canon_cutBN (x := y) | apply canon_cutBX (x := y) | apply canon_cutBS (x := y) | apply canon_cutBW (x := y)); (subst y; rotate_left; clear_value y)
    | (intro y; clear_value y)
    | intro y
    | with_reducible apply setShadow_canon
    | (with_reducible apply Canon.regs; with_reducible assumption)
    | (with_reducible apply Canon.mem; with_reducible assumption)
    | (with_reducible apply Canon.regs)
    | (with_reducible apply Canon.mem)
    | (apply canon_fst; with_reducible assumption)
    | (apply canon_snd; with_reducible assumption)
    | with_reducible apply canon_ite
    | split
    | dsimp only
    | with_reducible apply canon_mk

theorem touchPage_canon {b : Blk} (hC : Canon b) (i : Init) (pg : Nat) :
    Canon (touchPage i pg b) := by
  unfold touchPage; try lift_lets -merge
  repeat' first
    | with_reducible assumption
    | (intro y; apply canon_cut (x := y); subst y; rotate_left; clear_value y)
    | (intro y; first | apply canon_cutP (x := y) | apply canon_cutB1 (x := y) | apply canon_cutBN (x := y) | apply canon_cutBX (x := y) | apply canon_cutBS (x := y) | apply canon_cutBW (x := y)); (subst y; rotate_left; clear_value y)
    | (intro y; clear_value y)
    | intro y
    | with_reducible apply dropShadow_canon
    | with_reducible apply setLock_canon
    | (with_reducible apply Canon.regs; with_reducible assumption)
    | (with_reducible apply Canon.mem; with_reducible assumption)
    | (with_reducible apply Canon.regs)
    | (with_reducible apply Canon.mem)
    | (apply canon_fst; with_reducible assumption)
    | (apply canon_snd; with_reducible assumption)
    | with_reducible apply canon_ite
    | split
    | dsimp only
    | with_reducible apply canon_mk

theorem calTouch_canon {b : Blk} (hC : Canon b) (pg : Nat) (r : RegRow) (old : Word) (new : Word) :
    Canon (calTouch pg r old new b) := by
  unfold calTouch; try lift_lets -merge
  repeat' first
    | with_reducible assumption
    | (intro y; apply canon_cut (x := y); subst y; rotate_left; clear_value y)
    | (intro y; first | apply canon_cutP (x := y) | apply canon_cutB1 (x := y) | apply canon_cutBN (x := y) | apply canon_cutBX (x := y) | apply canon_cutBS (x := y) | apply canon_cutBW (x := y)); (subst y; rotate_left; clear_value y)
    | (intro y; clear_value y)
    | intro y
    | with_reducible apply wrB_canon
    | (with_reducible apply Canon.regs; with_reducible assumption)
    | (with_reducible apply Canon.mem; with_reducible assumption)
    | (with_reducible apply Canon.regs)
    | (with_reducible apply Canon.mem)
    | (apply canon_fst; with_reducible assumption)
    | (apply canon_snd; with_reducible assumption)
    | with_reducible apply canon_ite
    | split
    | dsimp only
    | with_reducible apply canon_mk

theorem storeWord_canon {b : Blk} (hC : Canon b) (i : Init) (unl : Bool) (pg : Nat) (off : Nat) (v : Word) :
    Canon (storeWord b i unl pg off v).blk := by
  unfold storeWord; try lift_lets -merge
  repeat' first
    | with_reducible assumption
    | (intro y; apply canon_cut (x := y); subst y; rotate_left; clear_value y)
    | (intro y; first | apply canon_cutP (x := y) | apply canon_cutB1 (x := y) | apply canon_cutBN (x := y) | apply canon_cutBX (x := y) | apply canon_cutBS (x := y) | apply canon_cutBW (x := y)); (subst y; rotate_left; clear_value y)
    | (intro y; clear_value y)
    | intro y
    | with_reducible apply answer_canon
    | with_reducible apply touchPage_canon
    | with_reducible apply raise_canon
    | with_reducible apply reject_canon
    | with_reducible apply calTouch_canon
    | with_reducible apply setWord_canon
    | (with_reducible apply Canon.regs; with_reducible assumption)
    | (with_reducible apply Canon.mem; with_reducible assumption)
    | (with_reducible apply Canon.regs)
    | (with_reducible apply Canon.mem)
    | (apply canon_fst; with_reducible assumption)
    | (apply canon_snd; with_reducible assumption)
    | with_reducible apply canon_ite
    | split
    | dsimp only
    | with_reducible apply canon_mk

theorem writeNow_canon {b : Blk} (hC : Canon b) (i : Init) (unl : Bool) (a : Nat) (v : Word) (act : Nat → Blk → Blk) (hf_act : ∀ x0 y, Canon y → Canon (act x0 y)) :
    Canon (writeNow i unl a v act b) := by
  unfold writeNow; try lift_lets -merge
  repeat' first
    | with_reducible assumption
    | (intro y; apply canon_cut (x := y); subst y; rotate_left; clear_value y)
    | (intro y; first | apply canon_cutP (x := y) | apply canon_cutB1 (x := y) | apply canon_cutBN (x := y) | apply canon_cutBX (x := y) | apply canon_cutBS (x := y) | apply canon_cutBW (x := y)); (subst y; rotate_left; clear_value y)
    | (intro y; clear_value y)
    | intro y
    | with_reducible apply storeWord_canon
    | with_reducible apply hf_act
    | (with_reducible apply Canon.regs; with_reducible assumption)
    | (with_reducible apply Canon.mem; with_reducible assumption)
    | (with_reducible apply Canon.regs)
    | (with_reducible apply Canon.mem)
    | (apply canon_fst; with_reducible assumption)
    | (apply canon_snd; with_reducible assumption)
    | with_reducible apply canon_ite
    | split
    | dsimp only
    | with_reducible apply canon_mk

theorem writeLate_canon {b : Blk} (hC : Canon b) (i : Init) (unl : Bool) (a : Nat) (v : Word) (same : Nat := 0) (rsp : Option (Nat × Nat × Nat) := none) :
    Canon (writeLate i unl a v b same rsp) := by
  unfold writeLate; try lift_lets -merge
  repeat' first
    | with_reducible assumption
    | (intro y; apply canon_cut (x := y); subst y; rotate_left; clear_value y)
    | (intro y; first | apply canon_cutP (x := y) | apply canon_cutB1 (x := y) | apply canon_cutBN (x := y) | apply canon_cutBX (x := y) | apply canon_cutBS (x := y) | apply canon_cutBW (x := y)); (subst y; rotate_left; clear_value y)
    | (intro y; clear_value y)
    | intro y
    | with_reducible apply storeWord_canon
    | with_reducible apply touchPage_canon
    | with_reducible apply incWrap_canon
    | with_reducible apply toPartner_canon
    | with_reducible apply emit_canon
    | with_reducible apply setRed_canon
    | (with_reducible apply Canon.regs; with_reducible assumption)
    | (with_reducible apply Canon.mem; with_reducible assumption)
    | (with_reducible apply Canon.regs)
    | (with_reducible apply Canon.mem)
    | (apply canon_fst; with_reducible assumption)
    | (apply canon_snd; with_reducible assumption)
    | with_reducible apply canon_ite
    | split
    | dsimp only
    | with_reducible apply canon_mk

theorem writeAct_canon {b : Blk} (hC : Canon b) (i : Init) (unl : Bool) (a : Nat) (v : Word) (act : Nat → Blk → Blk) (hf_act : ∀ x0 y, Canon y → Canon (act x0 y)) :
    Canon (writeAct i unl a v act b) := by
  unfold writeAct; try lift_lets -merge
  repeat' first
    | with_reducible assumption
    | (intro y; apply canon_cut (x := y); subst y; rotate_left; clear_value y)
    | (intro y; first | apply canon_cutP (x := y) | apply canon_cutB1 (x := y) | apply canon_cutBN (x := y) | apply canon_cutBX (x := y) | apply canon_cutBS (x := y) | apply canon_cutBW (x := y)); (subst y; rotate_left; clear_value y)
    | (intro y; clear_value y)
    | intro y
    | with_reducible apply writeLate_canon
    | with_reducible apply writeNow_canon
    | with_reducible apply hf_act
    | (with_reducible apply Canon.regs; with_reducible assumption)
    | (with_reducible apply Canon.mem; with_reducible assumption)
    | (with_reducible apply Canon.regs)
    | (with_reducible apply Canon.mem)
    | (apply canon_fst; with_reducible assumption)
    | (apply canon_snd; with_reducible assumption)
    | with_reducible apply canon_ite
    | split
    | dsimp only
    | with_reducible apply canon_mk

end Sys2Proof.Machine
end

