-- ==== Sys2Proof/Laws/CanonTick.lean ====
section
/-!
SUPPORT. The operations of Machine/Tick.lean keep the canonical form.
-/

set_option linter.unusedTactic false
set_option linter.unreachableTactic false

namespace Sys2Proof.Machine

theorem regAnswer_canon {b : Blk} (hC : Canon b) (tag : Nat) (page : Nat) (status : Nat) (data : List Nat) :
    Canon (regAnswer tag page status data b) := by
  unfold regAnswer; try lift_lets -merge
  repeat' first
    | with_reducible assumption
    | (intro y; apply canon_cut (x := y); subst y; rotate_left; clear_value y)
    | (intro y; first | apply canon_cutP (x := y) | apply canon_cutB1 (x := y) | apply canon_cutBN (x := y) | apply canon_cutBX (x := y) | apply canon_cutBS (x := y) | apply canon_cutBW (x := y)); (subst y; rotate_left; clear_value y)
    | (intro y; clear_value y)
    | intro y
    | with_reducible apply emit_canon
    | with_reducible apply raise_canon
    | with_reducible apply wr_canon
    | with_reducible apply incSat_canon
    | (with_reducible apply Canon.regs; with_reducible assumption)
    | (with_reducible apply Canon.mem; with_reducible assumption)
    | (with_reducible apply Canon.regs)
    | (with_reducible apply Canon.mem)
    | (apply canon_fst; with_reducible assumption)
    | (apply canon_snd; with_reducible assumption)
    | with_reducible apply canon_ite
    | split
    | dsimp only
    | with_reducible apply canon_mk

theorem readRegs_canon {b : Blk} (hC : Canon b) (pg off n : Nat) :
    Canon (readRegs pg off n b).1 := by
  induction n generalizing b off with
  | zero => exact hC
  | succ k ih =>
  unfold readRegs; try lift_lets -merge
  repeat' first
    | with_reducible assumption
    | (intro y; apply canon_cut (x := y); subst y; rotate_left; clear_value y)
    | (intro y; first | apply canon_cutP (x := y) | apply canon_cutB1 (x := y) | apply canon_cutBN (x := y) | apply canon_cutBX (x := y) | apply canon_cutBS (x := y) | apply canon_cutBW (x := y)); (subst y; rotate_left; clear_value y)
    | (intro y; clear_value y)
    | intro y
    | with_reducible apply ih
    | with_reducible apply regRead_canon
    | (with_reducible apply Canon.regs; with_reducible assumption)
    | (with_reducible apply Canon.mem; with_reducible assumption)
    | (with_reducible apply Canon.regs)
    | (with_reducible apply Canon.mem)
    | (apply canon_fst; with_reducible assumption)
    | (apply canon_snd; with_reducible assumption)
    | with_reducible apply canon_ite
    | split
    | dsimp only
    | with_reducible apply canon_mk

theorem doRegRd_canon {b : Blk} (hC : Canon b) (tag : Nat) (page : Nat) (off : Nat) (count : Nat) (rsv : Nat) :
    Canon (doRegRd tag page off count rsv b) := by
  unfold doRegRd; try lift_lets -merge
  repeat' first
    | with_reducible assumption
    | (intro y; apply canon_cut (x := y); subst y; rotate_left; clear_value y)
    | (intro y; first | apply canon_cutP (x := y) | apply canon_cutB1 (x := y) | apply canon_cutBN (x := y) | apply canon_cutBX (x := y) | apply canon_cutBS (x := y) | apply canon_cutBW (x := y)); (subst y; rotate_left; clear_value y)
    | (intro y; clear_value y)
    | intro y
    | with_reducible apply dropType_canon
    | with_reducible apply regAnswer_canon
    | with_reducible apply readRegs_canon
    | (with_reducible apply Canon.regs; with_reducible assumption)
    | (with_reducible apply Canon.mem; with_reducible assumption)
    | (with_reducible apply Canon.regs)
    | (with_reducible apply Canon.mem)
    | (apply canon_fst; with_reducible assumption)
    | (apply canon_snd; with_reducible assumption)
    | with_reducible apply canon_ite
    | split
    | dsimp only
    | with_reducible apply canon_mk

theorem writeRegs_canon {b : Blk} (hC : Canon b) (pg off : Nat) (l : List Word) :
    Canon (writeRegs pg off l b).1 := by
  induction l generalizing b off with
  | nil => exact hC
  | cons x l ih =>
    have h := regWrite_canon hC .host (pg + off) x
    rw [writeRegs]
    generalize regWrite .host (pg + off) x b = y at h ⊢
    generalize (storeWord b .host false pg off x).status = st
    by_cases e : st = 0
    · simp only [e, if_true]; exact ih h _
    · simp only [e, if_false]; exact h

theorem hostUnlock_canon {b : Blk} (hC : Canon b) (pg : Nat) :
    Canon (hostUnlock pg b) := by
  unfold hostUnlock; try lift_lets -merge
  repeat' first
    | with_reducible assumption
    | (intro y; apply canon_cut (x := y); subst y; rotate_left; clear_value y)
    | (intro y; first | apply canon_cutP (x := y) | apply canon_cutB1 (x := y) | apply canon_cutBN (x := y) | apply canon_cutBX (x := y) | apply canon_cutBS (x := y) | apply canon_cutBW (x := y)); (subst y; rotate_left; clear_value y)
    | (intro y; clear_value y)
    | intro y
    | with_reducible apply touchPage_canon
    | with_reducible apply setLock_canon
    | (with_reducible apply Canon.regs; with_reducible assumption)
    | (with_reducible apply Canon.mem; with_reducible assumption)
    | (with_reducible apply Canon.regs)
    | (with_reducible apply Canon.mem)
    | (apply canon_fst; with_reducible assumption)
    | (apply canon_snd; with_reducible assumption)
    | with_reducible apply canon_ite
    | split
    | dsimp only
    | with_reducible apply canon_mk

theorem wrAnswer_canon {b : Blk} (hC : Canon b) (tag : Nat) (page : Nat) (status : Nat) (b0 : Blk) :
    Canon (wrAnswer tag page status b0 b) := by
  unfold wrAnswer; try lift_lets -merge
  repeat' first
    | with_reducible assumption
    | (intro y; apply canon_cut (x := y); subst y; rotate_left; clear_value y)
    | (intro y; first | apply canon_cutP (x := y) | apply canon_cutB1 (x := y) | apply canon_cutBN (x := y) | apply canon_cutBX (x := y) | apply canon_cutBS (x := y) | apply canon_cutBW (x := y)); (subst y; rotate_left; clear_value y)
    | (intro y; clear_value y)
    | intro y
    | with_reducible apply setRed_canon
    | with_reducible apply regAnswer_canon
    | (with_reducible apply Canon.regs; with_reducible assumption)
    | (with_reducible apply Canon.mem; with_reducible assumption)
    | (with_reducible apply Canon.regs)
    | (with_reducible apply Canon.mem)
    | (apply canon_fst; with_reducible assumption)
    | (apply canon_snd; with_reducible assumption)
    | with_reducible apply canon_ite
    | split
    | dsimp only
    | with_reducible apply canon_mk

theorem doRegWr_canon {b : Blk} (hC : Canon b) (tag : Nat) (page : Nat) (off : Nat) (count : Nat) (attr : Nat) (rsv : Nat) (data : List Word) :
    Canon (doRegWr tag page off count attr rsv data b) := by
  unfold doRegWr; try lift_lets -merge
  repeat' first
    | with_reducible assumption
    | (intro y; apply canon_cut (x := y); subst y; rotate_left; clear_value y)
    | (intro y; first | apply canon_cutP (x := y) | apply canon_cutB1 (x := y) | apply canon_cutBN (x := y) | apply canon_cutBX (x := y) | apply canon_cutBS (x := y) | apply canon_cutBW (x := y)); (subst y; rotate_left; clear_value y)
    | (intro y; clear_value y)
    | intro y
    | with_reducible apply dropType_canon
    | with_reducible apply regAnswer_canon
    | with_reducible apply reject_canon
    | with_reducible apply hostUnlock_canon
    | with_reducible apply writeRegs_canon
    | with_reducible apply wrAnswer_canon
    | (with_reducible apply Canon.regs; with_reducible assumption)
    | (with_reducible apply Canon.mem; with_reducible assumption)
    | (with_reducible apply Canon.regs)
    | (with_reducible apply Canon.mem)
    | (apply canon_fst; with_reducible assumption)
    | (apply canon_snd; with_reducible assumption)
    | with_reducible apply canon_ite
    | split
    | dsimp only
    | with_reducible apply canon_mk

theorem releaseWrite_canon {b : Blk} (hC : Canon b) (w : LateWrite) :
    Canon (releaseWrite w b) := by
  unfold releaseWrite; try lift_lets -merge
  repeat' first
    | with_reducible assumption
    | (intro y; apply canon_cut (x := y); subst y; rotate_left; clear_value y)
    | (intro y; first | apply canon_cutP (x := y) | apply canon_cutB1 (x := y) | apply canon_cutBN (x := y) | apply canon_cutBX (x := y) | apply canon_cutBS (x := y) | apply canon_cutBW (x := y)); (subst y; rotate_left; clear_value y)
    | (intro y; clear_value y)
    | intro y
    | with_reducible apply storeWord_canon
    | with_reducible apply writeNow_canon
    | with_reducible apply actEvtClr_canon
    | with_reducible apply regWriteNow_canon
    | with_reducible apply regAnswer_canon
    | (with_reducible apply Canon.regs; with_reducible assumption)
    | (with_reducible apply Canon.mem; with_reducible assumption)
    | (with_reducible apply Canon.regs)
    | (with_reducible apply Canon.mem)
    | (apply canon_fst; with_reducible assumption)
    | (apply canon_snd; with_reducible assumption)
    | with_reducible apply canon_ite
    | split
    | dsimp only
    | with_reducible apply canon_mk

theorem releaseMatched_canon {b : Blk} (hC : Canon b) (t : Ticket) :
    Canon (releaseMatched t b) := by
  unfold releaseMatched; try lift_lets -merge
  repeat' first
    | with_reducible assumption
    | (intro y; apply canon_cut (x := y); subst y; rotate_left; clear_value y)
    | (intro y; first | apply canon_cutP (x := y) | apply canon_cutB1 (x := y) | apply canon_cutBN (x := y) | apply canon_cutBX (x := y) | apply canon_cutBS (x := y) | apply canon_cutBW (x := y)); (subst y; rotate_left; clear_value y)
    | (intro y; clear_value y)
    | intro y
    | with_reducible apply unsync_canon
    | with_reducible apply raise_canon
    | with_reducible apply incSat_canon
    | with_reducible apply releaseWrite_canon
    | with_reducible apply setRed_canon
    | (with_reducible apply Canon.regs; with_reducible assumption)
    | (with_reducible apply Canon.mem; with_reducible assumption)
    | (with_reducible apply Canon.regs)
    | (with_reducible apply Canon.mem)
    | (apply canon_fst; with_reducible assumption)
    | (apply canon_snd; with_reducible assumption)
    | with_reducible apply canon_ite
    | split
    | dsimp only
    | with_reducible apply canon_mk

/-! What an input does when it enters the domain keeps the form. -/

theorem enterCaptureEdge_canon {b : Blk} (hC : Canon b) (field : Bool) (c : Fin 8) : Canon (enterCaptureEdge field c b) :=
  doCaptureEdge_canon hC ..

theorem enterPeriodStart_canon {b : Blk} (hC : Canon b) (g : Fin 3) (imean : List Int) (vgrp : Int) : Canon (enterPeriodStart g imean vgrp b) :=
  gated_canon hC _ _ fun _ h => doPeriodStart_canon h ..

theorem enterDesatQualify_canon {b : Blk} (hC : Canon b) (g : Fin 3) (p : Fin 8) (low : Bool) : Canon (enterDesatQualify g p low b) :=
  gated_canon hC _ _ fun _ h => doDesat_canon h ..

theorem enterAvailReport_canon {b : Blk} (hC : Canon b) (pos : Fin 4) (r : Report) : Canon (enterAvailReport pos r b) :=
  gated_canon hC _ _ fun _ h => by split; exacts [storeReport_canon h .., h]

theorem enterGrantFrame_canon {b : Blk} (hC : Canon b) (f : GrantFrame) : Canon (enterGrantFrame f b) :=
  gated_canon hC _ _ fun _ h => doGrantFrame_canon h ..

theorem enterPlanFrame_canon {b : Blk} (hC : Canon b) (p : Plan) : Canon (enterPlanFrame p b) :=
  gated_canon hC _ _ fun _ h => doPlanFrame_canon h ..

theorem enterSliceReconcile_canon {b : Blk} (hC : Canon b) (stack : Fin 16) (orders : List (Nat × Order)) : Canon (enterSliceReconcile stack orders b) :=
  gated_canon hC _ _ fun _ h => doSlice_canon h ..

theorem enterOrderAccept_canon {b : Blk} (hC : Canon b) (m : OrderMsg) : Canon (enterOrderAccept m b) :=
  gated_canon hC _ _ fun _ h => doOrderAccept_canon h ..

theorem enterSubResult_canon {b : Blk} (hC : Canon b) (m : OrderMsg) (res : BitVec 3) (x : BookPlace) : Canon (enterSubResult m res x b) :=
  gated_canon hC _ _ fun _ h => doSubResult_canon h ..

theorem enterSwitchDieReport_canon {b : Blk} (hC : Canon b) (d : Fin 2) (vls : BitVec 16) (chans : List ChanRep) : Canon (enterSwitchDieReport d vls chans b) :=
  gated_canon hC _ _ fun _ h => doDieReport_canon h ..

theorem enterHkRoundStart_canon {b : Blk} (hC : Canon b) (reads : List (Nat × List Int)) (refDev : BitVec 16) : Canon (enterHkRoundStart reads refDev b) :=
  gated_canon hC _ _ fun _ h => doHkStart_canon h ..

theorem enterControlSample_canon {b : Blk} (hC : Canon b) (set : SensorSet) : Canon (enterControlSample set b) :=
  doControlSample_canon hC ..

theorem enterPlugInsert_canon {b : Blk} (hC : Canon b) (p : Fin 4) (mv : BitVec 16) : Canon (enterPlugInsert p mv b) :=
  gated_canon hC _ _ fun _ h => doPlugInsert_canon h ..

theorem enterPlugRemove_canon {b : Blk} (hC : Canon b) (p : Fin 4) (mv : BitVec 16) : Canon (enterPlugRemove p mv b) :=
  gated_canon hC _ _ fun _ h => doPlugRemove_canon h ..

theorem enterPlugFault_canon {b : Blk} (hC : Canon b) (p : Fin 4) (mv : BitVec 16) : Canon (enterPlugFault p mv b) :=
  gated_canon hC _ _ fun _ h => doPlugFault_canon h ..

theorem enterPilotChange_canon {b : Blk} (hC : Canon b) (p : Fin 4) (hi lo : BitVec 16) : Canon (enterPilotChange p hi lo b) :=
  gated_canon hC _ _ fun _ h => doPilot_canon h ..

theorem enterImdFault_canon {b : Blk} (hC : Canon b) (p : Fin 4) : Canon (enterImdFault p b) :=
  gated_canon hC _ _ fun _ h => doImd_canon h ..

theorem enterImdClear_canon {b : Blk} (hC : Canon b) (p : Fin 4) : Canon (enterImdClear p b) :=
  gated_canon hC _ _ fun _ h => doImd_canon h ..

theorem enterLockFeedbackChange_canon {b : Blk} (hC : Canon b) (p : Fin 4) (fb : Bool) : Canon (enterLockFeedbackChange p fb b) :=
  gated_canon hC _ _ fun _ h => by apply lockShow_canon; apply setVp_canon h

theorem enterSoundingFrame_canon {b : Blk} (hC : Canon b) (p : Fin 4) (att : List (BitVec 8)) : Canon (enterSoundingFrame p att b) :=
  gated_canon hC _ _ fun _ h => doSounding_canon h ..

theorem enterPlcJoined_canon {b : Blk} (hC : Canon b) (p : Fin 4) : Canon (enterPlcJoined p b) :=
  gated_canon hC _ _ fun _ h => doJoined_canon h ..

theorem enterT1sLinkChange_canon {b : Blk} (hC : Canon b) (p : Fin 4) (up : Bool) : Canon (enterT1sLinkChange p up b) :=
  gated_canon hC _ _ fun _ h => doT1sLink_canon h ..

theorem enterVehicleFrameRx_canon {b : Blk} (hC : Canon b) (p : Fin 4) (frame : List Byte) (cut : Bool) : Canon (enterVehicleFrameRx p frame cut b) :=
  gated_canon hC _ _ fun _ h => doVehicleRx_canon h ..

theorem enterButtonChange_canon {b : Blk} (hC : Canon b) (p : Fin 4) (k : Fin 2) (on : Bool) : Canon (enterButtonChange p k on b) :=
  gated_canon hC _ _ fun _ h => doButton_canon h ..

theorem enterLongPress_canon {b : Blk} (hC : Canon b) (p : Fin 4) (k : Fin 2) : Canon (enterLongPress p k b) :=
  gated_canon hC _ _ fun _ h => doLongPress_canon h ..

theorem enterTouchScan_canon {b : Blk} (hC : Canon b) (p : Fin 4) (raw : List (BitVec 16)) : Canon (enterTouchScan p raw b) :=
  gated_canon hC _ _ fun _ h => doTouchScan_canon h ..

theorem enterMainsZeroCross_canon {b : Blk} (hC : Canon b) (dev : BitVec 16) (half : BitVec 16) : Canon (enterMainsZeroCross dev half b) :=
  meshOp_canon hC _ fun _ h => doZeroCross_canon h ..

theorem enterMeshFrameRx_canon {b : Blk} (hC : Canon b) (f : MeshRx) : Canon (enterMeshFrameRx f b) :=
  meshOp_canon hC _ fun _ h => doMeshRx_canon h ..

theorem enterMeshAckRx_canon {b : Blk} (hC : Canon b) (a : MeshAck) : Canon (enterMeshAckRx a b) :=
  meshOp_canon hC _ fun _ h => doMeshAck_canon h ..

theorem enterMeshAckMissing_canon {b : Blk} (hC : Canon b) : Canon (enterMeshAckMissing b) :=
  meshOp_canon hC _ fun _ h => doMeshNoAck_canon h ..

theorem enterMapUpdateRx_canon {b : Blk} (hC : Canon b) (n : Fin 64) (k : Fin 6) (m : Fin 8) (rate : Bool) (codes : List (BitVec 3)) : Canon (enterMapUpdateRx n k m rate codes b) :=
  meshOp_canon hC _ fun _ h => doMapUpdate_canon h ..

theorem enterSessionOpen_canon {b : Blk} (hC : Canon b) : Canon (enterSessionOpen b) :=
  gated_canon hC _ _ fun _ h => takeMail_canon h _ _ _ fun _ _ h => doSessionOpen_canon h ..

theorem enterSessionClose_canon {b : Blk} (hC : Canon b) : Canon (enterSessionClose b) :=
  gated_canon hC _ _ fun _ h => takeMail_canon h _ _ _ fun _ _ h => doSessionClose_canon h ..

theorem enterGridLimit_canon {b : Blk} (hC : Canon b) : Canon (enterGridLimit b) :=
  gated_canon hC _ _ fun _ h => takeMail_canon h _ _ _ fun _ _ h => doGridLimit_canon h ..

theorem enterReplay_canon {b : Blk} (hC : Canon b) : Canon (enterReplay b) :=
  gated_canon hC _ _ fun _ h => takeMail_canon h _ _ _ fun _ _ h => doReplay_canon h ..

theorem enterSetContract_canon {b : Blk} (hC : Canon b) : Canon (enterSetContract b) :=
  gated_canon hC _ _ fun _ h => takeMail_canon h _ _ _ fun _ _ h => doSetContract_canon h ..

theorem enterBillingReset_canon {b : Blk} (hC : Canon b) : Canon (enterBillingReset b) :=
  gated_canon hC _ _ fun _ h => takeMail_canon h _ _ _ fun _ _ h => doBillingReset_canon h ..

theorem enterCalLoad_canon {b : Blk} (hC : Canon b) : Canon (enterCalLoad b) :=
  gated_canon hC _ _ fun _ h => takeMail_canon h _ _ _ fun _ _ h => doCalLoad_canon h ..

theorem enterCalActivate_canon {b : Blk} (hC : Canon b) : Canon (enterCalActivate b) :=
  gated_canon hC _ _ fun _ h => takeMail_canon h _ _ _ fun _ _ h => doCalActivate_canon h ..

theorem enterZoneSet_canon {b : Blk} (hC : Canon b) : Canon (enterZoneSet b) :=
  gated_canon hC _ _ fun _ h => takeMail_canon h _ _ _ fun _ _ h => doZoneSet_canon h ..

theorem enterAckTamper_canon {b : Blk} (hC : Canon b) : Canon (enterAckTamper b) :=
  gated_canon hC _ _ fun _ h => takeMail_canon h _ _ _ fun _ _ h => doAckTamper_canon h ..

theorem enterSeal_canon {b : Blk} (hC : Canon b) : Canon (enterSeal b) :=
  gated_canon hC _ _ fun _ h => takeMail_canon h _ _ _ fun _ _ h => doSeal_canon h ..

theorem enterUnseal_canon {b : Blk} (hC : Canon b) : Canon (enterUnseal b) :=
  gated_canon hC _ _ fun _ h => takeMail_canon h _ _ _ fun _ _ h => doUnseal_canon h ..

theorem enterHandover_canon {b : Blk} (hC : Canon b) (t : Fin 16) (h : HandItem) : Canon (enterHandover t h b) :=
  gated_canon hC _ _ fun _ h => doHandover_canon h ..

theorem enterMetrologySample_canon {b : Blk} (hC : Canon b) (set : SensorSet) : Canon (enterMetrologySample set b) :=
  gated_canon hC _ _ fun _ h => doMetrologySample_canon h ..

theorem enterMainsCycleEnd_canon {b : Blk} (hC : Canon b) (x : CycleEnd) : Canon (enterMainsCycleEnd x b) :=
  gated_canon hC _ _ fun _ h => doMainsCycleEnd_canon h ..

theorem enterTamperEvent_canon {b : Blk} (hC : Canon b) (term open' : Bool) : Canon (enterTamperEvent term open' b) :=
  doTamper_canon hC ..

theorem enterBid_canon {b : Blk} (hC : Canon b) (x : BidData) : Canon (enterBid x b) :=
  by
  unfold enterBid
  generalize bidFrom x.frame x.lims x.noGrant.toNat x.absent.toNat = bd
  exact gated_canon hC _ _ fun _ h => by split; exacts [storeBid_canon h .., h]

theorem enterGroupCommand_canon {b : Blk} (hC : Canon b) (cycle : BitVec 32) (trunk : Fin 16) (mask : BitVec 12) (refs : List (BitVec 16)) (owner : Fin 4) : Canon (enterGroupCommand cycle trunk mask refs owner b) :=
  doGroupCommand_canon hC ..

theorem enterMeasurementFrame_canon {b : Blk} (hC : Canon b) (t : Fin 16) (cycle : BitVec 32) (v i word : BitVec 16) : Canon (enterMeasurementFrame t cycle v i word b) :=
  gated_canon hC _ _ fun _ h => doMeasFrame_canon h ..

theorem enterPlcFrame_canon {b : Blk} (hC : Canon b) (p : Fin 4) (frame : List Byte) : Canon (enterPlcFrame p frame b) :=
  doVehicleFrame_canon hC ..

theorem enterT1sFrame_canon {b : Blk} (hC : Canon b) (p : Fin 4) (frame : List Byte) : Canon (enterT1sFrame p frame b) :=
  doVehicleFrame_canon hC ..

theorem enterMeshFrame_canon {b : Blk} (hC : Canon b) (peer prio : Byte) (msdu : List Byte) : Canon (enterMeshFrame peer prio msdu b) :=
  doMeshFrame_canon hC ..

/-- Whatever input enters the domain, the form is kept. -/
theorem enterInput_canon {b : Blk} (hC : Canon b) : ∀ i : Input, Canon (enterInput i b)
  | .captureEdge _ _ => enterCaptureEdge_canon hC ..
  | .periodStart _ _ _ => enterPeriodStart_canon hC ..
  | .desatQualify _ _ _ => enterDesatQualify_canon hC ..
  | .availReport _ _ => enterAvailReport_canon hC ..
  | .grantFrame _ => enterGrantFrame_canon hC ..
  | .planFrame _ => enterPlanFrame_canon hC ..
  | .sliceReconcile _ _ => enterSliceReconcile_canon hC ..
  | .orderAccept _ => enterOrderAccept_canon hC ..
  | .subResult _ _ _ => enterSubResult_canon hC ..
  | .switchDieReport _ _ _ => enterSwitchDieReport_canon hC ..
  | .hkRoundStart _ _ => enterHkRoundStart_canon hC ..
  | .controlSample _ => enterControlSample_canon hC ..
  | .plugInsert _ _ => enterPlugInsert_canon hC ..
  | .plugRemove _ _ => enterPlugRemove_canon hC ..
  | .plugFault _ _ => enterPlugFault_canon hC ..
  | .pilotChange _ _ _ => enterPilotChange_canon hC ..
  | .imdFault _ => enterImdFault_canon hC ..
  | .imdClear _ => enterImdClear_canon hC ..
  | .lockFeedbackChange _ _ => enterLockFeedbackChange_canon hC ..
  | .soundingFrame _ _ => enterSoundingFrame_canon hC ..
  | .plcJoined _ => enterPlcJoined_canon hC ..
  | .t1sLinkChange _ _ => enterT1sLinkChange_canon hC ..
  | .vehicleFrameRx _ _ _ => enterVehicleFrameRx_canon hC ..
  | .buttonChange _ _ _ => enterButtonChange_canon hC ..
  | .longPress _ _ => enterLongPress_canon hC ..
  | .touchScan _ _ => enterTouchScan_canon hC ..
  | .mainsZeroCross _ _ => enterMainsZeroCross_canon hC ..
  | .meshFrameRx _ => enterMeshFrameRx_canon hC ..
  | .meshAckRx _ => enterMeshAckRx_canon hC ..
  | .meshAckMissing => enterMeshAckMissing_canon hC ..
  | .mapUpdateRx _ _ _ _ _ => enterMapUpdateRx_canon hC ..
  | .sessionOpen => enterSessionOpen_canon hC ..
  | .sessionClose => enterSessionClose_canon hC ..
  | .gridLimit => enterGridLimit_canon hC ..
  | .replay => enterReplay_canon hC ..
  | .setContract => enterSetContract_canon hC ..
  | .billingReset => enterBillingReset_canon hC ..
  | .calLoad => enterCalLoad_canon hC ..
  | .calActivate => enterCalActivate_canon hC ..
  | .zoneSet => enterZoneSet_canon hC ..
  | .ackTamper => enterAckTamper_canon hC ..
  | .seal => enterSeal_canon hC ..
  | .unseal => enterUnseal_canon hC ..
  | .handover _ _ => enterHandover_canon hC ..
  | .metrologySample _ => enterMetrologySample_canon hC ..
  | .mainsCycleEnd _ => enterMainsCycleEnd_canon hC ..
  | .tamperEvent _ _ => enterTamperEvent_canon hC ..
  | .bid _ => enterBid_canon hC ..
  | .groupCommand _ _ _ _ _ => enterGroupCommand_canon hC ..
  | .measurementFrame _ _ _ _ _ => enterMeasurementFrame_canon hC ..
  | .plcFrame _ _ => enterPlcFrame_canon hC ..
  | .t1sFrame _ _ => enterT1sFrame_canon hC ..
  | .meshFrame _ _ _ => enterMeshFrame_canon hC ..

theorem releaseTicket_canon {b : Blk} (hC : Canon b) (t : Ticket) :
    Canon (releaseTicket t b) := by
  have h : Canon (if isActive b then b else incWrap b RED.TKT_STAT.TICKETS) := by
    split
    · exact hC
    · apply incWrap_canon hC
  unfold releaseTicket
  generalize (if isActive b then b else incWrap b RED.TKT_STAT.TICKETS) = x at h ⊢
  dsimp only
  split
  · exact enterInput_canon h _
  · split
    · exact releaseMatched_canon h _
    · split
      · apply srmAdopt_canon h
      · exact h
    · apply compareDigest_canon h
    · exact h

theorem applyUnmatched_canon {b : Blk} (hC : Canon b) :
    Canon (applyUnmatched b) := by
  unfold applyUnmatched; try lift_lets -merge
  repeat' first
    | with_reducible assumption
    | (intro y; apply canon_cut (x := y); subst y; rotate_left; clear_value y)
    | (intro y; first | apply canon_cutP (x := y) | apply canon_cutB1 (x := y) | apply canon_cutBN (x := y) | apply canon_cutBX (x := y) | apply canon_cutBS (x := y) | apply canon_cutBW (x := y)); (subst y; rotate_left; clear_value y)
    | (intro y; clear_value y)
    | intro y
    | with_reducible refine forEach_canon ?_ ?_ _
    | with_reducible apply releaseWrite_canon
    | with_reducible apply setRed_canon
    | (with_reducible apply Canon.regs; with_reducible assumption)
    | (with_reducible apply Canon.mem; with_reducible assumption)
    | (with_reducible apply Canon.regs)
    | (with_reducible apply Canon.mem)
    | (apply canon_fst; with_reducible assumption)
    | (apply canon_snd; with_reducible assumption)
    | with_reducible apply canon_ite
    | split
    | dsimp only
    | with_reducible apply canon_mk

theorem doTick_canon {b : Blk} (hC : Canon b) (differs : Bool) (peer : Option Bool) :
    Canon (doTick differs peer b) := by
  unfold doTick; try lift_lets -merge
  repeat' first
    | with_reducible assumption
    | (intro y; apply canon_cut (x := y); subst y; rotate_left; clear_value y)
    | (intro y; first | apply canon_cutP (x := y) | apply canon_cutB1 (x := y) | apply canon_cutBN (x := y) | apply canon_cutBX (x := y) | apply canon_cutBS (x := y) | apply canon_cutBW (x := y)); (subst y; rotate_left; clear_value y)
    | (intro y; clear_value y)
    | intro y
    | with_reducible apply sealParity_canon
    | with_reducible apply setRed_canon
    | with_reducible refine forEach_canon ?_ ?_ _
    | with_reducible apply releaseWrite_canon
    | with_reducible apply releaseTicket_canon
    | with_reducible apply unsync_canon
    | with_reducible apply raise_canon
    | with_reducible apply applyUnmatched_canon
    | (with_reducible apply Canon.regs; with_reducible assumption)
    | (with_reducible apply Canon.mem; with_reducible assumption)
    | (with_reducible apply Canon.regs)
    | (with_reducible apply Canon.mem)
    | (apply canon_fst; with_reducible assumption)
    | (apply canon_snd; with_reducible assumption)
    | with_reducible apply canon_ite
    | split
    | dsimp only
    | with_reducible apply canon_mk

end Sys2Proof.Machine
end

