-- ==== Sys2Proof/Laws/State.lean ====
section
/-!
SUPPORT. What the named operations leave of a block, field by field: a register write changes the registers alone, an answer
or a message the outputs alone, a stored byte the memory alone, an event the registers and the outputs alone.
-/

namespace Sys2Proof.Machine

variable (b : Blk)

/-! `setWord`. -/

@[simp] theorem setWord_mem (a : Nat) (w : Word) : (setWord b a w).mem = b.mem := by rw [setWord]
@[simp] theorem setWord_io (a : Nat) (w : Word) : (setWord b a w).io = b.io := by rw [setWord]
@[simp] theorem setWord_acc (a : Nat) (w : Word) : (setWord b a w).acc = b.acc := by rw [setWord]
@[simp] theorem setWord_memory (a : Nat) (w : Word) : (setWord b a w).memory = b.memory := by rw [setWord]
@[simp] theorem setWord_factor (a : Nat) (w : Word) : (setWord b a w).factor = b.factor := by rw [setWord]
@[simp] theorem setWord_trunk (a : Nat) (w : Word) : (setWord b a w).trunk = b.trunk := by rw [setWord]
@[simp] theorem setWord_mod0 (a : Nat) (w : Word) : (setWord b a w).mod0 = b.mod0 := by rw [setWord]
@[simp] theorem setWord_mod1 (a : Nat) (w : Word) : (setWord b a w).mod1 = b.mod1 := by rw [setWord]
@[simp] theorem setWord_mod2 (a : Nat) (w : Word) : (setWord b a w).mod2 = b.mod2 := by rw [setWord]
@[simp] theorem setWord_ce (a : Nat) (w : Word) : (setWord b a w).ce = b.ce := by rw [setWord]
@[simp] theorem setWord_met (a : Nat) (w : Word) : (setWord b a w).met = b.met := by rw [setWord]
@[simp] theorem setWord_time (a : Nat) (w : Word) : (setWord b a w).time = b.time := by rw [setWord]
@[simp] theorem setWord_house (a : Nat) (w : Word) : (setWord b a w).house = b.house := by rw [setWord]
@[simp] theorem setWord_vp (a : Nat) (w : Word) : (setWord b a w).vp = b.vp := by rw [setWord]
@[simp] theorem setWord_mesh (a : Nat) (w : Word) : (setWord b a w).mesh = b.mesh := by rw [setWord]
@[simp] theorem setWord_lanes (a : Nat) (w : Word) : (setWord b a w).lanes = b.lanes := by rw [setWord]
@[simp] theorem setWord_red (a : Nat) (w : Word) : (setWord b a w).red = b.red := by rw [setWord]
@[simp] theorem setWord_lsw (a : Nat) (w : Word) : (setWord b a w).lsw = b.lsw := by rw [setWord]
@[simp] theorem setWord_thm (a : Nat) (w : Word) : (setWord b a w).thm = b.thm := by rw [setWord]
@[simp] theorem setWord_srm (a : Nat) (w : Word) : (setWord b a w).srm = b.srm := by rw [setWord]
@[simp] theorem setWord_daybook (a : Nat) (w : Word) : (setWord b a w).daybook = b.daybook := by rw [setWord]
@[simp] theorem setWord_bar (a : Nat) (w : Word) : (setWord b a w).bar = b.bar := by rw [setWord]
@[simp] theorem setWord_events (a : Nat) (w : Word) : (setWord b a w).events = b.events := by rw [setWord]
@[simp] theorem setWord_boot (a : Nat) (w : Word) : (setWord b a w).boot = b.boot := by rw [setWord]

/-! `wr`. -/

@[simp] theorem wr_mem (F : Fld) (v : Nat) : (wr b F v).mem = b.mem := setWord_mem b F.a _
@[simp] theorem wr_io (F : Fld) (v : Nat) : (wr b F v).io = b.io := setWord_io b F.a _
@[simp] theorem wr_acc (F : Fld) (v : Nat) : (wr b F v).acc = b.acc := setWord_acc b F.a _
@[simp] theorem wr_memory (F : Fld) (v : Nat) : (wr b F v).memory = b.memory := setWord_memory b F.a _
@[simp] theorem wr_factor (F : Fld) (v : Nat) : (wr b F v).factor = b.factor := setWord_factor b F.a _
@[simp] theorem wr_trunk (F : Fld) (v : Nat) : (wr b F v).trunk = b.trunk := setWord_trunk b F.a _
@[simp] theorem wr_mod0 (F : Fld) (v : Nat) : (wr b F v).mod0 = b.mod0 := setWord_mod0 b F.a _
@[simp] theorem wr_mod1 (F : Fld) (v : Nat) : (wr b F v).mod1 = b.mod1 := setWord_mod1 b F.a _
@[simp] theorem wr_mod2 (F : Fld) (v : Nat) : (wr b F v).mod2 = b.mod2 := setWord_mod2 b F.a _
@[simp] theorem wr_ce (F : Fld) (v : Nat) : (wr b F v).ce = b.ce := setWord_ce b F.a _
@[simp] theorem wr_met (F : Fld) (v : Nat) : (wr b F v).met = b.met := setWord_met b F.a _
@[simp] theorem wr_time (F : Fld) (v : Nat) : (wr b F v).time = b.time := setWord_time b F.a _
@[simp] theorem wr_house (F : Fld) (v : Nat) : (wr b F v).house = b.house := setWord_house b F.a _
@[simp] theorem wr_vp (F : Fld) (v : Nat) : (wr b F v).vp = b.vp := setWord_vp b F.a _
@[simp] theorem wr_mesh (F : Fld) (v : Nat) : (wr b F v).mesh = b.mesh := setWord_mesh b F.a _
@[simp] theorem wr_lanes (F : Fld) (v : Nat) : (wr b F v).lanes = b.lanes := setWord_lanes b F.a _
@[simp] theorem wr_red (F : Fld) (v : Nat) : (wr b F v).red = b.red := setWord_red b F.a _
@[simp] theorem wr_lsw (F : Fld) (v : Nat) : (wr b F v).lsw = b.lsw := setWord_lsw b F.a _
@[simp] theorem wr_thm (F : Fld) (v : Nat) : (wr b F v).thm = b.thm := setWord_thm b F.a _
@[simp] theorem wr_srm (F : Fld) (v : Nat) : (wr b F v).srm = b.srm := setWord_srm b F.a _
@[simp] theorem wr_daybook (F : Fld) (v : Nat) : (wr b F v).daybook = b.daybook := setWord_daybook b F.a _
@[simp] theorem wr_bar (F : Fld) (v : Nat) : (wr b F v).bar = b.bar := setWord_bar b F.a _
@[simp] theorem wr_events (F : Fld) (v : Nat) : (wr b F v).events = b.events := setWord_events b F.a _
@[simp] theorem wr_boot (F : Fld) (v : Nat) : (wr b F v).boot = b.boot := setWord_boot b F.a _

/-! `wrB`. -/

@[simp] theorem wrB_mem (F : Fld) (v : Bool) : (wrB b F v).mem = b.mem := wr_mem b F _
@[simp] theorem wrB_io (F : Fld) (v : Bool) : (wrB b F v).io = b.io := wr_io b F _
@[simp] theorem wrB_acc (F : Fld) (v : Bool) : (wrB b F v).acc = b.acc := wr_acc b F _
@[simp] theorem wrB_memory (F : Fld) (v : Bool) : (wrB b F v).memory = b.memory := wr_memory b F _
@[simp] theorem wrB_factor (F : Fld) (v : Bool) : (wrB b F v).factor = b.factor := wr_factor b F _
@[simp] theorem wrB_trunk (F : Fld) (v : Bool) : (wrB b F v).trunk = b.trunk := wr_trunk b F _
@[simp] theorem wrB_mod0 (F : Fld) (v : Bool) : (wrB b F v).mod0 = b.mod0 := wr_mod0 b F _
@[simp] theorem wrB_mod1 (F : Fld) (v : Bool) : (wrB b F v).mod1 = b.mod1 := wr_mod1 b F _
@[simp] theorem wrB_mod2 (F : Fld) (v : Bool) : (wrB b F v).mod2 = b.mod2 := wr_mod2 b F _
@[simp] theorem wrB_ce (F : Fld) (v : Bool) : (wrB b F v).ce = b.ce := wr_ce b F _
@[simp] theorem wrB_met (F : Fld) (v : Bool) : (wrB b F v).met = b.met := wr_met b F _
@[simp] theorem wrB_time (F : Fld) (v : Bool) : (wrB b F v).time = b.time := wr_time b F _
@[simp] theorem wrB_house (F : Fld) (v : Bool) : (wrB b F v).house = b.house := wr_house b F _
@[simp] theorem wrB_vp (F : Fld) (v : Bool) : (wrB b F v).vp = b.vp := wr_vp b F _
@[simp] theorem wrB_mesh (F : Fld) (v : Bool) : (wrB b F v).mesh = b.mesh := wr_mesh b F _
@[simp] theorem wrB_lanes (F : Fld) (v : Bool) : (wrB b F v).lanes = b.lanes := wr_lanes b F _
@[simp] theorem wrB_red (F : Fld) (v : Bool) : (wrB b F v).red = b.red := wr_red b F _
@[simp] theorem wrB_lsw (F : Fld) (v : Bool) : (wrB b F v).lsw = b.lsw := wr_lsw b F _
@[simp] theorem wrB_thm (F : Fld) (v : Bool) : (wrB b F v).thm = b.thm := wr_thm b F _
@[simp] theorem wrB_srm (F : Fld) (v : Bool) : (wrB b F v).srm = b.srm := wr_srm b F _
@[simp] theorem wrB_daybook (F : Fld) (v : Bool) : (wrB b F v).daybook = b.daybook := wr_daybook b F _
@[simp] theorem wrB_bar (F : Fld) (v : Bool) : (wrB b F v).bar = b.bar := wr_bar b F _
@[simp] theorem wrB_events (F : Fld) (v : Bool) : (wrB b F v).events = b.events := wr_events b F _
@[simp] theorem wrB_boot (F : Fld) (v : Bool) : (wrB b F v).boot = b.boot := wr_boot b F _

/-! `wrI`. -/

@[simp] theorem wrI_mem (F : Fld) (v : Int) : (wrI b F v).mem = b.mem := wr_mem b F _
@[simp] theorem wrI_io (F : Fld) (v : Int) : (wrI b F v).io = b.io := wr_io b F _
@[simp] theorem wrI_acc (F : Fld) (v : Int) : (wrI b F v).acc = b.acc := wr_acc b F _
@[simp] theorem wrI_memory (F : Fld) (v : Int) : (wrI b F v).memory = b.memory := wr_memory b F _
@[simp] theorem wrI_factor (F : Fld) (v : Int) : (wrI b F v).factor = b.factor := wr_factor b F _
@[simp] theorem wrI_trunk (F : Fld) (v : Int) : (wrI b F v).trunk = b.trunk := wr_trunk b F _
@[simp] theorem wrI_mod0 (F : Fld) (v : Int) : (wrI b F v).mod0 = b.mod0 := wr_mod0 b F _
@[simp] theorem wrI_mod1 (F : Fld) (v : Int) : (wrI b F v).mod1 = b.mod1 := wr_mod1 b F _
@[simp] theorem wrI_mod2 (F : Fld) (v : Int) : (wrI b F v).mod2 = b.mod2 := wr_mod2 b F _
@[simp] theorem wrI_ce (F : Fld) (v : Int) : (wrI b F v).ce = b.ce := wr_ce b F _
@[simp] theorem wrI_met (F : Fld) (v : Int) : (wrI b F v).met = b.met := wr_met b F _
@[simp] theorem wrI_time (F : Fld) (v : Int) : (wrI b F v).time = b.time := wr_time b F _
@[simp] theorem wrI_house (F : Fld) (v : Int) : (wrI b F v).house = b.house := wr_house b F _
@[simp] theorem wrI_vp (F : Fld) (v : Int) : (wrI b F v).vp = b.vp := wr_vp b F _
@[simp] theorem wrI_mesh (F : Fld) (v : Int) : (wrI b F v).mesh = b.mesh := wr_mesh b F _
@[simp] theorem wrI_lanes (F : Fld) (v : Int) : (wrI b F v).lanes = b.lanes := wr_lanes b F _
@[simp] theorem wrI_red (F : Fld) (v : Int) : (wrI b F v).red = b.red := wr_red b F _
@[simp] theorem wrI_lsw (F : Fld) (v : Int) : (wrI b F v).lsw = b.lsw := wr_lsw b F _
@[simp] theorem wrI_thm (F : Fld) (v : Int) : (wrI b F v).thm = b.thm := wr_thm b F _
@[simp] theorem wrI_srm (F : Fld) (v : Int) : (wrI b F v).srm = b.srm := wr_srm b F _
@[simp] theorem wrI_daybook (F : Fld) (v : Int) : (wrI b F v).daybook = b.daybook := wr_daybook b F _
@[simp] theorem wrI_bar (F : Fld) (v : Int) : (wrI b F v).bar = b.bar := wr_bar b F _
@[simp] theorem wrI_events (F : Fld) (v : Int) : (wrI b F v).events = b.events := wr_events b F _
@[simp] theorem wrI_boot (F : Fld) (v : Int) : (wrI b F v).boot = b.boot := wr_boot b F _

/-! `wrS`. -/

@[simp] theorem wrS_mem (F : Fld) (v : Int) : (wrS b F v).mem = b.mem := wr_mem b F _
@[simp] theorem wrS_io (F : Fld) (v : Int) : (wrS b F v).io = b.io := wr_io b F _
@[simp] theorem wrS_acc (F : Fld) (v : Int) : (wrS b F v).acc = b.acc := wr_acc b F _
@[simp] theorem wrS_memory (F : Fld) (v : Int) : (wrS b F v).memory = b.memory := wr_memory b F _
@[simp] theorem wrS_factor (F : Fld) (v : Int) : (wrS b F v).factor = b.factor := wr_factor b F _
@[simp] theorem wrS_trunk (F : Fld) (v : Int) : (wrS b F v).trunk = b.trunk := wr_trunk b F _
@[simp] theorem wrS_mod0 (F : Fld) (v : Int) : (wrS b F v).mod0 = b.mod0 := wr_mod0 b F _
@[simp] theorem wrS_mod1 (F : Fld) (v : Int) : (wrS b F v).mod1 = b.mod1 := wr_mod1 b F _
@[simp] theorem wrS_mod2 (F : Fld) (v : Int) : (wrS b F v).mod2 = b.mod2 := wr_mod2 b F _
@[simp] theorem wrS_ce (F : Fld) (v : Int) : (wrS b F v).ce = b.ce := wr_ce b F _
@[simp] theorem wrS_met (F : Fld) (v : Int) : (wrS b F v).met = b.met := wr_met b F _
@[simp] theorem wrS_time (F : Fld) (v : Int) : (wrS b F v).time = b.time := wr_time b F _
@[simp] theorem wrS_house (F : Fld) (v : Int) : (wrS b F v).house = b.house := wr_house b F _
@[simp] theorem wrS_vp (F : Fld) (v : Int) : (wrS b F v).vp = b.vp := wr_vp b F _
@[simp] theorem wrS_mesh (F : Fld) (v : Int) : (wrS b F v).mesh = b.mesh := wr_mesh b F _
@[simp] theorem wrS_lanes (F : Fld) (v : Int) : (wrS b F v).lanes = b.lanes := wr_lanes b F _
@[simp] theorem wrS_red (F : Fld) (v : Int) : (wrS b F v).red = b.red := wr_red b F _
@[simp] theorem wrS_lsw (F : Fld) (v : Int) : (wrS b F v).lsw = b.lsw := wr_lsw b F _
@[simp] theorem wrS_thm (F : Fld) (v : Int) : (wrS b F v).thm = b.thm := wr_thm b F _
@[simp] theorem wrS_srm (F : Fld) (v : Int) : (wrS b F v).srm = b.srm := wr_srm b F _
@[simp] theorem wrS_daybook (F : Fld) (v : Int) : (wrS b F v).daybook = b.daybook := wr_daybook b F _
@[simp] theorem wrS_bar (F : Fld) (v : Int) : (wrS b F v).bar = b.bar := wr_bar b F _
@[simp] theorem wrS_events (F : Fld) (v : Int) : (wrS b F v).events = b.events := wr_events b F _
@[simp] theorem wrS_boot (F : Fld) (v : Int) : (wrS b F v).boot = b.boot := wr_boot b F _

/-! `wrU`. -/

@[simp] theorem wrU_mem (F : Fld) (v : Nat) : (wrU b F v).mem = b.mem := wr_mem b F _
@[simp] theorem wrU_io (F : Fld) (v : Nat) : (wrU b F v).io = b.io := wr_io b F _
@[simp] theorem wrU_acc (F : Fld) (v : Nat) : (wrU b F v).acc = b.acc := wr_acc b F _
@[simp] theorem wrU_memory (F : Fld) (v : Nat) : (wrU b F v).memory = b.memory := wr_memory b F _
@[simp] theorem wrU_factor (F : Fld) (v : Nat) : (wrU b F v).factor = b.factor := wr_factor b F _
@[simp] theorem wrU_trunk (F : Fld) (v : Nat) : (wrU b F v).trunk = b.trunk := wr_trunk b F _
@[simp] theorem wrU_mod0 (F : Fld) (v : Nat) : (wrU b F v).mod0 = b.mod0 := wr_mod0 b F _
@[simp] theorem wrU_mod1 (F : Fld) (v : Nat) : (wrU b F v).mod1 = b.mod1 := wr_mod1 b F _
@[simp] theorem wrU_mod2 (F : Fld) (v : Nat) : (wrU b F v).mod2 = b.mod2 := wr_mod2 b F _
@[simp] theorem wrU_ce (F : Fld) (v : Nat) : (wrU b F v).ce = b.ce := wr_ce b F _
@[simp] theorem wrU_met (F : Fld) (v : Nat) : (wrU b F v).met = b.met := wr_met b F _
@[simp] theorem wrU_time (F : Fld) (v : Nat) : (wrU b F v).time = b.time := wr_time b F _
@[simp] theorem wrU_house (F : Fld) (v : Nat) : (wrU b F v).house = b.house := wr_house b F _
@[simp] theorem wrU_vp (F : Fld) (v : Nat) : (wrU b F v).vp = b.vp := wr_vp b F _
@[simp] theorem wrU_mesh (F : Fld) (v : Nat) : (wrU b F v).mesh = b.mesh := wr_mesh b F _
@[simp] theorem wrU_lanes (F : Fld) (v : Nat) : (wrU b F v).lanes = b.lanes := wr_lanes b F _
@[simp] theorem wrU_red (F : Fld) (v : Nat) : (wrU b F v).red = b.red := wr_red b F _
@[simp] theorem wrU_lsw (F : Fld) (v : Nat) : (wrU b F v).lsw = b.lsw := wr_lsw b F _
@[simp] theorem wrU_thm (F : Fld) (v : Nat) : (wrU b F v).thm = b.thm := wr_thm b F _
@[simp] theorem wrU_srm (F : Fld) (v : Nat) : (wrU b F v).srm = b.srm := wr_srm b F _
@[simp] theorem wrU_daybook (F : Fld) (v : Nat) : (wrU b F v).daybook = b.daybook := wr_daybook b F _
@[simp] theorem wrU_bar (F : Fld) (v : Nat) : (wrU b F v).bar = b.bar := wr_bar b F _
@[simp] theorem wrU_events (F : Fld) (v : Nat) : (wrU b F v).events = b.events := wr_events b F _
@[simp] theorem wrU_boot (F : Fld) (v : Nat) : (wrU b F v).boot = b.boot := wr_boot b F _

/-! `incSat`. -/

@[simp] theorem incSat_mem (F : Fld) (n : Nat) : (incSat b F n).mem = b.mem := wr_mem b F _
@[simp] theorem incSat_io (F : Fld) (n : Nat) : (incSat b F n).io = b.io := wr_io b F _
@[simp] theorem incSat_acc (F : Fld) (n : Nat) : (incSat b F n).acc = b.acc := wr_acc b F _
@[simp] theorem incSat_memory (F : Fld) (n : Nat) : (incSat b F n).memory = b.memory := wr_memory b F _
@[simp] theorem incSat_factor (F : Fld) (n : Nat) : (incSat b F n).factor = b.factor := wr_factor b F _
@[simp] theorem incSat_trunk (F : Fld) (n : Nat) : (incSat b F n).trunk = b.trunk := wr_trunk b F _
@[simp] theorem incSat_mod0 (F : Fld) (n : Nat) : (incSat b F n).mod0 = b.mod0 := wr_mod0 b F _
@[simp] theorem incSat_mod1 (F : Fld) (n : Nat) : (incSat b F n).mod1 = b.mod1 := wr_mod1 b F _
@[simp] theorem incSat_mod2 (F : Fld) (n : Nat) : (incSat b F n).mod2 = b.mod2 := wr_mod2 b F _
@[simp] theorem incSat_ce (F : Fld) (n : Nat) : (incSat b F n).ce = b.ce := wr_ce b F _
@[simp] theorem incSat_met (F : Fld) (n : Nat) : (incSat b F n).met = b.met := wr_met b F _
@[simp] theorem incSat_time (F : Fld) (n : Nat) : (incSat b F n).time = b.time := wr_time b F _
@[simp] theorem incSat_house (F : Fld) (n : Nat) : (incSat b F n).house = b.house := wr_house b F _
@[simp] theorem incSat_vp (F : Fld) (n : Nat) : (incSat b F n).vp = b.vp := wr_vp b F _
@[simp] theorem incSat_mesh (F : Fld) (n : Nat) : (incSat b F n).mesh = b.mesh := wr_mesh b F _
@[simp] theorem incSat_lanes (F : Fld) (n : Nat) : (incSat b F n).lanes = b.lanes := wr_lanes b F _
@[simp] theorem incSat_red (F : Fld) (n : Nat) : (incSat b F n).red = b.red := wr_red b F _
@[simp] theorem incSat_lsw (F : Fld) (n : Nat) : (incSat b F n).lsw = b.lsw := wr_lsw b F _
@[simp] theorem incSat_thm (F : Fld) (n : Nat) : (incSat b F n).thm = b.thm := wr_thm b F _
@[simp] theorem incSat_srm (F : Fld) (n : Nat) : (incSat b F n).srm = b.srm := wr_srm b F _
@[simp] theorem incSat_daybook (F : Fld) (n : Nat) : (incSat b F n).daybook = b.daybook := wr_daybook b F _
@[simp] theorem incSat_bar (F : Fld) (n : Nat) : (incSat b F n).bar = b.bar := wr_bar b F _
@[simp] theorem incSat_events (F : Fld) (n : Nat) : (incSat b F n).events = b.events := wr_events b F _
@[simp] theorem incSat_boot (F : Fld) (n : Nat) : (incSat b F n).boot = b.boot := wr_boot b F _

/-! `incWrap`. -/

@[simp] theorem incWrap_mem (F : Fld) (n : Nat) : (incWrap b F n).mem = b.mem := wr_mem b F _
@[simp] theorem incWrap_io (F : Fld) (n : Nat) : (incWrap b F n).io = b.io := wr_io b F _
@[simp] theorem incWrap_acc (F : Fld) (n : Nat) : (incWrap b F n).acc = b.acc := wr_acc b F _
@[simp] theorem incWrap_memory (F : Fld) (n : Nat) : (incWrap b F n).memory = b.memory := wr_memory b F _
@[simp] theorem incWrap_factor (F : Fld) (n : Nat) : (incWrap b F n).factor = b.factor := wr_factor b F _
@[simp] theorem incWrap_trunk (F : Fld) (n : Nat) : (incWrap b F n).trunk = b.trunk := wr_trunk b F _
@[simp] theorem incWrap_mod0 (F : Fld) (n : Nat) : (incWrap b F n).mod0 = b.mod0 := wr_mod0 b F _
@[simp] theorem incWrap_mod1 (F : Fld) (n : Nat) : (incWrap b F n).mod1 = b.mod1 := wr_mod1 b F _
@[simp] theorem incWrap_mod2 (F : Fld) (n : Nat) : (incWrap b F n).mod2 = b.mod2 := wr_mod2 b F _
@[simp] theorem incWrap_ce (F : Fld) (n : Nat) : (incWrap b F n).ce = b.ce := wr_ce b F _
@[simp] theorem incWrap_met (F : Fld) (n : Nat) : (incWrap b F n).met = b.met := wr_met b F _
@[simp] theorem incWrap_time (F : Fld) (n : Nat) : (incWrap b F n).time = b.time := wr_time b F _
@[simp] theorem incWrap_house (F : Fld) (n : Nat) : (incWrap b F n).house = b.house := wr_house b F _
@[simp] theorem incWrap_vp (F : Fld) (n : Nat) : (incWrap b F n).vp = b.vp := wr_vp b F _
@[simp] theorem incWrap_mesh (F : Fld) (n : Nat) : (incWrap b F n).mesh = b.mesh := wr_mesh b F _
@[simp] theorem incWrap_lanes (F : Fld) (n : Nat) : (incWrap b F n).lanes = b.lanes := wr_lanes b F _
@[simp] theorem incWrap_red (F : Fld) (n : Nat) : (incWrap b F n).red = b.red := wr_red b F _
@[simp] theorem incWrap_lsw (F : Fld) (n : Nat) : (incWrap b F n).lsw = b.lsw := wr_lsw b F _
@[simp] theorem incWrap_thm (F : Fld) (n : Nat) : (incWrap b F n).thm = b.thm := wr_thm b F _
@[simp] theorem incWrap_srm (F : Fld) (n : Nat) : (incWrap b F n).srm = b.srm := wr_srm b F _
@[simp] theorem incWrap_daybook (F : Fld) (n : Nat) : (incWrap b F n).daybook = b.daybook := wr_daybook b F _
@[simp] theorem incWrap_bar (F : Fld) (n : Nat) : (incWrap b F n).bar = b.bar := wr_bar b F _
@[simp] theorem incWrap_events (F : Fld) (n : Nat) : (incWrap b F n).events = b.events := wr_events b F _
@[simp] theorem incWrap_boot (F : Fld) (n : Nat) : (incWrap b F n).boot = b.boot := wr_boot b F _

/-! `wrBit`. -/

@[simp] theorem wrBit_mem (F : Fld) (i : Nat) (v : Bool) : (wrBit b F i v).mem = b.mem := wr_mem b F _
@[simp] theorem wrBit_io (F : Fld) (i : Nat) (v : Bool) : (wrBit b F i v).io = b.io := wr_io b F _
@[simp] theorem wrBit_acc (F : Fld) (i : Nat) (v : Bool) : (wrBit b F i v).acc = b.acc := wr_acc b F _
@[simp] theorem wrBit_memory (F : Fld) (i : Nat) (v : Bool) : (wrBit b F i v).memory = b.memory := wr_memory b F _
@[simp] theorem wrBit_factor (F : Fld) (i : Nat) (v : Bool) : (wrBit b F i v).factor = b.factor := wr_factor b F _
@[simp] theorem wrBit_trunk (F : Fld) (i : Nat) (v : Bool) : (wrBit b F i v).trunk = b.trunk := wr_trunk b F _
@[simp] theorem wrBit_mod0 (F : Fld) (i : Nat) (v : Bool) : (wrBit b F i v).mod0 = b.mod0 := wr_mod0 b F _
@[simp] theorem wrBit_mod1 (F : Fld) (i : Nat) (v : Bool) : (wrBit b F i v).mod1 = b.mod1 := wr_mod1 b F _
@[simp] theorem wrBit_mod2 (F : Fld) (i : Nat) (v : Bool) : (wrBit b F i v).mod2 = b.mod2 := wr_mod2 b F _
@[simp] theorem wrBit_ce (F : Fld) (i : Nat) (v : Bool) : (wrBit b F i v).ce = b.ce := wr_ce b F _
@[simp] theorem wrBit_met (F : Fld) (i : Nat) (v : Bool) : (wrBit b F i v).met = b.met := wr_met b F _
@[simp] theorem wrBit_time (F : Fld) (i : Nat) (v : Bool) : (wrBit b F i v).time = b.time := wr_time b F _
@[simp] theorem wrBit_house (F : Fld) (i : Nat) (v : Bool) : (wrBit b F i v).house = b.house := wr_house b F _
@[simp] theorem wrBit_vp (F : Fld) (i : Nat) (v : Bool) : (wrBit b F i v).vp = b.vp := wr_vp b F _
@[simp] theorem wrBit_mesh (F : Fld) (i : Nat) (v : Bool) : (wrBit b F i v).mesh = b.mesh := wr_mesh b F _
@[simp] theorem wrBit_lanes (F : Fld) (i : Nat) (v : Bool) : (wrBit b F i v).lanes = b.lanes := wr_lanes b F _
@[simp] theorem wrBit_red (F : Fld) (i : Nat) (v : Bool) : (wrBit b F i v).red = b.red := wr_red b F _
@[simp] theorem wrBit_lsw (F : Fld) (i : Nat) (v : Bool) : (wrBit b F i v).lsw = b.lsw := wr_lsw b F _
@[simp] theorem wrBit_thm (F : Fld) (i : Nat) (v : Bool) : (wrBit b F i v).thm = b.thm := wr_thm b F _
@[simp] theorem wrBit_srm (F : Fld) (i : Nat) (v : Bool) : (wrBit b F i v).srm = b.srm := wr_srm b F _
@[simp] theorem wrBit_daybook (F : Fld) (i : Nat) (v : Bool) : (wrBit b F i v).daybook = b.daybook := wr_daybook b F _
@[simp] theorem wrBit_bar (F : Fld) (i : Nat) (v : Bool) : (wrBit b F i v).bar = b.bar := wr_bar b F _
@[simp] theorem wrBit_events (F : Fld) (i : Nat) (v : Bool) : (wrBit b F i v).events = b.events := wr_events b F _
@[simp] theorem wrBit_boot (F : Fld) (i : Nat) (v : Bool) : (wrBit b F i v).boot = b.boot := wr_boot b F _

/-! `wr64`. -/

@[simp] theorem wr64_mem (F : Fld) (v : Nat) : (wr64 b F v).mem = b.mem := (setWord_mem _ _ _).trans (setWord_mem _ _ _)
@[simp] theorem wr64_io (F : Fld) (v : Nat) : (wr64 b F v).io = b.io := (setWord_io _ _ _).trans (setWord_io _ _ _)
@[simp] theorem wr64_acc (F : Fld) (v : Nat) : (wr64 b F v).acc = b.acc := (setWord_acc _ _ _).trans (setWord_acc _ _ _)
@[simp] theorem wr64_memory (F : Fld) (v : Nat) : (wr64 b F v).memory = b.memory := (setWord_memory _ _ _).trans (setWord_memory _ _ _)
@[simp] theorem wr64_factor (F : Fld) (v : Nat) : (wr64 b F v).factor = b.factor := (setWord_factor _ _ _).trans (setWord_factor _ _ _)
@[simp] theorem wr64_trunk (F : Fld) (v : Nat) : (wr64 b F v).trunk = b.trunk := (setWord_trunk _ _ _).trans (setWord_trunk _ _ _)
@[simp] theorem wr64_mod0 (F : Fld) (v : Nat) : (wr64 b F v).mod0 = b.mod0 := (setWord_mod0 _ _ _).trans (setWord_mod0 _ _ _)
@[simp] theorem wr64_mod1 (F : Fld) (v : Nat) : (wr64 b F v).mod1 = b.mod1 := (setWord_mod1 _ _ _).trans (setWord_mod1 _ _ _)
@[simp] theorem wr64_mod2 (F : Fld) (v : Nat) : (wr64 b F v).mod2 = b.mod2 := (setWord_mod2 _ _ _).trans (setWord_mod2 _ _ _)
@[simp] theorem wr64_ce (F : Fld) (v : Nat) : (wr64 b F v).ce = b.ce := (setWord_ce _ _ _).trans (setWord_ce _ _ _)
@[simp] theorem wr64_met (F : Fld) (v : Nat) : (wr64 b F v).met = b.met := (setWord_met _ _ _).trans (setWord_met _ _ _)
@[simp] theorem wr64_time (F : Fld) (v : Nat) : (wr64 b F v).time = b.time := (setWord_time _ _ _).trans (setWord_time _ _ _)
@[simp] theorem wr64_house (F : Fld) (v : Nat) : (wr64 b F v).house = b.house := (setWord_house _ _ _).trans (setWord_house _ _ _)
@[simp] theorem wr64_vp (F : Fld) (v : Nat) : (wr64 b F v).vp = b.vp := (setWord_vp _ _ _).trans (setWord_vp _ _ _)
@[simp] theorem wr64_mesh (F : Fld) (v : Nat) : (wr64 b F v).mesh = b.mesh := (setWord_mesh _ _ _).trans (setWord_mesh _ _ _)
@[simp] theorem wr64_lanes (F : Fld) (v : Nat) : (wr64 b F v).lanes = b.lanes := (setWord_lanes _ _ _).trans (setWord_lanes _ _ _)
@[simp] theorem wr64_red (F : Fld) (v : Nat) : (wr64 b F v).red = b.red := (setWord_red _ _ _).trans (setWord_red _ _ _)
@[simp] theorem wr64_lsw (F : Fld) (v : Nat) : (wr64 b F v).lsw = b.lsw := (setWord_lsw _ _ _).trans (setWord_lsw _ _ _)
@[simp] theorem wr64_thm (F : Fld) (v : Nat) : (wr64 b F v).thm = b.thm := (setWord_thm _ _ _).trans (setWord_thm _ _ _)
@[simp] theorem wr64_srm (F : Fld) (v : Nat) : (wr64 b F v).srm = b.srm := (setWord_srm _ _ _).trans (setWord_srm _ _ _)
@[simp] theorem wr64_daybook (F : Fld) (v : Nat) : (wr64 b F v).daybook = b.daybook := (setWord_daybook _ _ _).trans (setWord_daybook _ _ _)
@[simp] theorem wr64_bar (F : Fld) (v : Nat) : (wr64 b F v).bar = b.bar := (setWord_bar _ _ _).trans (setWord_bar _ _ _)
@[simp] theorem wr64_events (F : Fld) (v : Nat) : (wr64 b F v).events = b.events := (setWord_events _ _ _).trans (setWord_events _ _ _)
@[simp] theorem wr64_boot (F : Fld) (v : Nat) : (wr64 b F v).boot = b.boot := (setWord_boot _ _ _).trans (setWord_boot _ _ _)

/-! `reject`. -/

@[simp] theorem reject_mem (pg : Nat) : (reject b pg).mem = b.mem := (wr_mem _ _ _).trans (wr_mem _ _ _)
@[simp] theorem reject_io (pg : Nat) : (reject b pg).io = b.io := (wr_io _ _ _).trans (wr_io _ _ _)
@[simp] theorem reject_acc (pg : Nat) : (reject b pg).acc = b.acc := (wr_acc _ _ _).trans (wr_acc _ _ _)
@[simp] theorem reject_memory (pg : Nat) : (reject b pg).memory = b.memory := (wr_memory _ _ _).trans (wr_memory _ _ _)
@[simp] theorem reject_factor (pg : Nat) : (reject b pg).factor = b.factor := (wr_factor _ _ _).trans (wr_factor _ _ _)
@[simp] theorem reject_trunk (pg : Nat) : (reject b pg).trunk = b.trunk := (wr_trunk _ _ _).trans (wr_trunk _ _ _)
@[simp] theorem reject_mod0 (pg : Nat) : (reject b pg).mod0 = b.mod0 := (wr_mod0 _ _ _).trans (wr_mod0 _ _ _)
@[simp] theorem reject_mod1 (pg : Nat) : (reject b pg).mod1 = b.mod1 := (wr_mod1 _ _ _).trans (wr_mod1 _ _ _)
@[simp] theorem reject_mod2 (pg : Nat) : (reject b pg).mod2 = b.mod2 := (wr_mod2 _ _ _).trans (wr_mod2 _ _ _)
@[simp] theorem reject_ce (pg : Nat) : (reject b pg).ce = b.ce := (wr_ce _ _ _).trans (wr_ce _ _ _)
@[simp] theorem reject_met (pg : Nat) : (reject b pg).met = b.met := (wr_met _ _ _).trans (wr_met _ _ _)
@[simp] theorem reject_time (pg : Nat) : (reject b pg).time = b.time := (wr_time _ _ _).trans (wr_time _ _ _)
@[simp] theorem reject_house (pg : Nat) : (reject b pg).house = b.house := (wr_house _ _ _).trans (wr_house _ _ _)
@[simp] theorem reject_vp (pg : Nat) : (reject b pg).vp = b.vp := (wr_vp _ _ _).trans (wr_vp _ _ _)
@[simp] theorem reject_mesh (pg : Nat) : (reject b pg).mesh = b.mesh := (wr_mesh _ _ _).trans (wr_mesh _ _ _)
@[simp] theorem reject_lanes (pg : Nat) : (reject b pg).lanes = b.lanes := (wr_lanes _ _ _).trans (wr_lanes _ _ _)
@[simp] theorem reject_red (pg : Nat) : (reject b pg).red = b.red := (wr_red _ _ _).trans (wr_red _ _ _)
@[simp] theorem reject_lsw (pg : Nat) : (reject b pg).lsw = b.lsw := (wr_lsw _ _ _).trans (wr_lsw _ _ _)
@[simp] theorem reject_thm (pg : Nat) : (reject b pg).thm = b.thm := (wr_thm _ _ _).trans (wr_thm _ _ _)
@[simp] theorem reject_srm (pg : Nat) : (reject b pg).srm = b.srm := (wr_srm _ _ _).trans (wr_srm _ _ _)
@[simp] theorem reject_daybook (pg : Nat) : (reject b pg).daybook = b.daybook := (wr_daybook _ _ _).trans (wr_daybook _ _ _)
@[simp] theorem reject_bar (pg : Nat) : (reject b pg).bar = b.bar := (wr_bar _ _ _).trans (wr_bar _ _ _)
@[simp] theorem reject_events (pg : Nat) : (reject b pg).events = b.events := (wr_events _ _ _).trans (wr_events _ _ _)
@[simp] theorem reject_boot (pg : Nat) : (reject b pg).boot = b.boot := (wr_boot _ _ _).trans (wr_boot _ _ _)

/-! `emit`. -/

@[simp] theorem emit_regs (m : Msg) : (emit b m).regs = b.regs := by rw [emit]
@[simp] theorem emit_mem (m : Msg) : (emit b m).mem = b.mem := by rw [emit]
@[simp] theorem emit_acc (m : Msg) : (emit b m).acc = b.acc := by rw [emit]
@[simp] theorem emit_memory (m : Msg) : (emit b m).memory = b.memory := by rw [emit]
@[simp] theorem emit_factor (m : Msg) : (emit b m).factor = b.factor := by rw [emit]
@[simp] theorem emit_trunk (m : Msg) : (emit b m).trunk = b.trunk := by rw [emit]
@[simp] theorem emit_mod0 (m : Msg) : (emit b m).mod0 = b.mod0 := by rw [emit]
@[simp] theorem emit_mod1 (m : Msg) : (emit b m).mod1 = b.mod1 := by rw [emit]
@[simp] theorem emit_mod2 (m : Msg) : (emit b m).mod2 = b.mod2 := by rw [emit]
@[simp] theorem emit_ce (m : Msg) : (emit b m).ce = b.ce := by rw [emit]
@[simp] theorem emit_met (m : Msg) : (emit b m).met = b.met := by rw [emit]
@[simp] theorem emit_time (m : Msg) : (emit b m).time = b.time := by rw [emit]
@[simp] theorem emit_house (m : Msg) : (emit b m).house = b.house := by rw [emit]
@[simp] theorem emit_vp (m : Msg) : (emit b m).vp = b.vp := by rw [emit]
@[simp] theorem emit_mesh (m : Msg) : (emit b m).mesh = b.mesh := by rw [emit]
@[simp] theorem emit_lanes (m : Msg) : (emit b m).lanes = b.lanes := by rw [emit]
@[simp] theorem emit_red (m : Msg) : (emit b m).red = b.red := by rw [emit]
@[simp] theorem emit_lsw (m : Msg) : (emit b m).lsw = b.lsw := by rw [emit]
@[simp] theorem emit_thm (m : Msg) : (emit b m).thm = b.thm := by rw [emit]
@[simp] theorem emit_srm (m : Msg) : (emit b m).srm = b.srm := by rw [emit]
@[simp] theorem emit_daybook (m : Msg) : (emit b m).daybook = b.daybook := by rw [emit]
@[simp] theorem emit_bar (m : Msg) : (emit b m).bar = b.bar := by rw [emit]
@[simp] theorem emit_events (m : Msg) : (emit b m).events = b.events := by rw [emit]
@[simp] theorem emit_boot (m : Msg) : (emit b m).boot = b.boot := by rw [emit]

/-! `answer`. -/

@[simp] theorem answer_regs (r : Resp) : (answer b r).regs = b.regs := by rw [answer]
@[simp] theorem answer_mem (r : Resp) : (answer b r).mem = b.mem := by rw [answer]
@[simp] theorem answer_acc (r : Resp) : (answer b r).acc = b.acc := by rw [answer]
@[simp] theorem answer_memory (r : Resp) : (answer b r).memory = b.memory := by rw [answer]
@[simp] theorem answer_factor (r : Resp) : (answer b r).factor = b.factor := by rw [answer]
@[simp] theorem answer_trunk (r : Resp) : (answer b r).trunk = b.trunk := by rw [answer]
@[simp] theorem answer_mod0 (r : Resp) : (answer b r).mod0 = b.mod0 := by rw [answer]
@[simp] theorem answer_mod1 (r : Resp) : (answer b r).mod1 = b.mod1 := by rw [answer]
@[simp] theorem answer_mod2 (r : Resp) : (answer b r).mod2 = b.mod2 := by rw [answer]
@[simp] theorem answer_ce (r : Resp) : (answer b r).ce = b.ce := by rw [answer]
@[simp] theorem answer_met (r : Resp) : (answer b r).met = b.met := by rw [answer]
@[simp] theorem answer_time (r : Resp) : (answer b r).time = b.time := by rw [answer]
@[simp] theorem answer_house (r : Resp) : (answer b r).house = b.house := by rw [answer]
@[simp] theorem answer_vp (r : Resp) : (answer b r).vp = b.vp := by rw [answer]
@[simp] theorem answer_mesh (r : Resp) : (answer b r).mesh = b.mesh := by rw [answer]
@[simp] theorem answer_lanes (r : Resp) : (answer b r).lanes = b.lanes := by rw [answer]
@[simp] theorem answer_red (r : Resp) : (answer b r).red = b.red := by rw [answer]
@[simp] theorem answer_lsw (r : Resp) : (answer b r).lsw = b.lsw := by rw [answer]
@[simp] theorem answer_thm (r : Resp) : (answer b r).thm = b.thm := by rw [answer]
@[simp] theorem answer_srm (r : Resp) : (answer b r).srm = b.srm := by rw [answer]
@[simp] theorem answer_daybook (r : Resp) : (answer b r).daybook = b.daybook := by rw [answer]
@[simp] theorem answer_bar (r : Resp) : (answer b r).bar = b.bar := by rw [answer]
@[simp] theorem answer_events (r : Resp) : (answer b r).events = b.events := by rw [answer]
@[simp] theorem answer_boot (r : Resp) : (answer b r).boot = b.boot := by rw [answer]

/-! `spend`. -/

@[simp] theorem spend_regs  : (spend b).regs = b.regs := by rw [spend]
@[simp] theorem spend_mem  : (spend b).mem = b.mem := by rw [spend]
@[simp] theorem spend_acc  : (spend b).acc = b.acc := by rw [spend]
@[simp] theorem spend_memory  : (spend b).memory = b.memory := by rw [spend]
@[simp] theorem spend_factor  : (spend b).factor = b.factor := by rw [spend]
@[simp] theorem spend_trunk  : (spend b).trunk = b.trunk := by rw [spend]
@[simp] theorem spend_mod0  : (spend b).mod0 = b.mod0 := by rw [spend]
@[simp] theorem spend_mod1  : (spend b).mod1 = b.mod1 := by rw [spend]
@[simp] theorem spend_mod2  : (spend b).mod2 = b.mod2 := by rw [spend]
@[simp] theorem spend_ce  : (spend b).ce = b.ce := by rw [spend]
@[simp] theorem spend_met  : (spend b).met = b.met := by rw [spend]
@[simp] theorem spend_time  : (spend b).time = b.time := by rw [spend]
@[simp] theorem spend_house  : (spend b).house = b.house := by rw [spend]
@[simp] theorem spend_vp  : (spend b).vp = b.vp := by rw [spend]
@[simp] theorem spend_mesh  : (spend b).mesh = b.mesh := by rw [spend]
@[simp] theorem spend_lanes  : (spend b).lanes = b.lanes := by rw [spend]
@[simp] theorem spend_red  : (spend b).red = b.red := by rw [spend]
@[simp] theorem spend_lsw  : (spend b).lsw = b.lsw := by rw [spend]
@[simp] theorem spend_thm  : (spend b).thm = b.thm := by rw [spend]
@[simp] theorem spend_srm  : (spend b).srm = b.srm := by rw [spend]
@[simp] theorem spend_daybook  : (spend b).daybook = b.daybook := by rw [spend]
@[simp] theorem spend_bar  : (spend b).bar = b.bar := by rw [spend]
@[simp] theorem spend_events  : (spend b).events = b.events := by rw [spend]
@[simp] theorem spend_boot  : (spend b).boot = b.boot := by rw [spend]

/-! `setByte`. -/

@[simp] theorem setByte_regs (k : Nat) (v : Byte) : (setByte b k v).regs = b.regs := by rw [setByte]
@[simp] theorem setByte_io (k : Nat) (v : Byte) : (setByte b k v).io = b.io := by rw [setByte]
@[simp] theorem setByte_acc (k : Nat) (v : Byte) : (setByte b k v).acc = b.acc := by rw [setByte]
@[simp] theorem setByte_memory (k : Nat) (v : Byte) : (setByte b k v).memory = b.memory := by rw [setByte]
@[simp] theorem setByte_factor (k : Nat) (v : Byte) : (setByte b k v).factor = b.factor := by rw [setByte]
@[simp] theorem setByte_trunk (k : Nat) (v : Byte) : (setByte b k v).trunk = b.trunk := by rw [setByte]
@[simp] theorem setByte_mod0 (k : Nat) (v : Byte) : (setByte b k v).mod0 = b.mod0 := by rw [setByte]
@[simp] theorem setByte_mod1 (k : Nat) (v : Byte) : (setByte b k v).mod1 = b.mod1 := by rw [setByte]
@[simp] theorem setByte_mod2 (k : Nat) (v : Byte) : (setByte b k v).mod2 = b.mod2 := by rw [setByte]
@[simp] theorem setByte_ce (k : Nat) (v : Byte) : (setByte b k v).ce = b.ce := by rw [setByte]
@[simp] theorem setByte_met (k : Nat) (v : Byte) : (setByte b k v).met = b.met := by rw [setByte]
@[simp] theorem setByte_time (k : Nat) (v : Byte) : (setByte b k v).time = b.time := by rw [setByte]
@[simp] theorem setByte_house (k : Nat) (v : Byte) : (setByte b k v).house = b.house := by rw [setByte]
@[simp] theorem setByte_vp (k : Nat) (v : Byte) : (setByte b k v).vp = b.vp := by rw [setByte]
@[simp] theorem setByte_mesh (k : Nat) (v : Byte) : (setByte b k v).mesh = b.mesh := by rw [setByte]
@[simp] theorem setByte_lanes (k : Nat) (v : Byte) : (setByte b k v).lanes = b.lanes := by rw [setByte]
@[simp] theorem setByte_red (k : Nat) (v : Byte) : (setByte b k v).red = b.red := by rw [setByte]
@[simp] theorem setByte_lsw (k : Nat) (v : Byte) : (setByte b k v).lsw = b.lsw := by rw [setByte]
@[simp] theorem setByte_thm (k : Nat) (v : Byte) : (setByte b k v).thm = b.thm := by rw [setByte]
@[simp] theorem setByte_srm (k : Nat) (v : Byte) : (setByte b k v).srm = b.srm := by rw [setByte]
@[simp] theorem setByte_daybook (k : Nat) (v : Byte) : (setByte b k v).daybook = b.daybook := by rw [setByte]
@[simp] theorem setByte_bar (k : Nat) (v : Byte) : (setByte b k v).bar = b.bar := by rw [setByte]
@[simp] theorem setByte_events (k : Nat) (v : Byte) : (setByte b k v).events = b.events := by rw [setByte]
@[simp] theorem setByte_boot (k : Nat) (v : Byte) : (setByte b k v).boot = b.boot := by rw [setByte]

/-! `setLock`. -/

@[simp] theorem setLock_regs (pg : Nat) (l : LockSt) : (setLock b pg l).regs = b.regs := by rw [setLock]
@[simp] theorem setLock_mem (pg : Nat) (l : LockSt) : (setLock b pg l).mem = b.mem := by rw [setLock]
@[simp] theorem setLock_io (pg : Nat) (l : LockSt) : (setLock b pg l).io = b.io := by rw [setLock]
@[simp] theorem setLock_memory (pg : Nat) (l : LockSt) : (setLock b pg l).memory = b.memory := by rw [setLock]
@[simp] theorem setLock_factor (pg : Nat) (l : LockSt) : (setLock b pg l).factor = b.factor := by rw [setLock]
@[simp] theorem setLock_trunk (pg : Nat) (l : LockSt) : (setLock b pg l).trunk = b.trunk := by rw [setLock]
@[simp] theorem setLock_mod0 (pg : Nat) (l : LockSt) : (setLock b pg l).mod0 = b.mod0 := by rw [setLock]
@[simp] theorem setLock_mod1 (pg : Nat) (l : LockSt) : (setLock b pg l).mod1 = b.mod1 := by rw [setLock]
@[simp] theorem setLock_mod2 (pg : Nat) (l : LockSt) : (setLock b pg l).mod2 = b.mod2 := by rw [setLock]
@[simp] theorem setLock_ce (pg : Nat) (l : LockSt) : (setLock b pg l).ce = b.ce := by rw [setLock]
@[simp] theorem setLock_met (pg : Nat) (l : LockSt) : (setLock b pg l).met = b.met := by rw [setLock]
@[simp] theorem setLock_time (pg : Nat) (l : LockSt) : (setLock b pg l).time = b.time := by rw [setLock]
@[simp] theorem setLock_house (pg : Nat) (l : LockSt) : (setLock b pg l).house = b.house := by rw [setLock]
@[simp] theorem setLock_vp (pg : Nat) (l : LockSt) : (setLock b pg l).vp = b.vp := by rw [setLock]
@[simp] theorem setLock_mesh (pg : Nat) (l : LockSt) : (setLock b pg l).mesh = b.mesh := by rw [setLock]
@[simp] theorem setLock_lanes (pg : Nat) (l : LockSt) : (setLock b pg l).lanes = b.lanes := by rw [setLock]
@[simp] theorem setLock_red (pg : Nat) (l : LockSt) : (setLock b pg l).red = b.red := by rw [setLock]
@[simp] theorem setLock_lsw (pg : Nat) (l : LockSt) : (setLock b pg l).lsw = b.lsw := by rw [setLock]
@[simp] theorem setLock_thm (pg : Nat) (l : LockSt) : (setLock b pg l).thm = b.thm := by rw [setLock]
@[simp] theorem setLock_srm (pg : Nat) (l : LockSt) : (setLock b pg l).srm = b.srm := by rw [setLock]
@[simp] theorem setLock_daybook (pg : Nat) (l : LockSt) : (setLock b pg l).daybook = b.daybook := by rw [setLock]
@[simp] theorem setLock_bar (pg : Nat) (l : LockSt) : (setLock b pg l).bar = b.bar := by rw [setLock]
@[simp] theorem setLock_events (pg : Nat) (l : LockSt) : (setLock b pg l).events = b.events := by rw [setLock]
@[simp] theorem setLock_boot (pg : Nat) (l : LockSt) : (setLock b pg l).boot = b.boot := by rw [setLock]

/-! `setMark`. -/

@[simp] theorem setMark_regs (k : Nat) (m : Mark) : (setMark b k m).regs = b.regs := by rw [setMark]
@[simp] theorem setMark_mem (k : Nat) (m : Mark) : (setMark b k m).mem = b.mem := by rw [setMark]
@[simp] theorem setMark_io (k : Nat) (m : Mark) : (setMark b k m).io = b.io := by rw [setMark]
@[simp] theorem setMark_acc (k : Nat) (m : Mark) : (setMark b k m).acc = b.acc := by rw [setMark]
@[simp] theorem setMark_factor (k : Nat) (m : Mark) : (setMark b k m).factor = b.factor := by rw [setMark]
@[simp] theorem setMark_trunk (k : Nat) (m : Mark) : (setMark b k m).trunk = b.trunk := by rw [setMark]
@[simp] theorem setMark_mod0 (k : Nat) (m : Mark) : (setMark b k m).mod0 = b.mod0 := by rw [setMark]
@[simp] theorem setMark_mod1 (k : Nat) (m : Mark) : (setMark b k m).mod1 = b.mod1 := by rw [setMark]
@[simp] theorem setMark_mod2 (k : Nat) (m : Mark) : (setMark b k m).mod2 = b.mod2 := by rw [setMark]
@[simp] theorem setMark_ce (k : Nat) (m : Mark) : (setMark b k m).ce = b.ce := by rw [setMark]
@[simp] theorem setMark_met (k : Nat) (m : Mark) : (setMark b k m).met = b.met := by rw [setMark]
@[simp] theorem setMark_time (k : Nat) (m : Mark) : (setMark b k m).time = b.time := by rw [setMark]
@[simp] theorem setMark_house (k : Nat) (m : Mark) : (setMark b k m).house = b.house := by rw [setMark]
@[simp] theorem setMark_vp (k : Nat) (m : Mark) : (setMark b k m).vp = b.vp := by rw [setMark]
@[simp] theorem setMark_mesh (k : Nat) (m : Mark) : (setMark b k m).mesh = b.mesh := by rw [setMark]
@[simp] theorem setMark_lanes (k : Nat) (m : Mark) : (setMark b k m).lanes = b.lanes := by rw [setMark]
@[simp] theorem setMark_red (k : Nat) (m : Mark) : (setMark b k m).red = b.red := by rw [setMark]
@[simp] theorem setMark_lsw (k : Nat) (m : Mark) : (setMark b k m).lsw = b.lsw := by rw [setMark]
@[simp] theorem setMark_thm (k : Nat) (m : Mark) : (setMark b k m).thm = b.thm := by rw [setMark]
@[simp] theorem setMark_srm (k : Nat) (m : Mark) : (setMark b k m).srm = b.srm := by rw [setMark]
@[simp] theorem setMark_daybook (k : Nat) (m : Mark) : (setMark b k m).daybook = b.daybook := by rw [setMark]
@[simp] theorem setMark_bar (k : Nat) (m : Mark) : (setMark b k m).bar = b.bar := by rw [setMark]
@[simp] theorem setMark_events (k : Nat) (m : Mark) : (setMark b k m).events = b.events := by rw [setMark]
@[simp] theorem setMark_boot (k : Nat) (m : Mark) : (setMark b k m).boot = b.boot := by rw [setMark]

/-! `setLane`. -/

@[simp] theorem setLane_regs (n : Nat) (x : LaneSt) : (setLane n x b).regs = b.regs := by rw [setLane]
@[simp] theorem setLane_mem (n : Nat) (x : LaneSt) : (setLane n x b).mem = b.mem := by rw [setLane]
@[simp] theorem setLane_io (n : Nat) (x : LaneSt) : (setLane n x b).io = b.io := by rw [setLane]
@[simp] theorem setLane_acc (n : Nat) (x : LaneSt) : (setLane n x b).acc = b.acc := by rw [setLane]
@[simp] theorem setLane_memory (n : Nat) (x : LaneSt) : (setLane n x b).memory = b.memory := by rw [setLane]
@[simp] theorem setLane_factor (n : Nat) (x : LaneSt) : (setLane n x b).factor = b.factor := by rw [setLane]
@[simp] theorem setLane_trunk (n : Nat) (x : LaneSt) : (setLane n x b).trunk = b.trunk := by rw [setLane]
@[simp] theorem setLane_mod0 (n : Nat) (x : LaneSt) : (setLane n x b).mod0 = b.mod0 := by rw [setLane]
@[simp] theorem setLane_mod1 (n : Nat) (x : LaneSt) : (setLane n x b).mod1 = b.mod1 := by rw [setLane]
@[simp] theorem setLane_mod2 (n : Nat) (x : LaneSt) : (setLane n x b).mod2 = b.mod2 := by rw [setLane]
@[simp] theorem setLane_ce (n : Nat) (x : LaneSt) : (setLane n x b).ce = b.ce := by rw [setLane]
@[simp] theorem setLane_met (n : Nat) (x : LaneSt) : (setLane n x b).met = b.met := by rw [setLane]
@[simp] theorem setLane_time (n : Nat) (x : LaneSt) : (setLane n x b).time = b.time := by rw [setLane]
@[simp] theorem setLane_house (n : Nat) (x : LaneSt) : (setLane n x b).house = b.house := by rw [setLane]
@[simp] theorem setLane_vp (n : Nat) (x : LaneSt) : (setLane n x b).vp = b.vp := by rw [setLane]
@[simp] theorem setLane_mesh (n : Nat) (x : LaneSt) : (setLane n x b).mesh = b.mesh := by rw [setLane]
@[simp] theorem setLane_red (n : Nat) (x : LaneSt) : (setLane n x b).red = b.red := by rw [setLane]
@[simp] theorem setLane_lsw (n : Nat) (x : LaneSt) : (setLane n x b).lsw = b.lsw := by rw [setLane]
@[simp] theorem setLane_thm (n : Nat) (x : LaneSt) : (setLane n x b).thm = b.thm := by rw [setLane]
@[simp] theorem setLane_srm (n : Nat) (x : LaneSt) : (setLane n x b).srm = b.srm := by rw [setLane]
@[simp] theorem setLane_daybook (n : Nat) (x : LaneSt) : (setLane n x b).daybook = b.daybook := by rw [setLane]
@[simp] theorem setLane_bar (n : Nat) (x : LaneSt) : (setLane n x b).bar = b.bar := by rw [setLane]
@[simp] theorem setLane_events (n : Nat) (x : LaneSt) : (setLane n x b).events = b.events := by rw [setLane]
@[simp] theorem setLane_boot (n : Nat) (x : LaneSt) : (setLane n x b).boot = b.boot := by rw [setLane]

/-! `setDom`. -/

@[simp] theorem setDom_regs (d : Nat) (x : DomSt) : (setDom d x b).regs = b.regs := by unfold setDom; split <;> rfl
@[simp] theorem setDom_mem (d : Nat) (x : DomSt) : (setDom d x b).mem = b.mem := by unfold setDom; split <;> rfl
@[simp] theorem setDom_io (d : Nat) (x : DomSt) : (setDom d x b).io = b.io := by unfold setDom; split <;> rfl
@[simp] theorem setDom_acc (d : Nat) (x : DomSt) : (setDom d x b).acc = b.acc := by unfold setDom; split <;> rfl
@[simp] theorem setDom_memory (d : Nat) (x : DomSt) : (setDom d x b).memory = b.memory := by unfold setDom; split <;> rfl
@[simp] theorem setDom_factor (d : Nat) (x : DomSt) : (setDom d x b).factor = b.factor := by unfold setDom; split <;> rfl
@[simp] theorem setDom_trunk (d : Nat) (x : DomSt) : (setDom d x b).trunk = b.trunk := by unfold setDom; split <;> rfl
@[simp] theorem setDom_mod0 (d : Nat) (x : DomSt) : (setDom d x b).mod0 = b.mod0 := by unfold setDom; split <;> rfl
@[simp] theorem setDom_mod1 (d : Nat) (x : DomSt) : (setDom d x b).mod1 = b.mod1 := by unfold setDom; split <;> rfl
@[simp] theorem setDom_mod2 (d : Nat) (x : DomSt) : (setDom d x b).mod2 = b.mod2 := by unfold setDom; split <;> rfl
@[simp] theorem setDom_ce (d : Nat) (x : DomSt) : (setDom d x b).ce = b.ce := by unfold setDom; split <;> rfl
@[simp] theorem setDom_met (d : Nat) (x : DomSt) : (setDom d x b).met = b.met := by unfold setDom; split <;> rfl
@[simp] theorem setDom_house (d : Nat) (x : DomSt) : (setDom d x b).house = b.house := by unfold setDom; split <;> rfl
@[simp] theorem setDom_vp (d : Nat) (x : DomSt) : (setDom d x b).vp = b.vp := by unfold setDom; split <;> rfl
@[simp] theorem setDom_mesh (d : Nat) (x : DomSt) : (setDom d x b).mesh = b.mesh := by unfold setDom; split <;> rfl
@[simp] theorem setDom_lanes (d : Nat) (x : DomSt) : (setDom d x b).lanes = b.lanes := by unfold setDom; split <;> rfl
@[simp] theorem setDom_red (d : Nat) (x : DomSt) : (setDom d x b).red = b.red := by unfold setDom; split <;> rfl
@[simp] theorem setDom_lsw (d : Nat) (x : DomSt) : (setDom d x b).lsw = b.lsw := by unfold setDom; split <;> rfl
@[simp] theorem setDom_thm (d : Nat) (x : DomSt) : (setDom d x b).thm = b.thm := by unfold setDom; split <;> rfl
@[simp] theorem setDom_srm (d : Nat) (x : DomSt) : (setDom d x b).srm = b.srm := by unfold setDom; split <;> rfl
@[simp] theorem setDom_daybook (d : Nat) (x : DomSt) : (setDom d x b).daybook = b.daybook := by unfold setDom; split <;> rfl
@[simp] theorem setDom_bar (d : Nat) (x : DomSt) : (setDom d x b).bar = b.bar := by unfold setDom; split <;> rfl
@[simp] theorem setDom_events (d : Nat) (x : DomSt) : (setDom d x b).events = b.events := by unfold setDom; split <;> rfl
@[simp] theorem setDom_boot (d : Nat) (x : DomSt) : (setDom d x b).boot = b.boot := by unfold setDom; split <;> rfl

/-! `setCopy`. -/

@[simp] theorem setCopy_regs (d : Nat) (x : CopySt) : (setCopy d x b).regs = b.regs := by unfold setCopy; split <;> rfl
@[simp] theorem setCopy_mem (d : Nat) (x : CopySt) : (setCopy d x b).mem = b.mem := by unfold setCopy; split <;> rfl
@[simp] theorem setCopy_io (d : Nat) (x : CopySt) : (setCopy d x b).io = b.io := by unfold setCopy; split <;> rfl
@[simp] theorem setCopy_acc (d : Nat) (x : CopySt) : (setCopy d x b).acc = b.acc := by unfold setCopy; split <;> rfl
@[simp] theorem setCopy_memory (d : Nat) (x : CopySt) : (setCopy d x b).memory = b.memory := by unfold setCopy; split <;> rfl
@[simp] theorem setCopy_factor (d : Nat) (x : CopySt) : (setCopy d x b).factor = b.factor := by unfold setCopy; split <;> rfl
@[simp] theorem setCopy_trunk (d : Nat) (x : CopySt) : (setCopy d x b).trunk = b.trunk := by unfold setCopy; split <;> rfl
@[simp] theorem setCopy_mod0 (d : Nat) (x : CopySt) : (setCopy d x b).mod0 = b.mod0 := by unfold setCopy; split <;> rfl
@[simp] theorem setCopy_mod1 (d : Nat) (x : CopySt) : (setCopy d x b).mod1 = b.mod1 := by unfold setCopy; split <;> rfl
@[simp] theorem setCopy_mod2 (d : Nat) (x : CopySt) : (setCopy d x b).mod2 = b.mod2 := by unfold setCopy; split <;> rfl
@[simp] theorem setCopy_ce (d : Nat) (x : CopySt) : (setCopy d x b).ce = b.ce := by unfold setCopy; split <;> rfl
@[simp] theorem setCopy_met (d : Nat) (x : CopySt) : (setCopy d x b).met = b.met := by unfold setCopy; split <;> rfl
@[simp] theorem setCopy_house (d : Nat) (x : CopySt) : (setCopy d x b).house = b.house := by unfold setCopy; split <;> rfl
@[simp] theorem setCopy_vp (d : Nat) (x : CopySt) : (setCopy d x b).vp = b.vp := by unfold setCopy; split <;> rfl
@[simp] theorem setCopy_mesh (d : Nat) (x : CopySt) : (setCopy d x b).mesh = b.mesh := by unfold setCopy; split <;> rfl
@[simp] theorem setCopy_lanes (d : Nat) (x : CopySt) : (setCopy d x b).lanes = b.lanes := by unfold setCopy; split <;> rfl
@[simp] theorem setCopy_red (d : Nat) (x : CopySt) : (setCopy d x b).red = b.red := by unfold setCopy; split <;> rfl
@[simp] theorem setCopy_lsw (d : Nat) (x : CopySt) : (setCopy d x b).lsw = b.lsw := by unfold setCopy; split <;> rfl
@[simp] theorem setCopy_thm (d : Nat) (x : CopySt) : (setCopy d x b).thm = b.thm := by unfold setCopy; split <;> rfl
@[simp] theorem setCopy_srm (d : Nat) (x : CopySt) : (setCopy d x b).srm = b.srm := by unfold setCopy; split <;> rfl
@[simp] theorem setCopy_daybook (d : Nat) (x : CopySt) : (setCopy d x b).daybook = b.daybook := by unfold setCopy; split <;> rfl
@[simp] theorem setCopy_bar (d : Nat) (x : CopySt) : (setCopy d x b).bar = b.bar := by unfold setCopy; split <;> rfl
@[simp] theorem setCopy_events (d : Nat) (x : CopySt) : (setCopy d x b).events = b.events := by unfold setCopy; split <;> rfl
@[simp] theorem setCopy_boot (d : Nat) (x : CopySt) : (setCopy d x b).boot = b.boot := by unfold setCopy; split <;> rfl

/-! `raise`. -/

/-- An event changes the registers and the outputs alone. -/
theorem raiseHw_eq (pg k : Nat) : ∃ r o, raiseHw pg k b = { b with regs := r, io := o } := by
  unfold raiseHw
  dsimp only
  split
  · exact ⟨_, _, rfl⟩
  · exact ⟨_, _, rfl⟩

theorem raise_eq (pg k : Nat) : ∃ r o, raise pg k b = { b with regs := r, io := o } := by
  unfold raise
  split
  · exact raiseHw_eq b pg k
  · exact ⟨_, _, rfl⟩

@[simp] theorem raiseHw_mem (pg k : Nat) : (raiseHw pg k b).mem = b.mem := by obtain ⟨r, o, h⟩ := raiseHw_eq b pg k; rw [h]
@[simp] theorem raiseHw_acc (pg k : Nat) : (raiseHw pg k b).acc = b.acc := by obtain ⟨r, o, h⟩ := raiseHw_eq b pg k; rw [h]
@[simp] theorem raiseHw_memory (pg k : Nat) : (raiseHw pg k b).memory = b.memory := by obtain ⟨r, o, h⟩ := raiseHw_eq b pg k; rw [h]
@[simp] theorem raiseHw_factor (pg k : Nat) : (raiseHw pg k b).factor = b.factor := by obtain ⟨r, o, h⟩ := raiseHw_eq b pg k; rw [h]
@[simp] theorem raiseHw_trunk (pg k : Nat) : (raiseHw pg k b).trunk = b.trunk := by obtain ⟨r, o, h⟩ := raiseHw_eq b pg k; rw [h]
@[simp] theorem raiseHw_mod0 (pg k : Nat) : (raiseHw pg k b).mod0 = b.mod0 := by obtain ⟨r, o, h⟩ := raiseHw_eq b pg k; rw [h]
@[simp] theorem raiseHw_mod1 (pg k : Nat) : (raiseHw pg k b).mod1 = b.mod1 := by obtain ⟨r, o, h⟩ := raiseHw_eq b pg k; rw [h]
@[simp] theorem raiseHw_mod2 (pg k : Nat) : (raiseHw pg k b).mod2 = b.mod2 := by obtain ⟨r, o, h⟩ := raiseHw_eq b pg k; rw [h]
@[simp] theorem raiseHw_ce (pg k : Nat) : (raiseHw pg k b).ce = b.ce := by obtain ⟨r, o, h⟩ := raiseHw_eq b pg k; rw [h]
@[simp] theorem raiseHw_met (pg k : Nat) : (raiseHw pg k b).met = b.met := by obtain ⟨r, o, h⟩ := raiseHw_eq b pg k; rw [h]
@[simp] theorem raiseHw_time (pg k : Nat) : (raiseHw pg k b).time = b.time := by obtain ⟨r, o, h⟩ := raiseHw_eq b pg k; rw [h]
@[simp] theorem raiseHw_house (pg k : Nat) : (raiseHw pg k b).house = b.house := by obtain ⟨r, o, h⟩ := raiseHw_eq b pg k; rw [h]
@[simp] theorem raiseHw_vp (pg k : Nat) : (raiseHw pg k b).vp = b.vp := by obtain ⟨r, o, h⟩ := raiseHw_eq b pg k; rw [h]
@[simp] theorem raiseHw_mesh (pg k : Nat) : (raiseHw pg k b).mesh = b.mesh := by obtain ⟨r, o, h⟩ := raiseHw_eq b pg k; rw [h]
@[simp] theorem raiseHw_lanes (pg k : Nat) : (raiseHw pg k b).lanes = b.lanes := by obtain ⟨r, o, h⟩ := raiseHw_eq b pg k; rw [h]
@[simp] theorem raiseHw_red (pg k : Nat) : (raiseHw pg k b).red = b.red := by obtain ⟨r, o, h⟩ := raiseHw_eq b pg k; rw [h]
@[simp] theorem raiseHw_lsw (pg k : Nat) : (raiseHw pg k b).lsw = b.lsw := by obtain ⟨r, o, h⟩ := raiseHw_eq b pg k; rw [h]
@[simp] theorem raiseHw_thm (pg k : Nat) : (raiseHw pg k b).thm = b.thm := by obtain ⟨r, o, h⟩ := raiseHw_eq b pg k; rw [h]
@[simp] theorem raiseHw_srm (pg k : Nat) : (raiseHw pg k b).srm = b.srm := by obtain ⟨r, o, h⟩ := raiseHw_eq b pg k; rw [h]
@[simp] theorem raiseHw_daybook (pg k : Nat) : (raiseHw pg k b).daybook = b.daybook := by obtain ⟨r, o, h⟩ := raiseHw_eq b pg k; rw [h]
@[simp] theorem raiseHw_bar (pg k : Nat) : (raiseHw pg k b).bar = b.bar := by obtain ⟨r, o, h⟩ := raiseHw_eq b pg k; rw [h]
@[simp] theorem raiseHw_events (pg k : Nat) : (raiseHw pg k b).events = b.events := by obtain ⟨r, o, h⟩ := raiseHw_eq b pg k; rw [h]
@[simp] theorem raiseHw_boot (pg k : Nat) : (raiseHw pg k b).boot = b.boot := by obtain ⟨r, o, h⟩ := raiseHw_eq b pg k; rw [h]

@[simp] theorem raise_mem (pg k : Nat) : (raise pg k b).mem = b.mem := by obtain ⟨r, o, h⟩ := raise_eq b pg k; rw [h]
@[simp] theorem raise_acc (pg k : Nat) : (raise pg k b).acc = b.acc := by obtain ⟨r, o, h⟩ := raise_eq b pg k; rw [h]
@[simp] theorem raise_memory (pg k : Nat) : (raise pg k b).memory = b.memory := by obtain ⟨r, o, h⟩ := raise_eq b pg k; rw [h]
@[simp] theorem raise_factor (pg k : Nat) : (raise pg k b).factor = b.factor := by obtain ⟨r, o, h⟩ := raise_eq b pg k; rw [h]
@[simp] theorem raise_trunk (pg k : Nat) : (raise pg k b).trunk = b.trunk := by obtain ⟨r, o, h⟩ := raise_eq b pg k; rw [h]
@[simp] theorem raise_mod0 (pg k : Nat) : (raise pg k b).mod0 = b.mod0 := by obtain ⟨r, o, h⟩ := raise_eq b pg k; rw [h]
@[simp] theorem raise_mod1 (pg k : Nat) : (raise pg k b).mod1 = b.mod1 := by obtain ⟨r, o, h⟩ := raise_eq b pg k; rw [h]
@[simp] theorem raise_mod2 (pg k : Nat) : (raise pg k b).mod2 = b.mod2 := by obtain ⟨r, o, h⟩ := raise_eq b pg k; rw [h]
@[simp] theorem raise_ce (pg k : Nat) : (raise pg k b).ce = b.ce := by obtain ⟨r, o, h⟩ := raise_eq b pg k; rw [h]
@[simp] theorem raise_met (pg k : Nat) : (raise pg k b).met = b.met := by obtain ⟨r, o, h⟩ := raise_eq b pg k; rw [h]
@[simp] theorem raise_time (pg k : Nat) : (raise pg k b).time = b.time := by obtain ⟨r, o, h⟩ := raise_eq b pg k; rw [h]
@[simp] theorem raise_house (pg k : Nat) : (raise pg k b).house = b.house := by obtain ⟨r, o, h⟩ := raise_eq b pg k; rw [h]
@[simp] theorem raise_vp (pg k : Nat) : (raise pg k b).vp = b.vp := by obtain ⟨r, o, h⟩ := raise_eq b pg k; rw [h]
@[simp] theorem raise_mesh (pg k : Nat) : (raise pg k b).mesh = b.mesh := by obtain ⟨r, o, h⟩ := raise_eq b pg k; rw [h]
@[simp] theorem raise_lanes (pg k : Nat) : (raise pg k b).lanes = b.lanes := by obtain ⟨r, o, h⟩ := raise_eq b pg k; rw [h]
@[simp] theorem raise_red (pg k : Nat) : (raise pg k b).red = b.red := by obtain ⟨r, o, h⟩ := raise_eq b pg k; rw [h]
@[simp] theorem raise_lsw (pg k : Nat) : (raise pg k b).lsw = b.lsw := by obtain ⟨r, o, h⟩ := raise_eq b pg k; rw [h]
@[simp] theorem raise_thm (pg k : Nat) : (raise pg k b).thm = b.thm := by obtain ⟨r, o, h⟩ := raise_eq b pg k; rw [h]
@[simp] theorem raise_srm (pg k : Nat) : (raise pg k b).srm = b.srm := by obtain ⟨r, o, h⟩ := raise_eq b pg k; rw [h]
@[simp] theorem raise_daybook (pg k : Nat) : (raise pg k b).daybook = b.daybook := by obtain ⟨r, o, h⟩ := raise_eq b pg k; rw [h]
@[simp] theorem raise_bar (pg k : Nat) : (raise pg k b).bar = b.bar := by obtain ⟨r, o, h⟩ := raise_eq b pg k; rw [h]
@[simp] theorem raise_events (pg k : Nat) : (raise pg k b).events = b.events := by obtain ⟨r, o, h⟩ := raise_eq b pg k; rw [h]
@[simp] theorem raise_boot (pg k : Nat) : (raise pg k b).boot = b.boot := by obtain ⟨r, o, h⟩ := raise_eq b pg k; rw [h]

/-! `setMod`. -/

@[simp] theorem setMod_regs (g : Nat) (x : ModSt) : (setMod g x b).regs = b.regs := by unfold setMod; split <;> rfl
@[simp] theorem setMod_mem (g : Nat) (x : ModSt) : (setMod g x b).mem = b.mem := by unfold setMod; split <;> rfl
@[simp] theorem setMod_io (g : Nat) (x : ModSt) : (setMod g x b).io = b.io := by unfold setMod; split <;> rfl
@[simp] theorem setMod_acc (g : Nat) (x : ModSt) : (setMod g x b).acc = b.acc := by unfold setMod; split <;> rfl
@[simp] theorem setMod_memory (g : Nat) (x : ModSt) : (setMod g x b).memory = b.memory := by unfold setMod; split <;> rfl
@[simp] theorem setMod_factor (g : Nat) (x : ModSt) : (setMod g x b).factor = b.factor := by unfold setMod; split <;> rfl
@[simp] theorem setMod_trunk (g : Nat) (x : ModSt) : (setMod g x b).trunk = b.trunk := by unfold setMod; split <;> rfl
@[simp] theorem setMod_ce (g : Nat) (x : ModSt) : (setMod g x b).ce = b.ce := by unfold setMod; split <;> rfl
@[simp] theorem setMod_met (g : Nat) (x : ModSt) : (setMod g x b).met = b.met := by unfold setMod; split <;> rfl
@[simp] theorem setMod_time (g : Nat) (x : ModSt) : (setMod g x b).time = b.time := by unfold setMod; split <;> rfl
@[simp] theorem setMod_house (g : Nat) (x : ModSt) : (setMod g x b).house = b.house := by unfold setMod; split <;> rfl
@[simp] theorem setMod_vp (g : Nat) (x : ModSt) : (setMod g x b).vp = b.vp := by unfold setMod; split <;> rfl
@[simp] theorem setMod_mesh (g : Nat) (x : ModSt) : (setMod g x b).mesh = b.mesh := by unfold setMod; split <;> rfl
@[simp] theorem setMod_lanes (g : Nat) (x : ModSt) : (setMod g x b).lanes = b.lanes := by unfold setMod; split <;> rfl
@[simp] theorem setMod_red (g : Nat) (x : ModSt) : (setMod g x b).red = b.red := by unfold setMod; split <;> rfl
@[simp] theorem setMod_lsw (g : Nat) (x : ModSt) : (setMod g x b).lsw = b.lsw := by unfold setMod; split <;> rfl
@[simp] theorem setMod_thm (g : Nat) (x : ModSt) : (setMod g x b).thm = b.thm := by unfold setMod; split <;> rfl
@[simp] theorem setMod_srm (g : Nat) (x : ModSt) : (setMod g x b).srm = b.srm := by unfold setMod; split <;> rfl
@[simp] theorem setMod_daybook (g : Nat) (x : ModSt) : (setMod g x b).daybook = b.daybook := by unfold setMod; split <;> rfl
@[simp] theorem setMod_bar (g : Nat) (x : ModSt) : (setMod g x b).bar = b.bar := by unfold setMod; split <;> rfl
@[simp] theorem setMod_events (g : Nat) (x : ModSt) : (setMod g x b).events = b.events := by unfold setMod; split <;> rfl
@[simp] theorem setMod_boot (g : Nat) (x : ModSt) : (setMod g x b).boot = b.boot := by unfold setMod; split <;> rfl

/-! Registers read through the operations that write none. -/

@[simp] theorem emit_wordOf (m : Msg) (c : Nat) : wordOf (emit b m) c = wordOf b c := rfl
@[simp] theorem emit_rd (m : Msg) (G : Fld) : rd (emit b m) G = rd b G := rfl
@[simp] theorem emit_isOn (m : Msg) (G : Fld) : isOn (emit b m) G = isOn b G := rfl
@[simp] theorem answer_wordOf (r : Resp) (c : Nat) : wordOf (answer b r) c = wordOf b c := rfl
@[simp] theorem answer_rd (r : Resp) (G : Fld) : rd (answer b r) G = rd b G := rfl
@[simp] theorem answer_isOn (r : Resp) (G : Fld) : isOn (answer b r) G = isOn b G := rfl
@[simp] theorem spend_wordOf  (c : Nat) : wordOf (spend b) c = wordOf b c := rfl
@[simp] theorem spend_rd  (G : Fld) : rd (spend b) G = rd b G := rfl
@[simp] theorem spend_isOn  (G : Fld) : isOn (spend b) G = isOn b G := rfl
@[simp] theorem setByte_wordOf (k : Nat) (v : Byte) (c : Nat) : wordOf (setByte b k v) c = wordOf b c := rfl
@[simp] theorem setByte_rd (k : Nat) (v : Byte) (G : Fld) : rd (setByte b k v) G = rd b G := rfl
@[simp] theorem setByte_isOn (k : Nat) (v : Byte) (G : Fld) : isOn (setByte b k v) G = isOn b G := rfl
@[simp] theorem setLock_wordOf (pg : Nat) (l : LockSt) (c : Nat) : wordOf (setLock b pg l) c = wordOf b c := rfl
@[simp] theorem setLock_rd (pg : Nat) (l : LockSt) (G : Fld) : rd (setLock b pg l) G = rd b G := rfl
@[simp] theorem setLock_isOn (pg : Nat) (l : LockSt) (G : Fld) : isOn (setLock b pg l) G = isOn b G := rfl
@[simp] theorem setMark_wordOf (k : Nat) (m : Mark) (c : Nat) : wordOf (setMark b k m) c = wordOf b c := rfl
@[simp] theorem setMark_rd (k : Nat) (m : Mark) (G : Fld) : rd (setMark b k m) G = rd b G := rfl
@[simp] theorem setMark_isOn (k : Nat) (m : Mark) (G : Fld) : isOn (setMark b k m) G = isOn b G := rfl
@[simp] theorem setLane_wordOf (n : Nat) (x : LaneSt) (c : Nat) : wordOf (setLane n x b) c = wordOf b c := rfl
@[simp] theorem setLane_rd (n : Nat) (x : LaneSt) (G : Fld) : rd (setLane n x b) G = rd b G := rfl
@[simp] theorem setLane_isOn (n : Nat) (x : LaneSt) (G : Fld) : isOn (setLane n x b) G = isOn b G := rfl

/-! What a message, a mode and the free counter are after them. -/

@[simp] theorem emit_out (m : Msg) : (emit b m).io.out = b.io.out ++ [m] := rfl
@[simp] theorem answer_out (r : Resp) : (answer b r).io.out = b.io.out := rfl
@[simp] theorem spend_out : (spend b).io.out = b.io.out := rfl
@[simp] theorem answer_resp (r : Resp) : (answer b r).io.resp = r := rfl

end Sys2Proof.Machine
end

