-- ==== Sys2Proof/Laws/Frame.lean ====
section
/-!
SUPPORT. What the shared operations change: a command run on the block, operations repeated or guarded, events raised,
rejections counted, the queue of what is sent, and a register write in its two outcomes.
-/

namespace Sys2Proof.Machine

open Sys2Proof.Num

variable {b : Blk} {s t : State} {f : Blk → Blk} {pg k c : Nat}

/-! Commands as operations on the block. -/

theorem run_eq : run f s = .next { s with blk := f s.blk } := rfl

theorem run_next_iff : run f s = .next t ↔ t = { s with blk := f s.blk } :=
  ⟨fun h => (Host.Outcome.next.inj h).symm, fun h => h ▸ rfl⟩

/-- An asynchronous input enters at once, but on the active of a pair, which holds it under its ticket (R340). -/
theorem runIn_now (src : Nat) (i : Input) (h : takesNow s.blk = true) : runIn src i f s = .next { s with blk := f s.blk } := by
  simp [runIn, run, h]

theorem runIn_held (src : Nat) (i : Input) (h : takesNow s.blk = false) :
    runIn src i f s = .next { s with blk := ticketed src [] s.blk (some i) } := by
  simp [runIn, run, h]

theorem gated_on (h : enabled b pg = true) (hk : clocked b pg = true) (hc : pg ≠ pgCH) : gated pg f b = f b := by
  simp [gated, h, hk, hc]

theorem gated_off (h : enabled b pg = false) : gated pg f b = b := by simp [gated, h]

/-- What a guarded operation keeps, it keeps. -/
theorem gated_rel {P : Blk → Prop} (h : P b) (hf : P (f b)) : P (gated pg f b) := by
  unfold gated; split <;> assumption

theorem when_true : when true f b = f b := rfl

theorem when_false : when false f b = b := rfl

/-- A property that each repetition keeps holds at the end. -/
theorem forEach_rel {α : Type} {P : Blk → Prop} (l : List α) {g : α → Blk → Blk}
    (hg : ∀ x ∈ l, ∀ b, P b → P (g x b)) (h : P b) : P (forEach l g b) := by
  induction l generalizing b with
  | nil => exact h
  | cons x l ih =>
    exact ih (fun y hy => hg y (List.mem_cons_of_mem x hy)) (hg x List.mem_cons_self b h)

/-! Registers that an operation leaves alone. -/

theorem wordOf_emit (m : Msg) : wordOf (emit b m) c = wordOf b c := rfl

theorem wordOf_raiseHw (h : c ≠ (hRAW pg).a) : wordOf (raiseHw pg k b) c = wordOf b c := by
  unfold raiseHw
  dsimp only
  have h1 : wordOf (wrBit b (hRAW pg) k true) c = wordOf b c := by unfold wrBit; exact wordOf_wr_ne h
  split
  · rw [wordOf_emit, h1]
  · exact h1

/-- An event changes no word but its page's EVT_RAW. -/
theorem wordOf_raise (h : c ≠ (hRAW pg).a) : wordOf (raise pg k b) c = wordOf b c := by
  unfold raise
  split
  · exact wordOf_raiseHw h
  · rfl

theorem wordOf_incSat {F : Fld} (h : c ≠ F.a) : wordOf (incSat b F) c = wordOf b c := by
  unfold incSat; exact wordOf_wr_ne h

theorem wordOf_incWrap {F : Fld} (h : c ≠ F.a) : wordOf (incWrap b F) c = wordOf b c := by
  unfold incWrap; exact wordOf_wr_ne h

/-- A rejection changes no word but its page's PAGE_STAT. -/
theorem wordOf_reject (h : c ≠ pg + 0x10) : wordOf (reject b pg) c = wordOf b c := by
  unfold reject wrB
  rw [wordOf_wr_ne (F := hWRREJ pg) h, wordOf_incSat (F := hREJCNT pg) h]

/-! Register writes. -/

/-- A write either takes nothing, and then only stores and counts, or takes some bits, and then the register acts on
them. -/
theorem writeNow_cases (i : Init) (u : Bool) (a : Nat) (v : Word) (act : Nat → Blk → Blk) :
    ((storeWord b i u (a / 0x1000 * 0x1000) (a % 0x1000) v).mask = 0 ∧
      writeNow i u a v act b = (storeWord b i u (a / 0x1000 * 0x1000) (a % 0x1000) v).blk) ∨
    ((storeWord b i u (a / 0x1000 * 0x1000) (a % 0x1000) v).mask ≠ 0 ∧
      writeNow i u a v act b =
        act (v.toNat &&& (storeWord b i u (a / 0x1000 * 0x1000) (a % 0x1000) v).mask)
          (storeWord b i u (a / 0x1000 * 0x1000) (a % 0x1000) v).blk) := by
  unfold writeNow
  dsimp only
  split
  · exact .inl ⟨‹_›, rfl⟩
  · exact .inr ⟨‹_›, rfl⟩

theorem writeAct_now {i : Init} {u : Bool} {a : Nat} {v : Word} {act : Nat → Blk → Blk} (h : lateWrite b a = false) :
    writeAct i u a v act b = writeNow i u a v act b := by simp [writeAct, h]

end Sys2Proof.Machine
end

