-- ==== Sys2Proof/Tests/Slice0.lean ====
section
/-!
SUPPORT. Tests: states that meet the hypotheses of the statements, the checks of WellFormed, and single commands on small
states with results taken from the spec.
-/

namespace Sys2Proof.Tests

open Sys2Proof Sys2Proof.Machine Sys2Proof.Stated Sys2Proof.Num

set_option Elab.async false
set_option linter.unusedVariables false

/-- A state with some register fields set and a change of the block. -/
def mk (l : List (Fld × Nat)) (f : Blk → Blk := id) : State :=
  { blk := f (forEach l (fun p b => wr b p.1 p.2) Blk.reset), pending := [] }

/-- A frame in the mailbox, GO written. -/
def mailTo (f : List Byte) (b : Blk) : Blk :=
  let b := forEach (List.range 64) (fun i b => wr b (FBAR.MBX_DATA.DATA i) (ofLE ((f.drop (4 * i)).take 4))) b
  wrB (wr b FBAR.MBX_STAT.LEN f.length) FBAR.MBX_STAT.BUSY true

/-- The block after a command. -/
def after (o : Out) (s : State) : Blk := match o with
  | .next t => t.blk
  | _ => s.blk

/-! Ill-formed commands are refused. -/

theorem ill_regWrite : (Instr.regWrite .ctrl 0 [1, 2, 3]).wellFormed = false := by decide
theorem ill_wideLowRead : (Instr.wideLowRead .ctrl 0 2).wellFormed = false := by decide
theorem ill_groupCommand : (Instr.groupCommand 0 1 3 [1] 0).wellFormed = false := by decide
theorem ill_periodStart : (Instr.periodStart 0 [] 0).wellFormed = false := by decide
theorem ill_soundingFrame : (Instr.soundingFrame 0 []).wellFormed = false := by decide
theorem ill_vehicleFrameRx : (Instr.vehicleFrameRx 0 (List.replicate 2049 0) true).wellFormed = false := by decide +kernel
theorem ill_touchScan : (Instr.touchScan 0 [1, 2, 3]).wellFormed = false := by decide
theorem ill_meshFrame : (Instr.meshFrame 0 1 4 [1]).wellFormed = false := by decide
theorem ill_mapUpdateRx : (Instr.mapUpdateRx 1 0 1 false []).wellFormed = false := by decide
theorem ill_linkResume : (Instr.linkResume 0 0 0 [1]).wellFormed = false := by decide
theorem ill_tiolmoxFrameRx : (Instr.tiolmoxFrameRx 0 [1]).wellFormed = false := by decide
theorem ill_lockstepTicket : (Instr.lockstepTicket 0 0 0 (List.replicate 241 0)).wellFormed = false := by decide +kernel
theorem ill_switchDieReport : (Instr.switchDieReport 0 0 []).wellFormed = false := by decide
theorem ill_hkRoundStart : (Instr.hkRoundStart [(64, [1, 2, 3, 4])] 0).wellFormed = false := by decide
theorem ill_keyWrap : (Instr.keyWrap (List.replicate 257 0)).wellFormed = false := by decide +kernel
theorem ill_dbkEntry : (Instr.dbkEntry 1 0 (List.replicate 33 0)).wellFormed = false := by decide
theorem ill_mirrorRecordRx : (Instr.mirrorRecordRx [1]).wellFormed = false := by decide
theorem ill_regRd : (Instr.regRd 0 0 0 65 0).wellFormed = false := by decide
theorem ill_regWr : (Instr.regWr 0 0 0 2 0 0 [1]).wellFormed = false := by decide
theorem ill_regRsp : (Instr.regRsp 0 0 (List.replicate 65 0)).wellFormed = false := by decide

/-! No word spells a command: the table gives no bits. -/

theorem test_decode (n w : Nat) : decodeTableWord n w = none := rfl

/-! Worked examples and check values: the expected numbers stand in the spec, or in the standard it names. -/

/-- CRC-32 of IEEE 802.3 (R416, R432): the standard's check value over the digits 1 to 9. -/
theorem test_crc32 : Crc.crc32 [0x31, 0x32, 0x33, 0x34, 0x35, 0x36, 0x37, 0x38, 0x39] = 0xCBF43926 := by decide +kernel

/-- CRC-64 of ECMA-182 (R344): its check value over the same digits. -/
theorem test_crc64 : Crc.crc64 [0x31, 0x32, 0x33, 0x34, 0x35, 0x36, 0x37, 0x38, 0x39] = 0x6C40DF5F0B497347 := by decide +kernel

/-- SHA-256 (R392) of "abc", FIPS 180-4. -/
theorem test_sha256 : (Crypto.sha256 [0x61, 0x62, 0x63]).take 4 = [0xBA, 0x78, 0x16, 0xBF] := by decide +kernel

/-- The fan of the example of chapter 15: DUTY 600 at 20.5 V would be 702 without the freeze. -/
theorem test_duty_compensated :
    let s := mk [(hEN pgLSW, 1), (LSW.CH.OUT.DUTY 33, 600)] (setLsw 33 { live := true })
    rd (after (execPwmPeriodStart 33 205 s) s) (LSW.CH.STAT.DUTY_EFF 33) = 702 := by decide +kernel

/-- The same example: frozen, the fan keeps 600. -/
theorem test_duty_frozen :
    let s := mk [(hEN pgLSW, 1), (LSW.CH.OUT.DUTY 33, 600), (LSW.CH.STAT.DUTY_EFF 33, 600), (LSW.CH.STAT.FROZEN 33, 1)]
      (setLsw 33 { live := true })
    rd (after (execPwmPeriodStart 33 205 s) s) (LSW.CH.STAT.DUTY_EFF 33) = 600 := by decide +kernel

/-- The example of R33: core 2 writes the two words to the TRUNK page's PAGE_LOCK at 0x2008_8030 and holds the window for 256
cycles. -/
theorem test_unlock :
    let s := mk []
    let b := after (execRegWrite (.core 2) 0x20088030 [0xDE, 0xC0, 0, 0] s) s
    let b := after (execRegWrite (.core 2) 0x20088030 [0xEC, 0x0D, 0, 0] { s with blk := b }) s
    lockOf b pgTRUNK = { win := some (.core 2), remain := 256 } := by decide +kernel

/-- A wrong word cancels the sequence (R33). -/
theorem test_unlock_wrong :
    let s := mk []
    let b := after (execRegWrite (.core 2) 0x20088030 [0xDE, 0xC0, 0, 0] s) s
    let b := after (execRegWrite (.core 2) 0x20088030 [1, 0, 0, 0] { s with blk := b }) s
    lockOf b pgTRUNK = {} := by decide +kernel

/-- A store of two bytes to a page ends in a bus error (R22). -/
theorem test_narrow_store :
    let s := mk []
    (after (execRegWrite (.core 0) 0x20088048 [1, 2] s) s).io.resp = .busError := by decide +kernel

/-- Ticks are ordered modulo 2^32 (R340). -/
theorem test_tick_order : tickBefore (2 ^ 32 - 1) 2 = true ∧ tickBefore 2 (2 ^ 32 - 1) = false ∧ tickBefore 5 5 = false := by
  decide

/-- R150 at a limit: the output stays within [0, 100] and the integrator stands still. -/
theorem test_pi_stops : piLaw 256 256 500 0 0 100 = (100, 0, true) := by decide

/-! Witnesses of statements without clauses. -/

theorem wit_StepRunsFront : (mk []).pending = [] ∧ ({ mk [] with pending := [.coldIdent] } : State).pending = [.coldIdent] := by
  decide +kernel

theorem wit_StepKeepsInv : ∃ s t : State, Inv s ∧ step s = .next t :=
  ⟨{ mk [] with pending := [.coldIdent] }, _, by decide +kernel, rfl⟩

theorem wit_Frames : ∃ s t : State, exec .coldIdent s = .next t := ⟨mk [], _, rfl⟩

theorem wit_RejectedWrites : ∃ (b : Blk) (v : Word), (pageAt pgTRUNK).isSome = true ∧
    (storeWord b (.core 1) false pgTRUNK 0x48 v).status ≠ 0 := ⟨Blk.reset, 5, by decide +kernel⟩

theorem wit_TuneResults : ∃ b : Blk, 0 < tuneAmp b ∧ tuneAmp b < 65536 ∧ 0 < tuneTu b ∧ tuneTu b < 65536 ∧
    gainKu (rd b CE.TUNE.D) (tuneAmp b) < 2 ^ 32 ∧ gainKu (rd b CE.TUNE.D) (tuneAmp b) * 45 / 100 < 65536 ∧
    gainKu (rd b CE.TUNE.D) (tuneAmp b) * 45 / 100 * 256 * 100 / (83 * tuneTu b) < 65536 :=
  ⟨{ (mk [(CE.TUNE.CYC, 4), (CE.TUNE.D, 100)]).blk with ce := { tune := { sumA := 400, sumT := 4000 } } }, by decide +kernel⟩

/-! The CRC of an empty calendar bank, in parts small enough for the kernel. -/

def crcStep (c : BitVec 32) (x : Byte) : BitVec 32 := Crc.step32 8 (c ^^^ x.setWidth 32)

/-- 64 bytes of zero. -/
def crcChunk (c : BitVec 32) : BitVec 32 := (List.replicate 64 0).foldl crcStep c

/-- The CRC's register after each 64 bytes of zero. -/
def crcTable : List Nat :=
  [4294967295, 2322767049, 1029113186, 1946220301, 4066998951, 1379444914, 2001022648, 3111512508, 1297451655,
   3155420940, 3028871461, 774645715, 174001130, 1021293313, 2915205440, 3340631940, 273305809, 956399015,
   1587783631, 1242704402, 54289050, 3715110281, 3478704552, 491109441, 2481135233, 988709578, 1074817599,
   2713560436, 2177146615, 3385517400, 3578317780, 1762434442, 236406113]

theorem crcTable_step : ∀ k, k < 32 → crcChunk (BitVec.ofNat 32 (crcTable.getD k 0)) = BitVec.ofNat 32 (crcTable.getD (k + 1) 0) := by
  decide +kernel

theorem crcTable_run (n : Nat) (h : n ≤ 32) :
    (List.replicate n (List.replicate 64 (0 : Byte))).flatten.foldl crcStep 0xFFFFFFFF#32 = BitVec.ofNat 32 (crcTable.getD n 0) := by
  induction n with
  | zero => rfl
  | succ n ih =>
    rw [List.replicate_succ', List.flatten_append, List.foldl_append, ih (by omega), ← crcTable_step n (by omega)]
    simp [crcChunk]

theorem crc_zero_bank (f : Nat → Nat) (h : ∀ k, f k = 0) : bankCrc f = 4058561182 := by
  have e : (List.range 512).flatMap (fun k => le 4 (f k)) = (List.replicate 32 (List.replicate 64 (0 : Byte))).flatten := by
    have : (fun k => le 4 (f k)) = fun _ => List.replicate 4 (0 : Byte) := by funext k; rw [h k]; decide
    rw [this, List.flatMap_def, List.map_const', List.length_range, List.flatten_replicate_replicate,
      List.flatten_replicate_replicate]
  unfold bankCrc Crc.crc32
  rw [e]
  show (~~~ List.foldl crcStep 0xFFFFFFFF#32 _).toNat = _
  rw [crcTable_run 32 (by omega)]
  decide

/-! States that meet the hypotheses, statement by statement and clause by clause. -/

theorem wit_LoadSwitchStarts_1 : ∃ s : State, (lswMayStart s.blk (3 : Fin 48).val = true) ∧ (lswCmd s.blk (3 : Fin 48).val = true) ∧ ((lswOf s.blk (lswLead s.blk (3 : Fin 48).val)).retry = false) :=
  ⟨mk [(hEN pgLSW, 1), (LSW.CH.OUT.ON 3, 1)], by decide +kernel⟩

theorem wit_LoadSwitchStarts_2 : ∃ s : State, ((lswOf s.blk (lswLead s.blk (5 : Fin 48).val)).retry = true) ∧ (pfWarn s.blk = false) ∧ (lswMayStart s.blk (lswLead s.blk (5 : Fin 48).val) = true) ∧ (lswCmd s.blk (lswLead s.blk (5 : Fin 48).val) = true) :=
  ⟨mk [(hEN pgLSW, 1), (LSW.CH.OUT.ON 5, 1)] (setLsw 5 { retry := true }), by decide +kernel⟩

theorem wit_LoadSwitchStarts_3 : ∃ s : State, (enabled s.blk pgLSW = true) ∧ (NoCoil s.blk) ∧ (isOn s.blk (LSW.CH.STAT.INRUSH (7 : Fin 48).val) = true) ∧ (isOn s.blk (LSW.CH.CFG.MODE (lswLead s.blk (7 : Fin 48).val)) = false) ∧ (lswStage s.blk (lswLead s.blk (7 : Fin 48).val) ((lswOf s.blk (7 : Fin 48).val).stage + 1) = some (2 : Nat)) :=
  ⟨mk [(hEN pgLSW, 1), (LSW.CH.STAT.INRUSH 7, 1), (LSW.PROF.STG1.D1 0, 0), (LSW.PROF.STG2.D2 0, 9)] (setLsw 7 { live := true, stage := 0 }), by decide +kernel⟩

theorem wit_LoadSwitchStarts_4 : ∃ s : State, (enabled s.blk pgLSW = true) ∧ (NoCoil s.blk) ∧ (isOn s.blk (LSW.CH.STAT.INRUSH (9 : Fin 48).val) = true) ∧ (isOn s.blk (LSW.CH.CFG.MODE (lswLead s.blk (9 : Fin 48).val)) = true) ∧ (isOn s.blk (LSW.CH.STAT.LIMITING (9 : Fin 48).val) = false) ∧ ((∀ k ∈ lswPair s.blk (9 : Fin 48).val, isOn s.blk (LSW.CH.STAT.LIMITING k) = false)) :=
  ⟨mk [(hEN pgLSW, 1), (LSW.CH.STAT.INRUSH 9, 1), (LSW.CH.CFG.MODE 9, 1)] (setLsw 9 { live := true, stage := 3 }), by decide +kernel⟩

theorem wit_LoadSwitchStarts_5 : ∃ s : State, (enabled s.blk pgLSW = true) ∧ (isOn s.blk (LSW.CH.STAT.INRUSH (9 : Fin 48).val) = true) :=
  ⟨mk [(hEN pgLSW, 1), (LSW.CH.STAT.INRUSH 9, 1), (LSW.CH.STAT.LIMITING 9, 1)] (setLsw 9 { live := true, stage := 0 }), by decide +kernel⟩

theorem wit_LoadSwitchTrips_1 : ∃ s : State, (enabled s.blk pgLSW = true) ∧ (NoCoil s.blk) ∧ (100 * rd s.blk (LSW.CH.CFG.I_OC (4 : Fin 48).val) < (65000 : BitVec 16).toNat) ∧ ((lswOf s.blk (4 : Fin 48).val).live = true) ∧ (isOn s.blk (LSW.CH.STAT.INRUSH (4 : Fin 48).val) = false) :=
  ⟨mk [(hEN pgLSW, 1), (LSW.CH.STAT.OUT_ON 4, 1)] (setLsw 4 { live := true }), by decide +kernel⟩

theorem wit_LoadSwitchTrips_2 : ∃ s : State, (enabled s.blk pgLSW = true) ∧ (NoCoil s.blk) ∧ ((lswOf s.blk (47 : Fin 48).val).live = true) :=
  ⟨mk [(hEN pgLSW, 1), (LSW.CH.STAT.OUT_ON 47, 1)] (setLsw 47 { live := true }), by decide +kernel⟩

theorem wit_LoadSwitchTrips_3 : ∃ s : State, (enabled s.blk pgLSW = true) ∧ (NoCoil s.blk) ∧ (isOn s.blk (LSW.CH.STAT.THERM_LATCH (4 : Fin 48).val) = false) ∧ (10 * (rd s.blk (LSW.CH.CFG.TJ_LIM (4 : Fin 48).val) : Int) ≤ (1600 : BitVec 16).toInt) :=
  ⟨mk [(hEN pgLSW, 1), (LSW.CH.STAT.OUT_ON 4, 1)] (setLsw 4 { live := true }), by decide +kernel⟩

theorem wit_LoadSwitchTrips_4 : ∃ s : State, (enabled s.blk pgLSW = true) ∧ (isOn s.blk (LSW.CH.STAT.THERM_LATCH (4 : Fin 48).val) = true) ∧ (isOn s.blk (LSW.CH.CFG.TLATCH (4 : Fin 48).val) = false) ∧ ((-200 : BitVec 16).toInt ≤ 10 * ((rd s.blk (LSW.CH.CFG.TJ_LIM (4 : Fin 48).val) : Int) - rd s.blk LSW.RAIL.TJ_HYS)) :=
  ⟨mk [(hEN pgLSW, 1), (LSW.CH.STAT.THERM_LATCH 4, 1)], by decide +kernel⟩

theorem wit_LoadSwitchTrips_5 : ∃ s : State, (Accepts s.blk (.ctrl : Init) LSW.ARM.CH.a (BitVec.ofNat 32 (0x80 + (6 : BitVec 6).toNat))) ∧ ((6 : BitVec 6).toNat < 48) ∧ (isOn s.blk (LSW.CH.STAT.THERM_LATCH (6 : BitVec 6).toNat) = true) ∧ (lswCooled s.blk (6 : BitVec 6).toNat = true) :=
  ⟨mk [(hEN pgLSW, 1), (LSW.CH.STAT.THERM_LATCH 6, 1)], by decide +kernel⟩

theorem wit_LoadSwitchTrips_6 : ∃ s : State, (Accepts s.blk (.ctrl : Init) LSW.ARM.CH.a (BitVec.ofNat 32 (0x40 + (47 : BitVec 6).toNat))) ∧ ((47 : BitVec 6).toNat < 48) :=
  ⟨mk [(hEN pgLSW, 1), (LSW.CH.STAT.EXHAUSTED 47, 1), (LSW.CH.STAT.RETRY 47, 3)], by decide +kernel⟩

theorem wit_LoadSwitchTrips_7 : ∃ s : State, (enabled s.blk pgLSW = true) ∧ ((lswOf s.blk (4 : Fin 48).val).live = true) :=
  ⟨mk [(hEN pgLSW, 1), (LSW.CH.STAT.RETRY 4, 2)] (setLsw 4 { live := true }), by decide +kernel⟩

theorem wit_LoadSwitchDuty_1 : ∃ s : State, (enabled s.blk pgLSW = true) ∧ ((lswOf s.blk (4 : Fin 48).val).live = true) ∧ (isOn s.blk (LSW.CH.STAT.INRUSH (4 : Fin 48).val) = false) :=
  ⟨mk [(hEN pgLSW, 1), (LSW.CH.OUT.DUTY 4, 300)] (setLsw 4 { live := true, dutyNew := true }), by decide +kernel⟩

theorem wit_LoadSwitchDuty_2 : ∃ s : State, (enabled s.blk pgLSW = true) ∧ ((lswOf s.blk (4 : Fin 48).val).pull = true) :=
  ⟨mk [(hEN pgLSW, 1)] (setLsw 4 { live := true, pull := true }), by decide +kernel⟩

theorem wit_LoadSwitchDuty_3 : ∃ s : State, (enabled s.blk pgLSW = true) :=
  ⟨mk [(hEN pgLSW, 1), (LSW.RSTAT.FRZ1, 1), (LSW.CH.STAT.FROZEN 47, 1)], by decide +kernel⟩

theorem wit_LoadSwitchDuty_4 : ∃ s : State, (enabled s.blk pgLSW = true) ∧ ((3 : BitVec 16).toNat < rd s.blk LSW.OPEN.OPEN_MA) ∧ ((lswOf s.blk (4 : Fin 48).val).live = true) ∧ (isOn s.blk (LSW.CH.STAT.INRUSH (4 : Fin 48).val) = false) ∧ (rd s.blk (LSW.CH.CFG.LOAD (lswLead s.blk (4 : Fin 48).val)) ≠ 3) :=
  ⟨mk [(hEN pgLSW, 1)] (setLsw 4 { live := true }), by decide +kernel⟩

theorem wit_LoadSwitchRails_1 : ∃ s : State, (enabled s.blk pgLSW = true) ∧ (NoCoil s.blk) ∧ ((90 : BitVec 16).toNat < rd s.blk LSW.RAIL.UV_TH) :=
  ⟨mk [(hEN pgLSW, 1)] (setLsw 47 { live := true }), by decide +kernel⟩

theorem wit_LoadSwitchRails_2 : ∃ s : State, (enabled s.blk pgLSW = true) ∧ (rd s.blk LSW.RAIL.UV_REL ≤ (240 : BitVec 16).toNat) :=
  ⟨mk [(hEN pgLSW, 1), (LSW.RSTAT.UV0, 1)], by decide +kernel⟩

theorem wit_LoadSwitchRails_3 : ∃ s : State, (enabled s.blk pgLSW = true) ∧ (takesNow s.blk = true) :=
  ⟨mk [(hEN pgLSW, 1)], by decide +kernel⟩

theorem wit_LoadSwitchRails_4 : ∃ s : State, (enabled s.blk pgLSW = true) :=
  ⟨mk [(hEN pgLSW, 1), (LSW.RSTAT.LINK0, 1)], by decide +kernel⟩

theorem wit_LoadSwitchRails_6 : ∃ s : State, (holdOf s.blk (1 : Fin 2).val = 1) ∧ (NoCoil s.blk) :=
  ⟨mk [(hEN pgLSW, 1), (LSW.CH.STAT.OUT_ON 30, 1)] fun b => setLsw 30 { live := true } (setHold 1 1 b), by decide +kernel⟩

theorem wit_LoadSwitchRails_7 : ∃ s : State, (enabled s.blk pgLSW = true) :=
  ⟨mk [(hEN pgLSW, 1)] (setHold 0 2), by decide +kernel⟩

theorem wit_TransferOpens_1 : ∃ s : State, (enabled s.blk pgTRUNK = true) ∧ ((xferOf s.blk (1 : Fin 3).val).step = 1) :=
  ⟨mk [(hEN pgTRUNK, 1)] fun b => setXfer 1 { step := 1 } b, by decide +kernel⟩

theorem wit_TransferOpens_2 : ∃ s : State, (enabled s.blk pgTRUNK = true) ∧ ((xferOf s.blk (1 : Fin 3).val).step = 2) ∧ (zeroCurrent s.blk (1 : Fin 3).val = true) :=
  ⟨mk [(hEN pgTRUNK, 1)] fun b => setXfer 1 { step := 2 } b, by decide +kernel⟩

theorem wit_TransferOpens_3 : ∃ s : State, (enabled s.blk pgTRUNK = true) ∧ (((xferOf s.blk (1 : Fin 3).val).step = 1 ∨ (xferOf s.blk (1 : Fin 3).val).step = 2)) :=
  ⟨mk [(hEN pgTRUNK, 1)] fun b => setXfer 1 { step := 2 } b, by decide +kernel⟩

theorem wit_TransferOpens_4 : ∃ s : State, (enabled s.blk pgTRUNK = true) ∧ ((xferOf s.blk (1 : Fin 3).val).step = 3) :=
  ⟨mk [(hEN pgTRUNK, 1)] fun b => setXfer 1 { step := 3, src := 2 } b, by decide +kernel⟩

theorem wit_TransferOpens_5 : ∃ s : State, (enabled s.blk pgTRUNK = true) ∧ ((xferOf s.blk (1 : Fin 3).val).step = 8) :=
  ⟨mk [(hEN pgTRUNK, 1)] fun b => setXfer 1 { step := 8, dst := 2 } b, by decide +kernel⟩

theorem wit_TransferOpens_6 : ∃ s : State, (enabled s.blk pgTRUNK = true) ∧ ((xferOf s.blk (1 : Fin 3).val).step = 4) ∧ ((xferOf s.blk (1 : Fin 3).val).silent = false) ∧ (diverged s.blk (3000 : BitVec 16).toNat (testTrunk s.blk (1 : Fin 3).val) (xferOf s.blk (1 : Fin 3).val).vsrc = true) :=
  ⟨mk [(hEN pgTRUNK, 1)] fun b => setXfer 1 { step := 4, dst := 3, vsrc := 4000 } b, by decide +kernel⟩

theorem wit_TransferOpens_7 : ∃ s : State, (enabled s.blk pgTRUNK = true) ∧ ((xferOf s.blk (1 : Fin 3).val).step = 4) :=
  ⟨mk [(hEN pgTRUNK, 1)] fun b => setXfer 1 { step := 4, src := 2 } b, by decide +kernel⟩

theorem wit_TransferOpens_8 : ∃ s : State, (enabled s.blk pgTRUNK = true) ∧ ((xferOf s.blk (1 : Fin 3).val).step = 5) ∧ ((xferOf s.blk (1 : Fin 3).val).silent = false) ∧ (mayClose s.blk (300 : BitVec 16).toNat (trunkOf s.blk (1 : Fin 3).val (xferOf s.blk (1 : Fin 3).val).dst) = true) :=
  ⟨mk [(hEN pgTRUNK, 1)] fun b => setXfer 1 { step := 5 } b, by decide +kernel⟩

theorem wit_TransferOpens_9 : ∃ s : State, (enabled s.blk pgTRUNK = true) ∧ ((xferOf s.blk (1 : Fin 3).val).step = 5) :=
  ⟨mk [(hEN pgTRUNK, 1)] fun b => setXfer 1 { step := 5 } b, by decide +kernel⟩

theorem wit_TransferCloses_1 : ∃ s : State, (enabled s.blk pgTRUNK = true) ∧ ((xferOf s.blk (1 : Fin 3).val).step = 5) ∧ ((xferOf s.blk (1 : Fin 3).val).matched = true) ∧ ((xferOf s.blk (1 : Fin 3).val).silent = false) ∧ (mayPower s.blk = true) ∧ (rankWaits s.blk (1 : Fin 3).val = false) ∧ (handWaits s.blk (trunkOf s.blk (1 : Fin 3).val (xferOf s.blk (1 : Fin 3).val).dst) = false) ∧ (mayClose s.blk (300 : BitVec 16).toNat (trunkOf s.blk (1 : Fin 3).val (xferOf s.blk (1 : Fin 3).val).dst) = true) ∧ ((List.range 8).any (fun r => coilOn s.blk (8 * (1 : Fin 3).val + r) || isOn s.blk (TRUNK.COIL.STAT.WELDED (8 * (1 : Fin 3).val + r))) = false) :=
  ⟨mk [(hEN pgTRUNK, 1), (SYS.MODE.SITE_STATE, 1)] fun b => setXfer 1 { step := 5, dst := 3, matched := true } b, by decide +kernel⟩

theorem wit_TransferCloses_2 : ∃ s : State, (enabled s.blk pgTRUNK = true) ∧ ((xferOf s.blk (1 : Fin 3).val).step = 6) ∧ ((xferOf s.blk (1 : Fin 3).val).silent = false) :=
  ⟨mk [(hEN pgTRUNK, 1)] fun b => setXfer 1 { step := 6, dst := 3 } b, by decide +kernel⟩

theorem wit_TransferCloses_3 : ∃ s : State, (enabled s.blk pgTRUNK = true) ∧ ((xferOf s.blk (1 : Fin 3).val).step = 7) ∧ ((xferOf s.blk (1 : Fin 3).val).dead = false) ∧ ((xferOf s.blk (1 : Fin 3).val).silent = false) ∧ (2 * rd s.blk TRUNK.ZERO.ZERO_I ≤ (60000 : BitVec 16).toNat) :=
  ⟨mk [(hEN pgTRUNK, 1)] fun b => setXfer 1 { step := 7, dst := 3 } b, by decide +kernel⟩

theorem wit_TransferCloses_4 : ∃ s : State, (enabled s.blk pgTRUNK = true) ∧ ((xferOf s.blk (1 : Fin 3).val).step = 7) ∧ ((xferOf s.blk (1 : Fin 3).val).dead = true) ∧ (1500 ≤ (1500 : BitVec 16).toNat) ∧ (100 * ((((1500 : BitVec 16).toNat : Int) - trunkV s.blk (trunkOf s.blk (1 : Fin 3).val (xferOf s.blk (1 : Fin 3).val).dst)).natAbs) ≤ rd s.blk TRUNK.MATCH.MATCH_PCT * (1500 : BitVec 16).toNat) :=
  ⟨mk [(hEN pgTRUNK, 1), (⟨(TRUNK.REACH_LO.T0 1).a, 0, 8⟩, 130)] fun b => setXfer 1 { step := 7, dst := 0, dead := true } { b with trunk := { b.trunk with volt := [(2, 1490)] } }, by decide +kernel⟩

theorem wit_TransferCloses_5 : ∃ s : State, (enabled s.blk pgTRUNK = true) ∧ ((xferOf s.blk (1 : Fin 3).val).step = 9) :=
  ⟨mk [(hEN pgTRUNK, 1), (⟨(TRUNK.REACH_LO.T0 1).a, 0, 8⟩, 130)] fun b => setXfer 1 { step := 9, dst := 0, dead := true } { b with trunk := { b.trunk with volt := [(2, 1490)] } }, by decide +kernel⟩

theorem wit_TransferCloses_6 : ∃ s : State, (enabled s.blk pgTRUNK = true) ∧ (4 ≤ (xferOf s.blk (1 : Fin 3).val).step) ∧ ((xferOf s.blk (1 : Fin 3).val).step ≤ 7) :=
  ⟨mk [(hEN pgTRUNK, 1)] fun b => setXfer 1 { step := 6 } b, by decide +kernel⟩

theorem wit_TransferCloses_7 : ∃ s : State, (enabled s.blk pgTRUNK = true) :=
  ⟨mk [(hEN pgTRUNK, 1)], by decide +kernel⟩

theorem wit_TrunkStops_2 : ∃ s : State, (s.blk.trunk.stopLeft ≠ 0) :=
  ⟨mk [] fun b => { b with trunk := { b.trunk with stopLeft := 50, stopMask := 3 } }, by decide +kernel⟩

theorem wit_TrunkStops_3 : ∃ s : State, (enabled s.blk pgTRUNK = true) ∧ (groupCoil s.blk (1 : Fin 3).val < 8) ∧ (mustOpen s.blk (1 : Fin 3).val = true) ∧ (zeroCurrent s.blk (1 : Fin 3).val = true) :=
  ⟨mk [(hEN pgTRUNK, 1), (MOD.GSTAT.TRIPPED 1, 1), (LSW.CH.STAT.OWNER 10, 1)] (setLsw 10 { live := true, drvOn := true }), by decide +kernel⟩

theorem wit_TrunkStops_4 : ∃ s : State, (enabled s.blk pgTRUNK = true) ∧ (groupCoil s.blk (1 : Fin 3).val < 8) ∧ (stopOpen s.blk (1 : Fin 3).val = true) ∧ (zeroCurrent s.blk (1 : Fin 3).val = false) :=
  ⟨mk [(hEN pgTRUNK, 1), (MOD.GSTAT.TRIPPED 1, 1), (LSW.CH.STAT.OWNER 10, 1), (MOD.MEAS.IGRP 1, 500)] (setLsw 10 { live := true, drvOn := true }), by decide +kernel⟩

theorem wit_TrunkStops_5 : ∃ s : State, (Accepts s.blk (.core 1 : Init) TRUNK.STOP_CLR.CLR.a (6 : Word)) ∧ ((∀ t : Nat, t < 16 → (6 : Word).toNat.testBit t = true → stopBarred s.blk t = false)) :=
  ⟨mk [(TRUNK.TSTOP.STOPPED, 7)], by decide +kernel⟩

theorem wit_CoilWear_1 : ∃ s : State, (Accepts s.blk (.core 1 : Init) TRUNK.WELD_CLR.GO.a (0x80000000 : Word)) ∧ ((0x80000000 : Word).toNat.testBit 31 = true) ∧ ((0x80000000 : Word).toNat % 32 < 24) ∧ (enabled s.blk pgTRUNK = true) :=
  ⟨mk [(hEN pgTRUNK, 1), (TRUNK.COIL.STAT.WELDED 0, 1), (TRUNK.COIL.STAT.FAIL_CLOSE 0, 1), (⟨(TRUNK.REACH_LO.T0 0).a, 0, 8⟩, 131)] fun b => setLock b pgTRUNK { win := some (.core 1), remain := 9 }, by decide +kernel⟩

theorem wit_CoilWear_2 : ∃ s : State, (enabled s.blk pgTRUNK = true) ∧ ((xferOf s.blk (1 : Fin 3).val).step = 13) :=
  ⟨mk [(hEN pgTRUNK, 1)] fun b => setXfer 1 { step := 13, coil := 9 } b, by decide +kernel⟩

theorem wit_CoilWear_3 : ∃ s : State, (Accepts s.blk (.core 1 : Init) TRUNK.OPS_PRESET.VALUE.a (0x17000064 : Word)) ∧ ((0x17000064 : Word).toNat / 2 ^ 24 % 32 < 24) :=
  ⟨mk [] fun b => setLock b pgTRUNK { win := some (.core 1), remain := 9 }, by decide +kernel⟩

theorem wit_PhaseSwitching_1 : ∃ s : State, (enabled s.blk (pgMOD (2 : Fin 3).val) = true) ∧ ((phAct s.blk (2 : Fin 3).val).testBit (5 : Fin 8).val = true) ∧ (maySwitch s.blk (2 : Fin 3).val = true) ∧ (pfWarn s.blk = false) ∧ (rd s.blk (MOD.LIMIT.IPK_SKIP (2 : Fin 3).val) < phRef s.blk (2 : Fin 3).val (5 : Fin 8).val) ∧ (phRef s.blk (2 : Fin 3).val (5 : Fin 8).val < 2 ^ 16) ∧ (applied s.blk (2 : Fin 3).val ≠ 0) ∧ ((modOf s.blk (2 : Fin 3).val).quiet = false) :=
  ⟨mk [(hEN (pgMOD 2), 1), (MOD.GCTL.SYNC_SEL 2, 0), (MOD.GCTL.SLOPE_MODE 2, 0), (MOD.SCALE.FS_I 2, 100), (MOD.SCALE.VG_FS 2, 1000), (MOD.LIMIT.IPK_MAX 2, 500), (MOD.SLOPE.SLOPE 2, 5), (SYS.MODE.SITE_STATE, 1), (MOD.PHASES.PH_EN 2, 0x21), (MOD.IGPK.CMD 2, 400)] fun b => setMod 2 { modOf b 2 with hold := false, calDone := true } b, by decide +kernel⟩

theorem wit_PhaseSwitching_2 : ∃ s : State, (enabled s.blk (pgMOD (2 : Fin 3).val) = true) ∧ ((phAct s.blk (2 : Fin 3).val).testBit (5 : Fin 8).val = true) ∧ (maySwitch s.blk (2 : Fin 3).val = true) ∧ (pfWarn s.blk = false) ∧ ((phRef s.blk (2 : Fin 3).val (5 : Fin 8).val ≤ rd s.blk (MOD.LIMIT.IPK_SKIP (2 : Fin 3).val) ∨ applied s.blk (2 : Fin 3).val = 0)) :=
  ⟨mk [(hEN (pgMOD 2), 1), (MOD.GCTL.SYNC_SEL 2, 0), (MOD.GCTL.SLOPE_MODE 2, 0), (MOD.SCALE.FS_I 2, 100), (MOD.SCALE.VG_FS 2, 1000), (MOD.LIMIT.IPK_MAX 2, 500), (MOD.SLOPE.SLOPE 2, 5), (SYS.MODE.SITE_STATE, 1), (MOD.PHASES.PH_EN 2, 0x21), (MOD.IGPK.CMD 2, 400), (MOD.LIMIT.IPK_SKIP 2, 200)] fun b => setMod 2 { modOf b 2 with hold := false, calDone := true } b, by decide +kernel⟩

theorem wit_PhaseSwitching_3 : ∃ s : State, (enabled s.blk (pgMOD (2 : Fin 3).val) = true) ∧ (phStep s.blk (2 : Fin 3).val (5 : Fin 8).val = 1) ∧ (pfWarn s.blk = false) :=
  ⟨mk [(hEN (pgMOD 2), 1)] fun b => setMod 2 { modOf b 2 with step := [(5, 1)] } b, by decide +kernel⟩

theorem wit_PhaseSwitching_4 : ∃ s : State, (enabled s.blk (pgMOD (2 : Fin 3).val) = true) ∧ (phStep s.blk (2 : Fin 3).val (5 : Fin 8).val = 3) :=
  ⟨mk [(hEN (pgMOD 2), 1)] fun b => setMod 2 { modOf b 2 with step := [(5, 3)] } b, by decide +kernel⟩

theorem wit_PhaseSwitching_5 : ∃ s : State, (enabled s.blk (pgMOD (2 : Fin 3).val) = true) ∧ (phStep s.blk (2 : Fin 3).val (5 : Fin 8).val = 2) ∧ ((phSet s.blk (2 : Fin 3).val (5 : Fin 8).val).least ≤ (900 : BitVec 16).toNat) ∧ (64 * (900 : BitVec 16).toNat ≤ (phSet s.blk (2 : Fin 3).val (5 : Fin 8).val).tonMax) ∧ (dacCode s.blk (2 : Fin 3).val (5 : Fin 8).val (900 : BitVec 16).toNat ≤ (4095 : BitVec 12).toNat) :=
  ⟨mk [(hEN (pgMOD 2), 1)] fun b => setMod 2 { modOf b 2 with step := [(5, 2)], pwmh := 0x20, ph := [(5, { slope := 5, ipkMax := 500, fsI := 100, least := 30, tonMax := 90000 })] } b, by decide +kernel⟩

theorem wit_PhaseSwitching_6 : ∃ s : State, (enabled s.blk (pgMOD (2 : Fin 3).val) = true) ∧ (phStep s.blk (2 : Fin 3).val (5 : Fin 8).val = 2) :=
  ⟨mk [(hEN (pgMOD 2), 1)] fun b => setMod 2 { modOf b 2 with step := [(5, 2)], pwmh := 0x20 } b, by decide +kernel⟩

theorem wit_PhaseAlignment_1 : ∃ s : State, (enabled s.blk (pgMOD (2 : Fin 3).val) = true) ∧ (takesNow s.blk = true) :=
  ⟨mk [(hEN (pgMOD 2), 1)] fun b => setMod 2 { modOf b 2 with corr := 5 } b, by decide +kernel⟩

theorem wit_PhaseAlignment_2 : ∃ s : State, (enabled s.blk (pgMOD (2 : Fin 3).val) = true) ∧ (rd s.blk (MOD.GCTL.SYNC_SEL (2 : Fin 3).val) ≠ 0) ∧ ((-1 : BitVec 32).toInt.natAbs * 1000 ≤ (modOf s.blk (2 : Fin 3).val).sync.tol * (modOf s.blk (2 : Fin 3).val).sync.div * (modOf s.blk (2 : Fin 3).val).perSet) :=
  ⟨mk [(hEN (pgMOD 2), 1), (MOD.GCTL.SYNC_SEL 2, 2), (MOD.SYNC.SYNC_TOL 2, 5), (MOD.SYNC.SYNC_DIV 2, 1)] fun b => setMod 2 { modOf b 2 with miss := 1 } b, by decide +kernel⟩

theorem wit_PhaseAlignment_3 : ∃ s : State, (enabled s.blk (pgMOD (2 : Fin 3).val) = true) ∧ (rd s.blk (MOD.GCTL.SYNC_SEL (2 : Fin 3).val) ≠ 0) :=
  ⟨mk [(hEN (pgMOD 2), 1), (MOD.GCTL.SYNC_SEL 2, 2)] fun b => setMod 2 { modOf b 2 with hold := true } b, by decide +kernel⟩

theorem wit_PhaseAlignment_4 : ∃ s : State, (enabled s.blk (pgMOD (2 : Fin 3).val) = true) :=
  ⟨mk [(hEN (pgMOD 2), 1)] fun b => setMod 2 { modOf b 2 with hold := true } b, by decide +kernel⟩

theorem wit_PhaseAlignment_5 : ∃ s : State, (enabled s.blk (pgMOD (2 : Fin 3).val) = true) :=
  ⟨mk [(hEN (pgMOD 2), 1)] fun b => setMod 2 { modOf b 2 with calRun := true } b, by decide +kernel⟩

theorem wit_PhaseAlignment_6 : ∃ s : State, (enabled s.blk (pgMOD (2 : Fin 3).val) = true) ∧ (nAct s.blk (2 : Fin 3).val ≠ 0) ∧ (rd s.blk (MOD.BAL.K_BAL (2 : Fin 3).val) ≠ 0) ∧ (rd s.blk (MOD.IMB.BAL_MIN (2 : Fin 3).val) ≤ rd s.blk (MOD.MEAS.IGRP (2 : Fin 3).val)) ∧ (isOn s.blk (MOD.GSTAT.CLAMPED (2 : Fin 3).val) = false) ∧ (gateOn s.blk (2 : Fin 3).val = true) ∧ (rd s.blk (MOD.BAL.TRIM_MAX (2 : Fin 3).val) < 2 ^ 15) :=
  ⟨mk [(hEN (pgMOD 2), 1), (MOD.GCTL.SYNC_SEL 2, 0), (MOD.GCTL.SLOPE_MODE 2, 0), (MOD.SCALE.FS_I 2, 100), (MOD.SCALE.VG_FS 2, 1000), (MOD.LIMIT.IPK_MAX 2, 500), (MOD.SLOPE.SLOPE 2, 5), (SYS.MODE.SITE_STATE, 1), (MOD.PHASES.PH_EN 2, 0x21), (MOD.IGPK.CMD 2, 400), (MOD.MEAS.IGRP 2, 1000), (MOD.PH.PREF.I_MEAN 2 0, 900), (MOD.BAL.K_BAL 2, 64), (MOD.BAL.TRIM_MAX 2, 20)] fun b => setMod 2 { modOf b 2 with hold := false, calDone := true } b, by decide +kernel⟩

theorem wit_PhaseAlignment_7 : ∃ s : State, (enabled s.blk (pgMOD (2 : Fin 3).val) = true) ∧ ((true : Bool) = imbalanced s.blk (2 : Fin 3).val (5 : Fin 8).val) :=
  ⟨mk [(hEN (pgMOD 2), 1), (MOD.PHASES.PH_EN 2, 0x21), (MOD.MEAS.IGRP 2, 1000), (MOD.PH.PREF.I_MEAN 2 5, 900), (MOD.PH.PREF.I_MEAN 2 0, 100)] fun b => setMod 2 { modOf b 2 with hold := true } b, by decide +kernel⟩

theorem wit_PhaseFaults_1 : ∃ s : State, (enabled s.blk (pgMOD (2 : Fin 3).val) = true) ∧ ((rd s.blk (MOD.GSTAT.PH_FAULT (2 : Fin 3).val)).testBit (5 : Fin 8).val = false) ∧ (takesNow s.blk = true) :=
  ⟨mk [(hEN (pgMOD 2), 1)] fun b => setMod 2 { modOf b 2 with step := [(5, 2)], fault := some 0 } b, by decide +kernel⟩

theorem wit_PhaseFaults_2 : ∃ s : State, (Accepts (setMod (2 : Fin 3).val { modOf s.blk (2 : Fin 3).val with desat := (0 : BitVec 8).toNat } s.blk) (.ctrl : Init) (MOD.ARM.PH (2 : Fin 3).val).a ((0x21 : BitVec 8).setWidth 32)) :=
  ⟨mk [(MOD.GSTAT.PH_FAULT 2, 0x31)], by decide +kernel⟩

theorem wit_PhaseFaults_3 : ∃ s : State, (Accepts s.blk (.ctrl : Init) (MOD.ARM.PH (2 : Fin 3).val).a 0x100) :=
  ⟨mk [(MOD.GSTAT.TRIPPED 2, 1), (FCTR.GRP_STAT.TRUNK 2, 31)], by decide +kernel⟩

theorem wit_PhaseFaults_4 : ∃ s : State, (enabled s.blk (pgMOD (2 : Fin 3).val) = true) ∧ (pfWarn s.blk = true) ∧ (isOn s.blk (MOD.GSTAT.PF_STOP (2 : Fin 3).val) = false) :=
  ⟨mk [(hEN (pgMOD 2), 1), (FPMU.PFSTAT.WARN, 1)] fun b => setMod 2 { modOf b 2 with hold := true } b, by decide +kernel⟩

theorem wit_GroupCommands_1 : ∃ s : State, (enabled s.blk (pgMOD (2 : Fin 3).val) = true) ∧ ((4 : BitVec 12).toNat = 2 ^ gIdx s.blk (2 : Fin 3).val) ∧ ((modOf s.blk (2 : Fin 3).val).last = none) ∧ ((eFollow s.blk : Int) ≤ applyInstant s.blk (3 : BitVec 32).toNat) :=
  ⟨mk [(hEN (pgMOD 2), 1)] fun b => setMod 2 { modOf b 2 with hold := true } b, by decide +kernel⟩

theorem wit_GroupCommands_2 : ∃ s : State, (enabled s.blk (pgMOD (2 : Fin 3).val) = true) ∧ ((modOf s.blk (2 : Fin 3).val).cmds = ({ cycle := 3, trunk := 4, ref := 777, owner := 1 } : CmdRt) :: ([] : List CmdRt)) ∧ ((modOf s.blk (2 : Fin 3).val).last = none) ∧ ((modOf s.blk (2 : Fin 3).val).only = none) :=
  ⟨mk [(hEN (pgMOD 2), 1)] fun b => setMod 2 { modOf b 2 with cmds := [{ cycle := 3, trunk := 4, ref := 777, owner := 1 }] } b, by decide +kernel⟩

theorem wit_GroupCommands_3 : ∃ s : State, (enabled s.blk (pgMOD (2 : Fin 3).val) = true) ∧ ((modOf s.blk (2 : Fin 3).val).last.isSome = true) ∧ ((modOf s.blk (2 : Fin 3).val).timedOut = false) :=
  ⟨mk [(hEN (pgMOD 2), 1)] fun b => setMod 2 { modOf b 2 with last := some { cycle := 3, trunk := 4, ref := 777, owner := 1 } } b, by decide +kernel⟩

theorem wit_OrderBook_1 : ∃ s : State, (Accepts s.blk (.core 0 : Init) BOOK.SUB_GO.GO.a (1 : Word)) ∧ ((1 : Word).toNat.testBit 0 = true) ∧ (enabled s.blk pgBOOK = true) ∧ (orderCheck s.blk (subOrder s.blk) = 0) ∧ (ownPort s.blk (subOrder s.blk).port = true) ∧ (mayPower s.blk = true) :=
  ⟨mk [(hEN pgBOOK, 1), (SYS.MODE.SITE_STATE, 1), (VP.VCTL.TYPE 0, 1), (FCTR.PORT_LIM.I_CABLE 0, 500), (BOOK.SUB_W0.KIND, 2)], by decide +kernel⟩

theorem wit_OrderBook_2 : ∃ s : State, (Accepts s.blk (.core 0 : Init) BOOK.CANCEL.GO.a (0x00300001 : Word)) ∧ ((0x00300001 : Word).toNat.testBit 0 = true) ∧ (enabled s.blk pgBOOK = true) ∧ (ownPort s.blk ((0x00300001 : Word).toNat / 2 ^ 24) = true) ∧ (cancelCheck s.blk ((0x00300001 : Word).toNat / 2 ^ 24) ((0x00300001 : Word).toNat / 2 ^ 20 % 16) = 0) :=
  ⟨mk [(hEN pgBOOK, 1), (SYS.MODE.SITE_STATE, 1)] (setOrder 3 { req := { port := 0, kind := 1 }, state := 2 }), by decide +kernel⟩

theorem wit_OrderBook_3 : ∃ s : State, (enabled s.blk pgBOOK = true) ∧ (accepts s.blk = true) ∧ (orderCheck s.blk ({ port := 0, kind := 2, src := 1 } : OrderReq) = 0) ∧ ((portSlots ({ port := 0, kind := 2, src := 1 } : OrderReq).port).all (fun j => orderLive (orderOf s.blk j)) = false) ∧ (slotFor s.blk ({ port := 0, kind := 2, src := 1 } : OrderReq).port = some (0 : Nat)) ∧ (takesNow s.blk = true) :=
  ⟨mk [(hEN pgBOOK, 1), (SYS.MODE.SITE_STATE, 1)], by decide +kernel⟩

theorem wit_OrderBook_4 : ∃ s : State, (enabled s.blk pgBOOK = true) ∧ (accepts s.blk = true) ∧ (cancelCheck s.blk (0 : Nat) (3 : Nat) = 0) ∧ (takesNow s.blk = true) :=
  ⟨mk [(hEN pgBOOK, 1), (SYS.MODE.SITE_STATE, 1)] (setOrder 3 { req := { port := 0, kind := 1 }, state := 2 }), by decide +kernel⟩

theorem wit_OrderBook_5 : ∃ s : State, (enabled s.blk pgBOOK = true) ∧ (openOrder s.blk (0 : Nat) 1 = some (3 : Nat)) ∧ (takesNow s.blk = true) :=
  ⟨mk [(hEN pgBOOK, 1), (FCTR.LOOP.FAULT_LIMIT, 1)] (setOrder 3 { req := { port := 0, kind := 1 }, state := 2 }), by decide +kernel⟩

theorem wit_OrderBook_6 : ∃ s : State, (enabled s.blk pgBOOK = true) ∧ (takesNow s.blk = true) :=
  ⟨mk [(hEN pgBOOK, 1)], by decide +kernel⟩

theorem wit_OrderBook_7 : ∃ s : State, (enabled s.blk pgBOOK = true) ∧ (ownPort s.blk (orderPort (.withdraw 0 2 : OrderMsg)) = true) ∧ (s.blk.factor.inFlight = some (.withdraw 0 2 : OrderMsg)) ∧ (takesNow s.blk = true) :=
  ⟨mk [(hEN pgBOOK, 1)] fun b => { b with factor := { b.factor with inFlight := some (.withdraw 0 2) } }, by decide +kernel⟩

theorem wit_OrderBook_8 : ∃ s : State, (Accepts s.blk (.core 0 : Init) FCTR.GRP_ARM.ARM.a (0x801 : Word)) :=
  ⟨mk [(FCTR.GRP_STAT.BLOCKED 11, 1)], by decide +kernel⟩

theorem wit_OrderBook_9 : ∃ s : State, (Accepts s.blk (.core 0 : Init) FCTR.BOOK_CTL.RUN.a (0x10A64 : Word)) ∧ (FCTR.BOOK_CTL.RUN.of (0x10A64 : Word) = 1) :=
  ⟨mk [] fun b => setLock b pgFCTR { win := some (.core 0), remain := 9 }, by decide +kernel⟩

theorem wit_OrderBook_10 : ∃ s : State, (enabled s.blk pgFCTR = true) :=
  ⟨mk [(hEN pgFCTR, 1), (FCTR.BOOK_CTL.RUN, 1), (FCTR.CLR_NUM.CLR_NUM, 0xFFFFFFFF)] fun b => { b with factor := { b.factor with regain := true } }, by decide +kernel⟩

theorem wit_ClearingLevels_1 : ∃ s : State, (enabled s.blk pgFCTR = true) ∧ (isMaster s.blk = true) ∧ (takesNow s.blk = true) :=
  ⟨mk [(hEN pgFCTR, 1)], by decide +kernel⟩

theorem wit_ClearingLevels_2 : ∃ s : State, (enabled s.blk pgFCTR = true) ∧ (isManager s.blk = true) ∧ (frameLE ([4, 0, 0, 0, 3, 0, 0, 0, 77] : List Byte) 4 1 < 16) ∧ (takesNow s.blk = true) :=
  ⟨mk [(hEN pgFCTR, 1), (SYS.MODE.ROLE, 2)], by decide +kernel⟩

theorem wit_ClearingLevels_3 : ∃ s : State, (enabled s.blk pgFCTR = true) ∧ (runsTwo s.blk = true) ∧ (isOn s.blk FCTR.BOOK_CTL.RUN = true) ∧ ((isManager s.blk = true ∨ s.blk.factor.isolated = true)) :=
  ⟨mk [(hEN pgFCTR, 1), (FCTR.BOOK_CTL.RUN, 1)], by decide +kernel⟩

theorem wit_ClearingLevels_4 : ∃ s : State, (enabled s.blk pgFCTR = true) ∧ (runsTwo s.blk = true) ∧ (isOn s.blk FCTR.BOOK_CTL.RUN = true) ∧ (isManager s.blk = false) ∧ (s.blk.factor.isolated = false) :=
  ⟨mk [(hEN pgFCTR, 1), (FCTR.BOOK_CTL.RUN, 1), (SYS.MODE.ROLE, 1)], by decide +kernel⟩

theorem wit_ClearingLevels_5 : ∃ s : State, (enabled s.blk pgFCTR = true) ∧ (isOn s.blk FCTR.BOOK_CTL.RUN = true) ∧ (mayPower s.blk = true) ∧ ((s.blk.factor.isolated = true ∨ isManager s.blk = true)) :=
  ⟨mk [(hEN pgFCTR, 1), (FCTR.BOOK_CTL.RUN, 1), (SYS.MODE.SITE_STATE, 1)], by decide +kernel⟩

theorem wit_ClearingLevels_6 : ∃ s : State, (enabled s.blk pgFCTR = true) ∧ (isOn s.blk FCTR.BOOK_CTL.RUN = true) ∧ (mayPower s.blk = true) ∧ (s.blk.factor.isolated = false) ∧ (isManager s.blk = true) :=
  ⟨mk [(hEN pgFCTR, 1), (FCTR.BOOK_CTL.RUN, 1), (SYS.MODE.SITE_STATE, 1), (FCTR.SITE_CAP.CAP_KW, 500)] fun b => { b with factor := { b.factor with cutDmd := (900000, 400, 900000, 3) } }, by decide +kernel⟩

theorem wit_ClearingLevels_7 : ∃ s : State, (enabled s.blk pgFCTR = true) ∧ (isMaster s.blk = true) ∧ (rd s.blk SYS.MODE.ROLE = 1) ∧ (({ stack := 0, budget := 10, grants := [10] } : GrantFrame).stack = sitePort s.blk 0 / 16) ∧ (rd s.blk SYS.MODE.SITE_STATE ≠ 3) ∧ (s.blk.factor.grantLate = false) ∧ (takesNow s.blk = true) :=
  ⟨mk [(hEN pgFCTR, 1), (SYS.MODE.ROLE, 1), (SYS.MODE.STACK, 0)], by decide +kernel⟩

theorem wit_ClearingLevels_8 : ∃ s : State, (enabled s.blk pgFCTR = true) ∧ (isMaster s.blk = true) ∧ (rd s.blk SYS.MODE.ROLE = 1) ∧ (isOn s.blk FCTR.BOOK_CTL.RUN = true) ∧ (s.blk.factor.frameNew = false) :=
  ⟨mk [(hEN pgFCTR, 1), (FCTR.BOOK_CTL.RUN, 1), (SYS.MODE.ROLE, 1), (FCTR.CLR_STAT.OVERRUNS, 255)], by decide +kernel⟩

theorem wit_ClearingLevels_9 : ∃ s : State, (enabled s.blk pgFCTR = true) ∧ (s.blk.factor.planLate = false) ∧ (takesNow s.blk = true) :=
  ⟨mk [(hEN pgFCTR, 1)], by decide +kernel⟩

theorem wit_ClearingLevels_10 : ∃ s : State, (enabled s.blk pgFCTR = true) ∧ (s.blk.factor.planNext = none) ∧ ((runsTwo s.blk = false ∨ isOn s.blk FCTR.BOOK_CTL.RUN = true)) :=
  ⟨mk [(hEN pgFCTR, 1), (FCTR.BOOK_CTL.RUN, 1)], by decide +kernel⟩

theorem wit_ClearingLevels_11 : ∃ s : State, (enabled s.blk pgFCTR = true) ∧ (s.blk.factor.planNext = some ({ clr := 4 } : Plan)) :=
  ⟨mk [(hEN pgFCTR, 1)] fun b => { b with factor := { b.factor with planNext := some { clr := 4 } } }, by decide +kernel⟩

theorem wit_LostPeers_1 : ∃ s : State, (enabled s.blk pgFCTR = true) ∧ (rd s.blk SYS.MODE.ROLE = 2) :=
  ⟨mk [(hEN pgFCTR, 1), (SYS.MODE.ROLE, 2), (FCTR.PEERS.PRESENT, 9)] (storeBid { stack := 3 }), by decide +kernel⟩

theorem wit_LostPeers_2 : ∃ s : State, (enabled s.blk pgFCTR = true) ∧ (isMaster s.blk = true) :=
  ⟨mk [(hEN pgFCTR, 1), (SYS.MODE.ROLE, 1)] (storeReport 2 { slots := 3 }), by decide +kernel⟩

theorem wit_LostPeers_3 : ∃ s : State, (enabled s.blk pgFCTR = true) ∧ (rd s.blk SYS.MODE.SITE_STATE = 2) :=
  ⟨mk [(hEN pgFCTR, 1), (SYS.MODE.SITE_STATE, 2)], by decide +kernel⟩

theorem wit_LostPeers_4 : ∃ s : State, (enabled s.blk pgFCTR = true) ∧ (isManager s.blk = true) ∧ (takesNow s.blk = true) :=
  ⟨mk [(hEN pgFCTR, 1), (SYS.MODE.ROLE, 2)] (setOrder 514 { state := 2 }), by decide +kernel⟩

theorem wit_LostPeers_5 : ∃ s : State, (enabled s.blk pgFCTR = true) ∧ (isManager s.blk = false) ∧ (isMaster s.blk = true) ∧ (2 ≤ rd s.blk SYS.MODE.SITE_STATE) ∧ (takesNow s.blk = true) :=
  ⟨mk [(hEN pgFCTR, 1), (SYS.MODE.ROLE, 1), (SYS.MODE.SITE_STATE, 3)], by decide +kernel⟩

theorem wit_ControlLoops_1 : ∃ s : State, (enabled s.blk pgCE = true) ∧ ((0x20 : BitVec 16).toNat = 2 ^ (5 : Fin 16).val) ∧ (kindOf s.blk (5 : Fin 16).val ≠ 0) ∧ (pfWarn s.blk = false) ∧ ((slotOf s.blk (5 : Fin 16).val).hand = 0) ∧ ((slotOf s.blk (5 : Fin 16).val).drop = false) ∧ ((slotOf s.blk (5 : Fin 16).val).ending = false) :=
  ⟨mk [(hEN pgCE, 1), (CE.SLOT.CFG.KIND 5, 1), (CE.SLOT.BIND.TRUNK 5, 3)] (setSlot 5 { u := 400 }), by decide +kernel⟩

theorem wit_ControlLoops_2 : ∃ s : State, (enabled s.blk pgCE = true) :=
  ⟨mk [(hEN pgCE, 1)] fun b => { b with ce := { b.ce with win := [(1, (10, 20, 2))] } }, by decide +kernel⟩

theorem wit_ControlLoops_3 : ∃ s : State, (enabled s.blk pgCE = true) ∧ (kindOf s.blk (5 : Fin 16).val ≠ 0) :=
  ⟨mk [(hEN pgCE, 1), (CE.SLOT.CFG.KIND 5, 1), (CE.SLOT.BIND.TRUNK 5, 3), (CE.SLOT.CYCLE.CYCLE 5, 7)], by decide +kernel⟩

theorem wit_ControlLoops_4 : ∃ s : State, (enabled s.blk pgCE = true) ∧ (kindOf s.blk (5 : Fin 16).val ≠ 0) :=
  ⟨mk [(hEN pgCE, 1), (CE.SLOT.CFG.KIND 5, 2)] (setSlot 5 { u := 400, rel := 300 }), by decide +kernel⟩

theorem wit_ControlLoops_5 : ∃ s : State, (enabled s.blk pgCE = true) ∧ (kindOf s.blk (5 : Fin 16).val = 1) ∧ (pstate s.blk (5 : Fin 16).val = 4) ∧ (rd s.blk (CE.SLOT.STATE.RETRY (5 : Fin 16).val) ≤ rd s.blk CE.SSTART.RETRY_MAX) :=
  ⟨mk [(hEN pgCE, 1), (CE.SLOT.CFG.KIND 5, 1), (CE.SLOT.STATE.PSTATE 5, 4)] (setSlot 5 { coolUs := 4, iRef := 3000 }), by decide +kernel⟩

theorem wit_ControlLoops_6 : ∃ s : State, (enabled s.blk pgCE = true) ∧ ((takesNow s.blk = true ∨ cycOlder (9 : BitVec 32).toNat (cycleNow s.blk) = false)) ∧ (kindOf s.blk (5 : Fin 16).val = 1) ∧ (rd s.blk (CE.SLOT.BIND.TRUNK (5 : Fin 16).val) = (3 : Fin 16).val) :=
  ⟨mk [(hEN pgCE, 1), (CE.SLOT.CFG.KIND 5, 1), (CE.SLOT.BIND.TRUNK 5, 3)], by decide +kernel⟩

theorem wit_ControlLoops_7 : ∃ s : State, (enabled s.blk pgCE = true) ∧ (slotFor' s.blk (3 : Fin 16).val < 16) ∧ ((slotOf s.blk (slotFor' s.blk (3 : Fin 16).val)).hand = 1) ∧ (takesNow s.blk = true) :=
  ⟨mk [(hEN pgCE, 1), (CE.SLOT.CFG.KIND 5, 1), (CE.SLOT.BIND.TRUNK 5, 3)] (setSlot 5 { hand := 1, handAt := 20 }), by decide +kernel⟩

theorem wit_ControlLoops_8 : ∃ s : State, (enabled s.blk pgCE = true) ∧ (slotFor' s.blk (3 : Fin 16).val < 16) ∧ ((slotOf s.blk (slotFor' s.blk (3 : Fin 16).val)).hand = 2) ∧ (takesNow s.blk = true) :=
  ⟨mk [(hEN pgCE, 1), (CE.SLOT.CFG.KIND 5, 1), (CE.SLOT.BIND.TRUNK 5, 3)] (setSlot 5 { hand := 2, handAt := 20 }), by decide +kernel⟩

theorem wit_GainsAndTuning_1 : ∃ s : State, (Accepts s.blk (.ctrl : Init) LUT.COMMIT.TBL.a (4 : Word)) ∧ (enabled s.blk pgLUT = true) ∧ ((4 : Word).toNat.testBit (2 : Fin 8).val = true) ∧ (shadowValid s.blk (2 : Fin 8).val = true) :=
  ⟨mk [(hEN pgLUT, 1), (LUT.TBL.NPTS 2, 2), (LUT.PT.BP.BP 16, 10), (LUT.PT.BP.BP 17, 20)], by decide +kernel⟩

theorem wit_GainsAndTuning_2 : ∃ s : State, (Accepts s.blk (.ctrl : Init) CE.TUNE_GO.GO.a 1) ∧ (enabled s.blk pgCE = true) :=
  ⟨mk [(hEN pgCE, 1), (CE.SLOT.CFG.KIND 5, 3), (CE.TUNE.SLOT, 5)], by decide +kernel⟩

theorem wit_GainsAndTuning_3 : ∃ s : State, (Accepts s.blk (.ctrl : Init) CE.TUNE_GO.GO.a 2) ∧ (enabled s.blk pgCE = true) ∧ (rd s.blk CE.TUNE_STAT.STATE = 1) :=
  ⟨mk [(hEN pgCE, 1), (CE.TUNE_STAT.STATE, 1)] fun b => { b with ce := { b.ce with tune := { slot := 5, started := true, back := 2 } } }, by decide +kernel⟩

theorem wit_GainsAndTuning_4 : ∃ s : State, (enabled s.blk pgCE = true) ∧ (rd s.blk CE.TUNE_STAT.STATE = 1) ∧ (s.blk.ce.tune.oscs = 0) ∧ (64 * (rd s.blk CE.TUNE.CYC + 2) * 16 ≤ s.blk.ce.tune.total) :=
  ⟨mk [(hEN pgCE, 1), (CE.TUNE_STAT.STATE, 1)] fun b => { b with ce := { b.ce with tune := { total := 90000 } } }, by decide +kernel⟩

theorem wit_GainsAndTuning_5 : ∃ s : State, (enabled s.blk pgCE = true) :=
  ⟨mk [(hEN pgCE, 1)], by decide +kernel⟩

theorem wit_GainsAndTuning_6 : ∃ s : State, (enabled s.blk pgCE = true) :=
  ⟨mk [(hEN pgCE, 1)], by decide +kernel⟩

theorem wit_MemoryCommands_1 : ∃ s : State, ((.met : Init) ≠ .host) ∧ (regionAt (.met : Init).side (0x101 : BitVec 32).toNat = some (.tcm : Region)) ∧ (regionAt (.met : Init).side ((0x101 : BitVec 32).toNat + 2 ^ (1 : Fin 4).val - 1) = some (.tcm : Region)) ∧ ((.tcm : Region) ≠ .hostPages) ∧ ((.tcm : Region) ≠ .fieldPages) ∧ ((∀ k : Nat, k < 2 ^ (1 : Fin 4).val → markOf s.blk (memKey (.met : Init) (0x101 : BitVec 32).toNat + k) = .clean)) :=
  ⟨mk [] (putBytes (3 * 2 ^ 32 + 0x100) [1, 2, 3, 4]), by decide +kernel⟩

theorem wit_MemoryCommands_2 : ∃ s : State, (regionAt (.ctrl : Init).side (0x60010041 : BitVec 32).toNat = none ∨ ((regionAt (.ctrl : Init).side (0x60010041 : BitVec 32).toNat = some .hostPages ∨ regionAt (.ctrl : Init).side (0x60010041 : BitVec 32).toNat = some .fieldPages) ∧ ((2 : Fin 4).val ≠ 2 ∨ (0x60010041 : BitVec 32).toNat % 4 ≠ 0 ∨ (false : Bool) = true))) :=
  ⟨State.reset, by decide +kernel⟩

theorem wit_MemoryCommands_5 : ∃ s : State, (Accepts s.blk (.core 0 : Init) MEM.INJ.GO.a ((3 : Word) ||| 0x80000000)) :=
  ⟨mk [] fun b => setLock b pgMEM { win := some (.core 0), remain := 9 }, by decide +kernel⟩

theorem wit_MemoryCommands_6 : ∃ s : State, (Accepts s.blk (.core 0 : Init) MMU.INV.GO.a ((0x20000003 : Word) ||| 0x80000000)) ∧ ((0x20000003 : Word).toNat / 2 ^ 29 % 4 ≠ 3) :=
  ⟨mk [] fun b => { b with memory := { b.memory with tlb := [⟨3, 1, 12, 0, true, true⟩, ⟨4, 1, 12, 0, true, true⟩] } }, by decide +kernel⟩

theorem wit_MemoryCommands_7 : ∃ s : State, (s.blk.memory.inv = some ((1 : Nat), (3 : Nat), (0 : Nat))) :=
  ⟨mk [(MMU.INV_STAT.BUSY, 1)] fun b => { b with memory := { b.memory with inv := some (1, 3, 0), tlb := [⟨3, 1, 12, 0, true, true⟩] } }, by decide +kernel⟩

theorem wit_MemoryCommands_8 : ∃ s : State, (Accepts s.blk (.core 3 : Init) MMU.FQ_POP.GO.a 1) :=
  ⟨mk [] fun b => { b with memory := { b.memory with faults := [⟨4096, true, 3, 1⟩, ⟨8192, false, 3, 1⟩] } }, by decide +kernel⟩

theorem wit_DmaCommands_1 : ∃ s : State, (Accepts s.blk (.core 1 : Init) (DMA.CH.RING.TAIL (4 : Fin 32).val).a (0x00020008 : Word)) :=
  ⟨mk [(DMA.CH.RING.SIZE 4, 8), (DMA.CH.RING.TAIL 4, 7)], by decide +kernel⟩

theorem wit_DmaCommands_2 : ∃ s : State, (dmaChoose s.blk = some (4 : Nat)) :=
  ⟨mk [(hEN pgDMA, 1), (DMA.CH.CFG.EN 4, 1), (DMA.CH.RING.SIZE 4, 8), (DMA.CH.RING.TAIL 4, 1)], by decide +kernel⟩

theorem wit_DmaCommands_3 : ∃ s : State, (Accepts s.blk (.core 1 : Init) (DMA.CH.CMD.RESUME (4 : Fin 32).val).a 2) :=
  ⟨mk [(hEN pgDMA, 1), (DMA.CH.CFG.EN 4, 1), (DMA.CH.CSTAT.STATE 4, 4), (DMA.CH.CSTAT.CAUSE 4, 1)], by decide +kernel⟩

theorem wit_DmaCommands_4 : ∃ s : State, (Accepts s.blk (.core 1 : Init) (DMA.CH.CMD.RESUME (4 : Fin 32).val).a 1) ∧ ((dmaWriteBack (4 : Fin 32).val 0x1000 true (wr (writeOf s.blk (.core 1 : Init) (DMA.CH.CMD.RESUME (4 : Fin 32).val).a 1).blk (DMA.CH.CSTAT.CAUSE (4 : Fin 32).val) 0)).2 = true) :=
  ⟨mk [(hEN pgDMA, 1), (DMA.CH.CFG.EN 4, 1), (DMA.CH.CSTAT.STATE 4, 4), (DMA.CH.CSTAT.CAUSE 4, 1), (MMU.STR.ROOT.EN 4, 1)] fun b => { setDesc 4 { held := true, len := 64 } b with memory := { (setDesc 4 { held := true, len := 64 } b).memory with tlb := [⟨4, 0, 12, 0x10000000, true, true⟩] } }, by decide +kernel⟩

theorem wit_DaybookCommands_1 : ∃ s : State, (isOn s.blk DBK.DSTAT.SEALED = false) :=
  ⟨State.reset, by decide +kernel⟩

theorem wit_DaybookCommands_2 : ∃ s : State, (Accepts s.blk (.core 1 : Init) DBK.WR_GO.GO.a (1 : Word)) ∧ ((1 : Word).toNat.testBit 0 = true) ∧ (isOn s.blk DBK.DSTAT.SEALED = false) ∧ (s.blk.daybook.sealing = false) ∧ (s.blk.daybook.queue.length < 48) :=
  ⟨State.reset, by decide +kernel⟩

theorem wit_DaybookCommands_3 : ∃ s : State, (s.blk.daybook.queue = ({ code := 3, perm := true, time := 9, payload := [1] } : DbReq) :: ([] : List DbReq)) ∧ (isOn s.blk DBK.DSTAT.SEALED = false) :=
  ⟨mk [] fun b => { b with daybook := { b.daybook with queue := [{ code := 3, perm := true, time := 9, payload := [1] }] } }, by decide +kernel⟩

theorem wit_DaybookCommands_4 : ∃ s : State, (Accepts s.blk (.core 1 : Init) DBK.REL_HI.SEQ.a (0 : Word)) ∧ (rd s.blk DBK.REL_LO.SEQ + 2 ^ 32 * (0 : Word).toNat < rd64 s.blk DBK.NEXT_SEQ.SEQ) ∧ (rd s.blk DBK.P_USED.USED ≤ 8192) ∧ (s.blk.memory.marks.all (fun e => decide (e.1 < 0xC000000 ∨ 0xC020000 ≤ e.1)) = true) :=
  ⟨mk [(DBK.P_USED.USED, 3), (DBK.REL_LO.SEQ, 5), (DBK.NEXT_SEQ.SEQ, 9)] (putBytes (permA 1 + 4) [8]), by decide +kernel⟩

theorem wit_DaybookCommands_5 : ∃ s : State, (isOn s.blk DBK.DSTAT.SEALED = false) ∧ (s.blk.daybook.sealing = false) :=
  ⟨State.reset, by decide +kernel⟩

theorem wit_DaybookCommands_7 : ∃ s : State, (isOn s.blk DBK.DSTAT.COPYING = true) ∧ (s.blk.daybook.copyWait = none) :=
  ⟨mk [(DBK.DSTAT.COPYING, 1)], by decide +kernel⟩

theorem wit_HostTime_1 : ∃ s : State, (Accepts s.blk (.core 1 : Init) (TIME.DOM.ADD_HI.INT (1 : Fin 2).val).a (4 : Word)) ∧ (0x03FEF9DB23 ≤ (4 : Word).toNat % 256 * 2 ^ 32 + (domOf s.blk (1 : Fin 2).val).shadow) ∧ ((4 : Word).toNat % 256 * 2 ^ 32 + (domOf s.blk (1 : Fin 2).val).shadow ≤ 0x04010624DD) :=
  ⟨mk [] fun b => setLock (setDom 1 { domOf b 1 with shadow := 4097 } b) pgTIME { win := some (.core 1), remain := 9 }, by decide +kernel⟩

theorem wit_HostTime_2 : ∃ s : State, (Accepts s.blk (.core 1 : Init) TIME.STEP_GO.GO.a (3 : Word)) ∧ ((3 : Word).toNat.testBit 0 = true) :=
  ⟨mk [(TIME.STEP_LO.LO, 0xFFFFFFFF), (TIME.STEP_HI.HI, 0xFFFFFFFF)] fun b => setLock b pgTIME { win := some (.core 1), remain := 9 }, by decide +kernel⟩

theorem wit_HostTime_3 : ∃ s : State, (Accepts s.blk (.core 1 : Init) (TIME.DOM.SRC.SRC (1 : Fin 2).val).a (2 : Word)) ∧ ((TIME.DOM.SRC.SRC (1 : Fin 2).val).of (2 : Word) ≠ 0) ∧ ((TIME.DOM.SRC.SRC (1 : Fin 2).val).of (2 : Word) ≠ rd s.blk (TIME.DOM.SRC.SRC (1 : Fin 2).val)) :=
  ⟨mk [] fun b => setLock (setDom 1 { domOf b 1 with freq := 4 } b) pgTIME { win := some (.core 1), remain := 9 }, by decide +kernel⟩

theorem wit_HostTime_4 : ∃ s : State, (Accepts s.blk (.core 1 : Init) (TIME.DOM.SRC.SRC (1 : Fin 2).val).a ((TIME.DOM.SRC.PTP_LOCK (1 : Fin 2).val).ins (wordOf s.blk (TIME.DOM.SRC.SRC (1 : Fin 2).val).a) (b2n (true : Bool)))) ∧ (rd s.blk (TIME.DOM.SRC.SRC (1 : Fin 2).val) = 1) :=
  ⟨mk [(TIME.DOM.SRC.SRC 1, 1)] fun b => setLock b pgTIME { win := some (.core 1), remain := 9 }, by decide +kernel⟩

theorem wit_HostTime_5 : ∃ s : State, ((isStandby s.blk = true ∨ 2 ≤ rd s.blk (TIME.DOM.SRC.SRC (1 : Fin 2).val))) ∧ (isOn s.blk (TIME.DOM.STAT.SET (1 : Fin 2).val) = true) ∧ ((-7 : BitVec 64).toInt.natAbs ≤ rd s.blk (TIME.DOM.STEP_THR.NS (1 : Fin 2).val)) :=
  ⟨mk [(TIME.DOM.SRC.SRC 1, 3), (TIME.DOM.STAT.SET 1, 1), (TIME.DOM.STEP_THR.NS 1, 100)], by decide +kernel⟩

theorem wit_HostTime_6 : ∃ s : State, (2 ≤ rd s.blk (TIME.DOM.SRC.SRC (0 : Fin 2).val)) :=
  ⟨mk [(TIME.DOM.SRC.SRC 0, 3), (TIME.DOM.STAT.LOCKED 0, 1)], by decide +kernel⟩

theorem wit_HostTime_7 : ∃ s : State, (addendOf s.blk (1 : Fin 2).val ≠ 0) ∧ (s.blk.boot.host.lost.testBit 2 = false) :=
  ⟨mk [] (setDom 1 { e := 2 ^ 96 - 5 }), by decide +kernel⟩

theorem wit_TimeOutputs_1 : ∃ s : State, ((domOf s.blk 0).stepDue = none) ∧ ((domOf s.blk 1).stepDue = none) :=
  ⟨State.reset, by decide +kernel⟩

theorem wit_TimeOutputs_2 : ∃ s : State, ((domOf s.blk 0).stepDue = some (-3 : Int)) :=
  ⟨mk [] (setDom 0 { stepDue := some (-3) }), by decide +kernel⟩

theorem wit_TimeOutputs_3 : ∃ s : State, (((true : Bool) = false ∨ (3 : Fin 8).val < 4)) ∧ (rd s.blk ⟨capReg (true : Bool) (3 : Fin 8).val, 0, 3⟩ ≠ 0) ∧ ((Tab.at' (fun _ => []) s.blk.time.caps (capNo (true : Bool) (3 : Fin 8).val)).length < 4) ∧ (takesNow s.blk = true) :=
  ⟨mk [(⟨capReg true 3, 0, 3⟩, 2)], by decide +kernel⟩

theorem wit_TimeOutputs_4 : ∃ s : State, (((.core 2 : Init).side = .hostSide ∨ (7 : Fin 8).val < 4)) ∧ (isOn s.blk (hBUSY (if onField (.core 2 : Init) then pgFTIME else pgTIME)) = false) :=
  ⟨mk [] fun b => { b with time := { b.time with caps := [(7, [⟨1, 2, 3, 4⟩])] } }, by decide +kernel⟩

theorem wit_TimeOutputs_5 : ∃ s : State, (isOn s.blk TIME.PPS_CTL.OUT_EN = true) ∧ (isOn s.blk (TIME.DOM.STAT.SET (rd s.blk TIME.PPS_CTL.OUT_DOM)) = true) ∧ (isStandby s.blk = false) :=
  ⟨mk [(TIME.PPS_CTL.OUT_EN, 1), (TIME.DOM.STAT.SET 0, 1)], by decide +kernel⟩

theorem wit_TimeOutputs_6 : ∃ s : State, (Accepts s.blk (.ctrl : Init) FTIME.FCTL.FDOM.a (0x10032 : Word)) :=
  ⟨mk [(FTIME.FSTAT.AGREE, 1), (FTIME.FSTAT.A_LOCK, 1), (FTIME.FSTAT.B_LOCK, 1)] fun b => setLock b pgFTIME { win := some .ctrl, remain := 9 }, by decide +kernel⟩

theorem wit_TimeOutputs_8 : ∃ s : State, (copySet s.blk (legalField s.blk) = true) :=
  ⟨mk [(FTIME.FSTAT.A_SET, 1)] (setCopy 0 { e := 2 ^ 40 }), by decide +kernel⟩

theorem wit_Housekeeping_1 : ∃ s : State, (enabled s.blk pgTHM = true) ∧ (clocked s.blk pgTHM = true) ∧ (pfWarn s.blk = false) ∧ (takesNow s.blk = true) :=
  ⟨mk [(hEN pgTHM, 1)], by decide +kernel⟩

theorem wit_Housekeeping_2 : ∃ s : State, (enabled s.blk pgTHM = true) ∧ (clocked s.blk pgTHM = true) ∧ (pfWarn s.blk = false) ∧ (s.blk.thm.running = true) :=
  ⟨mk [(hEN pgTHM, 1)] fun b => { b with thm := { b.thm with running := true, round := 77, win := [(1, (4, 2))] } }, by decide +kernel⟩

theorem wit_Housekeeping_3 : ∃ s : State, (enabled s.blk pgTHM = true) ∧ (clocked s.blk pgTHM = true) ∧ ((2 : Fin 4).val < 3) ∧ (hkQuiet s.blk (4 + (2 : Fin 4).val) = true) :=
  ⟨mk [(hEN pgTHM, 1), (THM.GDER.GTEMP.CAP 2, 100)] fun b => { b with thm := { b.thm with calm := [(6, some 99999999)] } }, by decide +kernel⟩

theorem wit_Housekeeping_4 : ∃ s : State, (enabled s.blk pgTHM = true) ∧ (clocked s.blk pgTHM = true) ∧ (isOn s.blk (THM.PDER.ACTIVE (3 : Fin 4).val) = true) ∧ (hkQuiet s.blk (3 : Fin 4).val = true) :=
  ⟨mk [(hEN pgTHM, 1), (THM.PDER.ACTIVE 3, 1)] fun b => { b with thm := { b.thm with calm := [(3, some 99999999)] } }, by decide +kernel⟩

theorem wit_VehiclePlugs_1 : ∃ s : State, (enabled s.blk (pgVP (2 : Fin 4).val) = true) ∧ (plugClass s.blk (2 : Fin 4).val (700 : BitVec 16).toNat = 0) ∧ (takesNow s.blk = true) :=
  ⟨mk [(hEN (pgVP 2), 1), (VP.PLUG_BAND.P_LO 2, 500), (VP.PLUG_BAND.P_HI 2, 800), (VP.VSTAT.PLUG_FAULT 2, 1)], by decide +kernel⟩

theorem wit_VehiclePlugs_2 : ∃ s : State, (enabled s.blk (pgVP (2 : Fin 4).val) = true) ∧ (plugClass s.blk (2 : Fin 4).val (4000 : BitVec 16).toNat ≠ 0) ∧ (takesNow s.blk = true) :=
  ⟨mk [(hEN (pgVP 2), 1), (VP.PLUG_BAND.P_LO 2, 500), (VP.PLUG_BAND.P_HI 2, 800), (VP.VSTAT.PLUG 2, 1), (VP.PLC_STAT.JOINED 2, 1)], by decide +kernel⟩

theorem wit_VehiclePlugs_3 : ∃ s : State, (enabled s.blk (pgVP (2 : Fin 4).val) = true) ∧ (takesNow s.blk = true) :=
  ⟨mk [(hEN (pgVP 2), 1), (VP.PLUG_BAND.P_LO 2, 500), (VP.PLUG_BAND.P_HI 2, 800), (VP.VSTAT.PLUG 2, 1)], by decide +kernel⟩

theorem wit_VehiclePlugs_4 : ∃ s : State, (enabled s.blk (pgVP (2 : Fin 4).val) = true) ∧ (rd s.blk (VP.VCTL.TYPE (2 : Fin 4).val) ≠ 0) ∧ (takesNow s.blk = true) :=
  ⟨mk [(hEN (pgVP 2), 1), (VP.VCTL.TYPE 2, 1)], by decide +kernel⟩

theorem wit_VehiclePlugs_5 : ∃ s : State, (enabled s.blk (pgVP (2 : Fin 4).val) = true) ∧ (takesNow s.blk = true) :=
  ⟨mk [(hEN (pgVP 2), 1), (VP.VSTAT.IMD_OK 2, 1)], by decide +kernel⟩

theorem wit_VehiclePlugs_6 : ∃ s : State, (enabled s.blk (pgVP (2 : Fin 4).val) = true) ∧ (takesNow s.blk = true) :=
  ⟨mk [(hEN (pgVP 2), 1)] (setVp 2 { imdLow := true }), by decide +kernel⟩

theorem wit_VehiclePlugs_7 : ∃ s : State, (enabled s.blk (pgVP (2 : Fin 4).val) = true) ∧ (Accepts s.blk (.ctrl : Init) (VP.ARM.DROP_CLR (2 : Fin 4).val).a 1) ∧ (vpHoldBits s.blk (2 : Fin 4).val = 0) :=
  ⟨mk [(hEN (pgVP 2), 1), (VP.VCTL.TYPE 2, 3), (VP.VCTL.LOCK_CH 2, 0xFF), (VP.VSTAT.PLUG 2, 1), (VP.VSTAT.HOLD 2, 0), (VP.VSTAT.DROP_LATCH 2, 1), (VP.VSTAT.DROP 2, 1)], by decide +kernel⟩

theorem wit_VehiclePlugs_8 : ∃ s : State, (enabled s.blk (pgVP (2 : Fin 4).val) = true) ∧ (isOn s.blk (VP.VSTAT.DROP (2 : Fin 4).val) = true) ∧ (isOn s.blk (VP.VSTAT.LIVE (2 : Fin 4).val) = true) :=
  ⟨mk [(hEN (pgVP 2), 1), (VP.VSTAT.DROP 2, 1), (VP.VSTAT.LIVE 2, 1)], by decide +kernel⟩

theorem wit_VehicleLocks_1 : ∃ s : State, (lateWrite s.blk (VP.LOCK.CMD (2 : Fin 4).val).a = false) ∧ ((writeOf s.blk (.ctrl : Init) (VP.LOCK.CMD (2 : Fin 4).val).a (0x80000032 : Word)).mask.testBit 31 = true) ∧ (lockMay s.blk (2 : Fin 4).val ((0x80000032 : Word).toNat / 2 ^ 31) = true) :=
  ⟨mk [(hEN (pgVP 2), 1), (VP.VSTAT.PLUG 2, 1), (VP.VCTL.LOCK_CH 2, 9), (VP.VCTL.UNLOCK_CH 2, 10)], by decide +kernel⟩

theorem wit_VehicleLocks_2 : ∃ s : State, (enabled s.blk (pgVP (2 : Fin 4).val) = true) :=
  ⟨mk [(hEN (pgVP 2), 1)] (setVp 2 { pulse := 1 }), by decide +kernel⟩

theorem wit_VehicleLocks_3 : ∃ s : State, (enabled s.blk (pgVP (2 : Fin 4).val) = true) ∧ ((vpOf s.blk (2 : Fin 4).val).lockWin = true) ∧ (isOn s.blk (VP.VSTAT.LOCKED (2 : Fin 4).val) ≠ isOn s.blk (VP.LOCK.CMD (2 : Fin 4).val)) :=
  ⟨mk [(hEN (pgVP 2), 1), (VP.LOCK.CMD 2, 1)] (setVp 2 { lockWin := true }), by decide +kernel⟩

theorem wit_VehicleLocks_4 : ∃ s : State, (enabled s.blk (pgVP (2 : Fin 4).val) = true) ∧ (isOn s.blk (VP.LOCK.CMD (2 : Fin 4).val) = true) ∧ ((vpOf s.blk (2 : Fin 4).val).lockTest = true) ∧ (isOn s.blk (VP.VSTAT.LOCKED (2 : Fin 4).val) = false) ∧ (rd s.blk (VP.VCTL.LOCK_CH (2 : Fin 4).val) ≠ 0xFF) :=
  ⟨mk [(hEN (pgVP 2), 1), (VP.LOCK.CMD 2, 1), (VP.VCTL.LOCK_CH 2, 9)] (setVp 2 { lockTest := true }), by decide +kernel⟩

theorem wit_VehicleLocks_5 : ∃ s : State, (enabled s.blk (pgVP (2 : Fin 4).val) = true) ∧ (takesNow s.blk = true) :=
  ⟨mk [(hEN (pgVP 2), 1)], by decide +kernel⟩

theorem wit_VehicleLocks_6 : ∃ s : State, (enabled s.blk (pgVP (2 : Fin 4).val) = true) ∧ (Accepts s.blk (.ctrl : Init) (VP.ARM.DROP_CLR (2 : Fin 4).val).a 4) :=
  ⟨mk [(hEN (pgVP 2), 1), (VP.VSTAT.LOCK_FAULT 2, 1)], by decide +kernel⟩

theorem wit_VehicleLocks_7 : ∃ s : State, (isOn s.blk (if (true : Bool) then VP.VSTAT.SITE_ESTOP 0 else VP.VSTAT.ESTOP (2 : Fin 4).val) = false) :=
  ⟨mk [], by decide +kernel⟩

theorem wit_VehicleLinks_1 : ∃ s : State, (enabled s.blk (pgVP (2 : Fin 4).val) = true) ∧ (Accepts s.blk (.ctrl : Init) (VP.ARM.DROP_CLR (2 : Fin 4).val).a 16) :=
  ⟨mk [(hEN (pgVP 2), 1), (VP.VCTL.TYPE 2, 2)], by decide +kernel⟩

theorem wit_VehicleLinks_2 : ∃ s : State, (enabled s.blk (pgVP (2 : Fin 4).val) = true) ∧ (Accepts s.blk (.ctrl : Init) (VP.ARM.DROP_CLR (2 : Fin 4).val).a 8) :=
  ⟨mk [(hEN (pgVP 2), 1), (VP.PLC_STAT.SOUNDS 2, 4)] (setVp 2 { sounds := 4 }), by decide +kernel⟩

theorem wit_VehicleLinks_3 : ∃ s : State, (enabled s.blk (pgVP (2 : Fin 4).val) = true) ∧ (isOn s.blk (VP.PLC_STAT.AWAKE (2 : Fin 4).val) = true) ∧ (takesNow s.blk = true) :=
  ⟨mk [(hEN (pgVP 2), 1), (VP.PLC_STAT.AWAKE 2, 1)], by decide +kernel⟩

theorem wit_VehicleLinks_4 : ∃ s : State, (enabled s.blk (pgVP (2 : Fin 4).val) = true) ∧ (isOn s.blk (VP.PLC_STAT.AWAKE (2 : Fin 4).val) = true) ∧ (takesNow s.blk = true) :=
  ⟨mk [(hEN (pgVP 2), 1), (VP.PLC_STAT.AWAKE 2, 1)], by decide +kernel⟩

theorem wit_VehicleLinks_5 : ∃ s : State, (enabled s.blk (pgVP (2 : Fin 4).val) = true) ∧ ((vpOf s.blk (2 : Fin 4).val).down = true) ∧ (isOn s.blk (VP.VSTAT.PLUG (2 : Fin 4).val) = false) :=
  ⟨mk [(hEN (pgVP 2), 1), (VP.PLC_STAT.AWAKE 2, 1)] (setVp 2 { down := true }), by decide +kernel⟩

theorem wit_VehicleLinks_6 : ∃ s : State, (enabled s.blk (pgVP (2 : Fin 4).val) = true) ∧ (isOn s.blk (VP.T1S_STAT.AWAKE (2 : Fin 4).val) = true) ∧ (takesNow s.blk = true) :=
  ⟨mk [(hEN (pgVP 2), 1), (VP.T1S_STAT.AWAKE 2, 1)], by decide +kernel⟩

theorem wit_VehicleLinks_7 : ∃ s : State, (enabled s.blk (pgVP (2 : Fin 4).val) = true) ∧ (isOn s.blk (VP.PLC_STAT.AWAKE (2 : Fin 4).val) = true) ∧ (takesNow s.blk = true) :=
  ⟨mk [(hEN (pgVP 2), 1), (VP.PLC_STAT.AWAKE 2, 1)], by decide +kernel⟩

theorem wit_VehicleLinks_8 : ∃ s : State, (enabled s.blk (pgVP (2 : Fin 4).val) = true) ∧ (isOn s.blk (VP.T1S_STAT.AWAKE (2 : Fin 4).val) = true) ∧ (takesNow s.blk = true) :=
  ⟨mk [(hEN (pgVP 2), 1), (VP.T1S_STAT.AWAKE 2, 1)], by decide +kernel⟩

theorem wit_VehicleLinks_9 : ∃ s : State, (enabled s.blk (pgVP (2 : Fin 4).val) = true) ∧ (isOn s.blk (VP.PLC_STAT.AWAKE (2 : Fin 4).val) = true) ∧ (isOn s.blk (VP.PLC_STAT.JOINED (2 : Fin 4).val) = true) ∧ ((paired s.blk && !isActive s.blk) = false) ∧ (takesNow s.blk = true) :=
  ⟨mk [(hEN (pgVP 2), 1), (VP.PLC_STAT.AWAKE 2, 1), (VP.PLC_STAT.JOINED 2, 1)], by decide +kernel⟩

theorem wit_VehicleLinks_10 : ∃ s : State, (enabled s.blk (pgVP (2 : Fin 4).val) = true) ∧ (isOn s.blk (VP.T1S_STAT.AWAKE (2 : Fin 4).val) = true) ∧ (60 ≤ (List.replicate 60 7 : List Byte).length) ∧ ((List.replicate 60 7 : List Byte).length ≤ 1518) ∧ ((paired s.blk && !isActive s.blk) = false) ∧ (takesNow s.blk = true) :=
  ⟨mk [(hEN (pgVP 2), 1), (VP.T1S_STAT.AWAKE 2, 1)], by decide +kernel⟩

theorem wit_VehiclePerson_1 : ∃ s : State, (enabled s.blk (pgVP (2 : Fin 4).val) = true) ∧ (rdBit s.blk (VP.PERSON.BTN (2 : Fin 4).val) (1 : Fin 2).val ≠ (true : Bool)) ∧ (takesNow s.blk = true) :=
  ⟨mk [(hEN (pgVP 2), 1)], by decide +kernel⟩

theorem wit_VehiclePerson_2 : ∃ s : State, (enabled s.blk (pgVP (2 : Fin 4).val) = true) ∧ (rdBit s.blk (VP.PERSON.BTN (2 : Fin 4).val) (1 : Fin 2).val = true) ∧ (takesNow s.blk = true) :=
  ⟨mk [(hEN (pgVP 2), 1), (VP.PERSON.BTN 2, 2)], by decide +kernel⟩

theorem wit_VehiclePerson_3 : ∃ s : State, (enabled s.blk (pgVP (2 : Fin 4).val) = true) ∧ (takesNow s.blk = true) :=
  ⟨mk [(hEN (pgVP 2), 1), (VP.TCH.TCFG.EN 2 1, 1)], by decide +kernel⟩

theorem wit_VehiclePerson_4 : ∃ s : State, (enabled s.blk (pgVP (2 : Fin 4).val) = true) ∧ (isOn s.blk (VP.TCH.TSTAT.TOUCHED (2 : Fin 4).val (3 : Fin 4).val) = true) :=
  ⟨mk [(hEN (pgVP 2), 1), (VP.TCH.TSTAT.TOUCHED 2 3, 1), (VP.TCH.TRAW.RAW 2 3, 77)], by decide +kernel⟩

theorem wit_VehiclePerson_5 : ∃ s : State, (enabled s.blk (pgVP (2 : Fin 4).val) = true) ∧ (Accepts s.blk (.ctrl : Init) (VP.ARM.DROP_CLR (2 : Fin 4).val).a 2) :=
  ⟨mk [(hEN (pgVP 2), 1), (VP.TCH.TRAW.RAW 2 3, 77)], by decide +kernel⟩

theorem wit_MeshLine_1 : ∃ s : State, (enabled s.blk pgMESH = true) ∧ (clocked s.blk pgMESH = true) ∧ (isOn s.blk MTR.ACSTAT.V_LOST = false) ∧ (takesNow s.blk = true) :=
  ⟨mk [(hEN pgMESH, 1), (MTR.ACSTAT.V_LOST, 0)], by decide +kernel⟩

theorem wit_MeshLine_2 : ∃ s : State, (enabled s.blk pgMESH = true) ∧ (clocked s.blk pgMESH = true) :=
  ⟨mk [(hEN pgMESH, 1)], by decide +kernel⟩

theorem wit_MeshLine_3 : ∃ s : State, (enabled s.blk pgMESH = true) ∧ (clocked s.blk pgMESH = true) ∧ ((∀ a, s.blk.mesh.air = some a → a.1 = 0xFF)) ∧ (isOn s.blk MESH.STAT.LINE_FAULT = false) ∧ (pfWarn s.blk = false) ∧ (meshOrder s.blk = ({ src := 1, dst := 0xFF, num := 4, prio := 1, data := [9], left := [0] } : Msdu) :: ([] : List Msdu)) ∧ (({ src := 1, dst := 0xFF, num := 4, prio := 1, data := [9], left := [0] } : Msdu).left ≠ []) ∧ (0 < slotLeft (5000 : BitVec 16).toNat s.blk * 9 / (370 * meshSym s.blk ((nextHop s.blk ({ src := 1, dst := 0xFF, num := 4, prio := 1, data := [9], left := [0] } : Msdu).dst).getD 0xFF))) :=
  ⟨mk [(hEN pgMESH, 1)] fun b => { b with mesh := { b.mesh with queue := [{ src := 1, dst := 0xFF, num := 4, prio := 1, data := [9], left := [0] }] } }, by decide +kernel⟩

theorem wit_MeshLine_4 : ∃ s : State, (enabled s.blk pgMESH = true) ∧ (clocked s.blk pgMESH = true) ∧ (s.blk.mesh.air = some ((3 : Nat), (2 : Nat), ([(1, 4, 0)] : List (Nat × Nat × Nat)))) ∧ ((3 : Nat) ≠ 0xFF) ∧ (takesNow s.blk = true) :=
  ⟨mk [(hEN pgMESH, 1), (MESH.STAT.TX_BUSY, 1)] fun b => { b with mesh := { b.mesh with air := some (3, 2, [(1, 4, 0)]) } }, by decide +kernel⟩

theorem wit_MeshLine_5 : ∃ s : State, (enabled s.blk pgMESH = true) ∧ (clocked s.blk pgMESH = true) ∧ (Tab.at' (fun _ => none) (nbrOf s.blk (3 : Nat)).pend (2 : Nat) = some ((4, { codes := [1], rate := 1 }) : Nat × MeshMap)) ∧ (takesNow s.blk = true) :=
  ⟨mk [(hEN pgMESH, 1)] (setNbr 3 { pend := [(2, some (4, { codes := [1], rate := 1 }))] }), by decide +kernel⟩

theorem wit_MeshLine_6 : ∃ s : State, (enabled s.blk pgMESH = true) ∧ (clocked s.blk pgMESH = true) ∧ (s.blk.mesh.air = some ((3, 2, [(1, 4, 0)]) : Nat × Nat × List (Nat × Nat × Nat))) ∧ (takesNow s.blk = true) :=
  ⟨mk [(hEN pgMESH, 1), (MESH.STAT.TX_BUSY, 1)] fun b => { b with mesh := { b.mesh with air := some (3, 2, [(1, 4, 0)]) } }, by decide +kernel⟩

theorem wit_MeshLine_7 : ∃ s : State, (enabled s.blk pgMESH = true) ∧ (clocked s.blk pgMESH = true) ∧ (({ sender := 63, dest := 9 } : MeshRx).net = rd s.blk MESH.MCTL.NET_ID) ∧ (({ sender := 63, dest := 9 } : MeshRx).sender < 64) ∧ (({ sender := 63, dest := 9 } : MeshRx).sender ≠ meshId s.blk) ∧ (takesNow s.blk = true) :=
  ⟨mk [(hEN pgMESH, 1)], by decide +kernel⟩

theorem wit_MeshLine_8 : ∃ s : State, (enabled s.blk pgMESH = true) ∧ (clocked s.blk pgMESH = true) :=
  ⟨mk [(hEN pgMESH, 1)] fun b => { b with mesh := { b.mesh with air := some (3, 2, [(1, 4, 0)]) } }, by decide +kernel⟩

theorem wit_MeshLine_9 : ∃ s : State, (enabled s.blk pgMESH = true) ∧ (clocked s.blk pgMESH = true) :=
  ⟨mk [(hEN pgMESH, 1), (MESH.STAT.LINE_FAULT, 1)], by decide +kernel⟩

theorem wit_MeshRoutes_1 : ∃ s : State, (enabled s.blk pgMESH = true) ∧ (clocked s.blk pgMESH = true) ∧ (isOn s.blk (MESH.NBR.NSTAT.PRESENT (9 : Fin 64).val) = true) ∧ (meshDrives s.blk = true) ∧ (takesNow s.blk = true) :=
  ⟨mk [(hEN pgMESH, 1), (MESH.NBR.NSTAT.PRESENT 9, 1)], by decide +kernel⟩

theorem wit_MeshRoutes_2 : ∃ s : State, (enabled s.blk pgMESH = true) ∧ (clocked s.blk pgMESH = true) ∧ (meshDrives s.blk = true) ∧ (Tab.at' (fun _ => none) (nbrOf s.blk (9 : Fin 64).val).pend (2 : Fin 6).val = some ((4, { codes := [1], rate := 1 }) : Nat × MeshMap)) :=
  ⟨mk [(hEN pgMESH, 1)] (setNbr 9 { pend := [(2, some (4, { codes := [1], rate := 1 }))] }), by decide +kernel⟩

theorem wit_MeshRoutes_3 : ∃ s : State, (enabled s.blk pgMESH = true) ∧ (clocked s.blk pgMESH = true) :=
  ⟨mk [(hEN pgMESH, 1)] fun b => { b with mesh := { b.mesh with queue := [{ src := 1, dst := 0xFF, num := 4 }, { src := 1, dst := 0xFF, num := 5 }] } }, by decide +kernel⟩

theorem wit_MeshRoutes_4 : ∃ s : State, (enabled s.blk pgMESH = true) ∧ (clocked s.blk pgMESH = true) :=
  ⟨mk [(hEN pgMESH, 1)] fun b => { b with mesh := { b.mesh with parts := [{ src := 1, num := 4, len := 600 }] } }, by decide +kernel⟩

theorem wit_MeshRoutes_5 : ∃ s : State, (enabled s.blk pgMESH = true) ∧ (clocked s.blk pgMESH = true) ∧ (meshDrives s.blk = true) ∧ (isOn s.blk MESH.MCTL.RELAY = true) :=
  ⟨mk [(hEN pgMESH, 1), (MESH.MCTL.RELAY, 1)] fun b => { b with mesh := { b.mesh with routes := [(5, [(3, 2, 40)])] } }, by decide +kernel⟩

theorem wit_MeshRoutes_6 : ∃ s : State, (enabled s.blk pgMESH = true) ∧ (clocked s.blk pgMESH = true) ∧ (isOn s.blk (MESH.NBR.NSTAT.PRESENT (3 : Fin 64).val) = true) :=
  ⟨mk [(hEN pgMESH, 1), (MESH.NBR.NSTAT.PRESENT 3, 1)] fun b => { b with mesh := { b.mesh with routes := [(5, [(3, 2, 40), (4, 1, 2)])] } }, by decide +kernel⟩

theorem wit_MeshRoutes_7 : ∃ s : State, (enabled s.blk pgMESH = true) ∧ (clocked s.blk pgMESH = true) :=
  ⟨mk [(hEN pgMESH, 1)] fun b => { b with mesh := { b.mesh with routes := [(5, [(3, 2, 40), (4, 1, 2)])] } }, by decide +kernel⟩

theorem wit_MeshRoutes_8 : ∃ s : State, (enabled s.blk pgMESH = true) ∧ (clocked s.blk pgMESH = true) ∧ (([4, 5] : List Byte) ≠ []) ∧ (([4, 5] : List Byte).length ≤ 2048) ∧ ((1 : Byte).toNat ≤ 3) ∧ ((nextHop s.blk (0xFF : Byte).toNat).isSome = true) ∧ (meshKey s.blk 2 = none) ∧ (takesNow s.blk = true) :=
  ⟨mk [(hEN pgMESH, 1), (MESH.KEY.SLOT, 0xFF)], by decide +kernel⟩

theorem wit_LaneLinks_1 : ∃ s : State, (Accepts s.blk (.core 2 : Init) (LANE.LCTL.RETRAIN (3 : Fin 16).val).a (0x1001 : Word)) ∧ ((0x1001 : Word).toNat.testBit 0 = true) ∧ (enabled s.blk (pgLANE (3 : Fin 16).val) = true) ∧ (isOn s.blk SYS.STRAP.STRAP_ERR = false) ∧ (isOn s.blk (LANE.STAT.HOLD (3 : Fin 16).val) = false) :=
  ⟨mk [(hEN (pgLANE 3), 1), (LANE.STAT.ALIGNED 3, 1), (LANE.STAT.UP 3, 1)] fun b => setLock b (pgLANE 3) { win := some (.core 2), remain := 9 }, by decide +kernel⟩

theorem wit_LaneLinks_2 : ∃ s : State, (enabled s.blk (pgLANE (3 : Fin 16).val) = true) ∧ (isOn s.blk SYS.STRAP.STRAP_ERR = false) ∧ ((rd s.blk (LANE.STAT.STATE (3 : Fin 16).val) = 1 ∨ rd s.blk (LANE.STAT.STATE (3 : Fin 16).val) = 5)) ∧ ((65 : BitVec 7).toNat ≤ 65) :=
  ⟨mk [(hEN (pgLANE 3), 1), (LANE.STAT.STATE 3, 1)], by decide +kernel⟩

theorem wit_LaneLinks_3 : ∃ s : State, (enabled s.blk (pgLANE (3 : Fin 16).val) = true) ∧ (isOn s.blk (LANE.STAT.ALIGNED (3 : Fin 16).val) = true) :=
  ⟨mk [(hEN (pgLANE 3), 1), (LANE.STAT.ALIGNED 3, 1), (LANE.STAT.UP 3, 1)], by decide +kernel⟩

theorem wit_LaneLinks_4 : ∃ s : State, (enabled s.blk (pgLANE (3 : Fin 16).val) = true) :=
  ⟨mk [(hEN (pgLANE 3), 1), (LANE.CRC.TIMEOUTS 3, 65535)], by decide +kernel⟩

theorem wit_LaneLinks_5 : ∃ s : State, (isOn s.blk (LANE.STAT.HOLD (3 : Fin 16).val) = true) ∧ (rd s.blk (LANE.STAT.STATE (3 : Fin 16).val) = 2) ∧ ((0x14 : Byte).toNat = rd s.blk (LANE.STAT.PEER (3 : Fin 16).val)) ∧ ((77 : BitVec 64).toNat = (laneOf s.blk (3 : Fin 16).val).peer) ∧ ((∀ c : Nat, c < 4 → (laneOf s.blk (3 : Fin 16).val).tries.getD c 0 + 1 < rd s.blk LINK.LCTL.RETX_MAX)) :=
  ⟨mk [(hEN (pgLANE 3), 1), (LANE.STAT.STATE 3, 2), (LANE.STAT.HOLD 3, 1), (LANE.STAT.PEER 3, 0x14), (LINK.LCTL.RETX_MAX, 8)] (setLane 3 { peer := 77, unacked := [(2, 6, .raw [1])] }), by decide +kernel⟩

theorem wit_LaneLinks_6 : ∃ s : State, (isOn s.blk (LANE.STAT.HOLD (3 : Fin 16).val) = true) :=
  ⟨mk [(hEN (pgLANE 3), 1), (LANE.STAT.HOLD 3, 1), (LANE.STAT.STATE 3, 5)] (setLane 3 { peer := 77, unacked := [(2, 6, .raw [1])] }), by decide +kernel⟩

theorem wit_LaneLinks_7 : ∃ s : State, (rd s.blk (LANE.STAT.STATE (3 : Fin 16).val) = 3) :=
  ⟨mk [(hEN (pgLANE 3), 1), (LANE.STAT.STATE 3, 3)], by decide +kernel⟩

theorem wit_LaneLinks_8 : ∃ s : State, (tiolmox s.blk (3 : Fin 16).val = true) ∧ (mayTalk s.blk (3 : Fin 16).val = true) ∧ (rd s.blk (LANE.STAT.STATE (3 : Fin 16).val) = 2) ∧ (isOn s.blk (LANE.STAT.HOLD (3 : Fin 16).val) = false) :=
  ⟨mk [(hEN (pgLANE 3), 1), (LANE.STAT.STATE 3, 2), (SYS.MODE.ROLE, 1)], by decide +kernel⟩

theorem wit_LaneLinks_9 : ∃ s : State, (tiolmox s.blk (3 : Fin 16).val = true) ∧ (rd s.blk (LANE.STAT.STATE (3 : Fin 16).val) = 2) ∧ (isOn s.blk (LANE.STAT.HOLD (3 : Fin 16).val) = false) ∧ (judgeHello s.blk (3 : Fin 16).val ({ addr := 0x1C, role := 1, pos := 3, lane := 0 } : Hello) = 0) :=
  ⟨mk [(hEN (pgLANE 3), 1), (LANE.STAT.STATE 3, 2), (SYS.MODE.ROLE, 1)], by decide +kernel⟩

theorem wit_LaneLinks_10 : ∃ s : State, (tiolmox s.blk (3 : Fin 16).val = true) ∧ (rd s.blk (LANE.STAT.STATE (3 : Fin 16).val) = 2) ∧ (isOn s.blk (LANE.STAT.HOLD (3 : Fin 16).val) = false) ∧ (judgeHello s.blk (3 : Fin 16).val ({ addr := 0x1C, role := 1, pos := 2, lane := 0 } : Hello) ≠ 0) :=
  ⟨mk [(hEN (pgLANE 3), 1), (LANE.STAT.STATE 3, 2), (SYS.MODE.ROLE, 1)], by decide +kernel⟩

theorem wit_LaneFrames_1 : ∃ s : State, (tiolmox s.blk (3 : Fin 16).val = true) ∧ (laneUp s.blk (3 : Fin 16).val = true) ∧ (16 ≤ ([0x81, 4, 0xFF, 8, 0, 0, 0, 0, 0, 0, 0, 0] ++ le 4 (Crc.crc32 [0x81, 4, 0xFF, 8, 0, 0, 0, 0, 0, 0, 0, 0]) : List Byte).length) ∧ (Crc.crc32 (([0x81, 4, 0xFF, 8, 0, 0, 0, 0, 0, 0, 0, 0] ++ le 4 (Crc.crc32 [0x81, 4, 0xFF, 8, 0, 0, 0, 0, 0, 0, 0, 0]) : List Byte).take (([0x81, 4, 0xFF, 8, 0, 0, 0, 0, 0, 0, 0, 0] ++ le 4 (Crc.crc32 [0x81, 4, 0xFF, 8, 0, 0, 0, 0, 0, 0, 0, 0]) : List Byte).length - 4)) = ofLE (([0x81, 4, 0xFF, 8, 0, 0, 0, 0, 0, 0, 0, 0] ++ le 4 (Crc.crc32 [0x81, 4, 0xFF, 8, 0, 0, 0, 0, 0, 0, 0, 0]) : List Byte).drop (([0x81, 4, 0xFF, 8, 0, 0, 0, 0, 0, 0, 0, 0] ++ le 4 (Crc.crc32 [0x81, 4, 0xFF, 8, 0, 0, 0, 0, 0, 0, 0, 0]) : List Byte).length - 4))) :=
  ⟨mk [(hEN (pgLANE 3), 1), (LANE.STAT.UP 3, 1)], by decide +kernel⟩

theorem wit_LaneFrames_2 : ∃ s : State, (2 ≤ (2 : Fin 4).val) ∧ (laneUp s.blk (3 : Fin 16).val = true) ∧ (((laneOf s.blk (3 : Fin 16).val).unacked.filter fun e => e.1 == (2 : Fin 4).val) ≠ []) :=
  ⟨mk [(hEN (pgLANE 3), 1), (LANE.STAT.UP 3, 1), (LINK.LCTL.RETX_MAX, 8)] (setLane 3 { unacked := [(2, 6, .raw [1])] }), by decide +kernel⟩

theorem wit_LaneFrames_3 : ∃ s : State, (laneUp s.blk (3 : Fin 16).val = true) ∧ ((laneOf s.blk (3 : Fin 16).val).credits.getD (1 : Fin 4).val 0 = 0) ∧ (enabled s.blk pgLINK = true) :=
  ⟨mk [(hEN (pgLANE 3), 1), (LANE.STAT.UP 3, 1), (hEN pgLINK, 1)], by decide +kernel⟩

theorem wit_LaneFrames_4 : ∃ s : State, (laneUp s.blk (3 : Fin 16).val = true) ∧ ((laneOf s.blk (3 : Fin 16).val).queue = []) :=
  ⟨mk [(hEN (pgLANE 3), 1), (LANE.STAT.UP 3, 1)], by decide +kernel⟩

theorem wit_LaneFrames_5 : ∃ s : State, (laneUp s.blk (3 : Fin 16).val = true) ∧ (2 ≤ (2 : Fin 4).val) :=
  ⟨mk [(hEN (pgLANE 3), 1), (LANE.STAT.UP 3, 1)] (setLane 3 { unacked := [(2, 6, .raw [1]), (2, 7, .raw [2])] }), by decide +kernel⟩

theorem wit_LaneFrames_6 : ∃ s : State, (rd s.blk SYS.MODE.ROLE = 2) ∧ ((List.range 16).find? (fun j => j != 0 && decide (rd s.blk (STK.MAP.ID.ID j) = (99 : Word).toNat)) = some (4 : Nat)) ∧ (isOn s.blk (STK.MAP.MSTAT.JOINED (4 : Nat)) = false) ∧ ((1 : BitVec 4).toNat ≤ 3) :=
  ⟨mk [(SYS.MODE.ROLE, 2), (STK.MAP.ID.ID 4, 99)], by decide +kernel⟩

theorem wit_LaneFrames_7 : ∃ s : State, (rd s.blk SYS.MODE.ROLE = 1) ∧ (isOn s.blk SYS.STRAP.STRAP_ERR = false) ∧ ((isMaster s.blk = false ∨ (99 : Word).toNat = rd s.blk STK.STACK_ID.ID)) ∧ ((rd s.blk SYS.MODE.STACK = 31 ∨ rd s.blk SYS.MODE.STACK = (6 : Fin 16).val)) :=
  ⟨mk [(SYS.MODE.ROLE, 1), (SYS.MODE.STACK, 31), (STK.STACK_ID.ID, 99)], by decide +kernel⟩

theorem wit_LaneFrames_8 : ∃ s : State, (enabled s.blk (pgETH (1 : Fin 2).val) = true) ∧ (clocked s.blk (pgETH (1 : Fin 2).val) = true) ∧ (isOn s.blk (ETH.ESTAT.LINK (1 : Fin 2).val) = true) ∧ (ethAccepts s.blk (1 : Fin 2).val (List.replicate 60 0xFF ++ le 4 (Crc.crc32 (List.replicate 60 0xFF)) : List Byte) = true) ∧ (Crc.crc32 ((List.replicate 60 0xFF ++ le 4 (Crc.crc32 (List.replicate 60 0xFF)) : List Byte).take ((List.replicate 60 0xFF ++ le 4 (Crc.crc32 (List.replicate 60 0xFF)) : List Byte).length - 4)) = ofLE ((List.replicate 60 0xFF ++ le 4 (Crc.crc32 (List.replicate 60 0xFF)) : List Byte).drop ((List.replicate 60 0xFF ++ le 4 (Crc.crc32 (List.replicate 60 0xFF)) : List Byte).length - 4))) ∧ (64 ≤ (List.replicate 60 0xFF ++ le 4 (Crc.crc32 (List.replicate 60 0xFF)) : List Byte).length) ∧ ((List.replicate 60 0xFF ++ le 4 (Crc.crc32 (List.replicate 60 0xFF)) : List Byte).length ≤ 1522) ∧ (rd s.blk (ETH.RX_RING.SIZE (1 : Fin 2).val) ≠ 0) ∧ (ownedDesc (ethRead s.blk (1 : Fin 2).val 0)) ∧ ((ethStore s.blk (1 : Fin 2).val (List.replicate 60 0xFF ++ le 4 (Crc.crc32 (List.replicate 60 0xFF)) : List Byte)).2.1 = 0) ∧ ((streamWrite (ethStore s.blk (1 : Fin 2).val (List.replicate 60 0xFF ++ le 4 (Crc.crc32 (List.replicate 60 0xFF)) : List Byte)).1 (32 + (1 : Fin 2).val) (ethDesc s.blk (1 : Fin 2).val 0 + 8) (ethBack (ethStore s.blk (1 : Fin 2).val (List.replicate 60 0xFF ++ le 4 (Crc.crc32 (List.replicate 60 0xFF)) : List Byte)).1 ((List.replicate 60 0xFF ++ le 4 (Crc.crc32 (List.replicate 60 0xFF)) : List Byte).length - 4) 0)).2.1 = 0) :=
  ⟨mk [(hEN (pgETH 1), 1), (ETH.ESTAT.LINK 1, 1), (ETH.ECTL.PROMISC 1, 1), (ETH.RX_RING.SIZE 1, 4), (MMU.STR.ROOT.EN 33, 1)] fun b => { putBytes 0x1000000B [0x80] (putBytes 0x10000000 [0, 1] b) with memory := { b.memory with tlb := [⟨33, 0, 12, 0x10000000, true, true⟩] } }, by decide +kernel⟩

theorem wit_LaneFrames_9 : ∃ s : State, (Accepts s.blk (.core 1 : Init) (ETH.TX_RING.TAIL (1 : Fin 2).val).a (0x30004 : Word)) :=
  ⟨State.reset, by decide +kernel⟩

theorem wit_LaneFrames_10 : ∃ s : State, (enabled s.blk (pgETH (1 : Fin 2).val) = true) ∧ (clocked s.blk (pgETH (1 : Fin 2).val) = true) ∧ (isOn s.blk (ETH.ESTAT.LINK (1 : Fin 2).val) = true) ∧ (rd s.blk (ETH.TX_RING.SIZE (1 : Fin 2).val) ≠ 0) ∧ (ownedDesc (ethRead s.blk (1 : Fin 2).val 1)) ∧ ((ethFetch s.blk (1 : Fin 2).val).cause = 0) ∧ ((ethFetch s.blk (1 : Fin 2).val).bad = none) ∧ (60 ≤ ofLE (((ethRead s.blk (1 : Fin 2).val 1).bytes.drop 8).take 2)) ∧ (ofLE (((ethRead s.blk (1 : Fin 2).val 1).bytes.drop 8).take 2) ≤ 1518) :=
  ⟨mk [(hEN (pgETH 1), 1), (ETH.ESTAT.LINK 1, 1), (ETH.TX_RING.SIZE 1, 4), (MMU.STR.ROOT.EN 33, 1)] fun b => { putBytes 0x10000008 [60, 0, 0, 0x80] (putBytes 0x10000000 [0, 1] b) with memory := { b.memory with tlb := [⟨33, 0, 12, 0x10000000, true, true⟩] } }, by decide +kernel⟩

theorem wit_KeySlots_1 : ∃ s : State, (Accepts s.blk (.core 1 : Init) SRM.MINT_GO.GO.a 1) ∧ (mintable s.blk) :=
  ⟨mk [(SRM.STAT.OPEN, 0), (SRM.STAT.ROOT_OK, 1), (SRM.MINT_CFG.PARENT, 0xFF), (SRM.MINT_CFG.DEST, 5), (SRM.MINT_CFG.TYPE, 4), (SRM.MINT_CFG.USAGE, 0x20)], by decide +kernel⟩

theorem wit_KeySlots_2 : ∃ s : State, ((keySlot s.blk (3 : Fin 80).val).pend = some ({ cell := 1, gen := 1, type := 7, keyId := 9 } : KeyAttr)) ∧ (selfTest ({ cell := 1, gen := 1, type := 7, keyId := 9 } : KeyAttr) ((keySlot s.blk (3 : Fin 80).val).cell ({ cell := 1, gen := 1, type := 7, keyId := 9 } : KeyAttr).cell) = true) :=
  ⟨mk [] fun b => { b with srm := { b.srm with slots := [(3, { pend := some { cell := 1, gen := 1, type := 7, keyId := 9 }, c1 := List.replicate 24 0 ++ [9, 0, 0, 0] })] } }, by decide +kernel⟩

theorem wit_KeySlots_3 : ∃ s : State, ((keySlot s.blk (70 : Fin 80).val).old = true) ∧ ((keySlot s.blk (70 : Fin 80).val).adopt = false) ∧ (inFlight s.blk (70 : Fin 80).val = false) :=
  ⟨mk [] fun b => { b with srm := { b.srm with slots := [(70, { old := true, c1 := [1, 2], w0 := some { type := 1, gen := 4 } }), (71, { w0 := some { type := 1, parent := 6, pgen := 3 } })] } }, by decide +kernel⟩

theorem wit_KeySlots_4 : ∃ s : State, ((.core 1 : Init).side = .hostSide) ∧ (Accepts s.blk (.core 1 : Init) SRM.REVOKE.GO.a (0x85 : Word)) ∧ ((0x85 : Word).toNat.testBit 7 = true) ∧ ((0x85 : Word).toNat % 64 ≠ 0) ∧ ((keySlot s.blk ((0x85 : Word).toNat % 64)).gov.type ≠ 0) ∧ ((keySlot s.blk ((0x85 : Word).toNat % 64)).revoked = false) :=
  ⟨mk [] fun b => { b with srm := { b.srm with slots := [(5, { w0 := some { type := 1, gen := 4 } })] } }, by decide +kernel⟩

theorem wit_KeySlots_5 : ∃ s : State, ((.met : Init).side = .fieldSide) ∧ (Accepts s.blk (.met : Init) FSRM.REVOKE.GO.a (0x85 : Word)) ∧ ((0x85 : Word).toNat.testBit 7 = true) ∧ ((0x85 : Word).toNat % 16 ≠ 0) ∧ ((keySlot s.blk (64 + (0x85 : Word).toNat % 16)).gov.type ≠ 0) ∧ ((keySlot s.blk (64 + (0x85 : Word).toNat % 16)).revoked = false) :=
  ⟨mk [] fun b => { b with srm := { b.srm with slots := [(69, { w0 := some { type := 1, gen := 4 } })] } }, by decide +kernel⟩

theorem wit_KeySlots_6 : ∃ s : State, ((keySlot s.blk (5 : Fin 80).val).revoked = true) ∧ (inFlight s.blk (5 : Fin 80).val = false) :=
  ⟨mk [] fun b => { b with srm := { b.srm with slots := [(5, { revoked := true, c0 := [1], w0 := some { type := 1, gen := 4 } })] } }, by decide +kernel⟩

theorem wit_KeySlots_7 : ∃ s : State, (Accepts s.blk (.core 1 : Init) SRM.KW_SEND.GO.a (0x85 : Word)) ∧ ((0x85 : Word).toNat.testBit 7 = true) ∧ ((keySlot s.blk ((0x85 : Word).toNat % 64)).state = 1) ∧ ((keySlot s.blk ((0x85 : Word).toNat % 64)).gov.type = 7) ∧ ((keySlot s.blk ((0x85 : Word).toNat % 64)).gov.usage.testBit 6 = true) :=
  ⟨mk [] fun b => { b with srm := { b.srm with slots := [(5, { c0 := [1], w0 := some { type := 7, usage := 0x40 } })] } }, by decide +kernel⟩

theorem wit_CryptoOperations_1 : ∃ s : State, (opRuns s.blk (.core 1 : Init) 1 (6 : BitVec 8).toNat 0) :=
  ⟨mk [(SRM.OP_LEN.LEN, 32), (MMU.STR.ROOT.EN 35, 1)] fun b => { putBytes 0x10000010 [9, 8, 7] b with memory := { b.memory with tlb := [⟨35, 0, 12, 0x10000000, true, true⟩] }, srm := { b.srm with slots := [(6, { c0 := List.replicate 64 1, w0 := some { type := 2, usage := 4 } })] } }, by decide +kernel⟩

theorem wit_CryptoOperations_2 : ∃ s : State, (opRuns s.blk (.core 1 : Init) 2 (6 : BitVec 8).toNat 0) :=
  ⟨mk [(SRM.OP_LEN.LEN, 40), (MMU.STR.ROOT.EN 35, 1)] fun b => { putBytes 0x10000010 [9, 8, 7] b with memory := { b.memory with tlb := [⟨35, 0, 12, 0x10000000, true, true⟩] }, srm := { b.srm with slots := [(6, { c0 := List.replicate 64 1, w0 := some { type := 2, usage := 8 } })] } }, by decide +kernel⟩

theorem wit_CryptoOperations_3 : ∃ s : State, (opRuns s.blk (.core 1 : Init) 3 (6 : BitVec 8).toNat 0) :=
  ⟨mk [(SRM.OP_LEN.LEN, 20), (MMU.STR.ROOT.EN 35, 1)] fun b => { putBytes 0x10000010 [9, 8, 7] b with memory := { b.memory with tlb := [⟨35, 0, 12, 0x10000000, true, true⟩] }, srm := { b.srm with slots := [(6, { c0 := List.replicate 64 1, w0 := some { type := 3, usage := 16 } })] } }, by decide +kernel⟩

theorem wit_CryptoOperations_4 : ∃ s : State, (opRuns s.blk (.core 1 : Init) 4 0 0) :=
  ⟨mk [(SRM.OP_LEN.LEN, 20), (MMU.STR.ROOT.EN 35, 1)] fun b => { putBytes 0x10000010 [9, 8, 7] b with memory := { b.memory with tlb := [⟨35, 0, 12, 0x10000000, true, true⟩] }, srm := { b.srm with slots := [(6, { c0 := List.replicate 64 1, w0 := some { type := 1, usage := 4 } })] } }, by decide +kernel⟩

theorem wit_CryptoOperations_5 : ∃ s : State, (opRuns s.blk (.core 1 : Init) 5 (6 : BitVec 8).toNat 0) :=
  ⟨mk [(SRM.OP_LEN.LEN, 31), (MMU.STR.ROOT.EN 35, 1)] fun b => { putBytes 0x10000010 [9, 8, 7] b with memory := { b.memory with tlb := [⟨35, 0, 12, 0x10000000, true, true⟩] }, srm := { b.srm with slots := [(6, { c0 := List.replicate 64 1, w0 := some { type := 5, usage := 1 } })] } }, by decide +kernel⟩

theorem wit_CryptoOperations_6 : ∃ s : State, (opRuns s.blk (.core 1 : Init) 6 (6 : BitVec 8).toNat 0) :=
  ⟨mk [(SRM.OP_LEN.LEN, 96), (MMU.STR.ROOT.EN 35, 1)] fun b => { putBytes 0x10000010 [9, 8, 7] b with memory := { b.memory with tlb := [⟨35, 0, 12, 0x10000000, true, true⟩] }, srm := { b.srm with slots := [(6, { c0 := List.replicate 64 1, w0 := some { type := 6, usage := 2 } })] } }, by decide +kernel⟩

theorem wit_CryptoOperations_7 : ∃ s : State, (opRuns s.blk (.core 1 : Init) 7 (6 : BitVec 8).toNat (9 : BitVec 6).toNat) ∧ ((9 : BitVec 6).toNat ≠ 0) ∧ (slotBusy s.blk (9 : BitVec 6).toNat = false) :=
  ⟨mk [(SRM.OP_LEN.LEN, 64), (MMU.STR.ROOT.EN 35, 1)] fun b => { putBytes 0x10000010 [9, 8, 7] b with memory := { b.memory with tlb := [⟨35, 0, 12, 0x10000000, true, true⟩] }, srm := { b.srm with slots := [(6, { c0 := List.replicate 64 1, w0 := some { type := 5, usage := 32 } })] } }, by decide +kernel⟩

theorem wit_CryptoOperations_8 : ∃ s : State, (opRuns s.blk (.core 1 : Init) 8 0 0) :=
  ⟨mk [(SRM.OP_LEN.LEN, 64), (MMU.STR.ROOT.EN 35, 1)] fun b => { putBytes 0x10000010 [9, 8, 7] b with memory := { b.memory with tlb := [⟨35, 0, 12, 0x10000000, true, true⟩] }, srm := { b.srm with slots := [(6, { c0 := List.replicate 64 1, w0 := some { type := 5, usage := 32 } })] } }, by decide +kernel⟩

theorem wit_CryptoOperations_9 : ∃ s : State, (opRuns s.blk (.core 1 : Init) 9 0 0) ∧ (loadable s.blk (opSource s.blk (.core 1 : Init) 9 0 0).bytes.length) :=
  ⟨mk [(SRM.OP_LEN.LEN, 40), (MMU.STR.ROOT.EN 35, 1), (SRM.MINT_CFG.TYPE, 7), (SRM.MINT_CFG.ENGINE, 2), (SRM.MINT_CFG.DEST, 4)] fun b => { b with memory := { b.memory with tlb := [⟨35, 0, 12, 0x10000000, true, true⟩] } }, by decide +kernel⟩

theorem wit_CryptoOperations_10 : ∃ s : State, (s.blk.srm.op = some ({ slot := 64, result := 4, out := [], dst := 0 } : CryptoOp)) ∧ ((({ slot := 64, result := 4, out := [], dst := 0 } : CryptoOp).out = [] ∨ (streamWrite { s.blk with srm := { s.blk.srm with op := none } } 35 ({ slot := 64, result := 4, out := [], dst := 0 } : CryptoOp).dst ({ slot := 64, result := 4, out := [], dst := 0 } : CryptoOp).out).2.1 = 0)) :=
  ⟨mk [(SRM.OP_STAT.BUSY, 1)] fun b => { b with srm := { b.srm with op := some { slot := 64, result := 4, out := [], dst := 0 } } }, by decide +kernel⟩

theorem wit_AnchorsAndFloor_1 : ∃ s : State, ((.core 1 : Init).side = .hostSide) ∧ (Accepts s.blk (.core 1 : Init) SRM.ANCH_CTL.PROG.a (BitVec.ofNat 32 (4 + (2 : Fin 4).val))) :=
  ⟨mk [(SRM.ANCH_STAGE.HASH 3, 7)] (fun b => setLock b pgSRM { win := some (.core 1), remain := 9 }), by decide +kernel⟩

theorem wit_AnchorsAndFloor_2 : ∃ s : State, ((.met : Init).side = .fieldSide) ∧ (Accepts s.blk (.met : Init) FSRM.ANCH_CTL.PROG.a (BitVec.ofNat 32 (4 + (2 : Fin 4).val))) :=
  ⟨mk [] (fun b => setLock b pgFSRM { win := some .met, remain := 9 }), by decide +kernel⟩

theorem wit_AnchorsAndFloor_3 : ∃ s : State, ((.core 1 : Init).side = .hostSide) ∧ (Accepts s.blk (.core 1 : Init) SRM.ANCH_CTL.PROG.a (BitVec.ofNat 32 (8 + (2 : Fin 4).val))) ∧ (¬((anchorsOk s.blk 0).contains (2 : Fin 4).val = true ∧ (anchorsOk s.blk 0).length = 1)) :=
  ⟨mk [(SRM.STAT.ANCH_PROG, 6)] (fun b => setLock b pgSRM { win := some (.core 1), remain := 9 }), by decide +kernel⟩

theorem wit_AnchorsAndFloor_4 : ∃ s : State, ((.met : Init).side = .fieldSide) ∧ (Accepts s.blk (.met : Init) FSRM.ANCH_CTL.PROG.a (BitVec.ofNat 32 (8 + (2 : Fin 4).val))) ∧ (¬((anchorsOk s.blk 64).contains (2 : Fin 4).val = true ∧ (anchorsOk s.blk 64).length = 1)) :=
  ⟨mk [(FSRM.STAT.ANCH_PROG, 6)] (fun b => setLock b pgFSRM { win := some .met, remain := 9 }), by decide +kernel⟩

theorem wit_AnchorsAndFloor_5 : ∃ s : State, ((.core 1 : Init).side = .hostSide) ∧ (Accepts s.blk (.core 1 : Init) SRM.ROLL_ADV.GO.a 1) ∧ (rd s.blk SRM.STAT.FLOOR < rd s.blk SRM.BOOT_SVN.SVN) :=
  ⟨mk [(SRM.BOOT_SVN.SVN, 6)] (fun b => setLock b pgSRM { win := some (.core 1), remain := 9 }), by decide +kernel⟩

theorem wit_AnchorsAndFloor_6 : ∃ s : State, ((.met : Init).side = .fieldSide) ∧ (Accepts s.blk (.met : Init) FSRM.ROLL_ADV.GO.a 1) ∧ (rd s.blk FSRM.STAT.FLOOR < rd s.blk FSRM.BOOT_SVN.SVN) :=
  ⟨mk [(FSRM.BOOT_SVN.SVN, 6)] (fun b => setLock b pgFSRM { win := some .met, remain := 9 }), by decide +kernel⟩

theorem wit_MetrologySamples_1 : ∃ s : State, (enabled s.blk pgMTR = true) ∧ (clocked s.blk pgMTR = true) ∧ (s.blk.met.stopped = false) ∧ (takesNow s.blk = true) :=
  ⟨mk [(hEN pgMTR, 1), (hEN (pgSNS 0), 1), (SNS.SCFG.TYPE 0, 1)], by decide +kernel⟩

theorem wit_MetrologySamples_2 : ∃ s : State, (metSamples s.blk = true) ∧ (takesNow s.blk = true) :=
  ⟨mk [(hEN pgMTR, 1), (MTR.VCH.VGAIN.GAIN 0, 0x1000000)], by decide +kernel⟩

theorem wit_MetrologySamples_3 : ∃ s : State, (enabled s.blk pgMTR = true) ∧ (clocked s.blk pgMTR = true) ∧ (isOn s.blk MTR.MCTL.AC_EN = true) ∧ (s.blk.met.ac.n ≠ 0) ∧ (s.blk.met.stopped = false) ∧ (acLost s.blk.met.ac (70010 : Word).toNat s.blk = !(false : Bool)) ∧ (((false : Bool) = true ∨ fixedCycle s.blk ≤ s.blk.met.ac.n)) ∧ (takesNow s.blk = true) :=
  ⟨mk [(hEN pgMTR, 1), (MTR.MCTL.AC_EN, 1)] fun b => { b with met := { b.met with ac := { n := 160, dt := 20000000, v2 := [9, 9, 9] } } }, by decide +kernel⟩

theorem wit_MetrologySamples_4 : ∃ s : State, ((7 : Fin 15).val < 8) ∧ (enabled s.blk (pgSNS (7 : Fin 15).val) = true) ∧ (condNow s.blk (7 : Fin 15).val (.brOpen : SnsCond) (true : Bool) = (true : Bool)) :=
  ⟨mk [(hEN (pgSNS 7), 1), (SNS.SCFG.TYPE 7, 2)], by decide +kernel⟩

theorem wit_MetrologySamples_5 : ∃ s : State, (8 ≤ (14 : Fin 15).val) ∧ (enabled s.blk pgMTR = true) ∧ (clocked s.blk pgMTR = true) ∧ (decide (ovrBound ≤ (rdI s.blk (MTR.VCH.VRAW.X ((14 : Fin 15).val - 8))).natAbs) = (true : Bool)) :=
  ⟨mk [(hEN pgMTR, 1), (MTR.VCH.VRAW.X 6, 8220000)], by decide +kernel⟩

theorem wit_MetrologySamples_6 : ∃ s : State, (enabled s.blk pgMTR = true) ∧ (clocked s.blk pgMTR = true) ∧ (paired s.blk = true) :=
  ⟨mk [(hEN pgMTR, 1), (SYS.MODE.PAIR, 1)], by decide +kernel⟩

theorem wit_CalibrationAndPulses_1 : ∃ s : State, (Accepts s.blk (.ctrl : Init) MTR.CAPT_CTL.GO.a ((0x80500 : Word) ||| 1)) ∧ (enabled s.blk pgMTR = true) ∧ (clocked s.blk pgMTR = true) :=
  ⟨mk [(hEN pgMTR, 1), (MTR.CAPT_STAT.DONE_N, 7)], by decide +kernel⟩

theorem wit_CalibrationAndPulses_2 : ∃ s : State, (enabled s.blk pgMTR = true) ∧ (clocked s.blk pgMTR = true) ∧ (isOn s.blk MTR.CAPT_STAT.BUSY = true) ∧ (rd s.blk MTR.CAPT_CTL.N ≤ rd s.blk MTR.CAPT_STAT.DONE_N) :=
  ⟨mk [(hEN pgMTR, 1), (MTR.CAPT_STAT.BUSY, 1), (MTR.CAPT_CTL.N, 4), (MTR.CAPT_STAT.DONE_N, 4)], by decide +kernel⟩

theorem wit_CalibrationAndPulses_3 : ∃ s : State, (Accepts s.blk (.ctrl : Init) MTR.CAL_COMMIT.GO.a 1) ∧ (enabled s.blk pgMTR = true) ∧ (clocked s.blk pgMTR = true) :=
  ⟨mk [(hEN pgMTR, 1)], by decide +kernel⟩

theorem wit_CalibrationAndPulses_4 : ∃ s : State, (enabled s.blk pgMTR = true) ∧ (clocked s.blk pgMTR = true) :=
  ⟨mk [(hEN pgMTR, 1), (MTR.CAL_STAT.CAL_OK, 1), (MTR.CAL_STAT.COMMITS, 1), (MTR.CAL_CRC.CRC, 7)], by decide +kernel⟩

theorem wit_CalibrationAndPulses_5 : ∃ s : State, (enabled s.blk pgMTR = true) ∧ (clocked s.blk pgMTR = true) ∧ (36 * 10 ^ 22 ≤ Tab.at' (fun _ => 0) s.blk.met.pulse (4 : Fin 5).val) ∧ (s.blk.met.active.testBit (4 : Fin 5).val = false) :=
  ⟨mk [(hEN pgMTR, 1)] fun b => { b with met := { b.met with pulse := [(4, 40 * 10 ^ 22)] } }, by decide +kernel⟩

theorem wit_CalibrationAndPulses_6 : ∃ s : State, (enabled s.blk pgMTR = true) ∧ (clocked s.blk pgMTR = true) ∧ (s.blk.met.active.testBit (4 : Fin 5).val = true) :=
  ⟨mk [(hEN pgMTR, 1)] fun b => { b with met := { b.met with active := 18 } }, by decide +kernel⟩

theorem wit_CalibrationAndPulses_7 : ∃ s : State, (Accepts s.blk (.met : Init) (MTR.PULSE.PCFG.CONST (4 : Fin 5).val).a (0x85000 : Word)) ∧ ((writeOf s.blk (.met : Init) (MTR.PULSE.PCFG.CONST (4 : Fin 5).val).a (0x85000 : Word)).mask / 2 ^ 12 ≠ 0) :=
  ⟨mk [(MTR.PULSE.PCNT.COUNT 4, 9)], by decide +kernel⟩

theorem wit_BillingBoundaries_1 : ∃ s : State, (houseOn s.blk) :=
  ⟨mk [(hEN pgCH, 1), (CH.CSTAT.TIMED, 1)] fun b => setLive { b.house.live with h := 60000000000, endB := 90000000000 } { b with house := { b.house with pos := (0, 60000000000), bPrev := 60000000000 } }, by decide +kernel⟩

theorem wit_BillingBoundaries_2 : ∃ s : State, (houseOn s.blk) :=
  ⟨mk [(hEN pgCH, 1), (CH.CSTAT.TIMED, 1)] fun b => setLive { b.house.live with h := 60000000000, endB := 90000000000 } { b with house := { b.house with pos := (0, 60000000000), bPrev := 60000000000 } }, by decide +kernel⟩

theorem wit_BillingBoundaries_3 : ∃ s : State, (houseOn s.blk) :=
  ⟨mk [(hEN pgCH, 1), (CH.CSTAT.TIMED, 1)] fun b => setLive { b.house.live with h := 60000000000, endB := 90000000000 } { b with house := { b.house with pos := (0, 60000000000), bPrev := 60000000000 } }, by decide +kernel⟩

theorem wit_BillingBoundaries_4 : ∃ s : State, (houseOn s.blk) :=
  ⟨mk [(hEN pgCH, 1), (CH.CSTAT.TIMED, 1)] fun b => setLive { b.house.live with h := 60000000000, endB := 90000000000 } { b with house := { b.house with pos := (0, 60000000000), bPrev := 60000000000 } }, by decide +kernel⟩

theorem wit_BillingBoundaries_5 : ∃ s : State, (houseOn s.blk) :=
  ⟨mk [(hEN pgCH, 1), (CH.CSTAT.TIMED, 1)] fun b => setLive { b.house.live with h := 60000000000, endB := 90000000000 } { b with house := { b.house with pos := (0, 60000000000), bPrev := 60000000000 } }, by decide +kernel⟩

theorem wit_BillingBoundaries_6 : ∃ s : State, (houseOn s.blk) ∧ (sends s.blk = true) :=
  ⟨mk [(hEN pgCH, 1)] fun b => { b with house := { b.house with feedE := 9 } }, by decide +kernel⟩

theorem wit_BillingBoundaries_7 : ∃ s : State, (houseOn s.blk) :=
  ⟨mk [(hEN pgCH, 1), (CH.CSTAT.TIMED, 1)] fun b => setLive { b.house.live with h := 60000000000, endB := 90000000000 } { b with house := { b.house with pos := (0, 60000000000), bPrev := 60000000000 } }, by decide +kernel⟩

theorem wit_BillingBoundaries_8 : ∃ s : State, (houseOn s.blk) ∧ (s.blk.house.queue = ({ type := 2, meter := 4, flags := 0, qual := 0, tariff := 1, b := 5, l := 6, id := 1, gen := 0, resets := 0, crc := 0, body := [1] } : AedRec) :: ([] : List AedRec)) :=
  ⟨mk [(hEN pgCH, 1)] fun b => { b with house := { b.house with queue := [{ type := 2, meter := 4, flags := 0, qual := 0, tariff := 1, b := 5, l := 6, id := 1, gen := 0, resets := 0, crc := 0, body := [1] }] } }, by decide +kernel⟩

theorem wit_BillingBoundaries_9 : ∃ s : State, (takesNow s.blk = true) :=
  ⟨mk [(hEN pgCH, 1)], by decide +kernel⟩

theorem wit_BillingBoundaries_10 : ∃ s : State, (takesNow s.blk = true) :=
  ⟨mk [(hEN pgCH, 1), (CH.TAMPER.COVER_OPEN, 1)], by decide +kernel⟩

theorem wit_MailboxCommands_1 : ∃ s : State, (Accepts s.blk (.ctrl : Init) FBAR.MBX_CTL.GO.a (1 : Word)) ∧ ((1 : Word).toNat.testBit 0 = true) :=
  ⟨mk [(FBAR.MBX_DATA.DATA 1, 0x20058)], by decide +kernel⟩

theorem wit_MailboxCommands_2 : ∃ s : State, (mailPasses s.blk 0x01 maySessionOpen) ∧ (takesNow s.blk = true) :=
  ⟨mk [(hEN pgCH, 1)] (mailTo (le 40 0x11223344556677880000000000000003000000000000000000000000000000000000002800014143) ∘ id), by decide +kernel⟩

theorem wit_MailboxCommands_3 : ∃ s : State, (mailPasses s.blk 0x02 maySessionClose) ∧ (takesNow s.blk = true) :=
  ⟨mk [(hEN pgCH, 1)] (mailTo (le 25 0x3000000000000000000000000000000000000001900024143) ∘ setSess 3 (some {})), by decide +kernel⟩

theorem wit_MailboxCommands_4 : ∃ s : State, (mailPasses s.blk 0x03 anyState) ∧ (takesNow s.blk = true) :=
  ⟨mk [(hEN pgCH, 1)] (mailTo (le 44 0x20000000000000001000000000000000096000000000000000000000000000000000000002c00034143) ∘ id), by decide +kernel⟩

theorem wit_MailboxCommands_5 : ∃ s : State, (mailPasses s.blk 0x04 mayReplay) ∧ (ringRecord s.blk (mailAt s.blk 0 8) = some (List.replicate 8 0 ++ [5, 1, 0, 0, 0, 0, 0, 0] : List Byte)) ∧ (sends s.blk = true) ∧ (takesNow s.blk = true) :=
  ⟨mk [(hEN pgCH, 1)] (mailTo (le 32 0x105000000000000000000000000000000000000002000044143) ∘ (fun b => { b with house := { b.house with ring := [(5, List.replicate 8 0 ++ [5, 1, 0, 0, 0, 0, 0, 0])] } })), by decide +kernel⟩

theorem wit_SignedCommands_1 : ∃ s : State, (mailPasses s.blk 0x10 anyState) ∧ (takesNow s.blk = true) :=
  ⟨mk [(hEN pgCH, 1)] (mailTo (le 92 0x4d1576fbb3b7b3d409f01c19cd911a76e42169f2726089c3425a627d1b067b327546f1d2efe5d377262be9b8a55f8cddbe3403f9e0fa7bd71fb631ec93da704f0001ffff000000000000000700000000000000000000005c00104143) ∘ (fun b => { b with srm := { b.srm with slots := [(65, { c0 := Crypto.pubOf 5, use := { type := 6 } })] } })), by decide +kernel⟩

theorem wit_SignedCommands_2 : ∃ s : State, (mailPasses s.blk 0x11 anyState) ∧ (takesNow s.blk = true) :=
  ⟨mk [(hEN pgCH, 1)] (mailTo (le 88 0x76a21cec9f7cef366e6fcf30c4429603ba3374491d844f67017654669e74c3965c470bd3645fa33662d2bf1df115a5828ec2e65b8bd13e8fbd89533c43722b8e000000000000000800000000000000000000005800114143) ∘ (fun b => { b with srm := { b.srm with slots := [(65, { c0 := Crypto.pubOf 5, use := { type := 6 } })] } })), by decide +kernel⟩

theorem wit_SignedCommands_3 : ∃ s : State, (mailPasses s.blk 0x12 mayCalLoad) ∧ (takesNow s.blk = true) :=
  ⟨mk [(hEN pgCH, 1)] (mailTo (le 100 0x45d2404d5f726863aca90e60c13e41177de5b8af1487aa391242e63be99175a45988cf3a645b995a1e9fca22072dbb9c459c32f7cb3f93a8bd9012dd2cdb784b0000000000000000000201fe000000000000000900000000000000000000006400124143) ∘ (fun b => { b with srm := { b.srm with slots := [(65, { c0 := Crypto.pubOf 5, use := { type := 6 } })] } })), by decide +kernel⟩

def witCal : State :=
  mk [(hEN pgCH, 1)] (mailTo (le 101 0x3505fb25f7b5a67460498d1243fbc8766c8a79b2682e9fd8367864f02870f56686b561ecaa3d21b42ae9d2b9125978841201105d0deed82bc28299f9d6e4f62307f1e8ba9e0000200000000000000000000000000a00000000000000000000006500134143) ∘ (fun b => { b with srm := { b.srm with slots := [(65, { c0 := Crypto.pubOf 5, use := { type := 6 } })] } }))

theorem wit_SignedCommands_4 : ∃ s : State, (mailPasses s.blk 0x13 mayCalActivate) ∧ ((moveB s.blk).house.live.h < mailAt s.blk 0 8) ∧ (takesNow s.blk = true) := by
  refine ⟨witCal, ⟨by decide +kernel, by decide +kernel, by decide +kernel, by decide +kernel, by decide +kernel, ?_⟩,
    by decide +kernel⟩
  have hp : payAt (framePay (mailFrame witCal.blk)) 8 4 = 4058561182 := by decide +kernel
  have hz : ∀ k, pendEntry witCal.blk k = 0 := fun _ => rfl
  simp [mayCalActivate, hp, crc_zero_bank _ hz]

theorem wit_SignedCommands_5 : ∃ s : State, (mailPasses s.blk 0x14 anyState) ∧ (takesNow s.blk = true) :=
  ⟨mk [(hEN pgCH, 1)] (mailTo (le 100 0x18ace116b03bdb0e7cba293a85527e5d600a8ff48e7a08ef17cec0e753356a0dbb171cb71f5a86326b1a08f82b55f4941c8ca32285df28db21e2c25a8e0ff21d00000e100000004d00000003000000000000000b00000000000000000000006400144143) ∘ (fun b => { b with srm := { b.srm with slots := [(65, { c0 := Crypto.pubOf 5, use := { type := 6 } })] } })), by decide +kernel⟩

theorem wit_SignedCommands_6 : ∃ s : State, (mailPasses s.blk 0x15 mayAckTamper) ∧ (takesNow s.blk = true) :=
  ⟨mk [(hEN pgCH, 1)] (mailTo (le 88 0xd510d6bb2144f7e0f3374f4562dc0a34a6f42fe7e0b0a741c0c9e6468290f5c6652ba5ddeeeef42a589687575b5b00c6f456b27fb823b00d0bcb4dc4eba81b1000000000000000c00000000000000000000005800154143) ∘ ((fun b => wr b CH.TAMPER.COVER_CNT 4) ∘ (fun b => { b with srm := { b.srm with slots := [(65, { c0 := Crypto.pubOf 5, use := { type := 6 } })] } }))), by decide +kernel⟩

theorem wit_SignedCommands_7 : ∃ s : State, (mailPasses s.blk 0x16 maySeal) ∧ (takesNow s.blk = true) :=
  ⟨mk [(hEN pgCH, 1)] (mailTo (le 88 0x2a360ad81c827141489c9d95b69c43bf2a04b21a074c24e8b857fcb9572e0d9da5e9f4d382a8ed3afcce2485a59e6795bf9c295416c31ac982361afb7978b15f000000000000000d00000000000000000000005800164143) ∘ ((fun b => wrB (wrB b MTR.CAL_STAT.CAL_OK true) FTIME.FSTAT.A_SET true) ∘ (fun b => { b with srm := { b.srm with slots := [(65, { c0 := Crypto.pubOf 5, use := { type := 6 } })] } }))), by decide +kernel⟩

theorem wit_SignedCommands_8 : ∃ s : State, (mailPasses s.blk 0x17 mayUnseal) ∧ (takesNow s.blk = true) :=
  ⟨mk [(hEN pgCH, 1)] (mailTo (le 88 0xb38faf05876a0a410db28e8e9c763c1b09a59ae5716eb08f919afac033b00f1121c9baf553463e82423e6d0494cfc19d29ef5c0bc3f43f6c4bc391616a9c3517800000000000000000000000000000000000005800174143) ∘ ((fun b => wrB { b with acc := { b.acc with sealed := true } } CH.TAMPER.TERM_OPEN true) ∘ (fun b => { b with srm := { b.srm with slots := [(65, { c0 := Crypto.pubOf 5, use := { type := 6 } })] } }))), by decide +kernel⟩

theorem wit_PageCommands_1 : ∃ s : State, (storable (.met : Init) (0x58000001 : BitVec 32).toNat ([1, 2] : List Byte).length (.fieldMram : Region)) ∧ (([1, 2] : List Byte) ≠ []) ∧ (regionAt (.met : Init).side (0x58000001 : BitVec 32).toNat = some (.fieldMram : Region)) ∧ (regionAt (.met : Init).side ((0x58000001 : BitVec 32).toNat + ([1, 2] : List Byte).length - 1) = some (.fieldMram : Region)) :=
  ⟨State.reset, by decide +kernel⟩

theorem wit_PageCommands_2 : ∃ s : State, (wordStore (.core 2 : Init) (0x20050040 : BitVec 32).toNat ([0x08, 0x0A, 0x65, 0] : List Byte)) ∧ (0x40 ≤ (0x20050040 : BitVec 32).toNat % 0x1000) ∧ (¬ ownRow (regAt (.core 2 : Init) (0x20050040 : BitVec 32).toNat)) ∧ (Accepts s.blk (.core 2 : Init) (regAt (.core 2 : Init) (0x20050040 : BitVec 32).toNat) (word (ofLE ([0x08, 0x0A, 0x65, 0] : List Byte)))) :=
  ⟨mk [] fun b => setLock b pgLINK { win := some (.core 2), remain := 9 }, by decide +kernel⟩

theorem wit_PageCommands_3 : ∃ s : State, (wordStore (.ctrl : Init) (0x60060024 : BitVec 32).toNat ([7, 0, 0, 0] : List Byte)) ∧ (((0x60060024 : BitVec 32).toNat % 0x1000 = 0x24 ∨ (0x60060024 : BitVec 32).toNat % 0x1000 = 0x2C)) ∧ (Accepts s.blk (.ctrl : Init) (regAt (.ctrl : Init) (0x60060024 : BitVec 32).toNat) (word (ofLE ([7, 0, 0, 0] : List Byte)))) :=
  ⟨State.reset, by decide +kernel⟩

theorem wit_PageCommands_4 : ∃ s : State, (wordStore (.core 2 : Init) (0x20050040 : BitVec 32).toNat ([0x08, 0x0A, 0x65, 0] : List Byte)) ∧ (regAt (.core 2 : Init) (0x20050040 : BitVec 32).toNat ≠ DBK.REL_HI.SEQ.a) ∧ ((writeOf s.blk (.core 2 : Init) (regAt (.core 2 : Init) (0x20050040 : BitVec 32).toNat) (word (ofLE ([0x08, 0x0A, 0x65, 0] : List Byte)))).mask = 0) ∧ (1 < (writeOf s.blk (.core 2 : Init) (regAt (.core 2 : Init) (0x20050040 : BitVec 32).toNat) (word (ofLE ([0x08, 0x0A, 0x65, 0] : List Byte)))).status) :=
  ⟨mk [(hREJCNT pgLINK, 255)], by decide +kernel⟩

theorem wit_PageCommands_5 : ∃ s : State, (badStore (.core 2 : Init) (0x2004FFFE : BitVec 32).toNat ([1, 2, 3, 4] : List Byte)) :=
  ⟨State.reset, by decide +kernel⟩

theorem wit_PageCommands_6 : ∃ s : State, (regionAt .fieldSide (0x60050000 : BitVec 32).toNat = some .fieldPages) ∧ (regionAt .fieldSide ((0x60050000 : BitVec 32).toNat + ([1] : List Byte).length - 1) = some .fieldPages) ∧ (([1] : List Byte) ≠ []) ∧ (metOnly (regAt .ctrl (0x60050000 : BitVec 32).toNat / 0x1000 * 0x1000) = true) :=
  ⟨State.reset, by decide +kernel⟩

theorem wit_PageCommands_7 : ∃ s : State, (wordStore (.ctrl : Init) (0x60060048 : BitVec 32).toNat ([1, 0, 0, 0] : List Byte)) ∧ (Waits s.blk (.ctrl : Init) (regAt (.ctrl : Init) (0x60060048 : BitVec 32).toNat) (word (ofLE ([1, 0, 0, 0] : List Byte)))) :=
  ⟨mk [(SYS.MODE.ROLE, 1), (SYS.MODE.PAIR, 1), (SYS.MODE.ACTIVE, 1), (SYS.MODE.PEER_SYNC, 1), (RED.CTL.WR_LAG, 20)] (fun b => { b with red := { b.red with tseq := 9 } }), by decide +kernel⟩

theorem wit_PageCommands_8 : ∃ s : State, (wideLow (pageKey (.ctrl : Init) (0x50 : BitVec 8).toNat + (0x54 : BitVec 12).toNat / 4 * 4) = true) ∧ (plainRead (pageKey (.ctrl : Init) (0x50 : BitVec 8).toNat + (0x54 : BitVec 12).toNat / 4 * 4)) ∧ ((isOn s.blk (hBUSY (pageKey (.ctrl : Init) (0x50 : BitVec 8).toNat)) = false ∨ (0x54 : BitVec 12).toNat < 0x40)) ∧ (pendingWrite s.blk (.ctrl : Init) (pageKey (.ctrl : Init) (0x50 : BitVec 8).toNat + (0x54 : BitVec 12).toNat / 4 * 4) = none) :=
  ⟨mk [(CH.HWM.H, 7)], by decide +kernel⟩

theorem wit_PageCommands_9 : ∃ s : State, ((pageAt (pageKey (.ctrl : Init) (0x50 : BitVec 8).toNat)).isSome = true) ∧ ((((pageAt (pageKey (.ctrl : Init) (0x50 : BitVec 8).toNat)).map (·.1)).bind (rowAt · ((0x58 : BitVec 12).toNat / 4 * 4))).isSome = true) ∧ (plainRead (pageKey (.ctrl : Init) (0x50 : BitVec 8).toNat + (0x58 : BitVec 12).toNat / 4 * 4)) ∧ ((isOn s.blk (hBUSY (pageKey (.ctrl : Init) (0x50 : BitVec 8).toNat)) = false ∨ (0x58 : BitVec 12).toNat < 0x40)) ∧ (pendingWrite s.blk (.ctrl : Init) (pageKey (.ctrl : Init) (0x50 : BitVec 8).toNat + (0x58 : BitVec 12).toNat / 4 * 4) = none) ∧ (shadowOf s.blk (.ctrl : Init) (pageKey (.ctrl : Init) (0x50 : BitVec 8).toNat) = some ({ page := pgCH, key := pgCH + 0x58, hi := 77 } : Shadow)) ∧ (({ page := pgCH, key := pgCH + 0x58, hi := 77 } : Shadow).key = pageKey (.ctrl : Init) (0x50 : BitVec 8).toNat + (0x58 : BitVec 12).toNat / 4 * 4) :=
  ⟨mk [] (setShadow .ctrl pgCH (some { page := pgCH, key := pgCH + 0x58, hi := 77 })), by decide +kernel⟩

theorem wit_PageCommands_10 : ∃ s : State, ((pageAt (pageKey (.ctrl : Init) (0x50 : BitVec 8).toNat)).isSome = true) ∧ (isOn s.blk (hBUSY (pageKey (.ctrl : Init) (0x50 : BitVec 8).toNat)) = true) ∧ (0x40 ≤ (0x54 : BitVec 12).toNat) ∧ (pendingWrite s.blk (.ctrl : Init) (pageKey (.ctrl : Init) (0x50 : BitVec 8).toNat + (0x54 : BitVec 12).toNat / 4 * 4) = none) :=
  ⟨mk [(CH.HWM.H, 7), (hBUSY pgCH, 1)], by decide +kernel⟩

theorem wit_PageCommands_11 : ∃ s : State, (Accepts s.blk (.ctrl : Init) (pageKey (.ctrl : Init) (0x60 : BitVec 8).toNat + 0x0C) (wordOf s.blk (pageKey (.ctrl : Init) (0x60 : BitVec 8).toNat + 0x0C) ||| 1)) :=
  ⟨State.reset, by decide +kernel⟩

theorem wit_PageCommands_12 : ∃ s : State, (Waits s.blk (.ctrl : Init) (pageKey (.ctrl : Init) (0x60 : BitVec 8).toNat + 0x0C) (wordOf s.blk (pageKey (.ctrl : Init) (0x60 : BitVec 8).toNat + 0x0C) ||| 1)) :=
  ⟨mk [(SYS.MODE.ROLE, 1), (SYS.MODE.PAIR, 1), (SYS.MODE.ACTIVE, 0), (SYS.MODE.PEER_SYNC, 1), (RED.CTL.WR_LAG, 20)] (fun b => { b with red := { b.red with tseq := 9 } }), by decide +kernel⟩

theorem wit_PageCommands_13 : ∃ s : State, (lateWrite s.blk (pageKey (.ctrl : Init) (0x60 : BitVec 8).toNat + 0x0C) = false) ∧ ((ctlOf s.blk (.ctrl : Init) (pageKey (.ctrl : Init) (0x60 : BitVec 8).toNat) (· &&& ~~~1#32)).mask.testBit 0 = true) ∧ ((match pageAt (pageKey (.ctrl : Init) (0x60 : BitVec 8).toNat) with | some (r, _) => r.alwaysOn | none => true) = false) :=
  ⟨mk [(hEN (pgVP 0), 1)], by decide +kernel⟩

theorem wit_PageCommands_14 : ∃ s : State, (Waits s.blk (.ctrl : Init) (pageKey (.ctrl : Init) (0x60 : BitVec 8).toNat + 0x0C) (wordOf s.blk (pageKey (.ctrl : Init) (0x60 : BitVec 8).toNat + 0x0C) &&& ~~~1#32)) :=
  ⟨mk [(SYS.MODE.ROLE, 1), (SYS.MODE.PAIR, 1), (SYS.MODE.ACTIVE, 1), (SYS.MODE.PEER_SYNC, 1), (RED.CTL.WR_LAG, 20)] (fun b => { b with red := { b.red with tseq := 9 } }), by decide +kernel⟩

theorem wit_PageCommands_15 : ∃ s : State, (lateWrite s.blk (pageKey (.ctrl : Init) (0x60 : BitVec 8).toNat + 0x0C) = false) ∧ ((ctlOf s.blk (.ctrl : Init) (pageKey (.ctrl : Init) (0x60 : BitVec 8).toNat) (fun w => if (true : Bool) then w ||| 4 else w &&& ~~~4#32)).mask.testBit 2 = true) ∧ ((wordOf s.blk (pageKey (.ctrl : Init) (0x60 : BitVec 8).toNat + 0x0C)).getLsbD 1 = false) :=
  ⟨mk [(hEN (pgVP 0), 1)], by decide +kernel⟩

theorem wit_PageCommands_16 : ∃ s : State, (Waits s.blk (.ctrl : Init) (pageKey (.ctrl : Init) (0x60 : BitVec 8).toNat + 0x0C) (if (true : Bool) then wordOf s.blk (pageKey (.ctrl : Init) (0x60 : BitVec 8).toNat + 0x0C) ||| 4 else wordOf s.blk (pageKey (.ctrl : Init) (0x60 : BitVec 8).toNat + 0x0C) &&& ~~~4#32)) :=
  ⟨mk [(SYS.MODE.ROLE, 1), (SYS.MODE.PAIR, 1), (SYS.MODE.ACTIVE, 1), (SYS.MODE.PEER_SYNC, 1), (RED.CTL.WR_LAG, 20)] (fun b => { b with red := { b.red with tseq := 9 } }), by decide +kernel⟩

theorem wit_PageCommands_17 : ∃ s : State, (Accepts s.blk (.ctrl : Init) (pageKey (.ctrl : Init) (0x70 : BitVec 8).toNat + 0x0C) (wordOf s.blk (pageKey (.ctrl : Init) (0x70 : BitVec 8).toNat + 0x0C) ||| 2)) :=
  ⟨mk [(hEN pgMESH, 1), (MESH.MCTL.NODE_ID, 4)] fun b => setLock b pgMESH { win := some .ctrl, remain := 9 }, by decide +kernel⟩

theorem wit_PageCommands_18 : ∃ s : State, (Accepts s.blk (.ctrl : Init) (pageKey (.ctrl : Init) (0x7C : BitVec 8).toNat + 0x0C) (wordOf s.blk (pageKey (.ctrl : Init) (0x7C : BitVec 8).toNat + 0x0C) ||| 2)) ∧ (pageKey (.ctrl : Init) (0x7C : BitVec 8).toNat ∈ [pgMMU, pgDMA, pgMEM, pgMON, pgFMON, pgTHM]) ∧ (0x40 ≤ (0x44 : Nat)) ∧ ((0x44 : Nat) < 0x1000) :=
  ⟨mk [(⟨pgTHM + 0x44, 0, 32⟩, 9)] fun b => setLock b pgTHM { win := some .ctrl, remain := 9 }, by decide +kernel⟩

theorem wit_PageCommands_19 : ∃ s : State, (Waits s.blk (.ctrl : Init) (pageKey (.ctrl : Init) (0x70 : BitVec 8).toNat + 0x0C) (wordOf s.blk (pageKey (.ctrl : Init) (0x70 : BitVec 8).toNat + 0x0C) ||| 2)) :=
  ⟨mk [(SYS.MODE.ROLE, 1), (SYS.MODE.PAIR, 1), (SYS.MODE.ACTIVE, 1), (SYS.MODE.PEER_SYNC, 1), (RED.CTL.WR_LAG, 20)] (fun b => setLock b pgMESH { win := some .ctrl, remain := 9 } |> fun b => { b with red := { b.red with tseq := 9 } }), by decide +kernel⟩

theorem wit_PageCommands_21 : ∃ s : State, ((writeOf s.blk (.ctrl : Init) (pageKey (.ctrl : Init) (0x60 : BitVec 8).toNat + 0x30) (0x0DEC : Word)).mask ≠ 0) :=
  ⟨mk [] fun b => setLock b (pgVP 0) { seq := some .ctrl }, by decide +kernel⟩

theorem wit_EventsAndMonitors_1 : ∃ s : State, (Accepts s.blk (.ctrl : Init) ((.ctrl : Init).side.key + (0x60 : BitVec 8).toNat * 0x1000 + 0x28) (3 : Word)) :=
  ⟨mk [(hEN (pgVP 0), 1), (hRAW (pgVP 0), 7)], by decide +kernel⟩

theorem wit_EventsAndMonitors_2 : ∃ s : State, (firstForwarded s.blk = some (80 : Nat)) :=
  ⟨mk [(hFWD (pgVP 0), 1), (hEVEN (pgVP 0), 1), (hRAW (pgVP 0), 1)], by decide +kernel⟩

theorem wit_EventsAndMonitors_4 : ∃ s : State, (Accepts s.blk (.core 3 : Init) EVC.FWD_CLR.CLR.a (5 : Word)) :=
  ⟨mk [(EVC.FWD_RAW.RAW, 7)], by decide +kernel⟩

theorem wit_EventsAndMonitors_5 : ∃ s : State, ((.ctrl : Init) ≠ .host) ∧ ((onField (.ctrl : Init) = false ∨ (0 : Fin 4).val < 2)) ∧ (isOn s.blk (hBUSY (if onField (.ctrl : Init) then pgFEVC else pgEVC)) = false) ∧ (bestBy (fun x y => decide (effPrio s.blk (onField (.ctrl : Init)) x < effPrio s.blk (onField (.ctrl : Init)) y)) (eligible s.blk (onField (.ctrl : Init)) (0 : Fin 4).val) = some (80 : Nat)) :=
  ⟨mk [(hEVEN (pgVP 0), 1), (hRAW (pgVP 0), 1), (⟨coreReg true 0, 0, 5⟩, 16), (⟨coreReg true 0 + 0xC, 0, 5⟩, 16), (⟨evReg true 80, 16, 1⟩, 0)], by decide +kernel⟩

theorem wit_EventsAndMonitors_6 : ∃ s : State, (Accepts s.blk (.core 2 : Init) (coreReg (onField (.core 2 : Init)) (2 : Fin 4).val + 8) ((9 : BitVec 8).setWidth 32)) ∧ (svcOf s.blk (coreNo (.core 2 : Init) (2 : Fin 4).val) = ((9, 16) : Nat × Nat) :: ([(8, 16)] : List (Nat × Nat))) :=
  ⟨mk [] fun b => { b with events := { b.events with svc := [(2, [(9, 16), (8, 16)])] } }, by decide +kernel⟩

theorem wit_EventsAndMonitors_7 : ∃ s : State, (enabled s.blk (if (false : Bool) then pgFMON else pgMON) = true) ∧ (isOn s.blk ⟨monReg (false : Bool) (15 : Fin 16).val, 31, 1⟩ = true) ∧ ((rd s.blk ⟨monReg (false : Bool) (15 : Fin 16).val, 20, 4⟩ = 1 ∨ rd s.blk ⟨monReg (false : Bool) (15 : Fin 16).val, 20, 4⟩ = 2 ∨ (rd s.blk ⟨monReg (false : Bool) (15 : Fin 16).val, 20, 4⟩ = 3 ∧ timedProbe (false : Bool) (rd s.blk ⟨monReg (false : Bool) (15 : Fin 16).val, 8, 8⟩) = true))) ∧ ((monOf s.blk (false : Bool) (15 : Fin 16).val).count ≠ 2 ^ 48 - 1) :=
  ⟨mk [(hEN pgMON, 1), (⟨monReg false 15, 31, 1⟩, 1), (⟨monReg false 15, 8, 8⟩, 5), (⟨monReg false 15, 20, 4⟩, 3)], by decide +kernel⟩

theorem wit_EventsAndMonitors_8 : ∃ s : State, ((rd s.blk ⟨monReg (false : Bool) (15 : Fin 16).val, 20, 4⟩ = 0 ∨ 3 < rd s.blk ⟨monReg (false : Bool) (15 : Fin 16).val, 20, 4⟩)) :=
  ⟨mk [(hEN pgMON, 1), (⟨monReg false 15, 31, 1⟩, 1), (⟨monReg false 15, 20, 4⟩, 9)], by decide +kernel⟩

theorem wit_EventsAndMonitors_9 : ∃ s : State, (Accepts s.blk (.core 1 : Init) ((if onField (.core 1 : Init) then pgFMON else pgMON) + 0x40) (0xC0000003 : Word)) ∧ ((0xC0000003 : Word).toNat.testBit 31 = true) :=
  ⟨mk [] (setMon false 1 { count := 77 }), by decide +kernel⟩

theorem wit_BarrierCommands_1 : ∃ s : State, (s.blk.boot.field.held = false) :=
  ⟨State.reset, by decide +kernel⟩

theorem wit_BarrierCommands_2 : ∃ s : State, (s.blk.boot.host.held = false) :=
  ⟨State.reset, by decide +kernel⟩

theorem wit_BarrierCommands_5 : ∃ s : State, (s.blk.bar.hostLost = false) :=
  ⟨State.reset, by decide +kernel⟩

theorem wit_BarrierCommands_6 : ∃ s : State, (s.blk.bar.fieldLost = false) :=
  ⟨State.reset, by decide +kernel⟩

theorem wit_BarrierCommands_10 : ∃ s : State, (reqForm (0x50 : Byte) (0x54 : BitVec 16) (2 : Byte)) ∧ (permBit s.blk (0x100000 + (0x50 : Byte).toNat * 0x1000) 0 = true) :=
  ⟨mk [(CH.HWM.H, 7), (⟨pgFBAR + 0x428, 0, 4⟩, 15)], by decide +kernel⟩

theorem wit_BarrierCommands_11 : ∃ s : State, (reqForm (0x60 : Byte) (0x48 : BitVec 16) (1 : Byte)) ∧ (([5] : List Word).length = (1 : Byte).toNat) ∧ ((1 : Byte).toNat ≤ 1) ∧ (((1 : Byte).toNat = 1 → unlockRule s.blk (0x100000 + (0x60 : Byte).toNat * 0x1000) = 0)) ∧ (wordsWait s.blk (0x60 : Byte) (0x48 : BitVec 16) (1 : Byte) ([5] : List Word) = false) :=
  ⟨mk [(⟨pgFBAR + 0x430, 0, 4⟩, 15)], by decide +kernel⟩

theorem wit_BarrierCommands_12 : ∃ s : State, (reqForm (0x60 : Byte) (0x48 : BitVec 16) (1 : Byte)) ∧ (([5] : List Word).length = (1 : Byte).toNat) ∧ ((0 : Byte).toNat ≤ 1) ∧ (((0 : Byte).toNat = 1 → unlockRule s.blk (0x100000 + (0x60 : Byte).toNat * 0x1000) = 0)) ∧ (s.blk.red.writes.length < (wroteRegs s.blk (0x60 : Byte) (0x48 : BitVec 16) (0 : Byte) ([5] : List Word)).1.red.writes.length) ∧ ((wroteRegs s.blk (0x60 : Byte) (0x48 : BitVec 16) (0 : Byte) ([5] : List Word)).1.red.writes.getLast? = some ({ release := 200, tseq := 9, a := 0x160048, v := 5, init := .host, unl := false } : LateWrite)) :=
  ⟨mk [(⟨pgFBAR + 0x430, 0, 4⟩, 15), (SYS.MODE.PAIR, 1), (SYS.MODE.ACTIVE, 1), (RED.CTL.WR_LAG, 20)] fun b => { b with red := { b.red with tseq := 9 } }, by decide +kernel⟩

theorem wit_BarrierCommands_13 : ∃ s : State, (((0 : Byte).toNat = 0 ∨ 64 < (0 : Byte).toNat ∨ (0 : BitVec 24) ≠ 0)) :=
  ⟨State.reset, by decide +kernel⟩

theorem wit_BarrierCommands_14 : ∃ s : State, (reqForm (0x50 : Byte) (0x54 : BitVec 16) (2 : Byte)) ∧ (permBit s.blk (0x100000 + (0x50 : Byte).toNat * 0x1000) 0 = false) :=
  ⟨mk [(⟨pgFBAR + 0x428, 0, 4⟩, 0)], by decide +kernel⟩

theorem wit_BarrierCommands_15 : ∃ s : State, (barAccepts s.blk 3 (rspBytes (7 : Byte) (0 : Byte) ([1, 2] : List Word))) :=
  ⟨mk [(BAR.RX_RING.SIZE, 4), (MMU.STR.ROOT.EN 34, 1)] fun b => { putBytes 0x1000000B [0x80] (putBytes 0x10000000 [0, 1] b) with memory := { b.memory with tlb := [⟨34, 0, 12, 0x10000000, true, true⟩] } }, by decide +kernel⟩

theorem wit_BarrierCommands_17 : ∃ s : State, (barAccepts s.blk 0x0C ([4, 5] : List Byte)) :=
  ⟨mk [(BAR.RX_RING.SIZE, 4), (MMU.STR.ROOT.EN 34, 1)] fun b => { putBytes 0x1000000B [0x80] (putBytes 0x10000000 [0, 1] b) with memory := { b.memory with tlb := [⟨34, 0, 12, 0x10000000, true, true⟩] } }, by decide +kernel⟩

theorem wit_BarrierCommands_18 : ∃ s : State, (Accepts s.blk (.core 1 : Init) BAR.TX_RING.TAIL.a (0x30000 : Word)) :=
  ⟨State.reset, by decide +kernel⟩

theorem wit_ResetsAndClocks_3 : ∃ s : State, (warned s.blk (true : Bool) = true) :=
  ⟨mk [(FPMU.PFSTAT.WARN, 1)], by decide +kernel⟩

theorem wit_ResetsAndClocks_5 : ∃ s : State, ((sideOf s.blk (true : Bool)).held = true) ∧ ((sideOf s.blk (true : Bool)).holds = 128) :=
  ⟨mk [] (setSide true { held := true, holds := 128, causes := 0x80 }), by decide +kernel⟩

theorem wit_ResetsAndClocks_6 : ∃ s : State, ((sideOf s.blk (true : Bool)).held = true) ∧ ((sideOf s.blk (true : Bool)).holds.testBit 7 = true) ∧ ((sideOf s.blk (true : Bool)).holds ≠ 128) :=
  ⟨mk [] (setSide true { held := true, holds := 130, causes := 0x82 }), by decide +kernel⟩

theorem wit_ResetsAndClocks_7 : ∃ s : State, (s.blk.boot.host.held = true) ∧ (s.blk.boot.host.holds.testBit 7 = false) :=
  ⟨mk [] (setSide false { held := true, causes := 1 }), by decide +kernel⟩

theorem wit_ResetsAndClocks_8 : ∃ s : State, (s.blk.boot.host.held = true) ∧ (s.blk.boot.host.holds.testBit 7 = true) :=
  ⟨mk [] (setSide false { held := true, holds := 130, causes := 130 }), by decide +kernel⟩

theorem wit_ResetsAndClocks_9 : ∃ s : State, (s.blk.boot.field.held = true) ∧ (s.blk.boot.field.holds.testBit 7 = true) :=
  ⟨mk [] (setSide true { held := true, holds := 130, causes := 130 }), by decide +kernel⟩

theorem wit_ResetsAndClocks_10 : ∃ s : State, (s.blk.boot.field.held = true) ∧ (s.blk.boot.field.holds.testBit 7 = false) :=
  ⟨mk [] (setSide true { held := true, causes := 1 }), by decide +kernel⟩

theorem wit_ResetsAndClocks_11 : ∃ s : State, (Accepts s.blk (.ctrl : Init) (sys (onField (.ctrl : Init)) SYS.SWRST.KEY).a 0x5257) ∧ ((sideOf s.blk (onField (.ctrl : Init))).held = false) :=
  ⟨mk [] fun b => setSide true {} (setLock b pgFSYS { win := some .ctrl, remain := 9 }), by decide +kernel⟩

theorem wit_ResetsAndClocks_12 : ∃ s : State, ((sideOf s.blk (false : Bool)).held = false) ∧ (seqDone s.blk (false : Bool) = true) ∧ ((sideOf s.blk (false : Bool)).vinBack = true) :=
  ⟨mk [(PMU.PFSTAT.WARN, 1), (DBK.DSTAT.SEALED, 1)] (setSide false { vinBack := true }), by decide +kernel⟩

theorem wit_ResetsAndClocks_13 : ∃ s : State, ((sideOf s.blk (false : Bool)).held = false) ∧ ((sideOf s.blk (false : Bool)).lost % 4 ≠ 0) :=
  ⟨mk [] (setSide false { lost := 2 }), by decide +kernel⟩

theorem wit_ResetsAndClocks_15 : ∃ s : State, (((3 : Fin 32).val < 4 ∨ 16 ≤ (3 : Fin 32).val)) :=
  ⟨State.reset, by decide +kernel⟩

theorem wit_ResetsAndClocks_16 : ∃ s : State, (((6 : Fin 32).val = 6 ∨ (6 : Fin 32).val = 7)) :=
  ⟨mk [(CLK.CSTAT.LANE_REF, 1)], by decide +kernel⟩

theorem wit_ResetsAndClocks_18 : ∃ s : State, (((3 : Fin 32).val < 4 ∨ 16 ≤ (3 : Fin 32).val)) ∧ (s.blk.boot.host.lost.testBit (3 : Fin 32).val = true) :=
  ⟨mk [] (setSide false { lost := 8 }), by decide +kernel⟩

theorem wit_ResetsAndClocks_19 : ∃ s : State, (((7 : Fin 32).val = 6 ∨ (7 : Fin 32).val = 7)) :=
  ⟨State.reset, by decide +kernel⟩

theorem wit_BootAndWatchdogs_2 : ∃ s : State, (isOn s.blk (pmu (false : Bool) PMU.HOLD.HOLD_RDY) = false) :=
  ⟨mk [(PMU.HOLD.HOLD_RDY, 0)], by decide +kernel⟩

theorem wit_BootAndWatchdogs_3 : ∃ s : State, (rd s.blk SYS.STRAP.BOOT = 2) ∧ (s.blk.boot.host.held = false) ∧ (s.blk.boot.host.run = false) ∧ (isOn s.blk PMU.HOLD.HOLD_RDY = true) ∧ (warned s.blk false = false) ∧ (candidate s.blk 0 0 ((le 4 0x4B4C3836 ++ [0, 3, 0, 0] ++ le 4 77 ++ le 4 2 ++ le 4 0x10000000 ++ le 4 0 ++ List.replicate 64 0 ++ Crypto.sha256 [1, 2] ++ List.replicate 136 0 ++ [1, 2] : List Byte).length - 256) (le 4 0x4B4C3836 ++ [0, 3, 0, 0] ++ le 4 77 ++ le 4 2 ++ le 4 0x10000000 ++ le 4 0 ++ List.replicate 64 0 ++ Crypto.sha256 [1, 2] ++ List.replicate 136 0 ++ [1, 2] : List Byte) = some ({ svn := 3, gen := 77, load := 0x10000000, anchor := 0, hash := Crypto.sha256 [1, 2], body := [1, 2] } : Image)) :=
  ⟨mk [(SYS.STRAP.BOOT, 2), (PMU.HOLD.HOLD_RDY, 1), (SRM.STAT.OPEN, 1)] (setSide false {}), by decide +kernel⟩

theorem wit_BootAndWatchdogs_4 : ∃ s : State, (rd s.blk SYS.STRAP.BOOT = 0) ∧ (s.blk.boot.host.held = false) ∧ (s.blk.boot.host.run = false) ∧ (isOn s.blk PMU.HOLD.HOLD_RDY = true) ∧ (warned s.blk false = false) :=
  ⟨mk [(PMU.HOLD.HOLD_RDY, 1)] (setSide false {}), by decide +kernel⟩

theorem wit_BootAndWatchdogs_5 : ∃ s : State, (s.blk.boot.host.held = false) ∧ (s.blk.boot.host.run = false) ∧ (rd s.blk SYS.STRAP.BOOT ≠ 0) :=
  ⟨mk [(SYS.STRAP.BOOT, 1)] (setSide false {}), by decide +kernel⟩

theorem wit_BootAndWatchdogs_6 : ∃ s : State, (s.blk.boot.host.held = false) ∧ (s.blk.boot.host.run = false) ∧ (rd s.blk SYS.STRAP.BOOT ≠ 0) ∧ (rd s.blk SYS.STRAP.BOOT ≠ 3) :=
  ⟨mk [(SYS.STRAP.BOOT, 2)] (setSide false {}), by decide +kernel⟩

theorem wit_BootAndWatchdogs_7 : ∃ s : State, (isOn s.blk SYS.BOOT_CTL.SERVE = true) ∧ (s.blk.boot.host.run = true) ∧ (s.blk.red.coresHeld = false) :=
  ⟨mk [(SYS.BOOT_CTL.SERVE, 1)] (setSide false { run := true }), by decide +kernel⟩

theorem wit_BootAndWatchdogs_8 : ∃ s : State, (s.blk.boot.field.held = false) ∧ (s.blk.boot.field.run = false) ∧ (isOn s.blk FPMU.HOLD.HOLD_RDY = true) ∧ (warned s.blk true = false) :=
  ⟨mk [(FPMU.HOLD.HOLD_RDY, 1), (FSYS.BOOT_STAT.HOLD_WAIT, 1)] (setSide true {}), by decide +kernel⟩

theorem wit_BootAndWatchdogs_9 : ∃ s : State, (Accepts s.blk (.core 1 : Init) (sys (onField (.core 1 : Init)) SYS.WDT_KICK.KICK).a 0xA5C3) :=
  ⟨mk [] (setSide false { wdtDue := true }), by decide +kernel⟩

theorem wit_BootAndWatchdogs_10 : ∃ s : State, (Accepts s.blk (.core 1 : Init) (sys (onField (.core 1 : Init)) SYS.WDT_KICK.KICK).a (5 : Word)) ∧ ((5 : Word) ≠ 0xA5C3) :=
  ⟨State.reset, by decide +kernel⟩

theorem wit_BootAndWatchdogs_11 : ∃ s : State, (isOn s.blk SYS.WDT.RUN = true) ∧ (enabled s.blk pgSYS = true) :=
  ⟨mk [(SYS.WDT.RUN, 1), (hEN pgSYS, 1)], by decide +kernel⟩

theorem wit_BootAndWatchdogs_12 : ∃ s : State, ((sideOf s.blk (true : Bool)).held = false) ∧ (isOn s.blk (sys (true : Bool) SYS.WDT.RUN) = true) ∧ ((warned s.blk (true : Bool) = false ∨ seqDone s.blk (true : Bool) = true)) :=
  ⟨mk [(FSYS.WDT.RUN, 1)] (setSide true {}), by decide +kernel⟩

theorem wit_BootAndWatchdogs_14 : ∃ s : State, (isOn s.blk (sys (true : Bool) SYS.WDT.RUN) = true) ∧ (warned s.blk (true : Bool) = true) ∧ (seqDone s.blk (true : Bool) = false) :=
  ⟨mk [(FSYS.WDT.RUN, 1), (FPMU.PFSTAT.WARN, 1)], by decide +kernel⟩

theorem wit_BootAndWatchdogs_15 : ∃ s : State, (Accepts s.blk (.core 1 : Init) CLK.CORE_CFG.STEP.a (8 : Word)) :=
  ⟨mk [] fun b => setLock b pgCLK { win := some (.core 1), remain := 9 }, by decide +kernel⟩

theorem wit_BootAndWatchdogs_16 : ∃ s : State, (isOn s.blk PMU.PFSTAT.REDUCED = false) :=
  ⟨mk [(CLK.CORE_CFG.STEP, 7)], by decide +kernel⟩

theorem wit_BootAndWatchdogs_17 : ∃ s : State, (Accepts s.blk (.ctrl : Init) FSYS.FL_CTL.GO.a (0x80000000 : Word)) ∧ ((0x80000000 : Word).toNat.testBit 31 = true) ∧ ((.ctrl : Init) = .ctrl) ∧ (isOn s.blk FSYS.FL_CTL.BUSY = false) ∧ (flashGuarded s.blk (rd s.blk FSYS.FL_ADDR.ADDR) = false) ∧ (rd s.blk FSYS.FL_ADDR.ADDR % 256 = 0) :=
  ⟨mk [(FSYS.FL_ADDR.ADDR, 0x600100)] fun b => setLock b pgFSYS { win := some .ctrl, remain := 9 }, by decide +kernel⟩

theorem wit_BootAndWatchdogs_18 : ∃ s : State, (Accepts s.blk (.ctrl : Init) FSYS.FL_CTL.GO.a (0xC0000000 : Word)) ∧ ((0xC0000000 : Word).toNat.testBit 31 = true) ∧ ((.ctrl : Init) = .ctrl) ∧ (isOn s.blk FSYS.FL_CTL.BUSY = false) ∧ (flashGuarded s.blk (rd s.blk FSYS.FL_ADDR.ADDR) = false) ∧ (rd s.blk FSYS.FL_ADDR.ADDR % 256 = 0) :=
  ⟨mk [(FSYS.FL_ADDR.ADDR, 0x600100)] fun b => setLock b pgFSYS { win := some .ctrl, remain := 9 }, by decide +kernel⟩

theorem wit_BootAndWatchdogs_19 : ∃ s : State, (s.blk.boot.flash = some ({ erase := false, addr := 0x600100 } : FlashOp)) :=
  ⟨mk [(FSYS.FL_CTL.BUSY, 1)] fun b => { b with boot := { b.boot with flash := some { erase := false, addr := 0x600100 } } }, by decide +kernel⟩

theorem wit_PowerFail_1 : ∃ s : State, (rd s.blk FPMU.PFCTL.PF_TH ≤ (0xFFFF : BitVec 16).toNat) :=
  ⟨State.reset, by decide +kernel⟩

theorem wit_PowerFail_2 : ∃ s : State, (warned s.blk true = false) ∧ (((false : Bool) = true ∨ (150 : BitVec 16).toNat < rd s.blk FPMU.PFCTL.PF_TH)) :=
  ⟨State.reset, by decide +kernel⟩

theorem wit_PowerFail_3 : ∃ s : State, (warned s.blk false = false) ∧ (((true : Bool) = true ∨ (0 : BitVec 16).toNat < rd s.blk PMU.PFCTL.PF_TH)) :=
  ⟨State.reset, by decide +kernel⟩

theorem wit_PowerFail_4 : ∃ s : State, (houseOn s.blk) ∧ (s.blk.house.tw.isSome = true) ∧ (s.blk.house.committed = false) :=
  ⟨mk [(hEN pgCH, 1)] fun b => { b with house := { b.house with tw := some 5 } }, by decide +kernel⟩

theorem wit_PowerFail_5 : ∃ s : State, (houseOn s.blk) ∧ (s.blk.house.tw.isSome = true) ∧ (s.blk.house.committed = true) ∧ ((s.blk.boot.field.wdtDue = false ∨ seqDone s.blk true = true)) :=
  ⟨mk [(hEN pgCH, 1)] fun b => { b with house := { b.house with tw := some 5, committed := true } }, by decide +kernel⟩

theorem wit_PowerFail_6 : ∃ s : State, (warned s.blk (true : Bool) = true) :=
  ⟨mk [(FPMU.PFSTAT.WARN, 1)], by decide +kernel⟩

theorem wit_PairLockstep_1 : ∃ s : State, (paired s.blk = true) ∧ (isActive s.blk = false) ∧ (s.blk.red.writes = []) ∧ (s.blk.red.tickets = [({ release := 0, tseq := 0, src := 1, content := [] } : Ticket)]) ∧ (({ release := 0, tseq := 0, src := 1, content := [] } : Ticket).input = none) ∧ (tickBefore (tickNow s.blk) ({ release := 0, tseq := 0, src := 1, content := [] } : Ticket).release = false) ∧ (({ release := 0, tseq := 0, src := 1, content := [] } : Ticket).src = 1) ∧ (s.blk.red.mine = []) ∧ (inSync s.blk = true) :=
  ⟨mk [(SYS.MODE.PAIR, 1), (SYS.MODE.PEER_SYNC, 1), (SYS.MODE.ACTIVE, 0)] (fun b => setRed { b.red with tickets := [{ release := 0, tseq := 0, src := 1, content := [] }] } b), by decide +kernel⟩

theorem wit_PairLockstep_2 : ∃ s : State, (paired s.blk = true) ∧ (isActive s.blk = false) ∧ (inSync s.blk = true) ∧ (s.blk.red.writes = []) ∧ (s.blk.red.tickets = []) ∧ (s.blk.red.mine = []) :=
  ⟨mk [(SYS.MODE.PAIR, 1), (SYS.MODE.PEER_SYNC, 1), (SYS.MODE.ACTIVE, 0)], by decide +kernel⟩

theorem wit_PairLockstep_3 : ∃ s : State, (paired s.blk = true) ∧ (isActive s.blk = false) ∧ (s.blk.red.writes = []) ∧ (s.blk.red.tickets = [({ release := 0, tseq := 0, src := 15, content := le 8 77 } : Ticket)]) ∧ (({ release := 0, tseq := 0, src := 15, content := le 8 77 } : Ticket).input = none) ∧ (tickBefore (tickNow s.blk) ({ release := 0, tseq := 0, src := 15, content := le 8 77 } : Ticket).release = false) ∧ (({ release := 0, tseq := 0, src := 15, content := le 8 77 } : Ticket).src = 0x0F) ∧ (s.blk.red.mine = []) ∧ (rd s.blk RED.PSTAT.XSTATE ≠ 5) ∧ ((77 : Nat) = ofLE (({ release := 0, tseq := 0, src := 15, content := le 8 77 } : Ticket).content.take 8)) ∧ (s.blk.red.digests.find? (fun e => e.1 == (({ release := 0, tseq := 0, src := 15, content := le 8 77 } : Ticket).release + 2 ^ 32 - rd s.blk RED.CTL.LAG) % 2 ^ 32) = some ((({ release := 0, tseq := 0, src := 15, content := le 8 77 } : Ticket).release + 2 ^ 32 - rd s.blk RED.CTL.LAG) % 2 ^ 32, (77 : Nat))) :=
  ⟨mk [(SYS.MODE.PAIR, 1), (SYS.MODE.ACTIVE, 0), (RED.CTL.LAG, 3)] (fun b => setRed { b.red with tickets := [{ release := 0, tseq := 0, src := 15, content := le 8 77 }], digests := [(2 ^ 32 - 3, 77)] } b), by decide +kernel⟩

theorem wit_PairLockstep_4 : ∃ s : State, (paired s.blk = true) ∧ (s.blk.red.writes = []) ∧ (s.blk.red.tickets = []) ∧ (s.blk.red.mine = []) ∧ ((true : Bool) ≠ s.blk.acc.sealed) :=
  ⟨mk [(SYS.MODE.PAIR, 1), (SYS.MODE.ACTIVE, 1), (SYS.MODE.PEER_SYNC, 1)], by decide +kernel⟩

theorem wit_PairLockstep_5 : ∃ s : State, (paired s.blk = true) ∧ (isActive s.blk = true) ∧ (s.blk.red.writes = []) ∧ (s.blk.red.tickets = [({ release := 0, tseq := 0, src := 13, content := [], input := some (.tamperEvent true false) } : Ticket)]) ∧ (s.blk.red.mine = []) ∧ (({ release := 0, tseq := 0, src := 13, content := [], input := some (.tamperEvent true false) } : Ticket).input = some (.tamperEvent true false : Input)) ∧ (tickBefore (tickNow s.blk) ({ release := 0, tseq := 0, src := 13, content := [], input := some (.tamperEvent true false) } : Ticket).release = false) :=
  ⟨mk [(SYS.MODE.PAIR, 1), (SYS.MODE.ACTIVE, 1)] (fun b => setRed { b.red with tickets := [{ release := 0, tseq := 0, src := 13, content := [], input := some (.tamperEvent true false) }] } b), by decide +kernel⟩

theorem wit_PairLockstep_6 : ∃ s : State, (paired s.blk = true) ∧ (s.blk.red.writes = []) ∧ (s.blk.red.tickets = []) ∧ ((true : Bool) = false ∨ isActive s.blk = true) ∧ (s.blk.red.mine = []) :=
  ⟨mk [(SYS.MODE.PAIR, 1)], by decide +kernel⟩

theorem wit_PairLockstep_7 : ∃ s : State, (paired s.blk = true) ∧ (isActive s.blk = false) ∧ (s.blk.red.expect.getD (4 : BitVec 16).toNat = (4 : BitVec 16).toNat) ∧ (tickBefore (tickNow s.blk) (9 : Word).toNat = true) :=
  ⟨mk [(SYS.MODE.PAIR, 1), (SYS.MODE.ACTIVE, 0)], by decide +kernel⟩

theorem wit_PairLockstep_8 : ∃ s : State, (paired s.blk = true) ∧ (isActive s.blk = false) ∧ (inSync s.blk = true) ∧ (s.blk.red.expect.getD (4 : BitVec 16).toNat = (4 : BitVec 16).toNat) ∧ (tickBefore (tickNow s.blk) (0 : Word).toNat = false) :=
  ⟨mk [(SYS.MODE.PAIR, 1), (SYS.MODE.ACTIVE, 0), (SYS.MODE.PEER_SYNC, 1)], by decide +kernel⟩

theorem wit_PairLockstep_9 : ∃ s : State, (paired s.blk = true) ∧ (inSync s.blk = true) :=
  ⟨mk [(SYS.MODE.PAIR, 1), (SYS.MODE.PEER_SYNC, 1)], by decide +kernel⟩

theorem wit_PairLockstep_10 : ∃ s : State, (paired s.blk = true) ∧ (isActive s.blk = false) :=
  ⟨mk [(SYS.MODE.PAIR, 1), (SYS.MODE.ACTIVE, 0)], by decide +kernel⟩

theorem wit_PairLockstep_11 : ∃ s : State, (paired s.blk = true) ∧ (isActive s.blk = true) :=
  ⟨mk [(SYS.MODE.PAIR, 1), (SYS.MODE.ACTIVE, 1)], by decide +kernel⟩

theorem wit_PairLockstep_12 : ∃ s : State, (takesNow s.blk = false) :=
  ⟨mk [(SYS.MODE.PAIR, 1), (SYS.MODE.ACTIVE, 1)], by decide +kernel⟩

theorem wit_PairLockstep_13 : ∃ s : State, (takesNow s.blk = false) :=
  ⟨mk [(SYS.MODE.PAIR, 1), (SYS.MODE.ACTIVE, 1)], by decide +kernel⟩

theorem wit_PairLockstep_14 : ∃ s : State, (takesNow s.blk = false) :=
  ⟨mk [(SYS.MODE.PAIR, 1), (SYS.MODE.ACTIVE, 1)], by decide +kernel⟩

theorem wit_PairLockstep_15 : ∃ s : State, (takesNow s.blk = false) :=
  ⟨mk [(SYS.MODE.PAIR, 1), (SYS.MODE.ACTIVE, 1)], by decide +kernel⟩

theorem wit_PairLockstep_16 : ∃ s : State, (takesNow s.blk = false) :=
  ⟨mk [(SYS.MODE.PAIR, 1), (SYS.MODE.ACTIVE, 1)], by decide +kernel⟩

theorem wit_PairLockstep_17 : ∃ s : State, (takesNow s.blk = false) ∧ (cycOlder (0xFFFFFFFF : BitVec 32).toNat (cycleNow s.blk) = true) :=
  ⟨mk [(SYS.MODE.PAIR, 1), (SYS.MODE.ACTIVE, 1)], by decide +kernel⟩

theorem wit_PairLockstep_18 : ∃ s : State, (takesNow s.blk = false) :=
  ⟨mk [(SYS.MODE.PAIR, 1), (SYS.MODE.ACTIVE, 1)], by decide +kernel⟩

theorem wit_PairLockstep_19 : ∃ s : State, (takesNow s.blk = false) :=
  ⟨mk [(SYS.MODE.PAIR, 1), (SYS.MODE.ACTIVE, 1)], by decide +kernel⟩

theorem wit_PairLockstep_20 : ∃ s : State, (takesNow s.blk = false) :=
  ⟨mk [(SYS.MODE.PAIR, 1), (SYS.MODE.ACTIVE, 1)], by decide +kernel⟩

theorem wit_PairLockstep_21 : ∃ s : State, (takesNow s.blk = false) :=
  ⟨mk [(SYS.MODE.PAIR, 1), (SYS.MODE.ACTIVE, 1)], by decide +kernel⟩

theorem wit_PairLockstep_22 : ∃ s : State, (takesNow s.blk = false) :=
  ⟨mk [(SYS.MODE.PAIR, 1), (SYS.MODE.ACTIVE, 1)], by decide +kernel⟩

theorem wit_PairLockstep_23 : ∃ s : State, (takesNow s.blk = false) :=
  ⟨mk [(SYS.MODE.PAIR, 1), (SYS.MODE.ACTIVE, 1)], by decide +kernel⟩

theorem wit_PairLockstep_24 : ∃ s : State, (takesNow s.blk = false) :=
  ⟨mk [(SYS.MODE.PAIR, 1), (SYS.MODE.ACTIVE, 1)], by decide +kernel⟩

theorem wit_PairLockstep_25 : ∃ s : State, (takesNow s.blk = false) :=
  ⟨mk [(SYS.MODE.PAIR, 1), (SYS.MODE.ACTIVE, 1)], by decide +kernel⟩

theorem wit_PairLockstep_26 : ∃ s : State, (takesNow s.blk = false) :=
  ⟨mk [(SYS.MODE.PAIR, 1), (SYS.MODE.ACTIVE, 1)], by decide +kernel⟩

theorem wit_PairLockstep_27 : ∃ s : State, (takesNow s.blk = false) :=
  ⟨mk [(SYS.MODE.PAIR, 1), (SYS.MODE.ACTIVE, 1)], by decide +kernel⟩

theorem wit_PairLockstep_28 : ∃ s : State, (takesNow s.blk = false) :=
  ⟨mk [(SYS.MODE.PAIR, 1), (SYS.MODE.ACTIVE, 1)], by decide +kernel⟩

theorem wit_PairLockstep_29 : ∃ s : State, (takesNow s.blk = false) :=
  ⟨mk [(SYS.MODE.PAIR, 1), (SYS.MODE.ACTIVE, 1)], by decide +kernel⟩

theorem wit_PairLockstep_30 : ∃ s : State, (takesNow s.blk = false) :=
  ⟨mk [(SYS.MODE.PAIR, 1), (SYS.MODE.ACTIVE, 1)], by decide +kernel⟩

theorem wit_PairLockstep_31 : ∃ s : State, (takesNow s.blk = false) :=
  ⟨mk [(SYS.MODE.PAIR, 1), (SYS.MODE.ACTIVE, 1)], by decide +kernel⟩

theorem wit_PairLockstep_32 : ∃ s : State, (takesNow s.blk = false) :=
  ⟨mk [(SYS.MODE.PAIR, 1), (SYS.MODE.ACTIVE, 1)], by decide +kernel⟩

theorem wit_PairLockstep_33 : ∃ s : State, (takesNow s.blk = false) :=
  ⟨mk [(SYS.MODE.PAIR, 1), (SYS.MODE.ACTIVE, 1)], by decide +kernel⟩

theorem wit_PairLockstep_34 : ∃ s : State, (takesNow s.blk = false) :=
  ⟨mk [(SYS.MODE.PAIR, 1), (SYS.MODE.ACTIVE, 1)], by decide +kernel⟩

theorem wit_PairLockstep_35 : ∃ s : State, (takesNow s.blk = false) :=
  ⟨mk [(SYS.MODE.PAIR, 1), (SYS.MODE.ACTIVE, 1)], by decide +kernel⟩

theorem wit_PairLockstep_36 : ∃ s : State, (takesNow s.blk = false) :=
  ⟨mk [(SYS.MODE.PAIR, 1), (SYS.MODE.ACTIVE, 1)], by decide +kernel⟩

theorem wit_PairLockstep_37 : ∃ s : State, (takesNow s.blk = false) :=
  ⟨mk [(SYS.MODE.PAIR, 1), (SYS.MODE.ACTIVE, 1)], by decide +kernel⟩

theorem wit_PairLockstep_38 : ∃ s : State, (takesNow s.blk = false) :=
  ⟨mk [(SYS.MODE.PAIR, 1), (SYS.MODE.ACTIVE, 1)], by decide +kernel⟩

theorem wit_PairLockstep_39 : ∃ s : State, (takesNow s.blk = false) :=
  ⟨mk [(SYS.MODE.PAIR, 1), (SYS.MODE.ACTIVE, 1)], by decide +kernel⟩

theorem wit_PairLockstep_40 : ∃ s : State, (takesNow s.blk = false) :=
  ⟨mk [(SYS.MODE.PAIR, 1), (SYS.MODE.ACTIVE, 1)], by decide +kernel⟩

theorem wit_PairLockstep_41 : ∃ s : State, (takesNow s.blk = false) :=
  ⟨mk [(SYS.MODE.PAIR, 1), (SYS.MODE.ACTIVE, 1)], by decide +kernel⟩

theorem wit_PairLockstep_42 : ∃ s : State, (takesNow s.blk = false) :=
  ⟨mk [(SYS.MODE.PAIR, 1), (SYS.MODE.ACTIVE, 1)], by decide +kernel⟩

theorem wit_PairLockstep_43 : ∃ s : State, (takesNow s.blk = false) :=
  ⟨mk [(SYS.MODE.PAIR, 1), (SYS.MODE.ACTIVE, 1)], by decide +kernel⟩

theorem wit_PairLockstep_44 : ∃ s : State, (takesNow s.blk = false) :=
  ⟨mk [(SYS.MODE.PAIR, 1), (SYS.MODE.ACTIVE, 1)], by decide +kernel⟩

theorem wit_PairLockstep_45 : ∃ s : State, (takesNow s.blk = false) :=
  ⟨mk [(SYS.MODE.PAIR, 1), (SYS.MODE.ACTIVE, 1)], by decide +kernel⟩

theorem wit_PairLockstep_46 : ∃ s : State, (takesNow s.blk = false) :=
  ⟨mk [(SYS.MODE.PAIR, 1), (SYS.MODE.ACTIVE, 1)], by decide +kernel⟩

theorem wit_PairLockstep_47 : ∃ s : State, (takesNow s.blk = false) ∧ (applyInstant s.blk (0 : BitVec 32).toNat < (eFollow s.blk : Int)) :=
  ⟨mk [(SYS.MODE.PAIR, 1), (SYS.MODE.ACTIVE, 1)] fun b => { b with time := { b.time with fa := { b.time.fa with e := 10 ^ 9 * 2 ^ 32, synced := true } } }, by decide +kernel⟩

theorem wit_PairLockstep_48 : ∃ s : State, (takesNow s.blk = false) :=
  ⟨mk [(SYS.MODE.PAIR, 1), (SYS.MODE.ACTIVE, 1)], by decide +kernel⟩

theorem wit_PairLockstep_49 : ∃ s : State, (takesNow s.blk = false) :=
  ⟨mk [(SYS.MODE.PAIR, 1), (SYS.MODE.ACTIVE, 1)], by decide +kernel⟩

theorem wit_PairLockstep_50 : ∃ s : State, (takesNow s.blk = false) :=
  ⟨mk [(SYS.MODE.PAIR, 1), (SYS.MODE.ACTIVE, 1)], by decide +kernel⟩

theorem wit_PairLockstep_51 : ∃ s : State, (takesNow s.blk = false) :=
  ⟨mk [(SYS.MODE.PAIR, 1), (SYS.MODE.ACTIVE, 1)], by decide +kernel⟩

theorem wit_PairLockstep_52 : ∃ s : State, (takesNow s.blk = false) :=
  ⟨mk [(SYS.MODE.PAIR, 1), (SYS.MODE.ACTIVE, 1)], by decide +kernel⟩

theorem wit_PairLockstep_53 : ∃ s : State, (takesNow s.blk = false) :=
  ⟨mk [(SYS.MODE.PAIR, 1), (SYS.MODE.ACTIVE, 1)], by decide +kernel⟩

theorem wit_PairLockstep_54 : ∃ s : State, (takesNow s.blk = false) :=
  ⟨mk [(SYS.MODE.PAIR, 1), (SYS.MODE.ACTIVE, 1)], by decide +kernel⟩

theorem wit_PairLockstep_55 : ∃ s : State, (takesNow s.blk = false) :=
  ⟨mk [(SYS.MODE.PAIR, 1), (SYS.MODE.ACTIVE, 1)], by decide +kernel⟩

theorem wit_PairLockstep_56 : ∃ s : State, (takesNow s.blk = false) :=
  ⟨mk [(SYS.MODE.PAIR, 1), (SYS.MODE.ACTIVE, 1)], by decide +kernel⟩

theorem wit_PairLockstep_57 : ∃ s : State, (takesNow s.blk = false) :=
  ⟨mk [(SYS.MODE.PAIR, 1), (SYS.MODE.ACTIVE, 1)], by decide +kernel⟩

theorem wit_PairLockstep_58 : ∃ s : State, (takesNow s.blk = false) :=
  ⟨mk [(SYS.MODE.PAIR, 1), (SYS.MODE.ACTIVE, 1)], by decide +kernel⟩

theorem wit_PairLockstep_59 : ∃ s : State, (takesNow s.blk = false) :=
  ⟨mk [(SYS.MODE.PAIR, 1), (SYS.MODE.ACTIVE, 1)], by decide +kernel⟩

theorem wit_PairLockstep_60 : ∃ s : State, (takesNow s.blk = false) :=
  ⟨mk [(SYS.MODE.PAIR, 1), (SYS.MODE.ACTIVE, 1)], by decide +kernel⟩

theorem wit_PairLockstep_61 : ∃ s : State, (takesNow s.blk = false) :=
  ⟨mk [(SYS.MODE.PAIR, 1), (SYS.MODE.ACTIVE, 1)], by decide +kernel⟩

theorem wit_PairLockstep_62 : ∃ s : State, (takesNow s.blk = false) :=
  ⟨mk [(SYS.MODE.PAIR, 1), (SYS.MODE.ACTIVE, 1)], by decide +kernel⟩

theorem wit_PairLockstep_63 : ∃ s : State, (takesNow s.blk = false) :=
  ⟨mk [(SYS.MODE.PAIR, 1), (SYS.MODE.ACTIVE, 1)], by decide +kernel⟩

theorem wit_PairLockstep_64 : ∃ s : State, (takesNow s.blk = false) :=
  ⟨mk [(SYS.MODE.PAIR, 1), (SYS.MODE.ACTIVE, 1)], by decide +kernel⟩

theorem wit_PairTransferAndTakeover_1 : ∃ s : State, (paired s.blk = true) ∧ (Accepts s.blk (.core 0 : Init) RED.ARM.XFER.a (2 : Word)) ∧ ((2 : Word) = 2) ∧ (mayTransfer s.blk = true) :=
  ⟨mk [(SYS.MODE.PAIR, 1), (SYS.MODE.ACTIVE, 0), (LANE.STAT.UP 4, 1), (LANE.STAT.UP 5, 1)] fun b => setLock b pgRED { win := some (.core 0), remain := 9 }, by decide +kernel⟩

theorem wit_PairTransferAndTakeover_2 : ∃ s : State, (mayTransfer s.blk = true) ∧ (isOn s.blk RED.CTL.AUTO_XFER = true) ∧ (rd s.blk RED.PSTAT.XSTATE = 0) ∧ (isActive s.blk = false) :=
  ⟨mk [(SYS.MODE.PAIR, 1), (SYS.MODE.ACTIVE, 0), (LANE.STAT.UP 4, 1), (LANE.STAT.UP 5, 1), (RED.CTL.AUTO_XFER, 1)], by decide +kernel⟩

theorem wit_PairTransferAndTakeover_3 : ∃ s : State, (rd s.blk RED.PSTAT.XSTATE = 1 ∨ rd s.blk RED.PSTAT.XSTATE = 2) ∧ (s.blk.red.roundsDone = false) :=
  ⟨mk [(RED.PSTAT.XSTATE, 2), (RED.PSTAT.XROUND, 7)], by decide +kernel⟩

theorem wit_PairTransferAndTakeover_4 : ∃ s : State, (rd s.blk RED.PSTAT.XSTATE = 2) ∧ (s.blk.red.roundsDone = true) :=
  ⟨mk [(RED.PSTAT.XSTATE, 2)] (fun b => setRed { b.red with roundsDone := true } b), by decide +kernel⟩

theorem wit_PairTransferAndTakeover_5 : ∃ s : State, (isActive s.blk = false) ∧ (rd s.blk RED.PSTAT.XSTATE = 3) :=
  ⟨mk [(SYS.MODE.PAIR, 1), (SYS.MODE.ACTIVE, 0), (RED.PSTAT.XSTATE, 3)], by decide +kernel⟩

theorem wit_PairTransferAndTakeover_6 : ∃ s : State, (rd s.blk RED.PSTAT.XSTATE = 4) :=
  ⟨mk [(RED.PSTAT.XSTATE, 4), (RED.PSTAT.CATCHUP, 1)], by decide +kernel⟩

theorem wit_PairTransferAndTakeover_7 : ∃ s : State, (rd s.blk RED.PSTAT.XSTATE ≠ 0) ∧ (rd s.blk RED.PSTAT.XSTATE ≠ 6) :=
  ⟨mk [(RED.PSTAT.XSTATE, 2)], by decide +kernel⟩

theorem wit_PairTransferAndTakeover_8 : ∃ s : State, (mayTransfer s.blk = true) ∧ (rd s.blk RED.PSTAT.XSTATE = 6) ∧ (s.blk.red.tries < rd s.blk RED.CTL.XFER_TRY) :=
  ⟨mk [(SYS.MODE.PAIR, 1), (SYS.MODE.ACTIVE, 0), (LANE.STAT.UP 4, 1), (LANE.STAT.UP 5, 1), (RED.PSTAT.XSTATE, 6)], by decide +kernel⟩

theorem wit_PairTransferAndTakeover_9 : ∃ s : State, (paired s.blk = true) ∧ (Accepts s.blk (.core 0 : Init) RED.ARM.FORCE.a (1 : Word)) ∧ ((1 : Word) = 1) ∧ (s.blk.red.fail = none) ∧ (s.blk.bar.hostLost = false) ∧ (s.blk.bar.fieldLost = false) ∧ (s.blk.boot.host.held = false) :=
  ⟨mk [(SYS.MODE.PAIR, 1), (SYS.MODE.ACTIVE, 1), (SYS.MODE.PEER_SYNC, 1)] fun b => setSide false {} (setLock b pgRED { win := some (.core 0), remain := 9 }), by decide +kernel⟩

theorem wit_PairTransferAndTakeover_10 : ∃ s : State, (paired s.blk = true) ∧ (Accepts s.blk (.core 0 : Init) RED.ARM.REJOIN.a (4 : Word)) ∧ ((4 : Word) = 4) ∧ (isOn s.blk RED.PSTAT.OWN_FAIL = true) ∧ (causeCleared s.blk = true) :=
  ⟨mk [(SYS.MODE.PAIR, 1), (SYS.MODE.ACTIVE, 0), (RED.PSTAT.OWN_FAIL, 1), (RED.PSTAT.FAIL_CAUSE, 5)] fun b => setLock b pgRED { win := some (.core 0), remain := 9 }, by decide +kernel⟩

theorem wit_PairTransferAndTakeover_11 : ∃ s : State, (paired s.blk = true) :=
  ⟨mk [(SYS.MODE.PAIR, 1)], by decide +kernel⟩

theorem wit_PairTransferAndTakeover_12 : ∃ s : State, (mayTake s.blk) :=
  ⟨mk [(SYS.MODE.PAIR, 1), (SYS.MODE.ACTIVE, 0), (SYS.MODE.PEER_SYNC, 1)] (fun b => { b with bar := { b.bar with peerHealthy := true } }), by decide +kernel⟩

theorem wit_PairTransferAndTakeover_13 : ∃ s : State, (mayTake s.blk) :=
  ⟨mk [(SYS.MODE.PAIR, 1), (SYS.MODE.ACTIVE, 0), (SYS.MODE.PEER_SYNC, 1)] (fun b => { b with bar := { b.bar with peerHealthy := true } }), by decide +kernel⟩

theorem wit_PairTransferAndTakeover_14 : ∃ s : State, (paired s.blk = true) ∧ (isActive s.blk = false) ∧ (isOn s.blk RED.PSTAT.PEER_FAIL = false) :=
  ⟨mk [(SYS.MODE.PAIR, 1), (SYS.MODE.ACTIVE, 0)], by decide +kernel⟩

theorem wit_PairTransferAndTakeover_15 : ∃ s : State, (paired s.blk = true) ∧ (isActive s.blk = true) ∧ (s.blk.red.outDue = true) :=
  ⟨mk [(SYS.MODE.PAIR, 1), (SYS.MODE.ACTIVE, 1)] (fun b => setRed { b.red with outDue := true } b), by decide +kernel⟩

theorem wit_EffectiveDuty_1 : ∃ s : State, (enabled s.blk pgLSW = true) ∧ (lswLead s.blk (9 : Fin 48).val = (9 : Fin 48).val) ∧ ((lswOf s.blk (9 : Fin 48).val).live = true) ∧ (isOn s.blk (LSW.CH.STAT.INRUSH (9 : Fin 48).val) = false) ∧ ((lswOf s.blk (9 : Fin 48).val).pull = false) ∧ (isOn s.blk (LSW.CH.STAT.FROZEN (9 : Fin 48).val) = false) ∧ (holdOf s.blk (railOf (9 : Fin 48).val) ≠ 1) ∧ (lswEcon s.blk (9 : Fin 48).val = false) ∧ (rd s.blk (LSW.CH.STAT.OWNER (9 : Fin 48).val) = 0) ∧ ((260 : BitVec 16).toNat ≠ 0) ∧ (isOn s.blk (LSW.CH.CFG.COMP (9 : Fin 48).val) = true) :=
  ⟨mk [(hEN pgLSW, 1), (LSW.CH.OUT.DUTY 9, 500)] (setLsw 9 { live := true }), by decide +kernel⟩

theorem wit_EffectiveDuty_2 : ∃ s : State, (enabled s.blk pgLSW = true) ∧ (lswLead s.blk (9 : Fin 48).val = (9 : Fin 48).val) ∧ ((lswOf s.blk (9 : Fin 48).val).live = true) ∧ (isOn s.blk (LSW.CH.STAT.INRUSH (9 : Fin 48).val) = false) ∧ ((lswOf s.blk (9 : Fin 48).val).pull = false) ∧ (isOn s.blk (LSW.CH.STAT.FROZEN (9 : Fin 48).val) = false) ∧ (holdOf s.blk (railOf (9 : Fin 48).val) ≠ 1) ∧ (lswEcon s.blk (9 : Fin 48).val = false) ∧ (rd s.blk (LSW.CH.STAT.OWNER (9 : Fin 48).val) = 0) ∧ (isOn s.blk (LSW.CH.CFG.COMP (9 : Fin 48).val) = false) :=
  ⟨mk [(hEN pgLSW, 1), (LSW.CH.OUT.DUTY 9, 500), (LSW.CH.CFG.COMP 9, 0)] (setLsw 9 { live := true }), by decide +kernel⟩

theorem wit_BalanceHold_1 : ∃ s : State, (rd s.blk (MOD.MEAS.IGRP (1 : Fin 3).val) < rd s.blk (MOD.IMB.BAL_MIN (1 : Fin 3).val) ∨ isOn s.blk (MOD.GSTAT.CLAMPED (1 : Fin 3).val) = true ∨ gateOn s.blk (1 : Fin 3).val = false) :=
  ⟨mk [(hEN (pgMOD 1), 1)], by decide +kernel⟩

end Sys2Proof.Tests
end

section
/-!
SUPPORT. A step with a command waiting. R23 orders one initiator's writes to one page; that all commands wait in a single
queue with one sender, first in first out, is the model's choice (notes/assumptions/39.md).
-/

namespace Sys2Proof.Machine

/-- Settles O48: `step` branches on the queue alone, and a queue that begins with `c` selects the branch that runs it. -/
theorem stepRunsFront : Obligations.StepRunsFront := by
  intro c rest s hfront
  simp only [step, hfront]

end Sys2Proof.Machine
end

section
/-!
SUPPORT. An accepted register write: what the register does sees the whole word written, every other register keeps its
word, nothing but registers, locks and outputs changes, and a field that takes any value reads back what was written.
-/

namespace Sys2Proof.Machine

open Sys2Proof.Num

variable {b : Blk} {i : Init} {u : Bool} {pg off a c : Nat} {v : Word}

/-! What a write leaves alone. -/

theorem calTouch_eq (b : Blk) (pg : Nat) (r : RegRow) (old new : Word) :
    ∃ x, calTouch pg r old new b = { b with regs := x } := by
  unfold calTouch
  split
  · exact ⟨_, rfl⟩
  · exact ⟨b.regs, rfl⟩

/-- A write of a register changes registers, locks and shadows, and outputs. -/
theorem storeWord_eq (b : Blk) (i : Init) (u : Bool) (pg off : Nat) (v : Word) :
    ∃ r o x, (storeWord b i u pg off v).blk = { b with regs := r, io := o, acc := x } := by
  unfold storeWord
  split
  · exact ⟨b.regs, _, b.acc, rfl⟩
  split
  · exact ⟨b.regs, _, b.acc, rfl⟩
  dsimp only
  split
  · obtain ⟨r, o, he⟩ := raise_eq (reject (touchPage i pg b) pg) pgFSYS 1
    exact ⟨r, _, _, congrArg (fun x => answer x .busError) he⟩
  split
  · exact ⟨_, _, _, rfl⟩
  split
  · exact ⟨_, _, _, rfl⟩
  split
  · exact ⟨_, _, _, rfl⟩
  generalize List.foldl _ _ _ = res
  obtain ⟨x, hx⟩ := calTouch_eq (setWord (touchPage i pg b) (pg + off) res.1) pg _ (wordOf (touchPage i pg b) (pg + off)) res.1
  rw [hx]
  split
  · exact ⟨_, _, _, rfl⟩
  · exact ⟨_, _, _, rfl⟩

@[simp] theorem storeWord_memory : (storeWord b i u pg off v).blk.memory = b.memory := by
  obtain ⟨r, o, x, h⟩ := storeWord_eq b i u pg off v; rw [h]
@[simp] theorem storeWord_trunk : (storeWord b i u pg off v).blk.trunk = b.trunk := by
  obtain ⟨r, o, x, h⟩ := storeWord_eq b i u pg off v; rw [h]

/-! A write that takes some bits. -/

/-- The word, the accepted bits and the status a write of a row comes to, field by field. -/
def judged (b : Blk) (i : Init) (u : Bool) (pg off : Nat) (v : Word) (r : RegRow) : Word × Nat × Nat :=
  r.fields.foldl (fieldStep (touchPage i pg b) i u pg off v) (wordOf b (pg + off), 0, 0)

/-- A write that takes some bits and refuses no field stores the word judged and is answered as accepted. -/
theorem storeWord_accepted (hs : (storeWord b i u pg off v).status = 0) (hm : (storeWord b i u pg off v).mask ≠ 0) :
    ∃ p n r k, pageAt pg = some (p, n) ∧ rowAt p off = some (r, k) ∧ (judged b i u pg off v r).2.2 = 0 ∧
      (storeWord b i u pg off v).blk =
        answer (calTouch pg r (wordOf b (pg + off)) (judged b i u pg off v r).1
          (setWord (touchPage i pg b) (pg + off) (judged b i u pg off v r).1)) .accepted := by
  revert hs hm
  unfold storeWord
  split
  · exact fun _ h => absurd rfl h
  split
  · exact fun _ h => absurd rfl h
  rename_i p n hp
  dsimp only
  split
  · exact fun _ h => absurd rfl h
  split
  · exact fun _ h => absurd rfl h
  split
  · exact fun _ h => absurd rfl h
  split
  · exact fun _ h => absurd rfl h
  rename_i r k hr
  split
  · rename_i h0
    exact fun _ _ => ⟨p, n, r, k, hp, hr, h0, rfl⟩
  · rename_i h0
    exact fun h _ => absurd h h0

/-- What the register does on an accepted write sees the whole word. -/
theorem writeNow_accepted {act : Nat → Blk → Blk} (h : Accepts b i a v) :
    writeNow i false a v act b = act v.toNat (writeOf b i a v).blk := by
  obtain ⟨-, -, hm, hv⟩ := h
  unfold writeNow
  exact (if_neg hm).trans (congrArg (act · _) hv)

theorem writeAct_accepted {act : Nat → Blk → Blk} (h : Accepts b i a v) :
    writeAct i false a v act b = act v.toNat (writeOf b i a v).blk :=
  (writeAct_now h.1).trans (writeNow_accepted h)

/-- An accepted write outside the calibration block changes no word but the register's. -/
theorem writeOf_wordOf_ne (h : Accepts b i a v) (hcal : calPage (a / 0x1000 * 0x1000) = false) (hc : c ≠ a) :
    wordOf (writeOf b i a v).blk c = wordOf b c := by
  obtain ⟨-, hs, hm, -⟩ := h
  obtain ⟨p, n, r, k, -, -, -, hb⟩ := storeWord_accepted hs hm
  have ha : a / 0x1000 * 0x1000 + a % 0x1000 = a := by omega
  rw [writeOf, hb, answer_wordOf, calTouch, hcal, if_neg (by simp), ha]
  exact wordOf_setWord_ne hc

theorem writeOf_rd_ne {F : Fld} (h : Accepts b i a v) (hcal : calPage (a / 0x1000 * 0x1000) = false) (hF : F.a ≠ a) :
    rd (writeOf b i a v).blk F = rd b F :=
  congrArg F.of (writeOf_wordOf_ne h hcal hF)

@[simp] theorem writeOf_memory : (writeOf b i a v).blk.memory = b.memory := storeWord_memory
@[simp] theorem writeOf_trunk : (writeOf b i a v).blk.trunk = b.trunk := storeWord_trunk

/-! A field that takes any value. -/

/-- A step that ends with no field refused began so, and its field was accepted or ignored. -/
theorem fieldStep_status {x : Word × Nat × Nat} {f : FieldRow} (h : (fieldStep b i u pg off v x f).2.2 = 0) :
    x.2.2 = 0 ∧ (fieldRule b i u pg off f (Fld.of ⟨0, f.lo, f.w⟩ v) v.toNat = 0 ∨
      fieldRule b i u pg off f (Fld.of ⟨0, f.lo, f.w⟩ v) v.toNat = 9) := by
  unfold fieldStep at h
  dsimp only at h
  split at h
  · exact ⟨h, .inr ‹_›⟩
  split at h
  · dsimp only at h
    split at h
    · exact absurd h ‹_›
    · exact absurd h ‹_›
  · rename_i h0
    refine ⟨?_, .inl (not_not.mp h0)⟩
    split at h
    · exact h
    · exact h
    · split at h <;> exact h

theorem foldl_fieldStep_status {x : Word × Nat × Nat} (l : List FieldRow)
    (h : (l.foldl (fieldStep b i u pg off v) x).2.2 = 0) : x.2.2 = 0 := by
  induction l generalizing x with
  | nil => exact h
  | cons f l ih => exact (fieldStep_status (ih h)).1

/-- A field step leaves the bits of every other field. -/
theorem fieldStep_of_ne {x : Word × Nat × Nat} {f : FieldRow} {G : Fld}
    (hG : G.lo + G.w ≤ f.lo ∨ f.lo + f.w ≤ G.lo) : G.of (fieldStep b i u pg off v x f).1 = G.of x.1 := by
  unfold fieldStep
  dsimp only
  split
  · rfl
  split
  · rfl
  split
  · rfl
  · exact Fld.of_ins_ne hG _ _
  · split
    · exact Fld.of_ins_ne hG _ _
    · rfl

theorem foldl_fieldStep_of_ne {x : Word × Nat × Nat} {G : Fld} (l : List FieldRow)
    (hG : ∀ f ∈ l, G.lo + G.w ≤ f.lo ∨ f.lo + f.w ≤ G.lo) :
    G.of (l.foldl (fieldStep b i u pg off v) x).1 = G.of x.1 := by
  induction l generalizing x with
  | nil => rfl
  | cons f l ih =>
    exact (ih fun g hg => hG g (List.mem_cons_of_mem f hg)).trans (fieldStep_of_ne (hG f List.mem_cons_self))

/-- A field that stores what is written to it and takes any value. -/
structure Plain (b : Blk) (a : Nat) (v : Word) (f : FieldRow) : Prop where
  acc : f.acc = .rw ∨ f.acc = .rwl
  chk : f.chk = .any
  keep : keepRule b a f.lo (Fld.of ⟨0, f.lo, f.w⟩ v) v.toNat = true
  fits : f.lo + f.w ≤ 32

theorem fieldRule_ne_nine {f : FieldRow} (hf : f.acc = .rw ∨ f.acc = .rwl) (n full : Nat) :
    fieldRule b i u pg off f n full ≠ 9 := by
  unfold fieldRule
  rcases hf with hf | hf <;> rw [hf] <;> dsimp only <;> split_ifs <;> simp

/-- A step that refuses nothing puts a plain field's written value into the word. -/
theorem fieldStep_plain {x : Word × Nat × Nat} {f : FieldRow} (hf : Plain b (pg + off) v f)
    (h : (fieldStep b i u pg off v x f).2.2 = 0) :
    Fld.of ⟨a, f.lo, f.w⟩ (fieldStep b i u pg off v x f).1 = Fld.of ⟨a, f.lo, f.w⟩ v := by
  have hrule := (fieldStep_status h).2.resolve_right (fieldRule_ne_nine hf.acc _ _)
  have hstep : (fieldStep b i u pg off v x f).1 = Fld.ins ⟨0, f.lo, f.w⟩ x.1 (Fld.of ⟨0, f.lo, f.w⟩ v) := by
    unfold fieldStep
    simp only [hrule, hf.keep, hf.chk, Chk.take]
    rcases hf.acc with hacc | hacc <;> simp [hacc]
  rw [hstep]
  exact (Fld.of_ins (F := ⟨0, f.lo, f.w⟩) hf.fits x.1 _).trans (Nat.mod_mod _ _)

/-- The fields of the register a key names. -/
def fieldsAt (a : Nat) : Option (List FieldRow) :=
  match pageAt (a / 0x1000 * 0x1000) with
  | none => none
  | some (p, _) => (rowAt p (a % 0x1000)).map (·.1.fields)

theorem fieldsAt_eq {p : PageRow} {r : RegRow} {n k : Nat} (hp : pageAt (a / 0x1000 * 0x1000) = some (p, n))
    (hr : rowAt p (a % 0x1000) = some (r, k)) : fieldsAt a = some r.fields := by
  simp [fieldsAt, hp, hr]

/-- After an accepted write outside the calibration block a plain field reads what was written to it. -/
theorem writeOf_rd_plain {l₁ l₂ : List FieldRow} {f : FieldRow} (h : Accepts b i a v)
    (hcal : calPage (a / 0x1000 * 0x1000) = false) (hl : fieldsAt a = some (l₁ ++ f :: l₂))
    (hd : ∀ g ∈ l₂, f.lo + f.w ≤ g.lo ∨ g.lo + g.w ≤ f.lo) (hf : Plain (touchPage i (a / 0x1000 * 0x1000) b) a v f) :
    rd (writeOf b i a v).blk ⟨a, f.lo, f.w⟩ = Fld.of ⟨a, f.lo, f.w⟩ v := by
  obtain ⟨-, hs, hm, -⟩ := h
  obtain ⟨p, n, r, k, hp, hr, hj, hb⟩ := storeWord_accepted hs hm
  rw [fieldsAt_eq hp hr, Option.some.injEq] at hl
  have ha : a / 0x1000 * 0x1000 + a % 0x1000 = a := by omega
  unfold judged at hj hb
  rw [hl, List.foldl_append, List.foldl_cons, ha] at hj hb
  rw [rd, writeOf, hb, answer_wordOf, calTouch, hcal, if_neg (by simp), wordOf_setWord_same,
    foldl_fieldStep_of_ne (G := ⟨a, f.lo, f.w⟩) l₂ hd]
  exact fieldStep_plain (ha.symm ▸ hf) (foldl_fieldStep_status l₂ hj)

end Sys2Proof.Machine
end

section
/-!
SUPPORT. Commands that run one operation on the block; fields read after an event, a record or a write of another field;
the bits of a field.
-/

namespace Sys2Proof.Machine

open Sys2Proof.Num

variable {b : Blk} {s : State}

/-! Commands. -/

/-- A command that runs an operation on the block completes with what the operation leaves. -/
theorem completes_run {c : Instr} {f : Blk → Blk} {P : Blk → Prop} (he : exec c s = run f s) (h : P (f s.blk)) :
    Completes c s P := ⟨f s.blk, he.trans run_eq, h⟩

/-! Registers after an event or a record. -/

theorem rd_raise_ne {F : Fld} {pg k : Nat} (h : F.a ≠ pg + 0x20) : rd (raise pg k b) F = rd b F :=
  congrArg F.of (wordOf_raise h)

theorem rd_lt (F : Fld) : rd b F < 2 ^ F.w := Nat.mod_lt _ (Nat.two_pow_pos F.w)

theorem wordOf_hostRecord {code c : Nat} {perm : Bool} {p : List Byte} (h : c ≠ DBK.DSTAT.QUEUE.a) :
    wordOf (hostRecord code perm p b) c = wordOf b c := by
  unfold hostRecord
  split
  · rfl
  · exact wordOf_wr_ne h

theorem isOn_raise_ne {F : Fld} {pg k : Nat} (h : F.a ≠ pg + 0x20) : isOn (raise pg k b) F = isOn b F := by
  simp only [isOn, rd_raise_ne h]

theorem isOn_wrB_ne {F G : Fld} {x : Bool} (h : G.a ≠ F.a ∨ G.lo + G.w ≤ F.lo ∨ F.lo + F.w ≤ G.lo) :
    isOn (wrB b F x) G = isOn b G := by
  simp only [isOn, wrB, rd_wr_ne h]

/-! Bits of a field. -/

/-- A natural is what it shares with another and the rest. -/
theorem and_add_ldiff (n m : Nat) : (n &&& m) + Nat.ldiff n m = n := by
  induction n using Nat.binaryRec generalizing m with
  | zero => simp [Nat.ldiff]
  | bit a n ih =>
    rw [← Nat.bit_bodd_div2 m, Nat.land_bit, Nat.ldiff_bit]
    have h := ih m.div2
    cases a <;> cases m.bodd <;> simp only [Nat.bit_val] <;> simp <;> omega

theorem sub_and_testBit (n m k : Nat) : (n - (n &&& m)).testBit k = (n.testBit k && !m.testBit k) := by
  rw [Nat.sub_eq_of_eq_add ((Nat.add_comm _ _).trans (and_add_ldiff n m)).symm, Nat.testBit_ldiff]

theorem setBit_testBit (n i k : Nat) (v : Bool) : (Num.setBit n i v).testBit k = if k = i then v else n.testBit k := by
  have htwo : (2 ^ i).testBit k = decide (k = i) := by simp [Nat.testBit_two_pow, eq_comm]
  cases v with
  | true => by_cases hk : k = i <;> simp [Num.setBit, hk, htwo]
  | false =>
    by_cases hi : n.testBit i = true
    · have hsub := sub_and_testBit n (2 ^ i) k
      rw [Nat.and_two_pow, hi, Bool.toNat_true, Nat.one_mul, htwo] at hsub
      have hset : Num.setBit n i false = n - 2 ^ i := by simp [Num.setBit, hi]
      rw [hset, hsub]
      by_cases hk : k = i <;> simp [hk]
    · by_cases hk : k = i <;> simp [Num.setBit, hi, hk]

/-- A bit of a field after a bit of it was stored. -/
theorem rdBit_wrBit {F : Fld} {i k : Nat} {v : Bool} (hF : F.lo + F.w ≤ 32) (hk : k < F.w) :
    rdBit (wrBit b F i v) F k = if k = i then v else rdBit b F k := by
  rw [rdBit, wrBit, rd_wr_same hF, Nat.testBit_mod_two_pow, setBit_testBit]
  simp [hk, rdBit]

/-- The bits of a field that are left once a list of them has been cleared. -/
theorem rdBit_forEach_clear {F : Fld} {k : Nat} (hF : F.lo + F.w ≤ 32) (hk : k < F.w) (l : List Nat) :
    rdBit (forEach l (fun t b => wrBit b F t false) b) F k = (rdBit b F k && !l.contains k) := by
  induction l generalizing b with
  | nil => simp [forEach]
  | cons t l ih =>
    have hstep := ih (b := wrBit b F t false)
    rw [rdBit_wrBit hF hk] at hstep
    refine Eq.trans hstep ?_
    by_cases hkt : k = t <;> simp [hkt]

theorem mem_bitsOf {k n t : Nat} : t ∈ bitsOf k n ↔ t < k ∧ n.testBit t = true := by
  simp [bitsOf]

end Sys2Proof.Machine
end

section
/-!
SUPPORT. Trunk stops (R12, R108, R109): O7.
-/

namespace Sys2Proof.Machine

open Sys2Proof.Num

variable {b : Blk}

/-! Transfers. -/

@[simp] theorem xferOf_setXfer {g : Nat} (x : XferSt) (hg : g < 3) : xferOf (setXfer g x b) g = x := by
  match g, hg with
  | 0, _ => rfl
  | 1, _ => rfl
  | 2, _ => rfl

theorem clocked_trunk : clocked b pgTRUNK = true := rfl

theorem gated_trunk {f : Blk → Blk} (h : enabled b pgTRUNK = true) : gated pgTRUNK f b = f b :=
  gated_on h clocked_trunk (by decide)

/-- The stopped trunks after a stop are those before and those it names (R108). -/
theorem trunkStop_stopped (m : BitVec 16) :
    rd (trunkStop m.toNat b) TRUNK.TSTOP.STOPPED = rd b TRUNK.TSTOP.STOPPED ||| m.toNat := by
  unfold trunkStop
  dsimp only
  split
  · rename_i h
    exact h.symm
  · have hlt : rd b TRUNK.TSTOP.STOPPED ||| m.toNat < 2 ^ 16 := Nat.or_lt_two_pow (rd_lt _) m.isLt
    rw [rd_raise_ne (by decide), rd_wr_same (by decide)]
    exact Nat.mod_eq_of_lt hlt

/-! Trunk stops (R108, R109). -/

theorem gateRestore_rd {F : Fld} (g cause : Nat) (h : ∀ g, F.a ≠ (MOD.GSTAT.HW_OFF g).a) :
    rd (gateRestore g cause b) F = rd b F := by
  unfold gateRestore wrB
  exact (rd_wr_ne (.inl (h g))).trans (by unfold setMod; split <;> rfl)

/-- The return of the groups' gates leaves the stopped trunks. -/
theorem gatesReturn_stopped :
    rd (forEach (List.range 3) (fun g b =>
      if (trunksOf b g).any fun t => (rd b TRUNK.TSTOP.STOPPED).testBit t then b else gateRestore g 2 b) b)
      TRUNK.TSTOP.STOPPED = rd b TRUNK.TSTOP.STOPPED := by
  refine forEach_rel (P := fun c => rd c TRUNK.TSTOP.STOPPED = rd b TRUNK.TSTOP.STOPPED) _ (fun g _ c hc => ?_) rfl
  split
  · exact hc
  · refine (gateRestore_rd g 2 fun g => ?_).trans hc
    simp only [TRUNK.TSTOP.STOPPED, MOD.GSTAT.HW_OFF]
    omega

/-- STOP_CLR releases the trunks it names where no input of the device still stops one. -/
theorem actStopClr_stopped {v : Nat} (h : ∀ t < 16, v.testBit t = true → stopBarred b t = false) :
    rd (actStopClr v b) TRUNK.TSTOP.STOPPED =
      rd b TRUNK.TSTOP.STOPPED - (rd b TRUNK.TSTOP.STOPPED &&& v) := by
  have hbar : (bitsOf 16 v).filter (stopBarred b) = [] := by
    rw [List.filter_eq_nil_iff]
    intro t ht
    obtain ⟨hlt, hbit⟩ := mem_bitsOf.mp ht
    simp [h t hlt hbit]
  have hclear : rd (actStopClr v b) TRUNK.TSTOP.STOPPED =
      rd (forEach (bitsOf 16 v) (fun t b => wrBit b TRUNK.TSTOP.STOPPED t false) b) TRUNK.TSTOP.STOPPED := by
    unfold actStopClr
    simp only [hbar, List.isEmpty_nil, if_true, List.contains_nil, Bool.not_false, List.filter_true]
    exact gatesReturn_stopped
  rw [hclear]
  apply Nat.eq_of_testBit_eq
  intro k
  rw [sub_and_testBit]
  by_cases hk : k < 16
  · refine (rdBit_forEach_clear (by decide) hk _).trans ?_
    simp [rdBit, List.contains_eq_mem, mem_bitsOf, hk]
  · have hge : 2 ^ 16 ≤ 2 ^ k := Nat.pow_le_pow_right (by decide) (by omega)
    rw [Nat.testBit_lt_two_pow (Nat.lt_of_lt_of_le (rd_lt TRUNK.TSTOP.STOPPED) hge),
      Nat.testBit_lt_two_pow (Nat.lt_of_lt_of_le (rd_lt TRUNK.TSTOP.STOPPED) hge), Bool.false_and]

/-- What bars the release of a trunk lies outside STOP_CLR. -/
theorem stopBarred_congr {c : Blk} (hword : ∀ a, a ≠ TRUNK.STOP_CLR.CLR.a → wordOf c a = wordOf b a)
    (htrunk : c.trunk = b.trunk) (t : Nat) : stopBarred c t = stopBarred b t := by
  have hrd : ∀ F : Fld, F.a ≠ TRUNK.STOP_CLR.CLR.a → rd c F = rd b F := fun F hF => congrArg F.of (hword F.a hF)
  have hpos := hrd SYS.MODE.POS (by decide)
  have hestop := hrd (VP.VSTAT.ESTOP (t % 4)) (by simp only [VP.VSTAT.ESTOP, TRUNK.STOP_CLR.CLR]; omega)
  have hsite : ∀ n, rd c (VP.VSTAT.SITE_ESTOP n) = rd b (VP.VSTAT.SITE_ESTOP n) :=
    fun n => hrd _ (by simp only [VP.VSTAT.SITE_ESTOP, TRUNK.STOP_CLR.CLR]; omega)
  simp only [stopBarred, isOn, hpos, hestop, hsite, htrunk]

/-- Settles O7: each command's effect on the stopped trunks, the repeats, the proof of an opening and the coil. -/
theorem trunkStops : Obligations.TrunkStops := by
  refine ⟨fun m s => ?_, fun s h => ?_, fun g s hen hc hmust hz => ?_, fun g s hen hc hstop hz => ?_,
    fun i v s ha hfree => ?_⟩
  · exact completes_run (f := trunkStop m.toNat) rfl (trunkStop_stopped m)
  · refine completes_run (f := doStopRepeat) rfl ?_
    simp [doStopRepeat, h]
  · refine completes_run (f := gated pgTRUNK (doStopRelease g.val)) rfl ?_
    rw [gated_trunk hen]
    simp [doStopRelease, hc, hmust, hz, proofStart]
  · refine completes_run (f := gated pgTRUNK (doStopLimit g.val)) rfl ?_
    rw [gated_trunk hen]
    simp only [doStopLimit, hc, hstop, hz, Bool.not_false, and_self, if_true]
    rw [rd_raise_ne (by simp only [TRUNK.COIL.STAT.STATE, pgTRUNK]; omega)]
    refine (congrArg (Fld.of _) (wordOf_hostRecord ?_)).trans ?_
    · simp only [TRUNK.COIL.STAT.STATE, DBK.DSTAT.QUEUE]; omega
    · exact rd_wr_same (by simp [TRUNK.COIL.STAT.STATE])
  · refine completes_run (f := writeAct i false TRUNK.STOP_CLR.CLR.a v actStopClr) rfl ?_
    rw [writeAct_accepted ha, actStopClr_stopped, writeOf_rd_ne ha (by decide) (by decide)]
    intro t ht hbit
    exact (stopBarred_congr (fun a => writeOf_wordOf_ne ha (by decide)) writeOf_trunk t).trans (hfree t ht hbit)

end Sys2Proof.Machine
end

section
/-!
SUPPORT. Memory reads, scrubbing, injection and the MMU's commands (R15, R17, R446, R448, R453): O18.
-/

namespace Sys2Proof.Machine

open Sys2Proof.Num

variable {b : Blk} {s : State}

/-! Bytes. -/

theorem le_succ (k n : Nat) : le (k + 1) n = BitVec.ofNat 8 n :: le k (n / 256) := by
  simp [le, List.range_succ_eq_map, Nat.pow_succ', Nat.div_div_eq_div_mul]

/-- A list of bytes is the bytes of its little-endian value. -/
theorem le_ofLE (l : List Byte) : le l.length (ofLE l) = l := by
  induction l with
  | nil => rfl
  | cons x l ih =>
    have hdiv : ofLE (x :: l) / 256 = ofLE l := by simp only [ofLE]; omega
    have hlow : BitVec.ofNat 8 (ofLE (x :: l)) = x := by
      apply BitVec.eq_of_toNat_eq
      simp only [BitVec.toNat_ofNat, ofLE]
      omega
    rw [List.length_cons, le_succ, hdiv, hlow, ih]

@[simp] theorem memBytes_length (k n : Nat) : (memBytes b k n).length = n := by simp [memBytes]

theorem memBytes_append (k m n : Nat) : memBytes b k (m + n) = memBytes b k m ++ memBytes b (k + m) n := by
  simp [memBytes, List.range_add, Nat.add_assoc]

theorem memBytes_drop_take (k m d n : Nat) (h : d + n ≤ m) :
    ((memBytes b k m).drop d).take n = memBytes b (k + d) n := by
  obtain ⟨r, rfl⟩ : ∃ r, m = d + (n + r) := ⟨m - d - n, by omega⟩
  rw [memBytes_append, memBytes_append, List.drop_left' (memBytes_length k d),
    List.take_left' (memBytes_length (k + d) n)]

/-! Reads of words with clean check bits (R15). -/

theorem readWordAt_clean {k ini : Nat} (hk : k % 4 = 0) (h : markOf b k = .clean) :
    readWordAt b k ini = { blk := b, val := memLE b k 4, poisoned := false } := by
  have hword : k / 4 * 4 = k := by omega
  simp only [readWordAt, hword, h, checkMark, checkIsFree]
  rfl

theorem readWords_clean {n k ini : Nat} (hk : k % 4 = 0) (h : ∀ j < n, markOf b (k + 4 * j) = .clean) :
    readWords n k ini b = { blk := b, bytes := memBytes b k (4 * n), bad := none } := by
  induction n generalizing k with
  | zero => rfl
  | succ n ih =>
    have hfirst := readWordAt_clean (ini := ini) hk (h 0 (Nat.succ_pos n))
    have hrest := ih (k := k + 4) (by omega) fun j hj => by
      have hnext := h (j + 1) (by omega)
      rwa [show k + 4 * (j + 1) = k + 4 + 4 * j by omega] at hnext
    have hbytes : le 4 (memLE b k 4) = memBytes b k 4 := by
      simpa [memLE] using le_ofLE (memBytes b k 4)
    rw [readWords, hfirst, hrest, show 4 * (n + 1) = 4 + 4 * n by omega, memBytes_append, hbytes]
    rfl

theorem readMem_clean {key n ini : Nat} (hn : 0 < n) (h : ∀ k < n, markOf b (key + k) = .clean) :
    readMem b key n ini = { blk := b, bytes := memBytes b key n, bad := none } := by
  have hmarks : ∀ j < (key + n - key / 4 * 4 + 3) / 4, markOf b (key / 4 * 4 + 4 * j) = .clean := by
    intro j hj
    have hbyte := h (max key (key / 4 * 4 + 4 * j) - key) (by omega)
    rw [show key + (max key (key / 4 * 4 + 4 * j) - key) = max key (key / 4 * 4 + 4 * j) by omega] at hbyte
    unfold markOf at hbyte ⊢
    rwa [show (key / 4 * 4 + 4 * j) / 4 = max key (key / 4 * 4 + 4 * j) / 4 by omega]
  simp only [readMem, readWords_clean (Nat.mul_mod_left _ _) hmarks]
  rw [memBytes_drop_take _ _ _ _ (by omega), show key / 4 * 4 + (key - key / 4 * 4) = key by omega]

/-- A load of a memory window whose words have clean check bits answers their bytes (R15, R17). -/
theorem loadAt_clean {i : Init} {a n : Nat} {f : Bool} {r : Region} (hi : i ≠ .host) (hn : 0 < n)
    (hr : regionAt i.side a = some r) (hlast : regionAt i.side (a + n - 1) = some r) (hh : r ≠ .hostPages)
    (hf : r ≠ .fieldPages) (hclean : ∀ k < n, markOf b (memKey i a + k) = .clean) :
    (loadAt i a n f b).io.resp = loaded (memBytes b (memKey i a) n) := by
  have hpage : ¬(regionAt i.side a = some .hostPages ∨ regionAt i.side a = some .fieldPages) := by
    simp [hr, hh, hf]
  rw [loadAt, if_neg hpage, if_neg hi]
  simp [doMemoryRead, hr, hlast, hh, hf, readMem_clean hn hclean]

/-- A load outside the windows, or of a page that is no load of an aligned word, ends in a bus error (R17, R22). -/
theorem loadAt_busError {i : Init} {a n : Nat} {f : Bool}
    (h : regionAt i.side a = none ∨ ((regionAt i.side a = some .hostPages ∨ regionAt i.side a = some .fieldPages) ∧
      (n ≠ 4 ∨ a % 4 ≠ 0 ∨ f = true))) :
    (loadAt i a n f b).io.resp = .busError := by
  unfold loadAt
  rcases h with h | ⟨hpage, hform⟩
  · rw [if_neg (by simp [h])]
    split
    · rfl
    · simp [doMemoryRead, h]
  · have hword : ¬(n = 4 ∧ a % 4 = 0 ∧ (!f) = true) := by
      rintro ⟨hn, ha, hf⟩
      simp [hn, ha] at hform
      simp [hform] at hf
    rw [if_pos hpage]
    dsimp only
    rw [if_neg hword]
    rfl

/-! The scrubbers (R446). -/

/-- A scrubber's position moves on from the word it has read; at the end of its memory the pass ends. -/
def scrubMove (m pos : Nat) (b : Blk) : Blk :=
  if pos + 4 < (scrubRange m).2 then
    { b with memory := { b.memory with scrubPos := Tab.put (fun _ => 0) b.memory.scrubPos m (pos + 4) } }
  else
    let b := { b with memory := { b.memory with scrubPos := Tab.put (fun _ => 0) b.memory.scrubPos m 0 } }
    if m < 3 then
      let b := wrBit b MEM.SSTAT.LATE m (b.memory.passLate.testBit m)
      { b with memory := { b.memory with passLate := Num.setBit b.memory.passLate m false } }
    else b

/-- Whatever a scrubber finds, its position then moves on. -/
theorem doScrubRead_eq (m : Nat) :
    ∃ c, doScrubRead m b = scrubMove m (Tab.at' (fun _ => 0) b.memory.scrubPos m) c := ⟨_, rfl⟩

theorem scrubMove_pos (m pos : Nat) :
    Tab.at' (fun _ => 0) (scrubMove m pos b).memory.scrubPos m = if pos + 4 < (scrubRange m).2 then pos + 4 else 0 := by
  unfold scrubMove
  split
  · simp only [Tab.at'_put_same]
  · dsimp only
    split <;> simp only [wrBit_memory, Tab.at'_put_same]

theorem doScrubPassLate_marks {m : Nat} (hm : m < 3) :
    rdBit (doScrubPassLate m b) MEM.SSTAT.LATE m = true ∧ (doScrubPassLate m b).memory.passLate.testBit m = true := by
  unfold doScrubPassLate
  constructor
  · rw [rdBit, rd_raise_ne (by decide)]
    exact (rdBit_wrBit (by decide) hm).trans (if_pos rfl)
  · simp [setBit_testBit]

/-! Injection, invalidation and the fault queue (R448, R453, R463). -/

/-- The bit a command sets in the word it writes. -/
theorem toNat_or_top (v : Word) : (v ||| 0x80000000).toNat.testBit 31 = true := by
  rw [BitVec.toNat_or, Nat.testBit_or]
  exact Bool.or_eq_true_iff.mpr (.inr (by decide))

theorem toNat_or_top_div (v : Word) : (v ||| 0x80000000).toNat / 2 ^ 29 % 4 = v.toNat / 2 ^ 29 % 4 := by
  rw [BitVec.toNat_or, Nat.or_div_two_pow]
  exact (Nat.or_mod_two_pow (n := 2)).trans (Nat.or_zero _)

theorem toNat_or_top_mod (v : Word) : (v ||| 0x80000000).toNat % 64 = v.toNat % 64 := by
  rw [BitVec.toNat_or]
  exact (Nat.or_mod_two_pow (n := 6)).trans (Nat.or_zero _)

theorem actInvalidate_busy {v : Nat} (hv : v.testBit 31 = true) (hs : v / 2 ^ 29 % 4 ≠ 3) :
    isOn (actInvalidate v b) MMU.INV_STAT.BUSY = true ∧
      (actInvalidate v b).memory.tlb.all
        (fun e => !invMatch (v / 2 ^ 29 % 4) (v % 64) (rd b MMU.INV_ADDR.PAGE) e) = true := by
  unfold actInvalidate
  rw [if_pos ⟨hv, hs⟩]
  refine ⟨isOn_wrB_same (by decide) (by decide) true, ?_⟩
  simp [setTlb]

theorem doInvalidateDone_of {sc st pg : Nat} (h : b.memory.inv = some (sc, st, pg)) :
    (doInvalidateDone b).memory.inv = none ∧ isOn (doInvalidateDone b) MMU.INV_STAT.BUSY = false ∧
      (doInvalidateDone b).memory.tlb.all (fun e => !invMatch sc st pg e) = true := by
  simp only [doInvalidateDone, h]
  refine ⟨by simp, ?_, by simp [setTlb]⟩
  rw [isOn_raise_ne (by decide)]
  exact isOn_wrB_same (by decide) (by decide) false

@[simp] theorem showFaults_memory : (showFaults b).memory = b.memory := by
  unfold showFaults
  dsimp only
  split <;> simp

/-- Settles O18: loads, scrub reads, late passes, injections, invalidations and the fault queue, each by its own lemma. -/
theorem memoryCommands : Obligations.MemoryCommands := by
  refine ⟨fun i a w f r s hi hr hlast hh hf hclean => ?_, fun i a w f s h => ?_, fun m s => ?_, fun m s => ?_,
    fun i v s ha => ?_, fun i v s ha hs => ?_, fun sc st pg s h => ?_, fun i s ha => ?_⟩
  · exact completes_run (f := loadAt i a.toNat (2 ^ w.val) f) rfl
      (loadAt_clean hi (Nat.two_pow_pos _) hr hlast hh hf hclean)
  · refine completes_run (f := loadAt i a.toNat (2 ^ w.val) f) rfl (loadAt_busError ?_)
    have hw : w.val ≠ 2 → 2 ^ w.val ≠ 4 := fun hne heq => hne (Nat.pow_right_injective (le_refl 2) heq)
    exact h.imp_right fun ⟨hpage, hform⟩ => ⟨hpage, hform.imp_left hw⟩
  · refine completes_run (f := doScrubRead m.val) rfl ?_
    obtain ⟨c, hc⟩ := doScrubRead_eq (b := s.blk) m.val
    rw [hc]
    exact scrubMove_pos _ _
  · exact completes_run (f := doScrubPassLate m.val) rfl (doScrubPassLate_marks m.isLt)
  · refine completes_run (f := writeAct i false MEM.INJ.GO.a (v ||| 0x80000000) actInj) rfl ?_
    rw [writeAct_accepted ha, actInj, if_pos (toNat_or_top v)]
    exact isOn_wrB_same (by decide) (by decide) true
  · refine completes_run (f := writeAct i false MMU.INV.GO.a (v ||| 0x80000000) actInvalidate) rfl ?_
    have hact := actInvalidate_busy (b := (writeOf s.blk i MMU.INV.GO.a (v ||| 0x80000000)).blk)
      (toNat_or_top v) (toNat_or_top_div v ▸ hs)
    rw [toNat_or_top_div, toNat_or_top_mod, writeOf_rd_ne ha (by decide) (by decide)] at hact
    rw [writeAct_accepted ha]
    exact hact
  · exact completes_run (f := doInvalidateDone) rfl (doInvalidateDone_of h)
  · refine completes_run (f := writeAct i false MMU.FQ_POP.GO.a 1 actFqPop) rfl ?_
    rw [writeAct_accepted ha]
    simp [actFqPop]

end Sys2Proof.Machine
end

section
/-!
SUPPORT. TIME_SYNC, captures, the pulse per second, the followed domain and the RTC (R210 to R217): O22.
-/

namespace Sys2Proof.Machine

open Sys2Proof.Num Sys2Proof.Stated

variable {b : Blk} {s : State}

/-! TIME_SYNC (R210, R211). -/

theorem doTimeSyncSend_of_none (ha : (domOf b 0).stepDue = none) (hb : (domOf b 1).stepDue = none) :
    doTimeSyncSend b = emit b (.timeSync (eHost b 0) (eHost b 1) 0
      (rd b (TIME.DOM.STAT.SET 0) + 2 * rd b (TIME.DOM.STAT.SET 1)) 0) := by
  simp only [doTimeSyncSend, ha, hb]

theorem doTimeSyncSend_of_step {v : Int} (ha : (domOf b 0).stepDue = some v) :
    doTimeSyncSend b = emit (setDom 0 { domOf b 0 with stepDue := none } b) (.timeSync (eHost b 0) (eHost b 1) 1
      (rd b (TIME.DOM.STAT.SET 0) + 2 * rd b (TIME.DOM.STAT.SET 1)) v) := by
  simp only [doTimeSyncSend, ha]

/-! Captures (R215). -/

@[simp] theorem dropShadow_isOn (i : Init) (pg : Nat) (F : Fld) : isOn (dropShadow i pg b) F = isOn b F := rfl

/-- An edge on an enabled unit whose FIFO has room adds an entry. -/
theorem doCaptureEdge_length {f : Bool} {c : Nat} (hc : f = false ∨ c < 4) (hsrc : rd b ⟨capReg f c, 0, 3⟩ ≠ 0)
    (hroom : (Tab.at' (fun _ => []) b.time.caps (capNo f c)).length < 4) :
    (Tab.at' (fun _ => []) (doCaptureEdge f c b).time.caps (capNo f c)).length =
      (Tab.at' (fun _ => []) b.time.caps (capNo f c)).length + 1 := by
  have hunit : ¬(rd b ⟨capReg f c, 0, 3⟩ = 0 ∨ (f = true ∧ 4 ≤ c)) := by
    rintro (h | ⟨hf, h4⟩)
    · exact hsrc h
    · rcases hc with hc | hc
      · simp [hf] at hc
      · omega
  unfold doCaptureEdge
  rw [if_neg hunit]
  dsimp only
  rw [if_neg (Nat.not_le.mpr hroom)]
  split <;> simp [Tab.at'_put_same]

/-- An event of a host page sends nothing across the barrier (R472). -/
theorem raise_host_out {pg k : Nat} (h : pg < 0x100000) : (raise pg k b).io.out = b.io.out := by
  unfold raise raiseHw
  split
  · rw [if_neg (by omega)]; simp
  · rfl

/-- A read of CINFO outside a soft reset answers the oldest entry and drops it. -/
theorem doCaptureRead_of {i : Init} {c : Nat} (hc : i.side = .hostSide ∨ c < 4)
    (hbusy : isOn b (hBUSY (if onField i then pgFTIME else pgTIME)) = false) :
    Tab.at' (fun _ => []) (doCaptureRead i c b).time.caps (capNo (onField i) c) =
        (Tab.at' (fun _ => []) b.time.caps (capNo (onField i) c)).tail ∧
      (doCaptureRead i c b).io.resp =
        .value ((heldWord b ((if onField i then pgFTIME + 0x8C else pgTIME + 0x10C) + 0x10 * c)).getD
          (BitVec.ofNat 32 (cinfo b (onField i) c))) := by
  have hunit : ¬(onField i = true ∧ 4 ≤ c) := by
    rintro ⟨hf, h4⟩
    rcases hc with hc | hc
    · simp [hc] at hf
    · omega
  revert hbusy hunit
  unfold doCaptureRead onField
  generalize decide (i.side = .fieldSide) = f
  intro hbusy hunit
  dsimp only
  rw [if_neg hunit, dropShadow_isOn, if_neg (by simp [hbusy])]
  refine ⟨Tab.at'_put_same _ _ _ _, ?_⟩
  cases f <;> rfl

/-! FDOM (R212). -/

theorem fdomWrite_rd {i : Init} {v : Word} (h : Accepts b i FTIME.FCTL.FDOM.a v) :
    rd (writeOf b i FTIME.FCTL.FDOM.a v).blk FTIME.FCTL.FDOM = FTIME.FCTL.FDOM.of v :=
  writeOf_rd_plain (l₁ := []) (f := RegForm.fd 16 1 .rwl .any) (l₂ := [RegForm.fd 0 16 .rwl (.range 10 10000)]) h
    (by decide) (by decide) (by decide) ⟨.inr rfl, rfl, by rfl, by decide⟩

/-! The RTC (R11, R217). -/

theorem isOn_setTime (t : TimeSt) (F : Fld) : isOn { b with time := t } F = isOn b F := rfl

theorem doRtcTrim_set (h : copySet b (legalField b) = true) :
    (doRtcTrim b).time.rtc = eField b (legalField b) ∧ isOn (doRtcTrim b) FTIME.RTC_STAT.TRIMMED = true := by
  unfold doRtcTrim
  rw [if_pos h]
  refine ⟨by simp, ?_⟩
  rw [isOn_wrB_ne (.inr (.inr (by decide)))]
  exact isOn_wrB_same (by decide) (by decide) true

theorem doVbatPowerOn_cleared :
    (doVbatPowerOn b).time.rtc = 0 ∧ isOn (doVbatPowerOn b) FTIME.RTC_STAT.RTC_SET = false := by
  have hset : isOn (wrB (wrB b FTIME.RTC_STAT.RTC_SET false) FTIME.RTC_STAT.TRIMMED false) FTIME.RTC_STAT.RTC_SET = false :=
    (isOn_wrB_ne (.inr (.inl (by decide)))).trans (isOn_wrB_same (by decide) (by decide) false)
  refine ⟨by simp [doVbatPowerOn], ?_⟩
  unfold doVbatPowerOn
  dsimp only
  rw [isOn_wrB_ne (.inr (.inl (by decide))), isOn_setTime]
  exact hset

theorem doVbatChangeover_of (on : Bool) :
    (doVbatChangeover on b).time.rtc = b.time.rtc ∧
      (on = true → isOn (doVbatChangeover on b) FTIME.RTC_STAT.VBAT_RUN = true) := by
  cases on with
  | false => exact ⟨rfl, nofun⟩
  | true => exact ⟨by simp [doVbatChangeover, when], fun _ => isOn_wrB_same (by decide) (by decide) true⟩

/-- A pulse of a domain that is set leaves PPS_OUT driven once (R216). -/
theorem doPpsOut_out (hen : isOn b TIME.PPS_CTL.OUT_EN = true)
    (hset : isOn b (TIME.DOM.STAT.SET (rd b TIME.PPS_CTL.OUT_DOM)) = true) (hstand : isStandby b = false) :
    (doPpsOut b).io.out = b.io.out ++ [.ppsOut (rd b TIME.PPS_CTL.WIDTH_MS)] := by
  unfold doPpsOut
  simp only [hen, hset, hstand, Bool.not_false, Bool.and_self, if_true]
  rw [raise_host_out (by decide), emit_out]

/-- Settles O22: the messages, captures, pulses and clocks of the time page, each by its own lemma. -/
theorem timeOutputs : Obligations.TimeOutputs := by
  refine ⟨fun s ha hb => ?_, fun v s ha => ?_, fun f c s hc hsrc hroom hnow => ?_, fun i c s hc hbusy => ?_,
    fun s hen hset hstand => ?_, fun i v s ha => ?_, fun s => ?_, fun s hset => ?_, fun s => ?_, fun on s => ?_⟩
  · refine completes_run (f := doTimeSyncSend) rfl ?_
    rw [doTimeSyncSend_of_none ha hb, emit_out]
  · refine completes_run (f := doTimeSyncSend) rfl ?_
    rw [doTimeSyncSend_of_step ha]
    exact ⟨rfl, by simp⟩
  · exact ⟨_, runIn_now 12 _ hnow, doCaptureEdge_length hc hsrc hroom⟩
  · exact completes_run (f := doCaptureRead i c.val) rfl (doCaptureRead_of hc hbusy)
  · exact completes_run (f := doPpsOut) rfl (doPpsOut_out hen hset hstand)
  · refine completes_run (f := writeAct i false FTIME.FCTL.FDOM.a v fun _ b => b) rfl ?_
    rw [writeAct_accepted ha]
    exact fdomWrite_rd ha
  · exact completes_run (f := doFdomApply) rfl rfl
  · exact completes_run (f := doRtcTrim) rfl (doRtcTrim_set hset)
  · exact completes_run (f := doVbatPowerOn) rfl doVbatPowerOn_cleared
  · exact completes_run (f := doVbatChangeover on) rfl (doVbatChangeover_of on)

end Sys2Proof.Machine
end

section
/-!
SUPPORT. What memory errors, a failing twin, the streams of the MMU and a stopping lane leave of a block: the registers of
all other pages, and every part that is not theirs. The view `outside` shows just that; an operation that leaves it equal
keeps it.
-/

namespace Sys2Proof.Machine

open Sys2Proof.Num

variable {b : Blk} {pgs : List Nat}

/-- The parts of a block that no register write, answer, memory access, lane, pair, port pilot, loop or Daybook operation
changes. -/
def still (b : Blk) : Blk :=
  { b with
    regs := [], mem := [], io := {}, memory := {}, mod0 := {}, mod1 := {}, mod2 := {}, ce := {}, vp := [], lanes := {}
    red := {}, daybook := {} }

/-- What a block shows outside some register pages: the words of the other pages, and the parts that are still. -/
def outside (pgs : List Nat) (b : Blk) : (Nat → Word) × Blk :=
  (fun a => if a / 0x1000 * 0x1000 ∈ pgs then 0 else wordOf b a, still b)

variable {c : Blk}

theorem outside_wordOf (h : outside pgs c = outside pgs b) {a : Nat} (ha : a / 0x1000 * 0x1000 ∉ pgs) :
    wordOf c a = wordOf b a := by
  simpa [outside, ha] using congrFun (congrArg Prod.fst h) a

theorem outside_still (h : outside pgs c = outside pgs b) : still c = still b := congrArg Prod.snd h

theorem outside_bar (h : outside pgs c = outside pgs b) : c.bar = b.bar :=
  (congrArg Blk.bar (outside_still h) :)
theorem outside_factor (h : outside pgs c = outside pgs b) : c.factor = b.factor :=
  (congrArg Blk.factor (outside_still h) :)

/-- A view of fewer pages' registers is kept where a view of more is. -/
theorem outside_mono {qs : List Nat} (hsub : ∀ p ∈ pgs, p ∈ qs) (h : outside pgs c = outside pgs b) :
    outside qs c = outside qs b := by
  refine Prod.ext ?_ (outside_still h)
  funext a
  by_cases ha : a / 0x1000 * 0x1000 ∈ qs
  · simp [outside, ha]
  · simp [outside, ha, outside_wordOf h fun hp => ha (hsub _ hp)]

/-! Register writes of the pages left out. -/

@[simp] theorem outside_setWord {a : Nat} {w : Word} (h : a / 0x1000 * 0x1000 ∈ pgs) :
    outside pgs (setWord b a w) = outside pgs b := by
  refine Prod.ext ?_ rfl
  funext d
  by_cases hd : d / 0x1000 * 0x1000 ∈ pgs
  · simp [outside, hd]
  · have hne : d ≠ a := fun he => hd (he ▸ h)
    simp [outside, hd, wordOf_setWord_ne hne]

@[simp] theorem outside_wr {F : Fld} {v : Nat} (h : F.a / 0x1000 * 0x1000 ∈ pgs) :
    outside pgs (wr b F v) = outside pgs b := outside_setWord h
@[simp] theorem outside_wrB {F : Fld} {v : Bool} (h : F.a / 0x1000 * 0x1000 ∈ pgs) :
    outside pgs (wrB b F v) = outside pgs b := outside_wr h
@[simp] theorem outside_wrU {F : Fld} {v : Nat} (h : F.a / 0x1000 * 0x1000 ∈ pgs) :
    outside pgs (wrU b F v) = outside pgs b := outside_wr h
@[simp] theorem outside_incSat {F : Fld} {n : Nat} (h : F.a / 0x1000 * 0x1000 ∈ pgs) :
    outside pgs (incSat b F n) = outside pgs b := outside_wr h
@[simp] theorem outside_incWrap {F : Fld} {n : Nat} (h : F.a / 0x1000 * 0x1000 ∈ pgs) :
    outside pgs (incWrap b F n) = outside pgs b := outside_wr h
@[simp] theorem outside_wrBit {F : Fld} {i : Nat} {v : Bool} (h : F.a / 0x1000 * 0x1000 ∈ pgs) :
    outside pgs (wrBit b F i v) = outside pgs b := outside_wr h

/-! Operations that write no register. -/

@[simp] theorem outside_emit (m : Msg) : outside pgs (emit b m) = outside pgs b := rfl
@[simp] theorem outside_spend : outside pgs (spend b) = outside pgs b := rfl
@[simp] theorem outside_setMark (k : Nat) (m : Mark) : outside pgs (setMark b k m) = outside pgs b := rfl
@[simp] theorem outside_setByte (k : Nat) (v : Byte) : outside pgs (setByte b k v) = outside pgs b := rfl
@[simp] theorem outside_setRed (x : RedSt) : outside pgs (setRed x b) = outside pgs b := rfl
@[simp] theorem outside_setVp (n : Nat) (x : VpSt) : outside pgs (setVp n x b) = outside pgs b := rfl
@[simp] theorem outside_setSlot (i : Nat) (x : SlotSt) : outside pgs (setSlot i x b) = outside pgs b := rfl
@[simp] theorem outside_setMemory (m : MemSt) : outside pgs { b with memory := m } = outside pgs b := rfl
@[simp] theorem outside_setMod (g : Nat) (x : ModSt) : outside pgs (setMod g x b) = outside pgs b := by
  unfold setMod
  split <;> rfl

@[simp] theorem outside_putBytes (k : Nat) (l : List Byte) : outside pgs (putBytes k l b) = outside pgs b := by
  induction l generalizing k b with
  | nil => rfl
  | cons x l ih => exact (ih (k + 1)).trans (outside_setByte k x)

/-! Guards, repetitions, events and records. -/

theorem outside_when {f : Blk → Blk} (x : Bool) (h : outside pgs (f b) = outside pgs b) :
    outside pgs (when x f b) = outside pgs b := by
  cases x
  · rfl
  · exact h

theorem outside_ite {p : Prop} [Decidable p] {d : Blk} (hc : outside pgs c = outside pgs b)
    (hd : outside pgs d = outside pgs b) : outside pgs (if p then c else d) = outside pgs b := by
  split
  · exact hc
  · exact hd

theorem outside_forEach {α : Type} {f : α → Blk → Blk} (l : List α)
    (h : ∀ x ∈ l, ∀ c, outside pgs (f x c) = outside pgs c) : outside pgs (forEach l f b) = outside pgs b :=
  forEach_rel (P := fun c => outside pgs c = outside pgs b) l (fun x hx c hc => (h x hx c).trans hc) rfl

@[simp] theorem outside_raiseHw {pg k : Nat} (h : (pg + 0x20) / 0x1000 * 0x1000 ∈ pgs) :
    outside pgs (raiseHw pg k b) = outside pgs b := by
  unfold raiseHw
  dsimp only
  split <;> simp [hRAW, h]

@[simp] theorem outside_raise {pg k : Nat} (h : (pg + 0x20) / 0x1000 * 0x1000 ∈ pgs) :
    outside pgs (raise pg k b) = outside pgs b := by
  unfold raise
  split
  · exact outside_raiseHw h
  · rfl

theorem outside_whenRaise {x : Bool} {pg k : Nat} (h : (pg + 0x20) / 0x1000 * 0x1000 ∈ pgs) :
    outside pgs (when x (raise pg k) b) = outside pgs b := outside_when x (outside_raise h)

theorem outside_hostRecord {code : Nat} {perm : Bool} {p : List Byte} (h : pgDBK ∈ pgs) :
    outside pgs (hostRecord code perm p b) = outside pgs b := by
  unfold hostRecord
  split
  · rfl
  · exact outside_wr h

/-! A failing twin (R343, R346). -/

/-- The pages a failing twin shows itself on. -/
def failPages : List Nat := [pgSYS, pgRED, pgDBK]

@[simp] theorem outside_showPilot (n : Nat) : outside pgs (showPilot n b) = outside pgs b := by
  unfold showPilot
  dsimp only
  split <;> simp

@[simp] theorem outside_driveLands : outside pgs (driveLands b) = outside pgs b := by
  unfold driveLands
  dsimp only
  rw [outside_emit]
  exact outside_forEach _ fun n _ c => outside_showPilot n

theorem outside_setSync (v : Bool) : outside failPages (setSync v b) = outside failPages b := by
  unfold setSync
  rw [outside_wrB (by decide), outside_wrB (by decide)]

theorem outside_setActive (v : Bool) : outside failPages (setActive v b) = outside failPages b := by
  unfold setActive
  rw [outside_wrB (by decide), outside_wrB (by decide)]

theorem outside_showFail : outside failPages (showFail b) = outside failPages b := by
  unfold showFail
  split
  · rfl
  split
  · rfl
  dsimp only
  split
  · rw [outside_setRed, outside_setSync, outside_setActive, outside_wr (by decide), outside_wrB (by decide)]
  · rw [outside_raise (by decide), outside_hostRecord (by decide), outside_setRed, outside_setSync, outside_setActive,
      outside_wr (by decide), outside_wrB (by decide)]

theorem outside_failAssert (cause : Nat) : outside failPages (failAssert cause b) = outside failPages b := by
  unfold failAssert
  split
  · rfl
  · rw [outside_driveLands, outside_showFail, outside_setRed]

end Sys2Proof.Machine
end

section
/-!
SUPPORT. What the memory accesses of a stream leave of a block: all pages but those of the MMU, of the memory errors and of a
failing twin, and every part that is still.
-/

namespace Sys2Proof.Machine

open Sys2Proof.Num

variable {b : Blk}

/-- The pages a stream's access of memory shows itself on. -/
def streamPages : List Nat := [pgSYS, pgRED, pgDBK, pgMMU, pgMEM, pgFSYS]

/-! Checked words (R15, R445 to R448). -/

@[simp] theorem outside_incMemCnt (ue : Bool) (m n : Nat) :
    outside streamPages (incSat b (memCnt ue m) n) = outside streamPages b :=
  outside_incSat (by simp only [memCnt]; cases ue <;> decide)

@[simp] theorem outside_logCE (k ini synd : Nat) (scrub : Bool) :
    outside streamPages (logCE k ini synd scrub b) = outside streamPages b := by
  unfold logCE
  dsimp only
  split <;>
    simp (disch := decide) only [outside_raise, outside_setMemory, outside_wrB, outside_wr, outside_setWord,
      outside_whenRaise, outside_incMemCnt]

theorem outside_failAssert_stream (cause : Nat) : outside streamPages (failAssert cause b) = outside streamPages b :=
  outside_mono (by decide) (outside_failAssert cause)

@[simp] theorem outside_logUE (k ini synd : Nat) (scrub mm : Bool) :
    outside streamPages (logUE k ini synd scrub mm b) = outside streamPages b := by
  unfold logUE
  refine outside_ite ?_ ?_ <;>
    simp (disch := decide) only [outside_failAssert_stream, outside_raise, outside_wrB, outside_wr, outside_setWord,
      outside_whenRaise, outside_incMemCnt]

@[simp] theorem outside_readWordAt (key ini : Nat) : outside streamPages (readWordAt b key ini).blk = outside streamPages b := by
  have hspend : ∀ x, outside streamPages (when x spend b) = outside streamPages b := fun x => outside_when x outside_spend
  unfold readWordAt
  dsimp only
  split
  · exact hspend _
  all_goals
    dsimp only
    split <;>
      simp (disch := decide) only [outside_logCE, outside_logUE, outside_setMark, outside_raise, outside_incSat, hspend]

@[simp] theorem outside_readWords (n k ini : Nat) :
    outside streamPages (readWords n k ini b).blk = outside streamPages b := by
  induction n generalizing k b with
  | zero => rfl
  | succ n ih => exact (ih (k + 4)).trans (outside_readWordAt k ini)

@[simp] theorem outside_readMem (key n ini : Nat) : outside streamPages (readMem b key n ini).blk = outside streamPages b :=
  outside_readWords _ _ _

theorem outside_inject (k : Nat) (m : Mark) :
    outside streamPages (setMark (wrB b MEM.INJ.ARMED false) k m) = outside streamPages b := by
  rw [outside_setMark, outside_wrB (by decide)]

@[simp] theorem outside_writeWordAt (key v : Nat) : outside streamPages (writeWordAt key v b) = outside streamPages b := by
  unfold writeWordAt
  dsimp only
  split
  · rw [outside_inject, outside_putBytes]
  · rw [outside_setMark, outside_putBytes]

@[simp] theorem outside_writePartAt (key : Nat) (l : List Byte) :
    outside streamPages (writePartAt key l b) = outside streamPages b := by
  unfold writePartAt
  dsimp only
  split
  · split
    · rw [outside_incSat (by decide), outside_putBytes]
    · rw [outside_putBytes]
  · split
    · rw [outside_putBytes]
    split
    · rw [outside_inject, outside_putBytes]
    · rw [outside_setMark, outside_putBytes]

@[simp] theorem outside_writeBytesAt (n key : Nat) (l : List Byte) :
    outside streamPages (writeBytesAt n key l b) = outside streamPages b := by
  induction n generalizing key l b with
  | zero => rfl
  | succ n ih =>
    unfold writeBytesAt
    split
    · rfl
    · dsimp only
      rw [ih]
      split
      · exact outside_writeWordAt _ _
      · exact outside_writePartAt _ _

@[simp] theorem outside_writeMem (key : Nat) (l : List Byte) : outside streamPages (writeMem key l b) = outside streamPages b :=
  outside_writeBytesAt _ _ _

/-! Translation (R449 to R453). -/

@[simp] theorem outside_readEntry (a s : Nat) : outside streamPages (readEntry b a s).1 = outside streamPages b :=
  (outside_readWordAt (a + 4) (8 + s)).trans (outside_readWordAt a (8 + s))

theorem outside_of_readEntry {c : Blk} {a k e : Nat} {p : Bool} (h : readEntry b a k = (c, e, p)) :
    outside streamPages c = outside streamPages b := by
  rw [← outside_readEntry (b := b) a k, h]

@[simp] theorem outside_walk (s iova : Nat) : outside streamPages (walk b s iova).1 = outside streamPages b := by
  unfold walk
  extract_lets a₁
  split
  · rfl
  rcases hfst : readEntry b a₁ s with ⟨c, e, p⟩
  have hc := outside_of_readEntry hfst
  dsimp only
  split
  · exact hc
  split
  · exact hc
  split
  · exact hc
  split
  · split <;> exact hc
  split
  · exact hc
  rcases hsnd : readEntry c (e / 2 ^ 12 % 2 ^ 20 * 2 ^ 12 + 8 * (iova / 2 ^ 12 % 512)) s with ⟨d, e', q⟩
  have hd := (outside_of_readEntry hsnd).trans hc
  dsimp only
  split
  · exact hd
  split
  · exact hd
  split
  · exact hd
  split
  · exact hd
  · exact hd

@[simp] theorem outside_setTlb (t : List TlbEntry) : outside streamPages (setTlb b t) = outside streamPages b :=
  outside_wr (by decide)

@[simp] theorem outside_tlbUse (iova : Nat) (write : Bool) (e : TlbEntry) :
    outside streamPages (tlbUse iova write e b).blk = outside streamPages b := by
  unfold tlbUse
  dsimp only
  split <;> rfl

@[simp] theorem outside_translate (s iova : Nat) (write : Bool) :
    outside streamPages (translate b s iova write).blk = outside streamPages b := by
  unfold translate
  split
  · rfl
  split
  · rfl
  split
  · rw [outside_tlbUse, outside_setTlb]
  · dsimp only
    split
    · rw [outside_walk, outside_incWrap (by decide)]
    · split
      · rw [outside_setTlb, outside_tlbUse, outside_walk, outside_incWrap (by decide)]
      · rw [outside_tlbUse, outside_walk, outside_incWrap (by decide)]

@[simp] theorem outside_showFaults : outside streamPages (showFaults b) = outside streamPages b := by
  unfold showFaults
  dsimp only
  split <;> simp (disch := decide) only [outside_setWord, outside_wr, outside_wrB]

theorem outside_mmuFault {s : Nat} (hs : s < 64) (iova : Nat) (write : Bool) (cause : Nat) :
    outside streamPages (mmuFault s iova write cause b) = outside streamPages b := by
  have hcount : outside streamPages (incSat b (MMU.STR.SSTAT.FAULTS s)) = outside streamPages b := by
    refine outside_incSat ?_
    have hpage : (MMU.STR.SSTAT.FAULTS s).a / 0x1000 * 0x1000 = pgMMU := by
      simp only [MMU.STR.SSTAT.FAULTS, pgMMU]
      omega
    rw [hpage]
    decide
  unfold mmuFault
  dsimp only
  split <;>
    simp (disch := decide) only [outside_raise, outside_showFaults, outside_setMemory, outside_whenRaise, outside_incSat,
      hcount]

theorem outside_translateAll {s : Nat} (hs : s < 64) (n iova len : Nat) (write : Bool) :
    outside streamPages (translateAll n b s iova len write).1 = outside streamPages b := by
  induction n generalizing iova len b with
  | zero => rfl
  | succ n ih =>
    unfold translateAll
    split
    · rfl
    dsimp only
    split
    · rw [outside_mmuFault hs, outside_translate]
    · rw [ih, outside_translate]

/-! Streams (R449). -/

theorem outside_streamPart (s iova : Nat) (acc : StreamRead) (e : Nat × Nat) :
    outside streamPages (streamPart s iova acc e).blk = outside streamPages acc.blk := outside_readMem _ _ _

theorem outside_streamParts (s iova : Nat) (l : List (Nat × Nat)) (acc : StreamRead) :
    outside streamPages (l.foldl (streamPart s iova) acc).blk = outside streamPages acc.blk := by
  induction l generalizing acc with
  | nil => rfl
  | cons e l ih => exact (ih _).trans (outside_streamPart s iova acc e)

theorem outside_streamRead {s : Nat} (hs : s < 64) (iova len : Nat) :
    outside streamPages (streamRead b s iova len).blk = outside streamPages b := by
  unfold streamRead
  dsimp only
  split
  · exact outside_translateAll hs _ _ _ _
  · rw [outside_streamParts]
    exact outside_translateAll hs _ _ _ _

theorem outside_writeParts (l : List (Nat × Nat)) (acc : Blk × List Byte) :
    outside streamPages (l.foldl (fun (acc : Blk × List Byte) e =>
      (writeMem e.1 (acc.2.take e.2) acc.1, acc.2.drop e.2)) acc).1 = outside streamPages acc.1 := by
  induction l generalizing acc with
  | nil => rfl
  | cons e l ih => exact (ih _).trans (outside_writeMem _ _)

theorem outside_streamWrite {s : Nat} (hs : s < 64) (iova : Nat) (l : List Byte) :
    outside streamPages (streamWrite b s iova l).1 = outside streamPages b := by
  unfold streamWrite
  dsimp only
  split
  · exact outside_translateAll hs _ _ _ _
  · rw [outside_writeParts]
    exact outside_translateAll hs _ _ _ _

end Sys2Proof.Machine
end

section
/-!
SUPPORT. What the parts of a block that are still keep when lanes stop, when the modes are formed again and when the host
regains the field side (R44, R495).
-/

namespace Sys2Proof.Machine

open Sys2Proof.Num

variable {b c : Blk}

@[simp] theorem still_wr (F : Fld) (v : Nat) : still (wr b F v) = still b := rfl
@[simp] theorem still_wrB (F : Fld) (v : Bool) : still (wrB b F v) = still b := rfl
@[simp] theorem still_incSat (F : Fld) (n : Nat) : still (incSat b F n) = still b := rfl
@[simp] theorem still_setRed (x : RedSt) : still (setRed x b) = still b := rfl
@[simp] theorem still_setLane (n : Nat) (x : LaneSt) : still (setLane n x b) = still b := rfl
@[simp] theorem still_setDown (s x : Nat) : still (setDown s x b) = still b := rfl
@[simp] theorem still_emit (m : Msg) : still (emit b m) = still b := rfl

@[simp] theorem still_raise (pg k : Nat) : still (raise pg k b) = still b :=
  outside_still (outside_raise (pgs := [(pg + 0x20) / 0x1000 * 0x1000]) (List.mem_singleton.2 rfl))

@[simp] theorem still_hostRecord (code : Nat) (perm : Bool) (p : List Byte) : still (hostRecord code perm p b) = still b :=
  outside_still (outside_hostRecord (List.mem_singleton.2 rfl))

@[simp] theorem still_driveLands : still (driveLands b) = still b := outside_still (pgs := []) outside_driveLands
@[simp] theorem still_showFail : still (showFail b) = still b := outside_still outside_showFail
@[simp] theorem still_failAssert (cause : Nat) : still (failAssert cause b) = still b :=
  outside_still (outside_failAssert cause)
@[simp] theorem still_setSync (v : Bool) : still (setSync v b) = still b := outside_still (outside_setSync v)
@[simp] theorem still_setActive (v : Bool) : still (setActive v b) = still b := outside_still (outside_setActive v)

theorem still_when {f : Blk → Blk} (x : Bool) (h : still (f b) = still b) : still (when x f b) = still b := by
  cases x
  · rfl
  · exact h

theorem still_forEach {α : Type} {f : α → Blk → Blk} (l : List α) (h : ∀ x c, still (f x c) = still c) :
    still (forEach l f b) = still b :=
  forEach_rel (P := fun c => still c = still b) l (fun x _ c hc => (h x c).trans hc) rfl

/-! A lane that stops (R44, R310). -/

@[simp] theorem still_setEthLink (e : Nat) (up : Bool) : still (setEthLink e up b) = still b := by
  unfold setEthLink
  split
  · rfl
  · rw [still_raise, still_wrB]

@[simp] theorem still_showMirror : still (showMirror b) = still b := by
  have hup (x : Bool) : still { b with daybook := { b.daybook with mirUp := x } } = still b := rfl
  unfold showMirror
  dsimp only
  split
  · rfl
  · rw [still_raise, hup]

@[simp] theorem still_showLanes : still (showLanes b) = still b := by
  unfold showLanes
  simp only [still_showMirror, still_wr]

@[simp] theorem still_showPresent : still (showPresent b) = still b := by
  unfold showPresent
  simp only [still_wr]

@[simp] theorem still_transferFail : still (transferFail b) = still b := by
  unfold transferFail
  dsimp only
  split
  · rfl
  · simp only [still_raise, still_setRed, still_wr, still_wrB]

@[simp] theorem still_lockLaneEvent (n : Nat) : still (lockLaneEvent n b) = still b := by
  unfold lockLaneEvent
  refine still_when _ ?_
  rw [still_raise]
  split
  · rfl
  · exact still_transferFail

@[simp] theorem still_laneOff (n : Nat) (hold : Bool) : still (laneOff n hold b) = still b := by
  unfold laneOff
  cases hold <;> dsimp only <;> split <;>
    simp only [still_lockLaneEvent, still_raise, still_showPresent, still_showLanes, still_setLane, still_wr, still_wrB,
      still_setEthLink, Bool.false_eq_true, if_true, if_false]

@[simp] theorem still_resetLink (n : Nat) : still (resetLink n b) = still b := by
  unfold resetLink
  simp only [still_raise, still_wr, still_wrB, still_setLane]

@[simp] theorem still_laneLeft (n : Nat) : still (laneLeft n b) = still b := by
  unfold laneLeft
  extract_lets b₁ b₂ b₃
  have h₁ : still b₁ = still b := still_when _ (still_raise ..)
  have h₂ : still b₂ = still b₁ := still_when _ (still_raise ..)
  have h₃ : still b₃ = still b₂ := by
    unfold b₃
    split <;> simp only [still_wr, still_wrB]
  split
  · rw [still_forEach _ fun s c => by rw [still_wrB, still_setDown], h₃, h₂, h₁]
  · rw [h₃, h₂, h₁]

@[simp] theorem still_laneStop (n : Nat) : still (laneStop n b) = still b := by
  unfold laneStop
  rw [still_wr, still_laneLeft, still_resetLink, still_laneOff]
  exact still_when _ (still_incSat ..)

/-! The modes formed again, and the field side regained (R495). -/

@[simp] theorem still_formMode : still (formMode b) = still b := by
  unfold formMode
  simp only [still_wr, still_wrB]

@[simp] theorem still_unsync (cause : Nat) : still (unsync cause b) = still b := by
  have hcleared (c : Blk) : still { c with red := { c.red with tickets := [], expect := none } } = still c := rfl
  unfold unsync
  dsimp only
  split
  · rfl
  · rw [still_emit, hcleared, still_raise, still_wr, still_setSync]

@[simp] theorem still_sealParity : still (sealParity b) = still b := by
  unfold sealParity
  split
  · rfl
  split
  · rfl
  split
  · rfl
  · rw [still_driveLands, still_setActive, still_unsync]

@[simp] theorem still_showMode : still (showMode b) = still b := by
  unfold showMode
  simp only [still_sealParity, still_wr, still_wrB]

@[simp] theorem still_strapError : still (strapError b) = still b := by
  unfold strapError
  rw [still_raise, still_hostRecord]

@[simp] theorem still_readFieldStraps : still (readFieldStraps b) = still b := by
  unfold readFieldStraps
  dsimp only
  split
  · rw [still_strapError, still_showMode, still_formMode, still_wrB, still_forEach _ fun n _ => still_laneStop n, still_wr,
      still_wrB, still_wrB]
  · simp only [still_wr, still_wrB]

end Sys2Proof.Machine
end

section
/-!
SUPPORT. Heartbeats, the loss of a side and the barrier's channels (R18, R430, R433, R435): O42.
-/

namespace Sys2Proof.Machine

open Sys2Proof.Num

variable {b : Blk}

/-! Heartbeats (R18, R433). -/

theorem doHeartbeatSend_field (h : b.boot.field.held = false) :
    (doHeartbeatSend true b).io.out =
      b.io.out ++ [.heartbeat .fieldSide ((b.bar.cntF + 1) % 2 ^ 32) true (rd b FTIME.FCTL.FDOM)] := by
  unfold doHeartbeatSend
  rw [if_neg (by rw [sideOf]; simp [h])]
  rfl

theorem doHeartbeatSend_host (h : b.boot.host.held = false) :
    (doHeartbeatSend false b).io.out =
      b.io.out ++ [.heartbeat .hostSide ((b.bar.cntH + 1) % 2 ^ 32) (!b.bar.fieldLost) 0] := by
  unfold doHeartbeatSend
  rw [if_neg (by rw [sideOf]; simp [h])]
  rfl

theorem fieldBeat_bar (h : Bool) : (fieldBeat h b).bar.hostLost = false ∧ (fieldBeat h b).bar.peerHealthy = h := by
  have hstill : still (fieldBeat h b) = still { b with bar := { b.bar with hostLost := false, peerHealthy := h } } := by
    unfold fieldBeat
    extract_lets was x c d
    have hd : still d = still c := by
      unfold d
      split
      · rw [still_showFail, still_raise, still_wrB]
      · rfl
    split
    · exact hd
    · rw [still_failAssert, hd]
  have hbar := congrArg Blk.bar hstill
  exact ⟨congrArg BarSt.hostLost hbar, congrArg BarSt.peerHealthy hbar⟩

theorem hostBeat_of (d : Nat) : (hostBeat d b).bar.fieldLost = false ∧ (hostBeat d b).time.hostFdom = d := by
  have hstill : still (hostBeat d b) =
      still { b with bar := { b.bar with fieldLost := false }, time := { b.time with hostFdom := d } } := by
    unfold hostBeat
    dsimp only
    split
    · rw [still_showFail, still_raise, still_readFieldStraps, still_wrB]
    · rfl
  exact ⟨congrArg (fun c => c.bar.fieldLost) hstill, congrArg (fun c => c.time.hostFdom) hstill⟩

/-! The loss of a side (R18). -/

/-- The pages that the ramps of a lost host show themselves on. -/
def lossPages : List Nat := [pgSYS, pgRED, pgDBK, pgCE]

theorem outside_setState {i : Nat} (hi : i < 16) (p : Nat) : outside lossPages (setState i p b) = outside lossPages b := by
  unfold setState setP
  split
  · exact outside_setSlot ..
  · refine outside_wr ?_
    have hpage : (CE.SLOT.STATE.PSTATE i).a / 0x1000 * 0x1000 = pgCE := by
      simp only [CE.SLOT.STATE.PSTATE, pgCE]
      omega
    rw [hpage]
    decide

theorem outside_rampDown {i : Nat} (hi : i < 16) : outside lossPages (rampDown i b) = outside lossPages b := by
  have hpage : (CE.SLOT.OUT.U i).a / 0x1000 * 0x1000 = pgCE := by
    simp only [CE.SLOT.OUT.U, pgCE]
    omega
  unfold rampDown
  rw [outside_setState hi, outside_wrU (by rw [hpage]; decide), outside_setSlot]

theorem outside_rampAll : outside lossPages (rampAll b) = outside lossPages b := by
  unfold rampAll
  rw [outside_forEach, outside_forEach]
  · intro g _ c
    dsimp only
    split
    · split
      · rfl
      · exact outside_setMod ..
    · rfl
  · intro i hi c
    split
    · exact outside_rampDown (List.mem_range.1 hi)
    · rfl

theorem outside_failAssert_loss (cause : Nat) : outside lossPages (failAssert cause b) = outside lossPages b :=
  outside_mono (by decide) (outside_failAssert cause)

theorem outside_isOn {pgs : List Nat} {c : Blk} (h : outside pgs c = outside pgs b) {F : Fld} (hF : F.a / 0x1000 * 0x1000 ∉ pgs) :
    isOn c F = isOn b F := by
  unfold isOn rd
  rw [outside_wordOf h hF]

/-- The field side shows the loss of the host. -/
theorem doSideLost_field (h : b.bar.hostLost = false) :
    (doSideLost true b).bar.hostLost = true ∧ isOn (doSideLost true b) FBAR.FSTAT.HOST_LOST = true := by
  have hkept (c : Blk) :
      outside lossPages (failAssert 1 (rampAll (fieldRecord 2 [0] c))) = outside lossPages c := by
    rw [outside_failAssert_loss, outside_rampAll]
    exact outside_emit _
  simp only [doSideLost, h, Bool.false_eq_true, if_true, if_false]
  refine ⟨?_, ?_⟩
  · rw [outside_bar (hkept _)]
    simp
  · rw [outside_isOn (hkept _) (by decide), isOn_raise_ne (by decide)]
    exact isOn_wrB_same (by decide) (by decide) true

/-- The host shows the loss of the field side. -/
theorem doSideLost_host (h : b.bar.fieldLost = false) :
    (doSideLost false b).bar.fieldLost = true ∧ isOn (doSideLost false b) BAR.BSTAT.FIELD_LOST = true := by
  have hcause (c : Blk) : outside failPages (wr (setSync false (setActive false c)) RED.PSTAT.FAIL_CAUSE 2) = outside failPages c := by
    rw [outside_wr (by decide), outside_setSync, outside_setActive]
  have hkept : outside failPages (doSideLost false b) = outside failPages
      (raise pgBAR 0 (wrB { b with bar := { b.bar with fieldLost := true } } BAR.BSTAT.FIELD_LOST true)) := by
    simp only [doSideLost, h, Bool.false_eq_true, if_false]
    refine .trans ?_ (outside_hostRecord (code := 0x0002) (perm := true) (p := [1]) (by decide))
    exact outside_ite (hcause _) rfl
  refine ⟨?_, ?_⟩
  · rw [outside_bar hkept]
    simp
  · rw [outside_isOn hkept (by decide), isOn_raise_ne (by decide)]
    exact isOn_wrB_same (by decide) (by decide) true

/-! Channels (R430). -/

theorem showDegraded_rd (f : Bool) {F : Fld} (hF : F.lo + F.w ≤ 30) : rd (showDegraded f b) F = rd b F := by
  cases f with
  | true => exact rd_wr_ne (.inr (.inl hF))
  | false => exact rd_wr_ne (.inr (.inl hF))

/-- A bit written below DEGRADED still reads after DEGRADED and an event are shown. -/
theorem rdBit_shown {f up : Bool} {F : Fld} {pg n k : Nat} (ha : F.a ≠ pg + 0x20) (hF : F.lo + F.w ≤ 30) (hk : k < F.w) :
    rdBit (raise pg n (showDegraded f (wrBit b F k up))) F k = up := by
  rw [rdBit, rd_raise_ne ha, showDegraded_rd f hF]
  exact (rdBit_wrBit (by omega) hk).trans (if_pos rfl)

/-- A channel going down or coming up sets its bit among the channels up of its side and direction. -/
theorem doChannel_shows {f t up : Bool} {c : Fin 4} :
    rdBit (doChannel f t c.val up b) (if f then FBAR.FSTAT.UP else if t then BAR.BSTAT.TX_UP else BAR.BSTAT.RX_UP)
      (if f && !t then 4 + c.val else c.val) = up := by
  have hc := c.isLt
  have hfield : ∀ k, k < 8 → rdBit (raise pgFBAR 0 (showDegraded true (wrBit b FBAR.FSTAT.UP k up))) FBAR.FSTAT.UP k = up :=
    fun k hk => rdBit_shown (by decide) (by decide) hk
  have htx : rdBit (raise pgBAR (if up then 3 else 2) (showDegraded false (wrBit b BAR.BSTAT.TX_UP c.val up)))
      BAR.BSTAT.TX_UP c.val = up := rdBit_shown (by decide) (by decide) hc
  have hrx : rdBit (raise pgBAR (if up then 3 else 2) (showDegraded false (wrBit b BAR.BSTAT.RX_UP c.val up)))
      BAR.BSTAT.RX_UP c.val = up := rdBit_shown (by decide) (by decide) hc
  cases f <;> cases t <;>
    simp only [doChannel, Bool.false_eq_true, Bool.true_and, Bool.false_and, Bool.not_true, Bool.not_false, if_true, if_false]
  case true.true => exact hfield c.val (by omega)
  case true.false => exact hfield (4 + c.val) (by omega)
  case false.true => exact htx
  case false.false => exact hrx

end Sys2Proof.Machine
end

section
/-!
SUPPORT. Counts of the barrier, and its answers to register requests (R23, R435, R436): O42.
-/

namespace Sys2Proof.Machine

open Sys2Proof.Num Sys2Proof.Stated

variable {b : Blk}

/-! Counts (R435). -/

theorem rd_incSat {F : Fld} (hF : F.lo + F.w ≤ 32) : rd (incSat b F) F = min (2 ^ F.w - 1) (rd b F + 1) := by
  have hlt : satU F.w (rd b F + 1) < 2 ^ F.w :=
    (satU_le _ _).trans_lt (Nat.sub_lt (Nat.two_pow_pos _) Nat.one_pos)
  rw [incSat, rd_wr_same hF, Nat.mod_eq_of_lt hlt, satU, min_comm]

theorem rd_raise_incSat {F : Fld} {pg k : Nat} (hF : F.lo + F.w ≤ 32) (ha : F.a ≠ pg + 0x20) :
    rd (raise pg k (incSat b F)) F = min (2 ^ F.w - 1) (rd b F + 1) := by
  rw [rd_raise_ne ha, rd_incSat hF]

theorem dropReasm_rd (f : Bool) :
    rd (dropReasm f b) (if f then FBAR.DROP_B.REASM else BAR.DROP_B.REASM) =
      min 255 (rd b (if f then FBAR.DROP_B.REASM else BAR.DROP_B.REASM) + 1) := by
  cases f with
  | true => exact rd_raise_incSat (by decide) (by decide)
  | false => exact rd_raise_incSat (by decide) (by decide)

/-! What is sent. -/

/-- An event sends nothing but its own forwarding to the host. -/
theorem raise_out (pg k : Nat) :
    (raise pg k b).io.out = b.io.out ∨ ∃ n v, (raise pg k b).io.out = b.io.out ++ [.evtFwd n v] := by
  unfold raise raiseHw
  split
  · dsimp only
    split
    · exact .inr ⟨fieldEventNo pg k, fwdRaw (wrBit b (hRAW pg) k true), by simp⟩
    · exact .inl (by simp)
  · exact .inl rfl

theorem mem_out_raise {m : Msg} {pg k : Nat} (h : m ∈ b.io.out) : m ∈ (raise pg k b).io.out := by
  rcases raise_out (b := b) pg k with ho | ⟨n, v, ho⟩
  · rwa [ho]
  · rw [ho]
    exact List.mem_append_left _ h

theorem answers_raise (pg k : Nat) : answers (raise pg k b) = answers b := by
  unfold answers
  rcases raise_out (b := b) pg k with ho | ⟨n, v, ho⟩
  · rw [ho]
  · simp [ho]

/-! Answers (R436, R443). -/

theorem regAnswer_sends (tag page status : Nat) (l : List Nat) :
    Msg.regRsp tag status l ∈ (regAnswer tag page status l b).io.out := by
  unfold regAnswer
  dsimp only
  split
  · simp
  · exact mem_out_raise (by simp)

/-- A refused request is counted, and its status shown. -/
theorem regAnswer_refused {tag page status : Nat} {l : List Nat} (h : status ≠ 0) (hs : status < 256) :
    rd (regAnswer tag page status l b) FBAR.REFUSED.COUNT = min 65535 (rd b FBAR.REFUSED.COUNT + 1) ∧
      rd (regAnswer tag page status l b) FBAR.REFUSED.STATUS = status := by
  unfold regAnswer
  rw [if_neg h]
  constructor
  · rw [rd_raise_ne (by decide), rd_wr_ne (by decide), rd_wr_ne (by decide)]
    exact rd_incSat (by decide)
  · rw [rd_raise_ne (by decide), rd_wr_same (by decide)]
    exact Nat.mod_eq_of_lt hs

/-! Requests (R435 to R437). -/

theorem doRegRd_malformed {tag page off count rsv : Nat} (h : count = 0 ∨ 64 < count ∨ rsv ≠ 0) :
    doRegRd tag page off count rsv b = dropType true b := if_pos h

theorem reqForm_named {page count : Byte} {off : BitVec 16} (h : reqForm page off count) :
    ¬((pageAt (0x100000 + page.toNat * 0x1000)).isNone = true ∨ off.toNat % 4 ≠ 0 ∨ 0x1000 < off.toNat + 4 * count.toNat) := by
  obtain ⟨-, -, hpage, halign, hend⟩ := h
  rw [hpage]
  simp only [Bool.false_eq_true, false_or]
  omega

/-- A read of a form R433 allows is answered by the permission for the page. -/
theorem doRegRd_formed {tag : Nat} {page count : Byte} {off : BitVec 16} (h : reqForm page off count) :
    doRegRd tag page.toNat off.toNat count.toNat 0 b =
      if permBit b (0x100000 + page.toNat * 0x1000) 0 = true then
        regAnswer tag page.toNat 0 (readRegs (0x100000 + page.toNat * 0x1000) off.toNat count.toNat b).2
          (readRegs (0x100000 + page.toNat * 0x1000) off.toNat count.toNat b).1
      else regAnswer tag page.toNat 2 [] b := by
  obtain ⟨hzero, hmax, -⟩ := id h
  have hcount : ¬(count.toNat = 0 ∨ 64 < count.toNat ∨ (0 : Nat) ≠ 0) := by omega
  unfold doRegRd
  dsimp only
  rw [if_neg hcount, if_neg (reqForm_named h)]
  cases permBit b (0x100000 + page.toNat * 0x1000) 0 <;> rfl

theorem dropType_drops : answers (dropType true b) = answers b ∧
    rd (dropType true b) FBAR.DROP_A.TYPE = min 65535 (rd b FBAR.DROP_A.TYPE + 1) := by
  refine ⟨(answers_raise _ _).trans ?_, rd_raise_incSat (by decide) (by decide)⟩
  simp [answers]

theorem hostUnlock_red (pg : Nat) : (hostUnlock pg b).red = b.red := rfl

/-- A write none of whose words waits is answered at once. -/
theorem wrAnswer_now {tag page status : Nat} {b0 c : Blk}
    (h : ¬(b0.red.writes.length < c.red.writes.length ∨ b0.red.mine.length < c.red.mine.length)) :
    wrAnswer tag page status b0 c = regAnswer tag page status [] c := by
  obtain ⟨hwrites, hmine⟩ := not_or.1 h
  unfold wrAnswer
  dsimp only
  rw [if_neg hwrites, if_neg hmine]

/-- The answer to a write whose last word waits goes with that word. -/
theorem wrAnswer_waits {tag page status : Nat} {b0 c : Blk} {w : LateWrite} (h : b0.red.writes.length < c.red.writes.length)
    (hw : c.red.writes.getLast? = some w) :
    (wrAnswer tag page status b0 c).red.writes.getLast? = some { w with rsp := some (tag, page, status) } ∧
      (wrAnswer tag page status b0 c).io.out = c.io.out := by
  unfold wrAnswer
  dsimp only
  rw [if_pos h]
  exact ⟨by simp [setRed, lateRsp, hw], rfl⟩

theorem unlockedWhere_red (pg : Nat) (t : Byte) : (if t.toNat = 1 then hostUnlock pg b else b).red = b.red := by
  split
  · exact hostUnlock_red pg
  · rfl

/-! Writes of a form R433 allows, whose unlock the page grants. -/

section

variable {tag : Nat} {page count attr : Byte} {off : BitVec 16} {d : List Word} (h : reqForm page off count)
  (hd : d.length = count.toNat) (ht : attr.toNat ≤ 1)
  (hu : attr.toNat = 1 → unlockRule b (0x100000 + page.toNat * 0x1000) = 0)
include h hd ht hu

/-- The words are written, and the request is answered. -/
theorem doRegWr_formed : doRegWr tag page.toNat off.toNat count.toNat attr.toNat 0 d b =
    wrAnswer tag page.toNat (wroteRegs b page off attr d).2
      (if attr.toNat = 1 then hostUnlock (0x100000 + page.toNat * 0x1000) b else b) (wroteRegs b page off attr d).1 := by
  obtain ⟨hzero, hmax, -⟩ := id h
  have hcount : ¬(count.toNat = 0 ∨ 64 < count.toNat ∨ (0 : Nat) ≠ 0 ∨ 1 < attr.toNat ∨ d.length ≠ count.toNat) := by omega
  have hlock : ¬(if attr.toNat = 1 then unlockRule b (0x100000 + page.toNat * 0x1000) else 0) ≠ 0 := by
    split
    · exact not_not.2 (hu ‹_›)
    · exact not_not.2 rfl
  unfold doRegWr
  dsimp only
  rw [if_neg hcount, if_neg (reqForm_named h), if_neg hlock]

theorem doRegWr_answered (hw : wordsWait b page off attr d = false) :
    Msg.regRsp tag (wroteRegs b page off attr d).2 [] ∈
      (doRegWr tag page.toNat off.toNat count.toNat attr.toNat 0 d b).io.out := by
  rw [doRegWr_formed h hd ht hu, wrAnswer_now]
  · exact regAnswer_sends ..
  · rw [unlockedWhere_red]
    exact of_decide_eq_false hw

theorem doRegWr_waits {w : LateWrite} (hlen : b.red.writes.length < (wroteRegs b page off attr d).1.red.writes.length)
    (hw : (wroteRegs b page off attr d).1.red.writes.getLast? = some w) :
    (doRegWr tag page.toNat off.toNat count.toNat attr.toNat 0 d b).red.writes.getLast? =
        some { w with rsp := some (tag, page.toNat, (wroteRegs b page off attr d).2) } ∧
      (doRegWr tag page.toNat off.toNat count.toNat attr.toNat 0 d b).io.out = (wroteRegs b page off attr d).1.io.out := by
  rw [doRegWr_formed h hd ht hu]
  exact wrAnswer_waits (by rwa [unlockedWhere_red]) hw

end

end Sys2Proof.Machine
end

section
/-!
SUPPORT. The host's rings (R439, R441): O42.
-/

namespace Sys2Proof.Machine

open Sys2Proof.Num Sys2Proof.Stated

variable {b : Blk}

/-! The receive ring. -/

/-- The pages a message for a ring shows itself on. -/
def ringPages : List Nat := pgBAR :: streamPages

theorem outside_streamRead_ring (iova len : Nat) :
    outside ringPages (streamRead b 34 iova len).blk = outside ringPages b :=
  outside_mono (by decide) (outside_streamRead (by decide) iova len)

theorem outside_streamWrite_ring (iova : Nat) (l : List Byte) :
    outside ringPages (streamWrite b 34 iova l).1 = outside ringPages b :=
  outside_mono (by decide) (outside_streamWrite (by decide) iova l)

theorem outside_barFull : outside ringPages (barFull b) = outside ringPages b := by
  unfold barFull
  rw [outside_raise (by decide), outside_incSat (by decide)]

theorem outside_barReceive (type : Nat) (l : List Byte) : outside ringPages (barReceive type l b) = outside ringPages b := by
  unfold barReceive
  dsimp only
  split
  · exact outside_barFull
  split
  · rw [outside_raise (by decide), outside_streamRead_ring]
  split
  · rw [outside_barFull, outside_streamRead_ring]
  split
  · rw [outside_raise (by decide), outside_streamWrite_ring, outside_streamRead_ring]
  split
  · rw [outside_raise (by decide), outside_streamWrite_ring, outside_streamWrite_ring, outside_streamRead_ring]
  · rw [outside_raise (by decide), outside_wr (by decide), outside_streamWrite_ring, outside_streamWrite_ring,
      outside_streamRead_ring]

theorem rd_streamRead {F : Fld} (hF : F.a / 0x1000 * 0x1000 ∉ streamPages) (iova len : Nat) :
    rd (streamRead b 34 iova len).blk F = rd b F :=
  congrArg F.of (outside_wordOf (outside_streamRead (by decide) iova len) hF)

theorem rd_streamWrite {F : Fld} (hF : F.a / 0x1000 * 0x1000 ∉ streamPages) (iova : Nat) (l : List Byte) :
    rd (streamWrite b 34 iova l).1 F = rd b F :=
  congrArg F.of (outside_wordOf (outside_streamWrite (by decide) iova l) hF)

/-- A message that finds a free descriptor moves the head of the ring on. -/
theorem barReceive_head {type : Nat} {l : List Byte} (h : barAccepts b type l) :
    rd (barReceive type l b) BAR.RX_HEAD.HEAD = (rd b BAR.RX_HEAD.HEAD + 1) % rd b BAR.RX_RING.SIZE := by
  obtain ⟨hsize, ⟨hcause, hbad, hown⟩, hstore, hback⟩ := h
  have hlt : rd b BAR.RX_RING.SIZE < 2 ^ 16 := rd_lt _
  have hnext : ringNext (rd b BAR.RX_RING.SIZE) (rd b BAR.RX_HEAD.HEAD) < 2 ^ 16 :=
    (Nat.mod_lt _ (by omega)).trans (by omega)
  have hfree : ¬((barRead b).bad.isSome = true ∨ (!((barRead b).bytes.getD 11 0).toNat.testBit 7) = true) := by
    rw [hbad, hown]
    decide
  unfold barReceive
  dsimp only
  rw [if_neg hsize, if_neg (not_not.2 hcause), if_neg hfree, if_neg (not_not.2 hstore),
    if_neg (not_not.2 hback), rd_raise_ne (by decide), rd_wr_same (by decide), rd_streamWrite (by decide),
    rd_streamWrite (by decide), rd_streamRead (by decide)]
  exact (Nat.mod_eq_of_lt hnext).trans (by rw [ringNext, max_eq_right (by omega)])

theorem doRegRsp_head {tag status : Byte} {d : List Word} (h : barAccepts b 3 (rspBytes tag status d)) :
    rd (doRegRsp tag.toNat status.toNat (d.map (·.toNat)) b) BAR.RX_HEAD.HEAD =
      (rd b BAR.RX_HEAD.HEAD + 1) % rd b BAR.RX_RING.SIZE := by
  unfold doRegRsp
  dsimp only
  split
  · rw [rd_raise_ne (by decide), barReceive_head h]
  · rw [barReceive_head h]

theorem doMeterRecord_head {l : List Byte} (h : barAccepts b 0x0C l) :
    rd (doMeterRecord l b) BAR.RX_HEAD.HEAD = (rd b BAR.RX_HEAD.HEAD + 1) % rd b BAR.RX_RING.SIZE :=
  (rd_raise_ne (by decide)).trans (barReceive_head h)

theorem doTallySnap_snap (l : List Byte) :
    (doTallySnap l b).factor.snap = (milli l 80, milli l 84, ofLE ((l.drop 72).take 8) / 1000, ofLE ((l.drop 60).take 4)) := by
  unfold doTallySnap
  dsimp only
  rw [raise_factor, outside_factor (outside_barReceive ..)]

/-! The transmit ring. -/

/-- The word of TX_RING, which the endpoint does not write. -/
theorem barSendOne_ring : wordOf (barSendOne b).1 BAR.TX_RING.TAIL.a = wordOf b BAR.TX_RING.TAIL.a := by
  have hread (c : Blk) (iova len : Nat) :
      wordOf (streamRead c 34 iova len).blk BAR.TX_RING.TAIL.a = wordOf c BAR.TX_RING.TAIL.a :=
    outside_wordOf (outside_streamRead (by decide) iova len) (by decide)
  have hwrite (c : Blk) (iova : Nat) (l : List Byte) :
      wordOf (streamWrite c 34 iova l).1 BAR.TX_RING.TAIL.a = wordOf c BAR.TX_RING.TAIL.a :=
    outside_wordOf (outside_streamWrite (by decide) iova l) (by decide)
  have hraise (c : Blk) (k : Nat) : wordOf (raise pgBAR k c) BAR.TX_RING.TAIL.a = wordOf c BAR.TX_RING.TAIL.a :=
    wordOf_raise (by decide)
  unfold barSendOne
  extract_lets size a r len type p b₁ ok b₂ d
  have hr : wordOf r.blk BAR.TX_RING.TAIL.a = wordOf b BAR.TX_RING.TAIL.a := by
    simp only [r, hread]
  have hp : wordOf p.blk BAR.TX_RING.TAIL.a = wordOf b BAR.TX_RING.TAIL.a := by
    simp only [p, hread, hr]
  have h₁ : wordOf b₁ BAR.TX_RING.TAIL.a = wordOf b BAR.TX_RING.TAIL.a := by
    simp only [b₁]
    split
    · rw [hraise, wordOf_incSat (by decide), hp]
    · exact hp
  have h₂ : wordOf b₂ BAR.TX_RING.TAIL.a = wordOf b BAR.TX_RING.TAIL.a := by
    simp only [b₂]
    split
    · rw [wordOf_emit, h₁]
    · exact h₁
  have hd : wordOf d.1 BAR.TX_RING.TAIL.a = wordOf b BAR.TX_RING.TAIL.a := by
    simp only [d, hwrite, h₂]
  clear_value r p b₁ b₂ d
  split
  · rw [hraise, hr]
  split
  · exact hr
  split
  · rw [hraise, hp]
  split
  · rw [hraise, hd]
  · rw [hraise, wordOf_wr_ne (by decide), hd]

theorem barSend_ring (n : Nat) : wordOf (barSend n b) BAR.TX_RING.TAIL.a = wordOf b BAR.TX_RING.TAIL.a := by
  induction n generalizing b with
  | zero => rfl
  | succ n ih =>
    unfold barSend
    dsimp only
    split
    · exact ih.trans barSendOne_ring
    · exact barSendOne_ring

theorem actTxRing_tail : rd (actTxRing b) BAR.TX_RING.TAIL = rd b BAR.TX_RING.TAIL := by
  unfold actTxRing
  dsimp only
  split
  · rfl
  · exact congrArg BAR.TX_RING.TAIL.of (barSend_ring _)

theorem regAct_txRing {c : Blk} (i : Init) (v : Nat) : regAct c i BAR.TX_RING.TAIL.a v b = actTxRing b := by
  unfold regAct
  dsimp only
  rw [if_neg (by decide), if_neg (by decide), if_neg (by decide), if_neg (by decide), if_neg (by decide),
    if_neg (by decide), if_neg (by decide), if_pos rfl]

theorem regWriteNow_txRing (i : Init) (v : Word) :
    regWriteNow i false BAR.TX_RING.TAIL.a v b = writeNow i false BAR.TX_RING.TAIL.a v (regAct b i BAR.TX_RING.TAIL.a) b := by
  unfold regWriteNow
  dsimp only
  rw [if_neg (by decide), if_neg (by decide), if_neg (by decide), if_neg (by decide), if_neg (by decide),
    if_neg (by decide), if_neg (by decide)]

/-- A TX_RING.TAIL written stays as the endpoint works through the ring. -/
theorem regWrite_txRing {i : Init} {v : Word} (h : Accepts b i BAR.TX_RING.TAIL.a v) :
    rd (regWrite i BAR.TX_RING.TAIL.a v b) BAR.TX_RING.TAIL = BAR.TX_RING.TAIL.of v := by
  have htaken : rd (writeOf b i BAR.TX_RING.TAIL.a v).blk BAR.TX_RING.TAIL = BAR.TX_RING.TAIL.of v :=
    writeOf_rd_plain (l₁ := []) (f := RegForm.fd 16 16 .rw .any) (l₂ := [RegForm.fd 0 16 .rw (.range 0 4096)]) h
      (by decide) (by decide) (by decide) ⟨.inl rfl, rfl, by rfl, by decide⟩
  unfold regWrite
  rw [if_neg (by rw [h.1]; decide), regWriteNow_txRing, writeNow_accepted h, regAct_txRing, actTxRing_tail, htaken]

end Sys2Proof.Machine
end

section
/-!
SUPPORT. The barrier's statement, from its heartbeats, channels, register requests and rings: O42.
-/

namespace Sys2Proof.Machine

open Sys2Proof.Num Sys2Proof.Stated

/-- Settles O42: what each message of the barrier, each loss of a side and each register request leaves shown and sent. -/
theorem barrierCommands : Obligations.BarrierCommands := by
  refine ⟨fun s h => ?_, fun s h => ?_, fun g h d s => ?_, fun g h d s => ?_, fun s h => ?_, fun s h => ?_,
    fun f t c s => ?_, fun f t c s => ?_, fun f s => ?_, fun g p o n s hform hperm => ?_,
    fun g p o n t d s hform hd ht hu hw => ?_, fun g p o n t d w s hform hd ht hu hlen hw => ?_,
    fun g p o n v s h => ?_, fun g p o n s hform hperm => ?_, fun g t d s h => ?_, fun l s => ?_, fun l s h => ?_,
    fun i v s ha => ?_⟩
  · exact completes_run (f := doHeartbeatSend true) rfl (doHeartbeatSend_field h)
  · exact completes_run (f := doHeartbeatSend false) rfl (doHeartbeatSend_host h)
  · exact completes_run (f := doHeartbeat true true false g h (b2n d)) rfl (fieldBeat_bar h)
  · exact completes_run (f := doHeartbeat false true false g h (b2n d)) rfl (hostBeat_of (b2n d))
  · exact completes_run (f := doSideLost true) rfl (doSideLost_field h)
  · exact completes_run (f := doSideLost false) rfl (doSideLost_host h)
  · exact completes_run (f := doChannel f t c.val false) rfl doChannel_shows
  · exact completes_run (f := doChannel f t c.val true) rfl doChannel_shows
  · exact completes_run (f := dropReasm f) rfl (dropReasm_rd f)
  · refine completes_run (f := doRegRd g.toNat p.toNat o.toNat n.toNat 0) rfl ?_
    rw [doRegRd_formed hform, if_pos hperm]
    exact regAnswer_sends ..
  · exact completes_run (f := doRegWr g.toNat p.toNat o.toNat n.toNat t.toNat 0 d) rfl (doRegWr_answered hform hd ht hu hw)
  · exact completes_run (f := doRegWr g.toNat p.toNat o.toNat n.toNat t.toNat 0 d) rfl (doRegWr_waits hform hd ht hu hlen hw)
  · refine completes_run (f := doRegRd g.toNat p.toNat o.toNat n.toNat v.toNat) rfl ?_
    rw [doRegRd_malformed (h.imp_right (.imp_right fun hv hz => hv (BitVec.eq_of_toNat_eq hz)))]
    exact dropType_drops
  · refine completes_run (f := doRegRd g.toNat p.toNat o.toNat n.toNat 0) rfl ?_
    rw [doRegRd_formed hform, if_neg (by rw [hperm]; decide)]
    exact ⟨regAnswer_sends .., regAnswer_refused (by decide) (by decide)⟩
  · have he : exec (.regRsp g t d) s = run (doRegRsp g.toNat t.toNat (d.map (·.toNat))) s := rfl
    exact completes_run he (doRegRsp_head h)
  · exact completes_run (f := doTallySnap l) rfl (doTallySnap_snap l)
  · exact completes_run (f := doMeterRecord l) rfl (doMeterRecord_head h)
  · exact completes_run (f := regWrite i BAR.TX_RING.TAIL.a v) rfl (regWrite_txRing ha)

end Sys2Proof.Machine
end

section
/-!
SUPPORT. A write that some field refuses (R35, R534): it is counted and shown on its page, and the bits of the register that
it did not take stay: O60.
-/

namespace Sys2Proof.Machine

open Sys2Proof.Num

variable {b : Blk} {i : Init} {u : Bool} {pg off : Nat} {v : Word}

/-! A rejection. -/

theorem isOn_reject_shown : isOn (reject b pg) (hWRREJ pg) = true :=
  isOn_wrB_same (F := hWRREJ pg) (by simp [hWRREJ]) (by simp [hWRREJ]) true

theorem rd_reject_count : rd (reject b pg) (hREJCNT pg) = min (rd b (hREJCNT pg) + 1) 255 := by
  have hcount := rd_incSat (b := b) (F := hREJCNT pg) (by simp [hREJCNT])
  unfold reject wrB
  rw [rd_wr_ne (.inr (.inr (by simp [hREJCNT, hWRREJ]))), hcount, min_comm]
  rfl

/-! The calibration check of R181 beside a write. -/

/-- The row of CAL_STAT has no field that firmware may write, so that a write of it changes no calibration field. -/
theorem calStat_row {p : PageRow} {r : RegRow} {n k : Nat} (ha : pg + off = MTR.CAL_STAT.CAL_OK.a) (hpg : pg % 0x1000 = 0)
    (hoff : off < 0x1000) (hp : pageAt pg = some (p, n)) (hr : rowAt p off = some (r, k)) :
    (r.fields.any fun f => f.acc == .rwx) = false := by
  have hpage : pg = pgMTR := by simp only [MTR.CAL_STAT.CAL_OK] at ha; simp only [pgMTR]; omega
  have hrow : fieldsAt MTR.CAL_STAT.CAL_OK.a = some r.fields :=
    fieldsAt_eq (p := p) (n := n) (k := k) (by rw [← hp, hpage]; rfl)
      (by rw [← hr, show off = 0x54 by simp only [MTR.CAL_STAT.CAL_OK] at ha; simp only [pgMTR] at hpage; omega]; rfl)
  have hnone : (fieldsAt MTR.CAL_STAT.CAL_OK.a).all (fun l => !l.any fun f => f.acc == .rwx) = true := by decide
  simpa [hrow] using hnone

theorem wordOf_calTouch_ne {r : RegRow} {old new : Word} {c : Nat} (hc : c ≠ MTR.CAL_STAT.CAL_OK.a) :
    wordOf (calTouch pg r old new b) c = wordOf b c := by
  unfold calTouch
  split
  · exact wordOf_wr_ne hc
  · rfl

/-- The check leaves the register written, which is CAL_STAT only where nothing of the calibration changes. -/
theorem wordOf_calTouch_own {p : PageRow} {r : RegRow} {n k : Nat} {old new : Word} (hpg : pg % 0x1000 = 0)
    (hoff : off < 0x1000) (hp : pageAt pg = some (p, n)) (hr : rowAt p off = some (r, k)) :
    wordOf (calTouch pg r old new b) (pg + off) = wordOf b (pg + off) := by
  by_cases ha : pg + off = MTR.CAL_STAT.CAL_OK.a
  · have hnone := calStat_row ha hpg hoff hp hr
    have hsame : (r.fields.any fun f => f.acc == .rwx && Fld.of ⟨0, f.lo, f.w⟩ old != Fld.of ⟨0, f.lo, f.w⟩ new) = false := by
      simp only [List.any_eq_false] at hnone ⊢
      exact fun f hf h => hnone f hf (Bool.and_eq_true_iff.1 h).1
    unfold calTouch
    rw [if_neg (by simp [hsame])]
  · exact wordOf_calTouch_ne ha

/-! The word judged field by field. -/

/-- A field put into a word leaves every bit outside the field's. -/
theorem Fld.ins_getLsbD_of_mask {F : Fld} {x : Word} {n k : Nat} (hk : ((2 ^ F.w - 1) * 2 ^ F.lo).testBit k = false) :
    (F.ins x n).getLsbD k = x.getLsbD k := by
  have hout : ¬(F.lo ≤ k ∧ k - F.lo < F.w ∧ k < 32) := by
    rintro ⟨hlo, hw, -⟩
    rw [Nat.mul_comm, Nat.testBit_two_pow_mul, Nat.testBit_two_pow_sub_one] at hk
    simp [hlo, hw] at hk
  exact (Fld.ins_bit F x n k).trans (if_neg hout)

/-- A step over a field takes no bit back, and a bit it leaves untaken keeps its value. -/
theorem fieldStep_untaken {x : Word × Nat × Nat} {f : FieldRow} {k : Nat}
    (h : (fieldStep b i u pg off v x f).2.1.testBit k = false) :
    x.2.1.testBit k = false ∧ (fieldStep b i u pg off v x f).1.getLsbD k = x.1.getLsbD k := by
  have hput {n m : Nat} (hbits : (n ||| (2 ^ f.w - 1) * 2 ^ f.lo).testBit k = false) :
      n.testBit k = false ∧ (Fld.ins ⟨0, f.lo, f.w⟩ x.1 m).getLsbD k = x.1.getLsbD k := by
    rw [Nat.testBit_or, Bool.or_eq_false_iff] at hbits
    exact ⟨hbits.1, Fld.ins_getLsbD_of_mask hbits.2⟩
  revert h
  unfold fieldStep
  dsimp only
  split
  · exact fun h => ⟨h, rfl⟩
  split
  · exact fun h => ⟨h, rfl⟩
  split
  · exact fun h => ⟨(hput (m := 0) h).1, rfl⟩
  · exact fun h => hput h
  · split
    · exact fun h => hput h
    · exact fun h => ⟨h, rfl⟩

/-- The bits of a register that no field took are those before. -/
theorem foldl_fieldStep_untaken {x : Word × Nat × Nat} {k : Nat} (l : List FieldRow)
    (h : (l.foldl (fieldStep b i u pg off v) x).2.1.testBit k = false) :
    x.2.1.testBit k = false ∧ (l.foldl (fieldStep b i u pg off v) x).1.getLsbD k = x.1.getLsbD k := by
  induction l generalizing x with
  | nil => exact ⟨h, rfl⟩
  | cons f l ih =>
    obtain ⟨hrest, hword⟩ := ih h
    obtain ⟨hfirst, hstep⟩ := fieldStep_untaken hrest
    exact ⟨hfirst, hword.trans hstep⟩

/-! What is rejected. -/

/-- The rule of a page answers an access error only for the metrology core's pages. -/
theorem metOnly_of_pageRule (h : pageRule b i pg off = 1) : metOnly pg = true := by
  by_contra hmet
  unfold pageRule at h
  rw [if_neg fun hctrl => hmet hctrl.2] at h
  split_ifs at h <;> exact absurd h (by decide)

/-- A refused write of an existing page comes to a rejection of one of three: by the control core's place, which takes
nothing and raises an FSYS event; by a rule of the page, which takes nothing; by a field, after the others were stored. -/
theorem storeWord_refused (hside : i.side.key = pg / 0x100000 * 0x100000) (hpage : (pageAt pg).isSome = true)
    (hs : (storeWord b i u pg off v).status ≠ 0) :
    (metOnly pg = true ∧ (storeWord b i u pg off v).blk = answer (raise pgFSYS 1 (reject (touchPage i pg b) pg)) .busError) ∨
    (storeWord b i u pg off v).blk = answer (reject (touchPage i pg b) pg) .rejected ∨
    ∃ p n r k, pageAt pg = some (p, n) ∧ rowAt p off = some (r, k) ∧
      (storeWord b i u pg off v).mask = (judged b i u pg off v r).2.1 ∧
      (storeWord b i u pg off v).blk =
        answer (reject (calTouch pg r (wordOf b (pg + off)) (judged b i u pg off v r).1
          (setWord (touchPage i pg b) (pg + off) (judged b i u pg off v r).1)) pg) .rejected := by
  revert hs
  unfold storeWord
  rw [if_neg (not_not.2 hside)]
  split
  · rename_i hp
    rw [hp] at hpage
    exact absurd hpage (by decide)
  rename_i p n hp
  dsimp only
  split
  · exact fun _ => .inl ⟨metOnly_of_pageRule ‹_›, rfl⟩
  split
  · exact fun _ => .inr (.inl rfl)
  split
  · exact fun h => absurd rfl h
  split
  · exact fun h => absurd rfl h
  rename_i r k hr
  split
  · exact fun h => absurd rfl h
  · exact fun _ => .inr (.inr ⟨p, n, r, k, hp, hr, rfl, rfl⟩)

theorem metOnly_ne_fsys (h : metOnly pg = true) : pg ≠ pgFSYS := by
  rintro rfl
  exact absurd h (by decide)

/-- What the three ways of a refused write show of a block: a rejection on the page of what was stored, and nothing of it
taken back. -/
theorem storeWord_rejects (hpg : pg % 0x1000 = 0) (hoff : off < 0x1000) (hne : off ≠ 0x10)
    (hside : i.side.key = pg / 0x100000 * 0x100000) (hpage : (pageAt pg).isSome = true)
    (hs : (storeWord b i u pg off v).status ≠ 0) :
    ∃ c, (∀ F : Fld, F.a = pg + 0x10 → rd (storeWord b i u pg off v).blk F = rd (reject c pg) F) ∧
      wordOf c (pg + 0x10) = wordOf b (pg + 0x10) ∧
      ∀ k, (storeWord b i u pg off v).mask.testBit k = false →
        (wordOf (storeWord b i u pg off v).blk (pg + off)).getLsbD k = (wordOf b (pg + off)).getLsbD k := by
  have hown : pg + off ≠ pg + 0x10 := by omega
  rcases storeWord_refused hside hpage hs with ⟨hmet, hb⟩ | hb | ⟨p, n, r, k, hp, hr, hm, hb⟩
  · have hfsys := metOnly_ne_fsys hmet
    have hraw (o : Nat) (ho : o < 0x1000) : pg + o ≠ (hRAW pgFSYS).a := by
      simp only [hRAW, pgFSYS] at hfsys ⊢
      omega
    refine ⟨touchPage i pg b, fun F hF => ?_, rfl, fun k _ => ?_⟩
    · rw [hb, answer_rd, rd_raise_ne (hF ▸ hraw _ (by decide))]
    · rw [hb, answer_wordOf, wordOf_raise (hraw _ hoff), wordOf_reject hown]
      rfl
  · refine ⟨touchPage i pg b, fun F _ => by rw [hb, answer_rd], rfl, fun k _ => ?_⟩
    rw [hb, answer_wordOf, wordOf_reject hown]
    rfl
  · refine ⟨_, fun F _ => by rw [hb, answer_rd], ?_, fun k hk => ?_⟩
    · rw [wordOf_calTouch_ne (by simp only [MTR.CAL_STAT.CAL_OK]; omega), wordOf_setWord_ne hown.symm]
      rfl
    · rw [hm] at hk
      rw [hb, answer_wordOf, wordOf_reject hown, wordOf_calTouch_own hpg hoff hp hr, wordOf_setWord_same]
      exact (foldl_fieldStep_untaken r.fields hk).2

/-- Settles O60: in each of the three ways a write is refused it ends in a rejection, and no bit but a taken one changes. -/
theorem rejectedWrites : Obligations.RejectedWrites := by
  intro b i u pg off v hpg hoff hne hside hpage hs
  obtain ⟨c, hrej, hcount, hbits⟩ := storeWord_rejects hpg hoff hne hside hpage hs
  refine ⟨?_, ?_, fun k _ => hbits k⟩
  · rw [isOn, hrej (hWRREJ pg) rfl]
    exact isOn_reject_shown
  · rw [hrej (hREJCNT pg) rfl, rd_reject_count]
    exact congrArg (fun w => min ((hREJCNT pg).of w + 1) 255) hcount

end Sys2Proof.Machine
end

section
/-!
SUPPORT. The words a block holds at some keys, and the operations that leave them.
-/

namespace Sys2Proof.Machine

open Sys2Proof.Num

variable {b c : Blk} {l : List Nat}

/-- The words a block holds at the keys of a list. -/
def wordsOf (l : List Nat) (b : Blk) : List Word := l.map (wordOf b)

theorem wordsOf_eq_iff : wordsOf l c = wordsOf l b ↔ ∀ a ∈ l, wordOf c a = wordOf b a := List.map_inj_left

theorem wordOf_of_wordsOf (h : wordsOf l c = wordsOf l b) {a : Nat} (ha : a ∈ l) : wordOf c a = wordOf b a :=
  wordsOf_eq_iff.1 h a ha

theorem rd_of_wordsOf (h : wordsOf l c = wordsOf l b) {F : Fld} (hF : F.a ∈ l) : rd c F = rd b F :=
  congrArg F.of (wordOf_of_wordsOf h hF)

theorem isOn_of_wordsOf (h : wordsOf l c = wordsOf l b) {F : Fld} (hF : F.a ∈ l) : isOn c F = isOn b F := by
  simp only [isOn, rd_of_wordsOf h hF]

theorem rd64_of_wordsOf (h : wordsOf l c = wordsOf l b) {F : Fld} (hlo : F.a ∈ l) (hhi : F.a + 4 ∈ l) :
    rd64 c F = rd64 b F := by
  simp only [rd64, wordOf_of_wordsOf h hlo, wordOf_of_wordsOf h hhi]

/-! Operations that write no register. -/

theorem wordsOf_of_regs (h : c.regs = b.regs) : wordsOf l c = wordsOf l b :=
  wordsOf_eq_iff.2 fun a _ => congrArg (Tab.at' resetWord · a) h

@[simp] theorem wordsOf_setHouse (h : HouseSt) : wordsOf l { b with house := h } = wordsOf l b := rfl

/-! Writes of registers that are not among the keys. -/

theorem wordsOf_setWord {a : Nat} {w : Word} (h : a ∉ l) : wordsOf l (setWord b a w) = wordsOf l b :=
  wordsOf_eq_iff.2 fun _ hx => wordOf_setWord_ne (ne_of_mem_of_not_mem hx h)

theorem wordsOf_wr {F : Fld} {v : Nat} (h : F.a ∉ l) : wordsOf l (wr b F v) = wordsOf l b := wordsOf_setWord h
theorem wordsOf_wrB {F : Fld} {v : Bool} (h : F.a ∉ l) : wordsOf l (wrB b F v) = wordsOf l b := wordsOf_wr h
theorem wordsOf_wrU {F : Fld} {v : Nat} (h : F.a ∉ l) : wordsOf l (wrU b F v) = wordsOf l b := wordsOf_wr h
theorem wordsOf_wrS {F : Fld} {v : Int} (h : F.a ∉ l) : wordsOf l (wrS b F v) = wordsOf l b := wordsOf_wr h
theorem wordsOf_incSat {F : Fld} {n : Nat} (h : F.a ∉ l) : wordsOf l (incSat b F n) = wordsOf l b := wordsOf_wr h
theorem wordsOf_incWrap {F : Fld} {n : Nat} (h : F.a ∉ l) : wordsOf l (incWrap b F n) = wordsOf l b := wordsOf_wr h

theorem wordsOf_wr64 {F : Fld} {v : Nat} (hlo : F.a ∉ l) (hhi : F.a + 4 ∉ l) : wordsOf l (wr64 b F v) = wordsOf l b :=
  (wordsOf_setWord hhi).trans (wordsOf_setWord hlo)

theorem wordsOf_raise {pg k : Nat} (h : pg + 0x20 ∉ l) : wordsOf l (raise pg k b) = wordsOf l b :=
  wordsOf_eq_iff.2 fun _ hx => wordOf_raise (ne_of_mem_of_not_mem hx h)

theorem wordsOf_hostRecord {code : Nat} {perm : Bool} {p : List Byte} (h : DBK.DSTAT.QUEUE.a ∉ l) :
    wordsOf l (hostRecord code perm p b) = wordsOf l b :=
  wordsOf_eq_iff.2 fun _ hx => wordOf_hostRecord (ne_of_mem_of_not_mem hx h)

/-! Guards and repetitions. -/

theorem wordsOf_ite {p : Prop} [Decidable p] {d : Blk} (hc : wordsOf l c = wordsOf l b) (hd : wordsOf l d = wordsOf l b) :
    wordsOf l (if p then c else d) = wordsOf l b := by
  split
  · exact hc
  · exact hd

theorem wordsOf_when {f : Blk → Blk} (x : Bool) (h : wordsOf l (f b) = wordsOf l b) :
    wordsOf l (when x f b) = wordsOf l b := wordsOf_ite h rfl

theorem wordsOf_forEach {α : Type} {f : α → Blk → Blk} (xs : List α)
    (h : ∀ x ∈ xs, ∀ c, wordsOf l (f x c) = wordsOf l c) : wordsOf l (forEach xs f b) = wordsOf l b :=
  forEach_rel (P := fun c => wordsOf l c = wordsOf l b) xs (fun x hx c hc => (h x hx c).trans hc) rfl

end Sys2Proof.Machine
end

section
/-!
SUPPORT. Events cleared, forwarded, claimed and completed (R31, R471, R472): O41.
-/

namespace Sys2Proof.Machine

open Sys2Proof.Num Sys2Proof.Stated

variable {b : Blk} {i : Init} {pg off : Nat} {v : Word}

/-! EVT_CLR (R31). -/

theorem side_key_aligned (s : Side) : s.key % 0x1000 = 0 := by cases s <;> rfl

/-- A write of the register at an offset of a page. -/
theorem writeOf_at (hpg : pg % 0x1000 = 0) (hoff : off < 0x1000) : writeOf b i (pg + off) v = storeWord b i false pg off v := by
  unfold writeOf
  rw [show (pg + off) / 0x1000 * 0x1000 = pg by omega, show (pg + off) % 0x1000 = off by omega]

/-- A write that is taken changes no word but the register's and CAL_STAT's. -/
theorem writeOf_wordOf_ne_calStat {a c : Nat} (h : Accepts b i a v) (hc : c ≠ a) (hcal : c ≠ MTR.CAL_STAT.CAL_OK.a) :
    wordOf (writeOf b i a v).blk c = wordOf b c := by
  obtain ⟨-, hs, hm, -⟩ := h
  obtain ⟨p, n, r, k, -, -, -, hb⟩ := storeWord_accepted hs hm
  have ha : a / 0x1000 * 0x1000 + a % 0x1000 = a := by omega
  rw [writeOf, hb, answer_wordOf, wordOf_calTouch_ne hcal, ha]
  exact wordOf_setWord_ne hc

/-- An event sets its bit of the raw register and no other. -/
theorem rdBit_raiseHw {j k : Nat} (hk : k < 32) :
    rdBit (raiseHw pg j b) (hRAW pg) k = (rdBit b (hRAW pg) k || decide (k = j)) := by
  have hset : rdBit (wrBit b (hRAW pg) j true) (hRAW pg) k = (rdBit b (hRAW pg) k || decide (k = j)) := by
    rw [rdBit_wrBit (by simp [hRAW]) hk]
    by_cases hj : k = j <;> simp [hj]
  unfold raiseHw
  dsimp only
  split
  · exact hset
  · exact hset

theorem rdBit_forEach_raiseHw {k : Nat} (hk : k < 32) (l : List Nat) :
    rdBit (forEach l (fun j => raiseHw pg j) b) (hRAW pg) k = (rdBit b (hRAW pg) k || l.contains k) := by
  induction l generalizing b with
  | nil => simp [forEach]
  | cons j l ih =>
    have hrest := ih (b := raiseHw pg j b)
    rw [rdBit_raiseHw hk] at hrest
    refine Eq.trans hrest ?_
    by_cases hj : k = j <;> simp [hj]

/-- A register whose bits `v` are cleared. -/
theorem rdBit_clear {F : Fld} {v k : Nat} (hF : F.lo + F.w ≤ 32) (hk : k < F.w) :
    rdBit (wr b F (rd b F - (rd b F &&& v))) F k = (rdBit b F k && !v.testBit k) := by
  rw [rdBit, rd_wr_same hF, Nat.testBit_mod_two_pow, sub_and_testBit]
  simp [hk, rdBit]

/-- EVT_CLR clears the bits written, and the events of the same cycle win. -/
theorem actEvtClr_bits {v same k : Nat} (hk : k < 32) :
    rdBit (actEvtClr pg v same b) (hRAW pg) k = ((rdBit b (hRAW pg) k && !v.testBit k) || same.testBit k) := by
  unfold actEvtClr
  dsimp only
  rw [rdBit_forEach_raiseHw hk, rdBit_clear (by simp [hRAW]) hk]
  simp [List.contains_eq_mem, mem_bitsOf, hk]

theorem doEventClear_accepted {p : Nat} {e : Word} (h : Accepts b i (i.side.key + p * 0x1000 + 0x28) v) :
    doEventClear i p v e b =
      actEvtClr (i.side.key + p * 0x1000) v.toNat
        (if enabled b (i.side.key + p * 0x1000) then e.toNat &&& eventMask (i.side.key + p * 0x1000) else 0)
        (writeOf b i (i.side.key + p * 0x1000 + 0x28) v).blk := by
  have hpg : (i.side.key + p * 0x1000) % 0x1000 = 0 := by
    rw [Nat.add_mul_mod_self_right]
    exact side_key_aligned _
  obtain ⟨hnow, -, -, hv⟩ := h
  rw [writeOf_at hpg (by decide)] at hv
  unfold doEventClear
  dsimp only
  rw [if_neg (by rw [hnow]; decide), hv, writeOf_at hpg (by decide)]

theorem doEventClear_bits {p k : Nat} {e : Word} (h : Accepts b i (i.side.key + p * 0x1000 + 0x28) v) (hk : k < 32) :
    rdBit (doEventClear i p v e b) (hRAW (i.side.key + p * 0x1000)) k =
      ((rdBit b (hRAW (i.side.key + p * 0x1000)) k && !v.toNat.testBit k) ||
        (enabled b (i.side.key + p * 0x1000) &&
          (e.toNat &&& eventMask (i.side.key + p * 0x1000)).testBit k)) := by
  have hraw : rdBit (writeOf b i (i.side.key + p * 0x1000 + 0x28) v).blk (hRAW (i.side.key + p * 0x1000)) k =
      rdBit b (hRAW (i.side.key + p * 0x1000)) k := by
    have hkey := side_key_aligned i.side
    unfold rdBit rd
    rw [writeOf_wordOf_ne_calStat h (by simp only [hRAW]; omega) (by simp only [hRAW, MTR.CAL_STAT.CAL_OK]; omega)]
  rw [doEventClear_accepted h, actEvtClr_bits hk, hraw]
  cases enabled b (i.side.key + p * 0x1000) <;> simp

/-! Forwarded events (R472, R488). -/

theorem setSide_regs (f : Bool) (x : SideSt) : (setSide f x b).regs = b.regs := by cases f <;> rfl

/-- The registers that show forwarded events and the host's warning. -/
def forwardKeys : List Nat := [EVC.FWD_RAW.RAW.a, EVC.FWD_CFG.LAST.a, PMU.PFSTAT.WARN.a]

theorem doEvtFwd_shows {n raw : Nat} (hn : n < 256) (hraw : raw < 2 ^ 32) :
    rd (doEvtFwd n raw b) EVC.FWD_RAW.RAW = rd b EVC.FWD_RAW.RAW ||| raw ∧ rd (doEvtFwd n raw b) EVC.FWD_CFG.LAST = n := by
  have hor : rd b EVC.FWD_RAW.RAW ||| raw < 2 ^ 32 := Nat.or_lt_two_pow (rd_lt _) hraw
  unfold doEvtFwd incWrap
  constructor
  · rw [rd_wr_ne (by decide), rd_wr_ne (by decide), rd_wr_same (by decide)]
    exact Nat.mod_eq_of_lt hor
  · rw [rd_wr_same (by decide)]
    exact Nat.mod_eq_of_lt hn

/-- A host key slot's registers lie on SRM. -/
theorem forwardKeys_slot {n o s lo w : Nat} (hn : n < 64) (ho : 0x28000 ≤ o) :
    (sFld n ⟨o + s, lo, w⟩).a ∉ forwardKeys := by
  rw [sFld, if_pos hn]
  simp only [forwardKeys, EVC.FWD_RAW.RAW, EVC.FWD_CFG.LAST, PMU.PFSTAT.WARN, List.mem_cons, List.not_mem_nil, or_false]
  omega

theorem wordsOf_forward_setKey {n : Nat} {k : KeySlot} (hn : n < 64) :
    wordsOf forwardKeys (setKey n k b) = wordsOf forwardKeys b := by
  have hslots (t : Tab KeySlot) : wordsOf forwardKeys { b with srm := { b.srm with slots := t } } = wordsOf forwardKeys b := rfl
  unfold setKey showSlot
  simp (disch := exact forwardKeys_slot hn (by decide)) only [SRM.SLOT.SATTR.PARENT, SRM.SLOT.SATTR.TYPE,
    SRM.SLOT.SATTR.ENGINE, SRM.SLOT.SATTR.USAGE, SRM.SLOT.SATTR.STATE, SRM.SLOT.KEY_ID.KEY_ID, SRM.SLOT.SGEN.GEN,
    SRM.SLOT.PGEN.PGEN, wordsOf_wr, hslots]

theorem wordsOf_forward_srmAbandon {n : Nat} (res : Nat) (hn : n < 64) :
    wordsOf forwardKeys (srmAbandon n res b) = wordsOf forwardKeys b := by
  unfold srmAbandon sRaise sResult sZeroised
  dsimp only
  split
  · simp only [if_pos hn]
    rw [wordsOf_raise (by decide), wordsOf_wrB (by decide), wordsOf_wr (by decide), wordsOf_wr (by decide),
      wordsOf_incSat (by decide), wordsOf_forward_setKey hn]
  · rfl

theorem wordsOf_forward_daybookSeal : wordsOf forwardKeys (daybookSeal b) = wordsOf forwardKeys b := by
  have hdb (d : DbSt) : wordsOf forwardKeys { b with daybook := d } = wordsOf forwardKeys b := rfl
  have hdropped : wordsOf forwardKeys (recordDropped b) = wordsOf forwardKeys b := by
    unfold recordDropped
    split
    · rfl
    · dsimp only
      rw [wordsOf_hostRecord (by decide), hdb]
  unfold daybookSeal
  split
  · rfl
  · dsimp only
    rw [wordsOf_wrB (by decide)]
    exact Eq.trans rfl hdropped

/-- What a host warning does beside showing its cause leaves the registers it and the forwarded events are shown in. -/
theorem doHostWarning_keeps :
    wordsOf forwardKeys (doHostWarning true 0 b) = wordsOf forwardKeys b ∧ isOn b PMU.PFSTAT.WARN = true ∨
    wordsOf forwardKeys (doHostWarning true 0 b) =
      wordsOf forwardKeys (wrB (wrB (wrB b PMU.PFSTAT.WARN true) PMU.PFSTAT.REDUCED true) PMU.PFSTAT.BY_FWD true) := by
  unfold doHostWarning
  split
  · rename_i h
    exact .inl ⟨rfl, h.resolve_right fun h => absurd h.1 (by decide)⟩
  · refine .inr ?_
    extract_lets b₁ b₂ side b₃ boot memory b₄
    have hcause : wordsOf forwardKeys b₃ = wordsOf forwardKeys b₂ := wordsOf_of_regs (setSide_regs ..)
    have hevent : wordsOf forwardKeys b₄ = wordsOf forwardKeys b₃ := by
      refine (wordsOf_raise (by decide)).trans ?_
      clear_value b₃
      exact wordsOf_of_regs rfl
    rw [wordsOf_forward_daybookSeal,
      wordsOf_forEach _ fun n hn c => wordsOf_forward_srmAbandon 10 (List.mem_range.1 hn), hevent, hcause]
    rfl

theorem doHostWarning_shows :
    rd (doHostWarning true 0 b) EVC.FWD_RAW.RAW = rd b EVC.FWD_RAW.RAW ∧
      rd (doHostWarning true 0 b) EVC.FWD_CFG.LAST = rd b EVC.FWD_CFG.LAST ∧
      isOn (doHostWarning true 0 b) PMU.PFSTAT.WARN = true := by
  rcases doHostWarning_keeps (b := b) with ⟨hsame, hwarn⟩ | hset
  · exact ⟨rd_of_wordsOf hsame (by decide), rd_of_wordsOf hsame (by decide),
      (isOn_of_wordsOf hsame (by decide)).trans hwarn⟩
  · refine ⟨(rd_of_wordsOf hset (by decide)).trans ?_, (rd_of_wordsOf hset (by decide)).trans ?_,
      (isOn_of_wordsOf hset (by decide)).trans ?_⟩
    · exact (rd_wr_ne (by decide)).trans ((rd_wr_ne (by decide)).trans (rd_wr_ne (by decide)))
    · exact (rd_wr_ne (by decide)).trans ((rd_wr_ne (by decide)).trans (rd_wr_ne (by decide)))
    · rw [isOn_wrB_ne (by decide), isOn_wrB_ne (by decide)]
      exact isOn_wrB_same (by decide) (by decide) true

/-- EVT_FWD shows what it carries; field event 122 brings the warning. -/
theorem evtFwd_shows (e : Fin 128) (v : Word) :
    rd (when (decide (e = 122)) (doHostWarning true 0) (doEvtFwd e.val v.toNat b)) EVC.FWD_RAW.RAW =
        rd b EVC.FWD_RAW.RAW ||| v.toNat ∧
      rd (when (decide (e = 122)) (doHostWarning true 0) (doEvtFwd e.val v.toNat b)) EVC.FWD_CFG.LAST = e.val ∧
      (e.val = 122 →
        isOn (when (decide (e = 122)) (doHostWarning true 0) (doEvtFwd e.val v.toNat b)) PMU.PFSTAT.WARN = true) := by
  obtain ⟨hraw, hlast⟩ := doEvtFwd_shows (b := b) (e.isLt.trans (by decide)) v.isLt
  by_cases he : e = 122
  · rw [decide_eq_true he, when_true]
    obtain ⟨hsraw, hslast, hwarn⟩ := doHostWarning_shows (b := doEvtFwd e.val v.toNat b)
    exact ⟨hsraw.trans hraw, hslast.trans hlast, fun _ => hwarn⟩
  · rw [decide_eq_false he, when_false]
    exact ⟨hraw, hlast, fun hval => absurd (Fin.ext hval) he⟩

/-! CLAIM and COMPLETE (R471). -/

theorem svcOf_setSvc (f : Bool) (c cur : Nat) (l : List (Nat × Nat)) :
    svcOf (setSvc f c cur l b) (if f then 4 + c else c) = l := by
  simp [svcOf, setSvc, Tab.at'_put_same]

theorem svcOf_answer (r : Resp) (c : Nat) : svcOf (answer b r) c = svcOf b c := rfl

theorem rd_setSvc_cur (f : Bool) (c cur : Nat) (l : List (Nat × Nat)) :
    rd (setSvc f c cur l b) ⟨coreReg f c + 0xC, 0, 5⟩ = cur % 32 := rd_wr_same (Nat.le_of_ble_eq_true rfl)

/-! What a core may claim rests on registers and on the events in service, and not on shadows. -/

section

variable (p : Nat) (f : Bool)

theorem rd_dropShadow (F : Fld) : rd (dropShadow i p b) F = rd b F := rfl
theorem svcOf_dropShadow (c : Nat) : svcOf (dropShadow i p b) c = svcOf b c := rfl

theorem effPrio_dropShadow : effPrio (dropShadow i p b) f = effPrio b f := rfl

theorem pendingEv_dropShadow (n : Nat) : pendingEv (dropShadow i p b) f n = pendingEv b f n := by
  simp only [pendingEv, rdBit, rd_dropShadow]

theorem curLevel_dropShadow (c : Nat) : curLevel (dropShadow i p b) f c = curLevel b f c := rd_dropShadow _ _

theorem eligible_dropShadow (c : Nat) : eligible (dropShadow i p b) f c = eligible b f c := by
  simp only [eligible, pendingEv_dropShadow, effPrio_dropShadow, curLevel_dropShadow, evTarget, inService, rd_dropShadow,
    svcOf_dropShadow]

end

/-- A claim of a core takes the eligible event of highest priority into service. -/
theorem doClaim_takes {c n : Nat} (hi : i ≠ .host) (hc : onField i = false ∨ c < 2)
    (hbusy : isOn b (hBUSY (if onField i then pgFEVC else pgEVC)) = false)
    (hbest : bestBy (fun x y => decide (effPrio b (onField i) x < effPrio b (onField i) y)) (eligible b (onField i) c) = some n) :
    (doClaim i c b).io.resp = .value (BitVec.ofNat 32 (2 ^ 31 + effPrio b (onField i) n * 256 + n)) ∧
      svcOf (doClaim i c b) (coreNo i c) = (n, curLevel b (onField i) c) :: svcOf b (coreNo i c) := by
  have hunit : ¬(onField i = true ∧ 2 ≤ c) := by
    rintro ⟨hf, h2⟩
    rcases hc with hc | hc
    · simp [hc] at hf
    · omega
  revert hbusy hbest hunit
  unfold doClaim coreNo onField
  generalize decide (i.side = .fieldSide) = f
  intro hbusy hbest hunit
  have htakes : ¬(i = .host ∨ (f = true ∧ 2 ≤ c) ∨
      isOn (dropShadow i (if f then pgFEVC else pgEVC) b) (hBUSY (if f then pgFEVC else pgEVC)) = true) := by
    rw [dropShadow_isOn, hbusy]
    exact not_or.2 ⟨hi, not_or.2 ⟨hunit, by decide⟩⟩
  dsimp only
  rw [if_neg htakes]
  rw [effPrio_dropShadow, eligible_dropShadow, hbest]
  exact ⟨answer_resp .., (svcOf_answer ..).trans (svcOf_setSvc ..)⟩

theorem actComplete_ends {f : Bool} {c : Nat} {x : Nat × Nat} {l : List (Nat × Nat)}
    (h : svcOf b (if f then 4 + c else c) = x :: l) :
    svcOf (actComplete f c b) (if f then 4 + c else c) = l ∧
      rd (actComplete f c b) ⟨coreReg f c + 0xC, 0, 5⟩ = x.2 % 32 := by
  unfold actComplete
  rw [h]
  exact ⟨svcOf_setSvc .., rd_setSvc_cur ..⟩

@[simp] theorem writeOf_events {a : Nat} : (writeOf b i a v).blk.events = b.events := by
  obtain ⟨r, o, x, h⟩ := storeWord_eq b i false (a / 0x1000 * 0x1000) (a % 0x1000) v
  rw [writeOf, h]

end Sys2Proof.Machine
end

section
/-!
SUPPORT. Monitors (R474 to R477), and the statement of events and monitors: O41.
-/

namespace Sys2Proof.Machine

open Sys2Proof.Num Sys2Proof.Stated

variable {b c : Blk} {f : Bool} {m n : Nat}

/-! Accumulators. -/

theorem monOf_of_events (h : c.events = b.events) : monOf c f m = monOf b f m := by
  rw [monOf, h, monOf]

@[simp] theorem monOf_setMon_same (x : MonAcc) : monOf (setMon f m x b) f m = x := Tab.at'_put_same _ _ _ x

theorem monOf_setMon_ne (x : MonAcc) (h : m ≠ n) : monOf (setMon f n x b) f m = monOf b f m :=
  Tab.at'_put_ne _ _ (by split <;> omega) x

/-! Samples (R475, R476). -/

/-- A sample enters an enabled monitor that is not full. -/
theorem monTake_enters {x : Int} {re : Nat} (hen : enabled b (if f then pgFMON else pgMON) = true)
    (hon : isOn b ⟨monReg f m, 31, 1⟩ = true) (hroom : (monOf b f m).count ≠ 2 ^ 48 - 1) :
    (monOf (monTake f m x re b) f m).count = (monOf b f m).count + 1 ∧
      (monOf (monTake f m x re b) f m).sum = satS 64 ((monOf b f m).sum + x) ∧
      (monOf (monTake f m x re b) f m).least = min (monOf b f m).least x ∧
      (monOf (monTake f m x re b) f m).most = max (monOf b f m).most x ∧
      (monOf (monTake f m x re b) f m).restarts = min 65535 ((monOf b f m).restarts + re) := by
  unfold monTake
  extract_lets r pg a k lim breach a' b₁
  have hacc : monOf (if breach then raise pg (if f then 0 else m) (wrBit b₁ ⟨pg + 0x44, 0, 16⟩ m true) else b₁) f m = a' := by
    have hkeep : monOf (if breach then raise pg (if f then 0 else m) (wrBit b₁ ⟨pg + 0x44, 0, 16⟩ m true) else b₁) f m =
        monOf b₁ f m := by
      split
      · exact monOf_of_events (by simp)
      · rfl
    rw [hkeep]
    exact monOf_setMon_same a'
  rw [if_neg (by simp [pg, r, hen, hon]), if_neg hroom, hacc]
  exact ⟨rfl, rfl, rfl, rfl, min_comm _ _⟩

theorem doMonitorSample_off {x : Int} {re : Nat} (h : rd b ⟨monReg f m, 20, 4⟩ = 0 ∨ 3 < rd b ⟨monReg f m, 20, 4⟩) :
    doMonitorSample f m x re b = b := if_neg (by omega)

/-! SNAP (R477). -/

/-- A snapshot's word at one offset leaves the words at all others. -/
theorem wordOf_snapWord_ne {r o v a : Nat} (h : a ≠ r + o) : wordOf (snapWord r o v b) a = wordOf b a := wordOf_setWord_ne h

theorem wordOf_snapWord_same {r o v : Nat} : wordOf (snapWord r o v b) (r + o) = BitVec.ofNat 32 v := wordOf_setWord_same

theorem snapWord_events (r o v : Nat) : (snapWord r o v b).events = b.events := setWord_events ..

theorem forEach_snapWord_events {r : Nat} {o v : Nat → Nat} (l : List Nat) :
    (forEach l (fun k => snapWord r (o k) (v k)) b).events = b.events :=
  forEach_rel (P := fun c => c.events = b.events) l (fun _ _ _ hc => (snapWord_events ..).trans hc) rfl

/-- A copy with the accumulators cleared is the copy and then the clearing. -/
theorem snapOne_clr (clr : Bool) : snapOne f clr n b = when clr (setMon f n {}) (snapOne f false n b) := by
  cases clr <;> rfl

theorem wordOf_snapBins_ne {r a : Nat} {t : Tab Nat} (h : a < r + 0x40 ∨ r + 0xC0 ≤ a) :
    wordOf (forEach (List.range 32) (fun k => snapWord r (0x40 + 4 * k) (Tab.at' (fun _ => 0) t k)) b) a = wordOf b a := by
  refine forEach_rel (P := fun c => wordOf c a = wordOf b a) _ (fun k hk c hc => ?_) rfl
  have hlt := List.mem_range.1 hk
  exact (wordOf_snapWord_ne (by omega)).trans hc

@[simp] theorem wordOf_whenSetMon (clr : Bool) (x : MonAcc) (a : Nat) : wordOf (when clr (setMon f n x) b) a = wordOf b a := by
  cases clr <;> rfl

/-- A copy of a monitor writes its own words alone. -/
theorem wordOf_snapOne_ne {clr : Bool} {a : Nat} (h : a < monReg f n + 0x10 ∨ monReg f n + 0xC0 ≤ a) :
    wordOf (snapOne f clr n b) a = wordOf b a := by
  rw [snapOne_clr, wordOf_whenSetMon]
  unfold snapOne
  dsimp only
  rw [if_neg (by decide), wordOf_snapBins_ne (by omega)]
  simp (disch := omega) only [wordOf_snapWord_ne]

theorem wordOf_snapOne_count {clr : Bool} :
    wordOf (snapOne f clr n b) (monReg f n + 0x10) = BitVec.ofNat 32 (monOf b f n).count := by
  rw [snapOne_clr, wordOf_whenSetMon]
  unfold snapOne
  dsimp only
  rw [if_neg (by decide), wordOf_snapBins_ne (by omega)]
  simp (disch := omega) only [wordOf_snapWord_ne]
  exact wordOf_snapWord_same

theorem snapOne_events : (snapOne f false n b).events = b.events := by
  rw [snapOne, if_neg (by decide)]
  simp only [forEach_snapWord_events, snapWord_events]

theorem monOf_snapOne_ne {clr : Bool} (h : m ≠ n) : monOf (snapOne f clr n b) f m = monOf b f m := by
  have hcopy : monOf (snapOne f false n b) f m = monOf b f m := by rw [monOf, snapOne_events, monOf]
  rw [snapOne_clr]
  cases clr with
  | false => rw [when_false, hcopy]
  | true => rw [when_true, monOf_setMon_ne _ h, hcopy]

theorem monOf_snapOne_clr : monOf (snapOne f true n b) f n = {} := by
  rw [snapOne_clr]
  exact monOf_setMon_same _

/-- The copies of other monitors leave a monitor and its copied count. -/
theorem forEach_snapOne_ne {clr : Bool} (l : List Nat) (h : m ∉ l) :
    wordOf (forEach l (snapOne f clr) b) (monReg f m + 0x10) = wordOf b (monReg f m + 0x10) ∧
      monOf (forEach l (snapOne f clr) b) f m = monOf b f m := by
  refine forEach_rel (P := fun c => wordOf c (monReg f m + 0x10) = wordOf b (monReg f m + 0x10) ∧
    monOf c f m = monOf b f m) l (fun n hn c ⟨hword, hmon⟩ => ?_) ⟨rfl, rfl⟩
  have hne : m ≠ n := fun he => h (he ▸ hn)
  exact ⟨(wordOf_snapOne_ne (by unfold monReg; omega)).trans hword, (monOf_snapOne_ne hne).trans hmon⟩

/-- Each monitor of a list without repetition is copied once, and cleared where asked. -/
theorem forEach_snapOne_copies {clr : Bool} {l : List Nat} (hl : l.Nodup) (hm : m ∈ l) :
    wordOf (forEach l (snapOne f clr) b) (monReg f m + 0x10) = BitVec.ofNat 32 (monOf b f m).count ∧
      (clr = true → monOf (forEach l (snapOne f clr) b) f m = {}) := by
  induction l generalizing b with
  | nil => exact absurd hm List.not_mem_nil
  | cons n l ih =>
    obtain ⟨hn, hl⟩ := List.nodup_cons.1 hl
    rcases List.mem_cons.1 hm with rfl | hm
    · obtain ⟨hword, hmon⟩ := forEach_snapOne_ne (b := snapOne f clr m b) (f := f) (clr := clr) l hn
      refine ⟨hword.trans wordOf_snapOne_count, fun hclr => hmon.trans ?_⟩
      subst hclr
      exact monOf_snapOne_clr
    · have hne : m ≠ n := fun he => hn (he ▸ hm)
      obtain ⟨hword, hmon⟩ := ih (b := snapOne f clr n b) hl hm
      rw [monOf_snapOne_ne hne] at hword
      exact ⟨hword, hmon⟩

theorem bitsOf_nodup (k n : Nat) : (bitsOf k n).Nodup := List.nodup_range.filter _

/-- SNAP copies the monitors it names. -/
theorem actSnap_copies {v : Nat} (hgo : v.testBit 31 = true) (hm : m < 16) (hbit : v.testBit m = true) :
    wordOf (actSnap f v b) (monReg f m + 0x10) = BitVec.ofNat 32 (monOf b f m).count ∧
      (v.testBit 30 = true → monOf (actSnap f v b) f m = {}) := by
  have hstamp (F : Fld) (t : Nat) : monOf (wr64 b F t) f m = monOf b f m := monOf_of_events (wr64_events ..)
  unfold actSnap
  rw [if_pos hgo]
  dsimp only
  obtain ⟨hword, hmon⟩ := forEach_snapOne_copies (f := f) (clr := v.testBit 30) (bitsOf_nodup 16 v) (mem_bitsOf.2 ⟨hm, hbit⟩)
    (b := wr64 b ⟨(if f then pgFMON else pgMON) + 0x48, 0, 32⟩ (if f then eFollow b else eHost b 0))
  rw [hstamp] at hword
  exact ⟨hword, hmon⟩

/-- Settles O41: each event command by its effect on the raw bits or the events in service, each monitor command by its
effect on the accumulators. -/
theorem eventsAndMonitors : Obligations.EventsAndMonitors := by
  refine ⟨fun i p v e s ha => ?_, fun n s h => ?_, fun e v s => ?_, fun i v s ha => ?_,
    fun i c n s hi hc hbusy hbest => ?_, fun i c e x l s ha hsvc => ?_, fun f m x r s hen hon hsrc hroom => ?_,
    fun f m x r s hsrc => ?_, fun i v s ha hgo => ?_⟩
  · exact completes_run (f := doEventClear i p.toNat v e) rfl fun k hk => doEventClear_bits ha hk
  · refine completes_run (f := doEvtFwdRepeat) rfl ?_
    simp [doEvtFwdRepeat, h]
  · exact completes_run (f := fun b => when (decide (e = 122)) (doHostWarning true 0) (doEvtFwd e.val v.toNat b)) rfl
      (evtFwd_shows e v)
  · refine completes_run (f := writeAct i false EVC.FWD_CLR.CLR.a v actFwdClr) rfl fun k hk => ?_
    rw [writeAct_accepted ha, actFwdClr, rdBit_clear (by decide) hk, rdBit, writeOf_rd_ne ha (by decide) (by decide), rdBit]
  · exact completes_run (f := doClaim i c.val) rfl (doClaim_takes hi hc hbusy hbest)
  · refine completes_run (f := writeAct i false (coreReg (onField i) c.val + 8) (e.setWidth 32) fun _ =>
      actComplete (onField i) c.val) rfl ?_
    rw [writeAct_accepted ha]
    refine actComplete_ends (Eq.trans ?_ hsvc)
    rw [svcOf, writeOf_events, svcOf]
  · refine completes_run (f := doMonitorSample f m.val x.toInt r.toNat) rfl ?_
    rw [doMonitorSample, if_pos hsrc]
    exact monTake_enters hen hon hroom
  · exact completes_run (f := doMonitorSample f m.val x.toInt r.toNat) rfl (doMonitorSample_off hsrc)
  · refine completes_run (f := writeAct i false ((if onField i then pgFMON else pgMON) + 0x40) v (actSnap (onField i))) rfl
      fun m hm hbit => ?_
    have hcopy := actSnap_copies (f := onField i) (b := (writeOf s.blk i ((if onField i then pgFMON else pgMON) + 0x40) v).blk)
      hgo hm hbit
    rw [monOf_of_events writeOf_events] at hcopy
    rw [writeAct_accepted ha]
    exact hcopy

end Sys2Proof.Machine
end

section
/-!
SUPPORT. What a command of the sealed partition finds: the checks of its frame, and the block it acts in (R223 to R225).
-/

namespace Sys2Proof.Machine

open Sys2Proof.Num Sys2Proof.Stated

variable {b c : Blk} {f : List Byte} {l : List Nat} {code : Nat}

/-! Values of a payload. -/

theorem ofLE_lt (l : List Byte) : ofLE l < 256 ^ l.length := by
  induction l with
  | nil => exact Nat.one_pos
  | cons x l ih =>
    have hx := x.isLt
    simp only [ofLE, List.length_cons, Nat.pow_succ]
    omega

theorem payAt_lt (p : List Byte) (o n : Nat) : payAt p o n < 256 ^ n :=
  (ofLE_lt _).trans_le (Nat.pow_le_pow_right (by decide) (List.length_take_le _ _))

theorem rd64_wr64_same {F : Fld} {v : Nat} (hv : v < 2 ^ 64) : rd64 (wr64 b F v) F = v := by
  unfold rd64 wr64
  rw [wordOf_setWord_same, wordOf_setWord_ne (by omega), wordOf_setWord_same, BitVec.toNat_ofNat, BitVec.toNat_ofNat]
  omega

/-! The checks of a frame (R223, R225). -/

theorem frameOk_payload (h : frameOk f = true) : payloadOk (payAt f 2 1) (framePay f) = true := by
  unfold frameOk at h
  simp only [Bool.and_eq_true] at h
  obtain ⟨⟨-, hpay⟩, -⟩ := h
  exact hpay

theorem frameOk_of_passes (h : (cmdCheck f b).1 = 0) : frameOk f = true := by
  cases hok : frameOk f with
  | true => rfl
  | false =>
    rw [cmdCheck, hok] at h
    simp at h

/-- A signed frame that passes the checks of a block passes them in every block with the same key, nonce and meter. -/
theorem cmdCheck_passes (hsigned : signedCode (payAt f 2 1) = true) (hkey : fverKey c = fverKey b)
    (hnonce : rd64 c CH.NONCE.NONCE = rd64 b CH.NONCE.NONCE) (hid : rd64 c CH.METER_ID.ID = rd64 b CH.METER_ID.ID)
    (h : (cmdCheck f b).1 = 0) : cmdCheck f c = (0, c) := by
  have hform := frameOk_of_passes h
  unfold cmdCheck at h ⊢
  rw [hkey]
  cases hk : fverKey b with
  | none => simp [hform, hsigned, hk] at h
  | some k =>
    simp only [hform, hsigned, hk] at h ⊢
    generalize Crypto.ecdsaVerify k _ _ = sigOk at h ⊢
    cases sigOk with
    | false => simp at h
    | true =>
      by_cases hn : payAt f 16 8 ≤ rd64 b CH.NONCE.NONCE
      · simp [hn] at h
      · by_cases hm : payAt f 8 8 = rd64 b CH.METER_ID.ID
        · simp [hnonce, hid, hn, hm]
        · simp [hn, hm] at h

/-! The block a command finds: the mailbox is free, and billing time has moved on to now (R225, R227). -/

/-- The block in which a frame of the mailbox is checked. -/
def received (b : Blk) : Blk := moveB (raise pgFBAR 1 (wrB b FBAR.MBX_STAT.BUSY false))

/-- The keys of the registers that show billing time. -/
def timeKeys : List Nat := [CH.HWM.H.a, CH.HWM.H.a + 4, CH.BTIME.B.a, CH.BTIME.B.a + 4, CH.CSTAT.RTC_TIME.a]

theorem wordsOf_moveB (hl : ∀ a ∈ timeKeys, a ∉ l) : wordsOf l (moveB b) = wordsOf l b := by
  simp only [timeKeys, List.forall_mem_cons] at hl
  obtain ⟨hhwm, hhwm', hb, hb', hcstat, -⟩ := hl
  unfold moveB
  split
  · unfold showTime
    rw [wordsOf_wrB hcstat, wordsOf_wr64 hhwm hhwm', wordsOf_wr64 hb hb']
    rfl
  · rfl

/-- The keys of the registers that receiving a frame writes. -/
def receiptKeys : List Nat := FBAR.MBX_STAT.BUSY.a :: (pgFBAR + 0x20) :: timeKeys

theorem wordsOf_received (hl : ∀ a ∈ receiptKeys, a ∉ l) : wordsOf l (received b) = wordsOf l b := by
  obtain ⟨hbusy, hraw, htime⟩ : _ ∧ _ ∧ ∀ a ∈ timeKeys, a ∉ l := by
    simpa only [receiptKeys, List.forall_mem_cons] using hl
  rw [received, wordsOf_moveB htime, wordsOf_raise hraw, wordsOf_wrB hbusy]

/-- The parts of a block beside its registers, its answers and the live state of its Counting House. -/
def untimed (b : Blk) : Blk := { b with regs := [], io := {}, house := { b.house with live := {} } }

theorem untimed_wr64 (F : Fld) (v : Nat) : untimed (wr64 b F v) = untimed b := rfl
theorem untimed_wrB (F : Fld) (v : Bool) : untimed (wrB b F v) = untimed b := rfl

theorem untimed_moveB : untimed (moveB b) = untimed b := by
  unfold moveB
  split
  · unfold showTime
    rw [untimed_wrB, untimed_wr64, untimed_wr64]
    rfl
  · rfl

theorem untimed_raise (pg k : Nat) : untimed (raise pg k b) = untimed b := by
  obtain ⟨r, o, h⟩ := raise_eq b pg k
  rw [h]
  rfl

theorem untimed_received : untimed (received b) = untimed b := by
  rw [received, untimed_moveB, untimed_raise, untimed_wrB]

theorem received_acc : (received b).acc = b.acc := (congrArg Blk.acc untimed_received :)
theorem received_srm : (received b).srm = b.srm := (congrArg Blk.srm untimed_received :)
theorem received_pend : (received b).house.pend = b.house.pend := (congrArg (·.house.pend) untimed_received :)
theorem received_tw : (received b).house.tw = b.house.tw := (congrArg (·.house.tw) untimed_received :)

/-! Billing time, as the command finds it. -/

/-- The keys of the registers that legal time and billing time rest on. -/
def clockKeys : List Nat :=
  [CH.CCTL.LEGAL_DOM.a, CH.CSTAT.TIMED.a, FTIME.FSTAT.A_SET.a, FTIME.FSTAT.B_SET.a, FTIME.RTC_STAT.RTC_SET.a]

theorem copySet_legalField_congr (hw : wordsOf l c = wordsOf l b) (hdom : CH.CCTL.LEGAL_DOM.a ∈ l)
    (hset : FTIME.FSTAT.A_SET.a ∈ l) : copySet c (legalField c) = copySet b (legalField b) := by
  have hfield : legalField c = legalField b := rd_of_wordsOf hw hdom
  rw [copySet, copySet, hfield]
  split
  · exact isOn_of_wordsOf hw hset
  · exact isOn_of_wordsOf hw hset

theorem billNow_congr (hw : wordsOf clockKeys c = wordsOf clockKeys b) (ht : c.time = b.time)
    (hh : c.house.live.h = b.house.live.h) : billNow c = billNow b := by
  have hfield : legalField c = legalField b := rd_of_wordsOf hw (by decide)
  have hset : copySet c (legalField b) = copySet b (legalField b) := by
    rw [← copySet_legalField_congr hw (by decide) (by decide), hfield]
  have hrtc := isOn_of_wordsOf hw (F := FTIME.RTC_STAT.RTC_SET) (by decide)
  simp only [billNow, legalL, hfield, hset, hrtc, eField, copyOf, ht, hh]

theorem moveB_h (b : Blk) : (moveB b).house.live.h =
    if isOn b CH.CSTAT.TIMED then max b.house.live.h (billNow b) else b.house.live.h := by
  unfold moveB
  split
  · rfl
  · rfl

/-- Freeing the mailbox does not move billing time. -/
theorem received_h : (received b).house.live.h = (moveB b).house.live.h := by
  have hw : wordsOf clockKeys (raise pgFBAR 1 (wrB b FBAR.MBX_STAT.BUSY false)) = wordsOf clockKeys b := by
    rw [wordsOf_raise (by decide), wordsOf_wrB (by decide)]
  have hhouse : (raise pgFBAR 1 (wrB b FBAR.MBX_STAT.BUSY false)).house = b.house := by simp
  have htime : (raise pgFBAR 1 (wrB b FBAR.MBX_STAT.BUSY false)).time = b.time := by simp
  rw [received, moveB_h, moveB_h, billNow_congr hw htime (congrArg (·.live.h) hhouse), hhouse,
    isOn_of_wordsOf hw (F := CH.CSTAT.TIMED) (by decide)]

/-! A signed frame is taken. -/

/-- The block a signed command acts in: its nonce is committed first (R225). -/
def authorised (b : Blk) : Blk := wr64 (received b) CH.NONCE.NONCE (payAt (mailFrame b) 16 8)

theorem fverKey_congr (h : c.srm = b.srm) : fverKey c = fverKey b := by
  have hslot : keySlot c 65 = keySlot b 65 := by rw [keySlot, keySlot, h]
  rw [fverKey, fverKey, hslot]

/-- A signed frame that passes every check acts in the block it has authorised and completes with RESULT 0. -/
theorem takeMail_passes {may : List Byte → Blk → Bool} {act : List Byte → Blk → Blk} (hp : mailPasses b code may)
    (hsigned : signedCode code = true) (hmay : may (framePay (mailFrame b)) (received b) = may (framePay (mailFrame b)) b) :
    takeMail code may act b = cmdDone code 0 (act (framePay (mailFrame b)) (authorised b)) := by
  obtain ⟨-, hbusy, hcode, hcheck, htw, hallowed⟩ := hp
  have hpass : cmdCheck (mailFrame b) (received b) = (0, received b) :=
    cmdCheck_passes (hcode ▸ hsigned) (fverKey_congr received_srm)
      (rd64_of_wordsOf (l := [CH.NONCE.NONCE.a, CH.NONCE.NONCE.a + 4]) (wordsOf_received (by decide)) (by decide)
        (by decide))
      (rd64_of_wordsOf (l := [CH.METER_ID.ID.a, CH.METER_ID.ID.a + 4]) (wordsOf_received (by decide)) (by decide)
        (by decide))
      hcheck
  have hfree : (received b).house.tw = none := received_tw.trans htw
  unfold takeMail
  simp only [hbusy, hcode, ← received.eq_1, hpass, hsigned, hfree, hmay, hallowed, ← authorised.eq_1]
  simp

end Sys2Proof.Machine
end

section
/-!
SUPPORT. What every signed command that passes shows when it is done (R225, R257).
-/

namespace Sys2Proof.Machine

open Sys2Proof.Num Sys2Proof.Stated

variable {b c : Blk} {l : List Nat} {code : Nat}

theorem cmdDone_ok : cmdDone code 0 b =
    incWrap (wr (wr b CH.CMD_STAT.CODE code) CH.CMD_STAT.RESULT 0) CH.CMD_STAT.COUNT := by
  rw [cmdDone]
  rfl

theorem wordsOf_cmdDone (hl : CH.CMD_STAT.CODE.a ∉ l) : wordsOf l (cmdDone code 0 b) = wordsOf l b := by
  have hres : CH.CMD_STAT.RESULT.a ∉ l := hl
  have hcount : CH.CMD_STAT.COUNT.a ∉ l := hl
  rw [cmdDone_ok, wordsOf_incWrap hcount, wordsOf_wr hres, wordsOf_wr hl]

@[simp] theorem cmdDone_house : (cmdDone code 0 b).house = b.house := by simp [cmdDone_ok, incWrap]
@[simp] theorem cmdDone_acc : (cmdDone code 0 b).acc = b.acc := by simp [cmdDone_ok, incWrap]

theorem cmdDone_code (h : code < 256) : rd (cmdDone code 0 b) CH.CMD_STAT.CODE = code := by
  rw [cmdDone_ok, incWrap, rd_wr_ne (by decide), rd_wr_ne (by decide), rd_wr_same (by decide)]
  exact Nat.mod_eq_of_lt h

theorem cmdDone_result : rd (cmdDone code 0 b) CH.CMD_STAT.RESULT = 0 := by
  rw [cmdDone_ok, incWrap, rd_wr_ne (by decide), rd_wr_same (by decide)]
  rfl

/-- The keys of the mailbox's state and of the nonce. -/
def mailKeys : List Nat := [FBAR.MBX_STAT.BUSY.a, CH.NONCE.NONCE.a, CH.NONCE.NONCE.a + 4]

theorem authorised_busy : isOn (authorised b) FBAR.MBX_STAT.BUSY = false := by
  have hnonce : wordsOf [FBAR.MBX_STAT.BUSY.a] (authorised b) = wordsOf [FBAR.MBX_STAT.BUSY.a] (received b) :=
    wordsOf_wr64 (by decide) (by decide)
  rw [isOn_of_wordsOf (hnonce.trans (wordsOf_moveB (by decide))) (by decide), isOn_raise_ne (by decide),
    isOn_wrB_same (by decide) (by decide)]

theorem authorised_nonce : rd64 (authorised b) CH.NONCE.NONCE = payAt (mailFrame b) 16 8 :=
  rd64_wr64_same (payAt_lt _ 16 8)

theorem enter_on {f : Blk → Blk} (h : houseOn b) : gated pgCH f b = f b := by
  obtain ⟨hen, hclk, hmet⟩ := h
  simp [gated, hen, hclk, hmet]

/-- A signed command that passes, and leaves the mailbox and the nonce as it found them, completes with RESULT 0 and the
frame's nonce stored. -/
theorem completes_signed {s : State} {instr : Instr} {i : Input} {may : List Byte → Blk → Bool}
    {act : List Byte → Blk → Blk} {P : Blk → Prop} (hp : mailPasses s.blk code may) (htakes : takesNow s.blk = true)
    (he : exec instr s = runIn 2 i (gated pgCH (takeMail code may act)) s)
    (hsigned : signedCode code = true) (hcode : code < 256)
    (hmay : may (framePay (mailFrame s.blk)) (received s.blk) = may (framePay (mailFrame s.blk)) s.blk)
    (hkeep : wordsOf mailKeys (act (framePay (mailFrame s.blk)) (authorised s.blk)) = wordsOf mailKeys (authorised s.blk))
    (hP : P (cmdDone code 0 (act (framePay (mailFrame s.blk)) (authorised s.blk)))) :
    Completes instr s fun b => mailDone b code ∧ rd64 b CH.NONCE.NONCE = payAt (mailFrame s.blk) 16 8 ∧ P b := by
  have hdone := (wordsOf_cmdDone (code := code) (by decide)).trans hkeep
  refine ⟨_, he.trans (runIn_now 2 i htakes), ?_⟩
  dsimp only
  rw [enter_on hp.1, takeMail_passes hp hsigned hmay]
  refine ⟨⟨?_, cmdDone_code hcode, cmdDone_result⟩, ?_, hP⟩
  · rw [isOn_of_wordsOf hdone (by decide), authorised_busy]
  · rw [rd64_of_wordsOf hdone (by decide) (by decide), authorised_nonce]

end Sys2Proof.Machine
end

section
/-!
SUPPORT. The registers billing leaves as they were: those of a block below the tallies, but for CH's events (chapter 10).
-/

namespace Sys2Proof.Machine

open Sys2Proof.Num

variable {b c : Blk} {l : List Nat}

/-! Operations on the Counting House's own state. -/

/-- The parts of a block beside its Counting House. -/
def unhoused (b : Blk) : Blk := { b with house := {} }

theorem wordsOf_of_unhoused (h : unhoused c = unhoused b) : wordsOf l c = wordsOf l b :=
  wordsOf_of_regs (congrArg Blk.regs h :)

theorem unhoused_forEach {α : Type} {f : α → Blk → Blk} (xs : List α) (h : ∀ x c, unhoused (f x c) = unhoused c) :
    unhoused (forEach xs f b) = unhoused b :=
  forEach_rel (P := fun c => unhoused c = unhoused b) xs (fun x _ c hc => (h x c).trans hc) rfl

@[simp] theorem unhoused_setHouse (h : HouseSt) : unhoused { b with house := h } = unhoused b := rfl
@[simp] theorem unhoused_setLive (h : HouseCore) : unhoused (setLive h b) = unhoused b := rfl
@[simp] theorem unhoused_setB (t : Nat) : unhoused (setB t b) = unhoused b := rfl
@[simp] theorem unhoused_noteFired (n : Nat) : unhoused (noteFired n b) = unhoused b := rfl
@[simp] theorem unhoused_commit : unhoused (commit b) = unhoused b := rfl
@[simp] theorem unhoused_markFlags (m : Nat) : unhoused (markFlags m b) = unhoused b := rfl
@[simp] theorem unhoused_openParts (t flags : Nat) : unhoused (openParts t flags b) = unhoused b := rfl
@[simp] theorem unhoused_openSub (t flags : Nat) : unhoused (openSub t flags b) = unhoused b := by
  rw [openSub, unhoused_openParts, unhoused_setHouse, unhoused_setLive]

@[simp] theorem unhoused_enqueue (r : AedRec) : unhoused (enqueue r b) = unhoused b := by
  unfold enqueue
  split
  · rfl
  dsimp only
  split
  · rfl
  · rfl

@[simp] theorem unhoused_issue (type meter flags qual t : Nat) (body : List Byte) :
    unhoused (issue type meter flags qual t body b) = unhoused b := unhoused_enqueue _

@[simp] theorem unhoused_issueEvent (type t a0 a1 : Nat) (a2 : Int) (a3 : Nat) :
    unhoused (issueEvent type t a0 a1 a2 a3 b) = unhoused b := unhoused_issue ..

@[simp] theorem unhoused_resetTotals (t m qty base : Nat) : unhoused (resetTotals t m qty base b) = unhoused b :=
  unhoused_issue ..

@[simp] theorem unhoused_runDue (lim : Nat) : unhoused (runDue lim b) = unhoused b := by
  unfold runDue
  dsimp only
  rw [unhoused_forEach _ fun e c => by rw [unhoused_enqueue, unhoused_markFlags], unhoused_setHouse]

@[simp] theorem unhoused_eventNow (mark flags type a0 a1 : Nat) (a2 : Int) (a3 : Nat) :
    unhoused (eventNow mark flags type a0 a1 a2 a3 b) = unhoused b := by
  rw [eventNow, unhoused_runDue, unhoused_setHouse]

@[simp] theorem unhoused_intervalRecords (t d : Nat) : unhoused (intervalRecords t d b) = unhoused b :=
  unhoused_forEach _ fun _ _ => unhoused_issue ..

@[simp] theorem unhoused_adoptScheme (t : Nat) : unhoused (adoptScheme t b) = unhoused b := by
  unfold adoptScheme
  dsimp only
  split
  · rfl
  · rfl

@[simp] theorem unhoused_splitSub (t flag : Nat) : unhoused (splitSub t flag b) = unhoused b := by
  rw [splitSub, unhoused_openParts, unhoused_intervalRecords, unhoused_markFlags]

/-! The values billing shows. -/

theorem wordsOf_showDstat (hl : DMD.DSTAT.RESETS.a ∉ l) : wordsOf l (showDstat b) = wordsOf l b := by
  unfold showDstat
  dsimp only
  rw [wordsOf_wrB (F := DMD.DSTAT.RESET_DUE) hl, wordsOf_wrB (F := DMD.DSTAT.ZONE) hl,
    wordsOf_wrB (F := DMD.DSTAT.OUTAGE) hl, wordsOf_wrB (F := DMD.DSTAT.SPLIT) hl,
    wordsOf_wrB (F := DMD.DSTAT.STEP_FWD) hl, wordsOf_wrB (F := DMD.DSTAT.STEP_BACK) hl]

theorem wordsOf_evalTariff (hnow : TRF.TNOW.TARIFF.a ∉ l) (hraw : pgTRF + 0x20 ∉ l) (t : Nat) :
    wordsOf l (evalTariff t b) = wordsOf l b := by
  have hwritten (s d x : Nat) : wordsOf l (wr (wr (wr b TRF.TNOW.SEASON s) TRF.TNOW.DAY_TYPE d) TRF.TNOW.TARIFF x) =
      wordsOf l b := by
    rw [wordsOf_wr (F := TRF.TNOW.TARIFF) hnow, wordsOf_wr (F := TRF.TNOW.DAY_TYPE) hnow,
      wordsOf_wr (F := TRF.TNOW.SEASON) hnow]
  unfold evalTariff
  dsimp only
  split
  · rw [wordsOf_raise hraw, wordsOf_of_unhoused (unhoused_noteFired 1), wordsOf_of_unhoused (unhoused_setLive _), hwritten]
  · rw [wordsOf_of_unhoused (unhoused_setLive _), hwritten]

theorem wordsOf_zoneChange (hraw : pgTRF + 0x20 ∉ l) (t : Nat) : wordsOf l (zoneChange t b) = wordsOf l b := by
  unfold zoneChange
  dsimp only
  split
  · rfl
  rw [wordsOf_of_unhoused (unhoused_issueEvent ..), wordsOf_raise hraw]
  refine wordsOf_of_unhoused ?_
  simp only [unhoused_noteFired, apply_ite unhoused, unhoused_openSub, unhoused_markFlags, unhoused_setLive, ite_self]

theorem wordsOf_showDemand (hraw : pgDMD + 0x20 ∉ l) (hgrid : DMD.GRID.ACTIVE.a ∉ l)
    (hshown : ∀ F ∈ [DMD.LIM.KW, DMD.INT_NUM.NUM, DMD.T_INT.MS, DMD.T_REM.MS, DMD.WIN_E.MWH, DMD.WIN_E_HI.MWH_HI, DMD.PROJ.W],
      F.a ∉ l) :
    wordsOf l (showDemand b) = wordsOf l b := by
  simp only [List.forall_mem_cons] at hshown
  obtain ⟨hlim, hnum, hint, hrem, hwin, hwin', hproj, -⟩ := hshown
  have hset (c : Blk) (n i r k w : Nat) (x : Bool) (p : Int) :
      wordsOf l (wrS (wrB (wr64 (wr (wr (wr (wr c DMD.INT_NUM.NUM n) DMD.T_INT.MS i) DMD.T_REM.MS r) DMD.LIM.KW k)
        DMD.WIN_E.MWH w) DMD.GRID.ACTIVE x) DMD.PROJ.W p) = wordsOf l c := by
    rw [wordsOf_wrS hproj, wordsOf_wrB hgrid, wordsOf_wr64 hwin hwin', wordsOf_wr hlim, wordsOf_wr hrem, wordsOf_wr hint,
      wordsOf_wr hnum]
  unfold showDemand
  dsimp only
  split
  · rw [wordsOf_raise hraw, wordsOf_of_unhoused (unhoused_setHouse _), hset]
  · rw [hset]

/-! Settling: energy is counted and what is due fires (R227 to R243). -/

/-- The keys of the registers that settling may write: CH's events, and the registers from the tallies on. -/
abbrev Settles (a : Nat) : Prop := a = pgCH + 0x20 ∨ 0x150400 ≤ a

section
variable (hl : ∀ a ∈ l, ¬Settles a)
include hl

theorem not_mem_of_settles {a : Nat} (h : Settles a) : a ∉ l := fun ha => hl a ha h

theorem not_mem_of_from_tallies {a : Nat} (h : 0x150400 ≤ a) : a ∉ l := not_mem_of_settles hl (.inr h)

theorem wordsOf_showTally (k : Nat) : wordsOf l (showTally k b) = wordsOf l b := by
  have hlo : (CH.TALLY.LO.LO k).a ∉ l := not_mem_of_from_tallies hl (by simp only [CH.TALLY.LO.LO]; omega)
  have hhi : (CH.TALLY.HI.HI k).a ∉ l := not_mem_of_from_tallies hl (by simp only [CH.TALLY.HI.HI]; omega)
  have hwh : (CH.TALLY.COMPACT.WH k).a ∉ l := not_mem_of_from_tallies hl (by simp only [CH.TALLY.COMPACT.WH]; omega)
  have hwrap : (CH.TALLY.WRAP.WRAP k).a ∉ l := not_mem_of_from_tallies hl (by simp only [CH.TALLY.WRAP.WRAP]; omega)
  unfold showTally
  dsimp only
  rw [wordsOf_wr hwrap, wordsOf_wr hwh, wordsOf_wr hhi, wordsOf_wr hlo]

theorem wordsOf_tallyAdd (k q : Nat) : wordsOf l (tallyAdd k q b) = wordsOf l b := by
  unfold tallyAdd
  dsimp only
  split
  · rfl
  · rw [wordsOf_showTally hl]
    rfl

theorem wordsOf_countPart (p : Part) : wordsOf l (countPart p b) = wordsOf l b := by
  unfold countPart
  dsimp only
  rw [wordsOf_of_unhoused (unhoused_setLive _), wordsOf_setHouse]
  simp only [apply_ite (wordsOf l), wordsOf_tallyAdd hl, ite_self]

theorem wordsOf_countBefore (seg t : Nat) : wordsOf l (countBefore seg t b) = wordsOf l b :=
  wordsOf_forEach _ fun p _ _ => wordsOf_countPart hl p

theorem wordsOf_countAll (seg : Nat) : wordsOf l (countAll seg b) = wordsOf l b :=
  wordsOf_forEach _ fun p _ _ => wordsOf_countPart hl p

theorem wordsOf_maxDemand (k d t : Nat) :
    wordsOf l (wr64 (wr b (DMD.MAX.D.D_W k) d) (DMD.MAX.TIME.B k) t) = wordsOf l b := by
  have hd : (DMD.MAX.D.D_W k).a ∉ l := not_mem_of_from_tallies hl (by simp only [DMD.MAX.D.D_W]; omega)
  have ht : (DMD.MAX.TIME.B k).a ∉ l := not_mem_of_from_tallies hl (by simp only [DMD.MAX.TIME.B]; omega)
  have ht' : (DMD.MAX.TIME.B k).a + 4 ∉ l := not_mem_of_from_tallies hl (by simp only [DMD.MAX.TIME.B]; omega)
  rw [wordsOf_wr64 ht ht', wordsOf_wr hd]

theorem wordsOf_doReset (t : Nat) : wordsOf l (doReset t b) = wordsOf l b := by
  unfold doReset
  dsimp only
  rw [wordsOf_of_unhoused (unhoused_issueEvent ..), wordsOf_incSat (not_mem_of_from_tallies hl (by decide)),
    wordsOf_forEach _ fun k _ c => wordsOf_maxDemand hl k 0 0]
  refine wordsOf_of_unhoused ?_
  rw [unhoused_setLive, unhoused_issue, unhoused_forEach _ fun k c => unhoused_resetTotals ..,
    unhoused_forEach _ fun n c => by rw [unhoused_resetTotals, unhoused_resetTotals]]

theorem wordsOf_closeSub (t : Nat) : wordsOf l (closeSub t b) = wordsOf l b := by
  have hraw : pgDMD + 0x20 ∉ l := not_mem_of_from_tallies hl (by decide)
  have hlast : DMD.LAST_D.W.a ∉ l := not_mem_of_from_tallies hl (by decide)
  unfold closeSub
  dsimp only
  rw [wordsOf_when _ (wordsOf_of_unhoused unhoused_commit), wordsOf_of_unhoused (unhoused_openSub ..),
    wordsOf_of_unhoused (unhoused_adoptScheme _), wordsOf_of_unhoused (unhoused_noteFired 1)]
  have hreset (x : Bool) (c : Blk) : wordsOf l (if x = true then doReset t c else c) = wordsOf l c :=
    wordsOf_ite (wordsOf_doReset hl t) rfl
  rw [hreset, wordsOf_of_unhoused (unhoused_setLive _), wordsOf_of_unhoused (unhoused_intervalRecords ..)]
  split
  · rw [wordsOf_raise hraw, wordsOf_maxDemand hl, wordsOf_of_unhoused (unhoused_setLive _), wordsOf_raise hraw,
      wordsOf_wrU hlast]
  · rw [wordsOf_raise hraw, wordsOf_wrU hlast]

theorem wordsOf_activate (t : Nat) : wordsOf l (activate t b) = wordsOf l b := by
  have hswap : wordsOf l (bankSwap b) = wordsOf l b :=
    wordsOf_forEach _ fun k _ _ => wordsOf_wr (not_mem_of_from_tallies hl (by simp only [TRF.CAL.ENTRY]; omega))
  unfold activate
  dsimp only
  split
  · rfl
  rw [wordsOf_of_unhoused (unhoused_issueEvent ..), wordsOf_raise (not_mem_of_from_tallies hl (by decide)),
    wordsOf_wr64 (not_mem_of_from_tallies hl (by decide)) (not_mem_of_from_tallies hl (by decide)),
    wordsOf_of_unhoused (unhoused_noteFired 1), wordsOf_wr (not_mem_of_from_tallies hl (by decide)),
    wordsOf_wr (not_mem_of_from_tallies hl (by decide)), hswap]

theorem wordsOf_fireAt (t : Nat) : wordsOf l (fireAt t b) = wordsOf l b := by
  have hclosed (x : Prop) [Decidable x] : wordsOf l (if x then closeSub t (setB t b) else setB t b) = wordsOf l b :=
    wordsOf_ite (wordsOf_closeSub hl t) rfl
  have htariff (c : Blk) : wordsOf l (evalTariff t (activate t (zoneChange t c))) = wordsOf l c := by
    have hraw : pgTRF + 0x20 ∉ l := not_mem_of_from_tallies hl (by decide)
    rw [wordsOf_evalTariff (not_mem_of_from_tallies hl (by decide)) hraw, wordsOf_activate hl, wordsOf_zoneChange hraw]
  have hedge (x : Prop) [Decidable x] (c : Blk) : wordsOf l (if x then raise pgDMD 3 (noteFired 1 c) else c) = wordsOf l c :=
    wordsOf_ite (wordsOf_raise (not_mem_of_from_tallies hl (by decide))) rfl
  unfold fireAt
  dsimp only
  rw [hedge, htariff, hclosed]

theorem wordsOf_applyLegal (s : LegalStep) : wordsOf l (applyLegal s b) = wordsOf l b := by
  unfold applyLegal
  dsimp only
  rw [wordsOf_of_unhoused (unhoused_setB _)]
  split
  · rw [wordsOf_of_unhoused (unhoused_splitSub ..), wordsOf_of_unhoused (unhoused_issueEvent ..),
      wordsOf_raise (not_mem_of_settles hl (.inl rfl))]
  · exact wordsOf_of_unhoused (unhoused_markFlags _)

theorem wordsOf_settleLoop (n : Nat) : wordsOf l (settleLoop n b) = wordsOf l b := by
  induction n generalizing b with
  | zero => rfl
  | succ n ih =>
    have hcounted (seg t : Nat) : wordsOf l (countBefore seg t (runDue t b)) = wordsOf l b := by
      rw [wordsOf_countBefore hl, wordsOf_of_unhoused (unhoused_runDue _)]
    have hfired (seg t : Nat) : wordsOf l (fireAt t (countBefore seg t (runDue t b))) = wordsOf l b := by
      rw [wordsOf_fireAt hl, hcounted]
    have hstep (x : LegalStep) (seg t : Nat) : wordsOf l (applyLegal x (countAll seg (runDue t b))) = wordsOf l b := by
      rw [wordsOf_applyLegal hl, wordsOf_countAll hl, wordsOf_of_unhoused (unhoused_runDue _)]
    unfold settleLoop
    dsimp only
    split
    · split
      · split
        · rw [ih, wordsOf_setHouse, hfired]
        · exact hcounted ..
      · split
        · rw [ih, wordsOf_setHouse, hfired]
        · rw [ih, wordsOf_setHouse, hstep]
    · split
      · rw [ih, wordsOf_setHouse, hfired]
      · exact hcounted ..

theorem wordsOf_settle : wordsOf l (settle b) = wordsOf l b := by
  unfold settle
  split
  · exact wordsOf_countAll hl _
  · dsimp only
    rw [wordsOf_when _ (wordsOf_setHouse _), wordsOf_settleLoop hl]

end

end Sys2Proof.Machine
end

section
/-!
SUPPORT. What each signed command of R224 does, and that it leaves the mailbox and the nonce.
-/

namespace Sys2Proof.Machine

open Sys2Proof.Num Sys2Proof.Stated

variable {b c : Blk} {l : List Nat} {pay : List Byte}

theorem wordsOf_of_cons {a : Nat} (h : wordsOf (a :: l) c = wordsOf (a :: l) b) : wordsOf l c = wordsOf l b :=
  (List.cons.inj h).2

theorem isOn_wr_ne {F G : Fld} {v : Nat} (h : G.a ≠ F.a ∨ G.lo + G.w ≤ F.lo ∨ F.lo + F.w ≤ G.lo) :
    isOn (wr b F v) G = isOn b G := by
  simp only [isOn, rd_wr_ne h]

/-! SET_CONTRACT and BILLING_RESET. -/

theorem wordsOf_doSetContract : wordsOf (DMD.CONTRACT.KW.a :: mailKeys) (doSetContract pay b) =
    wordsOf (DMD.CONTRACT.KW.a :: mailKeys) (wr b DMD.CONTRACT.KW (payAt pay 0 4)) := by
  unfold doSetContract
  dsimp only
  rw [wordsOf_of_unhoused (unhoused_eventNow ..), wordsOf_showDemand (by decide) (by decide) (by decide)]

theorem doSetContract_keeps : wordsOf mailKeys (doSetContract pay b) = wordsOf mailKeys b :=
  (wordsOf_of_cons wordsOf_doSetContract).trans (wordsOf_wr (by decide))

theorem doSetContract_kw (hok : payloadOk 0x10 pay = true) : rd (doSetContract pay b) DMD.CONTRACT.KW = payAt pay 0 4 := by
  rw [rd_of_wordsOf wordsOf_doSetContract (List.mem_cons_self ..), rd_wr_same (by decide)]
  exact Nat.mod_eq_of_lt (of_decide_eq_true hok)

theorem doBillingReset_keeps : wordsOf mailKeys (doBillingReset pay b) = wordsOf mailKeys b := wordsOf_showDstat (by decide)

theorem showDstat_house : (showDstat b).house = b.house := by simp [showDstat]

theorem doBillingReset_due : (doBillingReset pay b).house.live.resetDue = true := by
  rw [doBillingReset, showDstat_house]
  rfl

/-! CAL_LOAD and CAL_ACTIVATE (R236). -/

theorem mayCalLoad_received : mayCalLoad pay (received b) = mayCalLoad pay b := by
  have hat : rd64 (received b) TRF.ACT_AT.B = rd64 b TRF.ACT_AT.B :=
    rd64_of_wordsOf (l := [TRF.ACT_AT.B.a, TRF.ACT_AT.B.a + 4]) (wordsOf_received (by decide)) (by decide) (by decide)
  rw [mayCalLoad, mayCalLoad, hat]

/-- CAL_LOAD's store of one entry of its payload. -/
def loadEntry (pay : List Byte) (k : Nat) (b : Blk) : Blk :=
  { b with house := { b.house with
    pend := Tab.put (fun _ => 0) b.house.pend (payAt pay 0 2 + k) (payAt pay (4 + 4 * k) 4) } }

theorem doCalLoad_eq : doCalLoad pay b = forEach (List.range (payAt pay 2 2)) (loadEntry pay) b := rfl

theorem pendEntry_loadEntries {n k : Nat} (hk : k < n) :
    pendEntry (forEach (List.range n) (loadEntry pay) b) (payAt pay 0 2 + k) = payAt pay (4 + 4 * k) 4 := by
  induction n with
  | zero => omega
  | succ n ih =>
    rw [List.range_succ, forEach, List.foldl_append]
    by_cases hlast : k = n
    · subst hlast
      exact Tab.at'_put_same _ _ _ _
    · exact (Tab.at'_put_ne _ _ (by omega) _).trans (ih (by omega))

theorem doCalLoad_keeps : wordsOf mailKeys (doCalLoad pay b) = wordsOf mailKeys b :=
  wordsOf_of_unhoused (unhoused_forEach _ fun _ _ => rfl)

theorem doCalLoad_entry {k : Nat} (hk : k < payAt pay 2 2) :
    pendEntry (doCalLoad pay b) (payAt pay 0 2 + k) = payAt pay (4 + 4 * k) 4 := by
  rw [doCalLoad_eq, pendEntry_loadEntries hk]

theorem mayCalActivate_received : mayCalActivate pay (received b) = mayCalActivate pay b := by
  have hbank : pendEntry (received b) = pendEntry b := funext fun k => by rw [pendEntry, pendEntry, received_pend]
  rw [mayCalActivate, mayCalActivate, hbank]

/-- A later time waits for its boundary. -/
theorem doCalActivate_later (h : b.house.live.h < payAt pay 0 8) : doCalActivate pay b =
    { wr64 b TRF.ACT_AT.B (payAt pay 0 8) with house := { b.house with pendDef := payAt pay 12 1 } } :=
  if_neg (Nat.not_le.2 h)

theorem doCalActivate_keeps (h : b.house.live.h < payAt pay 0 8) :
    wordsOf mailKeys (doCalActivate pay b) = wordsOf mailKeys b := by
  rw [doCalActivate_later h, wordsOf_setHouse, wordsOf_wr64 (by decide) (by decide)]

theorem doCalActivate_shows (h : b.house.live.h < payAt pay 0 8) :
    rd64 (doCalActivate pay b) TRF.ACT_AT.B = payAt pay 0 8 ∧ (doCalActivate pay b).house.pendDef = payAt pay 12 1 := by
  rw [doCalActivate_later h]
  refine ⟨?_, rfl⟩
  rw [rd64_of_wordsOf (l := [TRF.ACT_AT.B.a, TRF.ACT_AT.B.a + 4]) (wordsOf_setHouse _) (by decide) (by decide),
    rd64_wr64_same (payAt_lt _ 0 8)]

/-! ZONE_SET (R233). -/

/-- The keys of a zone entry, and those of the mailbox. -/
def zoneKeys (z : Nat) : List Nat := (TRF.ZONE.START.START z).a :: (TRF.ZONE.OFS.OFS z).a :: mailKeys

theorem zoneKeys_apart :
    ∀ z < 4, TRF.TNOW.TARIFF.a ∉ zoneKeys z ∧ pgTRF + 0x20 ∉ zoneKeys z ∧ DMD.DSTAT.RESETS.a ∉ zoneKeys z := by decide

theorem cmdStat_apart : ∀ z < 4, CH.CMD_STAT.CODE.a ∉ zoneKeys z := by decide

theorem mailKeys_apart : ∀ z < 4, (TRF.ZONE.START.START z).a ∉ mailKeys ∧ (TRF.ZONE.OFS.OFS z).a ∉ mailKeys := by decide

/-- The block in which ZONE_SET has written its entry: what was due before it has fired. -/
def zoneWritten (pay : List Byte) (b : Blk) : Blk :=
  wr (wr (if isOn b CH.CSTAT.TIMED then settle b else b) (TRF.ZONE.START.START (payAt pay 0 1)) (payAt pay 4 4))
    (TRF.ZONE.OFS.OFS (payAt pay 0 1)) (payAt pay 8 4)

theorem doZoneSet_eq : doZoneSet pay b =
    if isOn (zoneWritten pay b) CH.CSTAT.TIMED then
      showDstat (evalTariff (zoneWritten pay b).house.live.h
        (zoneChange (zoneWritten pay b).house.live.h (zoneWritten pay b)))
    else zoneWritten pay b := rfl

theorem wordsOf_doZoneSet (hz : payAt pay 0 1 < 4) :
    wordsOf (zoneKeys (payAt pay 0 1)) (doZoneSet pay b) = wordsOf (zoneKeys (payAt pay 0 1)) (zoneWritten pay b) := by
  obtain ⟨hnow, hraw, hdstat⟩ := zoneKeys_apart _ hz
  rw [doZoneSet_eq]
  refine wordsOf_ite ?_ rfl
  rw [wordsOf_showDstat hdstat, wordsOf_evalTariff hnow hraw, wordsOf_zoneChange hraw]

theorem doZoneSet_keeps (hz : payAt pay 0 1 < 4) : wordsOf mailKeys (doZoneSet pay b) = wordsOf mailKeys b := by
  obtain ⟨hstart, hofs⟩ := mailKeys_apart _ hz
  refine (wordsOf_of_cons (wordsOf_of_cons (wordsOf_doZoneSet hz))).trans ?_
  rw [zoneWritten, wordsOf_wr hofs, wordsOf_wr hstart]
  exact wordsOf_ite (wordsOf_settle (by decide)) rfl

theorem doZoneSet_start (hz : payAt pay 0 1 < 4) :
    rd (doZoneSet pay b) (TRF.ZONE.START.START (payAt pay 0 1)) = payAt pay 4 4 := by
  rw [rd_of_wordsOf (wordsOf_doZoneSet hz) (by simp [zoneKeys]), zoneWritten,
    rd_wr_ne (.inl (by simp [TRF.ZONE.START.START, TRF.ZONE.OFS.OFS])),
    rd_wr_same (F := TRF.ZONE.START.START _) (Nat.le_refl 32)]
  exact Nat.mod_eq_of_lt (payAt_lt pay 4 4)

theorem doZoneSet_ofs (hz : payAt pay 0 1 < 4) :
    rd (doZoneSet pay b) (TRF.ZONE.OFS.OFS (payAt pay 0 1)) = payAt pay 8 4 := by
  rw [rd_of_wordsOf (wordsOf_doZoneSet hz) (by simp [zoneKeys]), zoneWritten,
    rd_wr_same (F := TRF.ZONE.OFS.OFS _) (Nat.le_refl 32)]
  exact Nat.mod_eq_of_lt (payAt_lt pay 8 4)

/-! ACK_TAMPER (R251). -/

theorem mayAckTamper_received : mayAckTamper pay (received b) = mayAckTamper pay b := by
  have hw := wordsOf_received (b := b) (l := [CH.TAMPER.COVER_OPEN.a]) (by decide)
  rw [mayAckTamper, mayAckTamper, isOn_of_wordsOf hw (by decide), isOn_of_wordsOf hw (F := CH.TAMPER.TERM_OPEN) (by decide)]

theorem wordsOf_doAckTamper : wordsOf l (doAckTamper pay b) =
    wordsOf l (wr (wr (wrB b CH.CSTAT.BROKEN false) CH.TAMPER.COVER_CNT 0) CH.TAMPER.TERM_CNT 0) := by
  unfold doAckTamper
  dsimp only
  rw [wordsOf_of_unhoused (unhoused_eventNow ..), wordsOf_setHouse]

theorem doAckTamper_keeps : wordsOf mailKeys (doAckTamper pay b) = wordsOf mailKeys b := by
  rw [wordsOf_doAckTamper, wordsOf_wr (by decide), wordsOf_wr (by decide), wordsOf_wrB (by decide)]

/-- The latch and the counts are clear. -/
theorem doAckTamper_clears : isOn (doAckTamper pay b) CH.CSTAT.BROKEN = false ∧
    rd (doAckTamper pay b) CH.TAMPER.COVER_CNT = 0 ∧ rd (doAckTamper pay b) CH.TAMPER.TERM_CNT = 0 := by
  have hw := wordsOf_doAckTamper (b := b) (pay := pay) (l := [CH.CSTAT.BROKEN.a, CH.TAMPER.COVER_CNT.a])
  refine ⟨?_, ?_, ?_⟩
  · rw [isOn_of_wordsOf hw (by decide), isOn_wr_ne (by decide), isOn_wr_ne (by decide),
      isOn_wrB_same (by decide) (by decide)]
  · rw [rd_of_wordsOf hw (by decide), rd_wr_ne (by decide), rd_wr_same (by decide)]
    rfl
  · rw [rd_of_wordsOf hw (by decide), rd_wr_same (by decide)]
    rfl

/-! SEAL and UNSEAL (R226). -/

theorem outside_unsync (cause : Nat) : outside failPages (unsync cause b) = outside failPages b := by
  have hcleared (c : Blk) : outside failPages { c with red := { c.red with tickets := [], expect := none } } =
      outside failPages c := rfl
  unfold unsync
  dsimp only
  split
  · rfl
  · rw [outside_emit, hcleared, outside_raise (by decide), outside_wr (by decide), outside_setSync]

theorem outside_sealParity : outside failPages (sealParity b) = outside failPages b := by
  unfold sealParity
  split
  · rfl
  split
  · rfl
  split
  · rfl
  · rw [outside_driveLands, outside_setActive, outside_unsync]

theorem mailKeys_unpaired : ∀ a ∈ mailKeys, a / 0x1000 * 0x1000 ∉ failPages := by decide

theorem isOn_unsync_sealed (cause : Nat) : isOn (unsync cause b) SYS.MODE.SEALED = isOn b SYS.MODE.SEALED := by
  have hshown : isOn (raise pgRED 2 (wr (setSync false b) RED.PSTAT.UNSYNC_CAUSE cause)) SYS.MODE.SEALED =
      isOn b SYS.MODE.SEALED := by
    rw [isOn_raise_ne (by decide), isOn_wr_ne (by decide), setSync, isOn_wrB_ne (by decide), isOn_wrB_ne (by decide)]
  unfold unsync
  split
  · rfl
  · exact hshown

theorem isOn_driveLands (F : Fld) : isOn (driveLands b) F = isOn b F :=
  outside_isOn (pgs := []) outside_driveLands List.not_mem_nil

/-- What a twin does when its partner's seal differs leaves the seal it shows. -/
theorem isOn_sealParity_sealed : isOn (sealParity b) SYS.MODE.SEALED = isOn b SYS.MODE.SEALED := by
  unfold sealParity
  split
  · rfl
  split
  · rfl
  split
  · rfl
  · rw [isOn_driveLands, setActive, isOn_wrB_ne (by decide), isOn_wrB_ne (by decide), isOn_unsync_sealed]

/-- The block whose seal has changed, before the pair compares seals. -/
def sealMarked (on : Bool) (b : Blk) : Blk :=
  raise pgCH 5 (wrB { b with acc := { b.acc with sealed := on } } SYS.MODE.SEALED on)

theorem setSealed_eq (on : Bool) : ∃ x, setSealed on b = sealParity (sealMarked on (setRed x b)) := by
  unfold setSealed
  split
  · exact ⟨_, rfl⟩
  · exact ⟨b.red, rfl⟩

theorem setSealed_acc (on : Bool) : (setSealed on b).acc = { b.acc with sealed := on } := by
  obtain ⟨x, h⟩ := setSealed_eq (b := b) on
  have hacc := congrArg Blk.acc (still_sealParity (b := sealMarked on (setRed x b)))
  rw [h]
  refine hacc.trans ?_
  rw [sealMarked, still_raise]
  rfl

theorem setSealed_shown (on : Bool) : isOn (setSealed on b) SYS.MODE.SEALED = on := by
  obtain ⟨x, h⟩ := setSealed_eq (b := b) on
  rw [h, isOn_sealParity_sealed, sealMarked, isOn_raise_ne (by decide), isOn_wrB_same (by decide) (by decide)]

theorem setSealed_keeps (on : Bool) : wordsOf mailKeys (setSealed on b) = wordsOf mailKeys b := by
  obtain ⟨x, h⟩ := setSealed_eq (b := b) on
  have hparity : wordsOf mailKeys (sealParity (sealMarked on (setRed x b))) =
      wordsOf mailKeys (sealMarked on (setRed x b)) :=
    wordsOf_eq_iff.2 fun a ha => outside_wordOf outside_sealParity (mailKeys_unpaired a ha)
  rw [h, hparity, sealMarked, wordsOf_raise (by decide), wordsOf_wrB (by decide)]
  rfl

theorem maySeal_received : maySeal pay (received b) = maySeal pay b := by
  have hw := wordsOf_received (b := b)
    (l := [MTR.CAL_STAT.CAL_OK.a, CH.TAMPER.TERM_OPEN.a, CH.CCTL.LEGAL_DOM.a, FTIME.FSTAT.A_SET.a]) (by decide)
  rw [maySeal, maySeal, received_acc, isOn_of_wordsOf hw (by decide),
    isOn_of_wordsOf hw (F := CH.TAMPER.TERM_OPEN) (by decide), copySet_legalField_congr hw (by decide) (by decide)]

theorem mayUnseal_received : mayUnseal pay (received b) = mayUnseal pay b := by
  have hw := wordsOf_received (b := b) (l := [CH.TAMPER.TERM_OPEN.a]) (by decide)
  rw [mayUnseal, mayUnseal, received_acc, isOn_of_wordsOf hw (by decide)]

/-- The seal of the live block, before SEAL's record. -/
def sealTaken (b : Blk) : Blk :=
  { setSealed true b with
    acc := { (setSealed true b).acc with sealGen := ((setSealed true b).acc.sealGen + 1) % 2 ^ 16 }
    boot := { (setSealed true b).boot with metHash := (setSealed true b).boot.metRun } }

/-- SEAL's record changes nothing outside the Counting House. -/
theorem unhoused_doSeal : unhoused (doSeal pay b) =
    unhoused (wr (sealTaken b) FSYS.MET_ID.ID (ofLE ((sealTaken b).boot.metHash.take 4))) :=
  unhoused_eventNow ..

theorem wordsOf_doSeal (hl : FSYS.MET_ID.ID.a ∉ l) : wordsOf l (doSeal pay b) = wordsOf l (setSealed true b) := by
  rw [wordsOf_of_unhoused unhoused_doSeal, wordsOf_wr hl]
  rfl

theorem doSeal_acc : (doSeal pay b).acc = { b.acc with sealed := true, sealGen := (b.acc.sealGen + 1) % 2 ^ 16 } := by
  have hacc : (doSeal pay b).acc = (sealTaken b).acc := (congrArg Blk.acc unhoused_doSeal :)
  rw [hacc, sealTaken]
  simp only [setSealed_acc]

theorem doSeal_shown : isOn (doSeal pay b) SYS.MODE.SEALED = true := by
  rw [isOn_of_wordsOf (l := [SYS.MODE.SEALED.a]) (wordsOf_doSeal (by decide)) (by decide), setSealed_shown]

theorem doSeal_keeps : wordsOf mailKeys (doSeal pay b) = wordsOf mailKeys b :=
  (wordsOf_doSeal (by decide)).trans (setSealed_keeps true)

theorem unhoused_doUnseal : unhoused (doUnseal pay b) = unhoused (setSealed false b) := unhoused_eventNow ..

theorem doUnseal_acc : (doUnseal pay b).acc = { b.acc with sealed := false } :=
  (congrArg Blk.acc unhoused_doUnseal :).trans (setSealed_acc false)

theorem doUnseal_shown : isOn (doUnseal pay b) SYS.MODE.SEALED = false := by
  rw [isOn_of_wordsOf (l := [SYS.MODE.SEALED.a]) (wordsOf_of_unhoused unhoused_doUnseal) (by decide), setSealed_shown]

theorem doUnseal_keeps : wordsOf mailKeys (doUnseal pay b) = wordsOf mailKeys b :=
  (wordsOf_of_unhoused unhoused_doUnseal).trans (setSealed_keeps false)

end Sys2Proof.Machine
end

section
/-!
SUPPORT. The signed commands settle O39.
-/

namespace Sys2Proof.Machine

open Sys2Proof.Num Sys2Proof.Stated

/-- The payload of a frame that passes is well-formed for its CODE. -/
theorem payloadOk_of_passes {b : Blk} {code : Nat} {may : List Byte → Blk → Bool} (hp : mailPasses b code may) :
    payloadOk code (framePay (mailFrame b)) = true := by
  obtain ⟨-, -, hcode, hcheck, -⟩ := hp
  exact hcode ▸ frameOk_payload (frameOk_of_passes hcheck)

/-- A signed command that passes acts at the billing time it found. -/
theorem authorised_h {b : Blk} : (authorised b).house.live.h = (moveB b).house.live.h := by
  rw [authorised, wr64_house, received_h]

theorem authorised_acc {b : Blk} : (authorised b).acc = b.acc := by
  rw [authorised, wr64_acc, received_acc]

theorem zone_of_payloadOk {pay : List Byte} (h : payloadOk 0x14 pay = true) : payAt pay 0 1 < 4 :=
  (of_decide_eq_true h : payAt pay 0 1 < 4 ∧ payAt pay 1 3 = 0).1

/-- Settles O39, clause by clause. -/
theorem signedCommands : Obligations.SignedCommands := by
  unfold Obligations.SignedCommands
  refine ⟨fun s hp ht => ?_, fun s hp ht => ?_, fun s hp ht => ?_, fun s hp hlater ht => ?_, fun s hp ht => ?_,
    fun s hp ht => ?_, fun s hp ht => ?_, fun s hp ht => ?_⟩
  · refine completes_signed hp ht rfl rfl (by decide) rfl doSetContract_keeps ?_
    rw [rd_of_wordsOf (l := [DMD.CONTRACT.KW.a]) (wordsOf_cmdDone (by decide)) (by decide),
      doSetContract_kw (payloadOk_of_passes hp)]
  · refine completes_signed hp ht rfl rfl (by decide) rfl doBillingReset_keeps ?_
    rw [cmdDone_house, doBillingReset_due]
  · refine completes_signed hp ht rfl rfl (by decide) mayCalLoad_received doCalLoad_keeps fun k _ hk => ?_
    rw [pendEntry, cmdDone_house]
    exact doCalLoad_entry hk
  · have hwaits := authorised_h.trans_lt hlater
    refine completes_signed hp ht rfl rfl (by decide) mayCalActivate_received (doCalActivate_keeps hwaits) ?_
    obtain ⟨hat, hdef⟩ := doCalActivate_shows hwaits
    constructor
    · rw [rd64_of_wordsOf (l := [TRF.ACT_AT.B.a, TRF.ACT_AT.B.a + 4]) (wordsOf_cmdDone (by decide)) (by decide)
        (by decide), hat]
    · rw [cmdDone_house, hdef]
  · have hz := zone_of_payloadOk (payloadOk_of_passes hp)
    have hdone : CH.CMD_STAT.CODE.a ∉ zoneKeys (mailAt s.blk 0 1) := cmdStat_apart _ hz
    refine completes_signed hp ht rfl rfl (by decide) rfl (doZoneSet_keeps hz) ⟨?_, ?_⟩
    · rw [rd_of_wordsOf (wordsOf_cmdDone hdone) (by simp [zoneKeys]), doZoneSet_start hz]
    · rw [rd_of_wordsOf (wordsOf_cmdDone hdone) (by simp [zoneKeys]), doZoneSet_ofs hz]
  · have hdone := wordsOf_cmdDone (code := 0x15) (l := [CH.CSTAT.BROKEN.a, CH.TAMPER.COVER_CNT.a])
      (b := doAckTamper (framePay (mailFrame s.blk)) (authorised s.blk)) (by decide)
    obtain ⟨hbroken, hcover, hterm⟩ := doAckTamper_clears (pay := framePay (mailFrame s.blk)) (b := authorised s.blk)
    refine completes_signed hp ht rfl rfl (by decide) mayAckTamper_received doAckTamper_keeps ⟨?_, ?_, ?_⟩
    · rw [isOn_of_wordsOf hdone (by decide), hbroken]
    · rw [rd_of_wordsOf hdone (by decide), hcover]
    · rw [rd_of_wordsOf hdone (by decide), hterm]
  · refine completes_signed hp ht rfl rfl (by decide) maySeal_received doSeal_keeps ⟨?_, ?_, ?_⟩
    · rw [cmdDone_acc, doSeal_acc]
    · rw [isOn_of_wordsOf (l := [SYS.MODE.SEALED.a]) (wordsOf_cmdDone (by decide)) (by decide), doSeal_shown]
    · rw [cmdDone_acc, doSeal_acc, authorised_acc]
  · refine completes_signed hp ht rfl rfl (by decide) mayUnseal_received doUnseal_keeps ⟨?_, ?_⟩
    · rw [cmdDone_acc, doUnseal_acc]
    · rw [isOn_of_wordsOf (l := [SYS.MODE.SEALED.a]) (wordsOf_cmdDone (by decide)) (by decide), doUnseal_shown]

end Sys2Proof.Machine
end

section
/-!
SUPPORT. What sending on the lanes leaves of a block (chapter 13): everything but the lanes, the LINK page's registers and what
has been sent, to which it only adds.
-/

namespace Sys2Proof.Machine

open Sys2Proof.Num

variable {b c d : Blk}

/-- A block and what it is after messages have been sent. -/
structure Sends (b c : Blk) : Prop where
  words : ∀ a, a / 0x1000 * 0x1000 ≠ pgLINK → wordOf c a = wordOf b a
  rest : { c with regs := [], io := {}, lanes := {} } = { b with regs := [], io := {}, lanes := {} }
  out : ∀ m ∈ b.io.out, m ∈ c.io.out

namespace Sends

theorem refl : Sends b b := ⟨fun _ _ => rfl, rfl, fun _ h => h⟩

theorem trans (h : Sends b c) (h' : Sends c d) : Sends b d :=
  ⟨fun a ha => (h'.words a ha).trans (h.words a ha), h'.rest.trans h.rest, fun m hm => h'.out m (h.out m hm)⟩

theorem factor (h : Sends b c) : c.factor = b.factor := (congrArg Blk.factor h.rest :)
theorem ce (h : Sends b c) : c.ce = b.ce := (congrArg Blk.ce h.rest :)
theorem time (h : Sends b c) : c.time = b.time := (congrArg Blk.time h.rest :)

theorem rd (h : Sends b c) {F : Fld} (hF : F.a / 0x1000 * 0x1000 ≠ pgLINK) : rd c F = rd b F :=
  congrArg F.of (h.words F.a hF)

theorem isOn (h : Sends b c) {F : Fld} (hF : F.a / 0x1000 * 0x1000 ≠ pgLINK) : isOn c F = isOn b F := by
  simp only [Machine.isOn, h.rd hF]

end Sends

theorem sends_forEach {α : Type} {f : α → Blk → Blk} (l : List α) (h : ∀ x ∈ l, ∀ c, Sends c (f x c)) :
    Sends b (forEach l f b) :=
  forEach_rel (P := Sends b) l (fun x hx c hc => hc.trans (h x hx c)) .refl

theorem sends_when {f : Blk → Blk} (x : Bool) (h : Sends b (f b)) : Sends b (when x f b) := by
  cases x
  · exact .refl
  · exact h

theorem sends_emit (m : Msg) : Sends b (emit b m) := ⟨fun _ _ => rfl, rfl, fun _ h => by simp [h]⟩

theorem sends_setLanes (x : LanesSt) : Sends b { b with lanes := x } := ⟨fun _ _ => rfl, rfl, fun _ h => h⟩

theorem sends_countFrame {k : Nat} (hk : k < 4) : Sends b (incWrap b (LINK.CLS.TX.FRAMES k)) := by
  refine ⟨fun a ha => wordOf_incWrap ?_, rfl, fun _ h => h⟩
  simp only [LINK.CLS.TX.FRAMES, pgLINK] at ha ⊢
  omega

theorem sends_raiseLink (k : Nat) : Sends b (raise pgLINK k b) := by
  refine ⟨fun a ha => wordOf_raise ?_, ?_, fun _ h => mem_out_raise h⟩
  · simp only [hRAW, pgLINK] at ha ⊢
    omega
  · obtain ⟨r, o, he⟩ := raise_eq b pgLINK k
    rw [he]

/-! The lanes (R312 to R315). -/

/-- A lane's next frame is of one of the four classes. -/
theorem laneNext_class {n k : Nat} {t : LaneItem} {q : List (Nat × LaneItem)} (h : laneNext b n = some (k, t, q)) :
    k < 4 := by
  unfold laneNext at h
  obtain ⟨k', hfind, hmap⟩ := Option.bind_eq_some_iff.1 h
  obtain ⟨e, -, he⟩ := Option.map_eq_some_iff.1 hmap
  have hk : k' = k := congrArg Prod.fst he
  have hmem := List.mem_of_find?_eq_some hfind
  simp only [List.mem_cons, List.not_mem_nil, or_false] at hmem
  omega

theorem sends_lanePump (k n : Nat) : Sends b (lanePump k n b) := by
  induction k generalizing b with
  | zero => exact .refl
  | succ k ih =>
    unfold lanePump
    split
    · exact .refl
    split
    · exact .refl
    · rename_i hnext
      exact (((sends_setLanes _).trans (sends_emit _)).trans (sends_countFrame (laneNext_class hnext))).trans ih

theorem sends_laneQueue (n k : Nat) (t : LaneItem) : Sends b (laneQueue n k t b) := by
  unfold laneQueue
  split
  · exact .refl
  · exact (sends_setLanes _).trans (sends_lanePump _ n)

/-! Routes (R319 to R326). -/

theorem sends_sendTo (addr k : Nat) (m : Msg) : Sends b (sendTo addr k m b) := by
  unfold sendTo
  split
  · exact .refl
  split
  · exact .refl
  dsimp only
  refine (sends_when (route b addr).2 (sends_raiseLink 6)).trans ?_
  split
  · exact sends_setLanes _
  · exact sends_forEach _ fun n _ _ => sends_laneQueue n k _

theorem sends_toPos (p k : Nat) (m : Msg) : Sends b (toPos p k m b) := by
  unfold toPos
  split
  · exact .refl
  · exact sends_sendTo _ k m

theorem sends_toManager (m : Msg) : Sends b (toManager m b) := by
  unfold toManager
  split
  · exact sends_sendTo 0 2 m
  · exact .refl

theorem sends_toStack (s : Nat) (m : Msg) : Sends b (toStack s m b) := by
  unfold toStack
  split
  · exact .refl
  · exact sends_sendTo _ 2 m

theorem sends_toMembers (m : Msg) : Sends b (toMembers m b) := by
  refine sends_forEach _ fun p _ c => ?_
  dsimp only
  split
  · exact .refl
  split
  · exact sends_sendTo _ 2 m
  · exact sends_forEach _ fun n _ _ => sends_laneQueue n 2 _

theorem sends_toPartner (k : Nat) (m : Msg) : Sends b (toPartner k m b) := by
  unfold toPartner
  split
  · refine sends_forEach _ fun n _ c => ?_
    split
    · exact sends_laneQueue n k _
    · exact .refl
  · exact .refl

theorem sends_sendRt (ps : List Nat) (m : Msg) : Sends b (sendRt ps m b) :=
  sends_forEach _ fun _ _ _ => sends_forEach _ fun n _ _ => sends_laneQueue n 0 _

theorem sends_toTrunks (ts : List Nat) (m : Msg) : Sends b (toTrunks ts m b) := sends_sendRt _ m

theorem sends_toOwner (t : Nat) (m : Msg) : Sends b (toOwner t m b) := sends_sendRt _ m

end Sys2Proof.Machine
end

section
/-!
SUPPORT. The order book's messages, answers, faults and cuts (R53, R58 to R64): O13.
-/

namespace Sys2Proof.Machine

open Sys2Proof.Num

variable {b c : Blk}

@[simp] theorem rd_setFactor (x : FactorSt) (F : Fld) : rd { b with factor := x } F = rd b F := rfl
@[simp] theorem isOn_setFactor (x : FactorSt) (F : Fld) : isOn { b with factor := x } F = isOn b F := rfl

/-! Registers named as blocked. -/

/-- The groups a list names take a value of BLOCKED, the others keep theirs. -/
theorem isOn_blocked_forEach (x : Bool) (k : Nat) (l : List Nat) :
    isOn (forEach l (fun j b => wrB b (FCTR.GRP_STAT.BLOCKED j) x) b) (FCTR.GRP_STAT.BLOCKED k) =
      if k ∈ l then x else isOn b (FCTR.GRP_STAT.BLOCKED k) := by
  induction l generalizing b with
  | nil => simp [forEach]
  | cons j l ih =>
    refine (ih (b := wrB b (FCTR.GRP_STAT.BLOCKED j) x)).trans ?_
    by_cases hkj : k = j
    · rw [hkj, isOn_wrB_same (by simp [FCTR.GRP_STAT.BLOCKED]) (by simp [FCTR.GRP_STAT.BLOCKED])]
      simp
    · have hne : (FCTR.GRP_STAT.BLOCKED k).a ≠ (FCTR.GRP_STAT.BLOCKED j).a := by
        simp only [FCTR.GRP_STAT.BLOCKED]
        omega
      rw [isOn_wrB_ne (.inl hne)]
      simp [hkj]

/-! Orders. -/

theorem orderOf_setOrder_same (k : Nat) (o : Order) : orderOf (setOrder k o b) k = o := Tab.at'_put_same _ _ k o

theorem orderOf_of_factor (h : c.factor = b.factor) (k : Nat) : orderOf c k = orderOf b k := by
  simp only [orderOf, h]

/-! What an order's checks look at lies outside the BOOK page. -/

theorem sitePort_congr (h : ∀ F : Fld, F.a / 0x1000 * 0x1000 ≠ pgBOOK → rd c F = rd b F) (t : Nat) :
    sitePort c t = sitePort b t := by
  unfold sitePort
  rw [h SYS.MODE.ROLE (by decide), h SYS.MODE.STACK (by decide)]

theorem ownPort_congr (h : ∀ F : Fld, F.a / 0x1000 * 0x1000 ≠ pgBOOK → rd c F = rd b F) (p : Nat) :
    ownPort c p = ownPort b p := by
  unfold ownPort myPos
  rw [sitePort_congr h, h SYS.MODE.POS (by decide)]

theorem mayPower_congr (h : ∀ F : Fld, F.a / 0x1000 * 0x1000 ≠ pgBOOK → rd c F = rd b F) : mayPower c = mayPower b := by
  simp only [mayPower, isOn, h SYS.STRAP.STRAP_ERR (by decide), h FSYS.STRAP.STRAP_ERR (by decide),
    h SYS.MODE.SITE_STATE (by decide)]

theorem withheld_congr (h : ∀ F : Fld, F.a / 0x1000 * 0x1000 ≠ pgBOOK → rd c F = rd b F) (p : Nat) :
    withheld c p = withheld b p := by
  have hlim := h (FCTR.PORT_LIM.I_CABLE (p % 16)) (by simp only [FCTR.PORT_LIM.I_CABLE, pgBOOK]; omega)
  have htype := h (VP.VCTL.TYPE (p % 4)) (by simp only [VP.VCTL.TYPE, pgBOOK]; omega)
  simp only [withheld, ownStack, ownPort_congr h, sitePort_congr h, isOn, hlim, htype,
    h SYS.MODE.CAL (by decide), h FSYS.BOOT_STAT.MET_FAIL (by decide),
    h TRUNK.TSTOP.STOPPED (by decide)]

theorem orderCheck_congr (h : ∀ F : Fld, F.a / 0x1000 * 0x1000 ≠ pgBOOK → rd c F = rd b F) (o : OrderReq) :
    orderCheck c o = orderCheck b o := by
  simp only [orderCheck, withheld_congr h]

theorem cancelCheck_of_factor (h : c.factor = b.factor) (p n : Nat) : cancelCheck c p n = cancelCheck b p n := by
  simp only [cancelCheck, orderOf_of_factor h]

/-! A write of a register of the BOOK page. -/

@[simp] theorem writeOf_factor {i : Init} {a : Nat} {v : Word} : (writeOf b i a v).blk.factor = b.factor := by
  obtain ⟨r, o, x, h⟩ := storeWord_eq b i false (a / 0x1000 * 0x1000) (a % 0x1000) v
  rw [writeOf, h]

theorem writeOf_rd_off_page {i : Init} {a pg : Nat} {v : Word} (h : Accepts b i a v) (hpg : a / 0x1000 * 0x1000 = pg)
    (hcal : calPage pg = false) (F : Fld) (hF : F.a / 0x1000 * 0x1000 ≠ pg) : rd (writeOf b i a v).blk F = rd b F :=
  writeOf_rd_ne h (hpg ▸ hcal) fun he => hF (he ▸ hpg)

/-! Messages to the manager and back (R62). -/

theorem sends_passUp (m : OrderMsg) : Sends b (passUp m b) := by
  unfold passUp
  split
  · exact .refl
  split
  · exact sends_toManager _
  · exact sends_toPos 0 2 _

theorem sends_sendDown (m : OrderMsg) (res slot seq : Nat) : Sends b (sendDown m res slot seq b) := by
  unfold sendDown
  dsimp only
  split
  · exact .refl
  split
  · exact sends_sendTo _ 2 _
  · exact sends_toStack _ _

theorem sends_giveResult (m : OrderMsg) (res slot seq : Nat) : Sends b (giveResult m res slot seq b) :=
  (sends_emit _).trans (sends_sendDown m res slot seq)

@[simp] theorem giveResult_factor (m : OrderMsg) (res slot seq : Nat) : (giveResult m res slot seq b).factor = b.factor :=
  (sends_giveResult m res slot seq).factor

/-! Submissions and withdrawals (R58, R59, R63). -/

theorem forwardOrder_inFlight (m : OrderMsg) : (forwardOrder m b).factor.inFlight = some m := by
  unfold forwardOrder
  rw [(sends_passUp m).factor]
  rfl

theorem actSubGo_passes {v : Nat} (hv : v.testBit 0 = true) (hen : enabled b pgBOOK = true)
    (hchk : orderCheck b (subOrder b) = 0) (hown : ownPort b (subOrder b).port = true) (hpow : mayPower b = true) :
    actSubGo v b = forwardOrder (.submit (subOrder b)) b := by
  simp [actSubGo, hv, hen, hchk, hown, hpow]

theorem actCancel_passes {v : Nat} (hv : v.testBit 0 = true) (hen : enabled b pgBOOK = true)
    (hown : ownPort b (v / 2 ^ 24) = true) (hchk : cancelCheck b (v / 2 ^ 24) (v / 2 ^ 20 % 16) = 0) :
    actCancel v b = forwardOrder (.withdraw (v / 2 ^ 24) (v / 2 ^ 20 % 16)) b := by
  unfold actCancel
  simp only [hv, hen, hown, hchk, Bool.not_true, Bool.or_self, Bool.false_eq_true, if_false, if_true]

/-- The write of SUB_GO leaves the order in the submission registers. -/
theorem writeOf_subOrder {i : Init} {v : Word} (h : Accepts b i BOOK.SUB_GO.GO.a v) :
    subOrder (writeOf b i BOOK.SUB_GO.GO.a v).blk = subOrder b := by
  have hrd : ∀ F : Fld, F.a ≠ BOOK.SUB_GO.GO.a → rd (writeOf b i BOOK.SUB_GO.GO.a v).blk F = rd b F :=
    fun F hF => writeOf_rd_ne h (by decide) hF
  simp only [subOrder, hrd BOOK.SUB_W0.PORT (by decide), hrd BOOK.SUB_W0.KIND (by decide),
    hrd BOOK.SUB_W0.CLASS (by decide), hrd BOOK.SUB_W1.I_REQ (by decide), hrd BOOK.SUB_W1.V_TGT (by decide),
    hrd BOOK.SUB_W2.I_MIN (by decide), hrd BOOK.SUB_W2.WEIGHT (by decide), hrd BOOK.SUB_EXP.EXPIRE (by decide)]

theorem writeOf_enabledBook {i : Init} {a : Nat} {v : Word} (h : Accepts b i a v) (hpg : a / 0x1000 * 0x1000 = pgBOOK)
    (ha : a ≠ pgBOOK + 0x0C) : enabled (writeOf b i a v).blk pgBOOK = enabled b pgBOOK := by
  have hrd := writeOf_rd_ne (F := hEN pgBOOK) h (by rw [hpg]; decide) (Ne.symm ha)
  simp only [enabled, isOn, hrd]

theorem subGo_inFlight {i : Init} {v : Word} (ha : Accepts b i BOOK.SUB_GO.GO.a v) (hv : v.toNat.testBit 0 = true)
    (hen : enabled b pgBOOK = true) (hchk : orderCheck b (subOrder b) = 0) (hown : ownPort b (subOrder b).port = true)
    (hpow : mayPower b = true) :
    (writeAct i false BOOK.SUB_GO.GO.a v actSubGo b).factor.inFlight = some (.submit (subOrder b)) := by
  have hoff := writeOf_rd_off_page (pg := pgBOOK) ha (by decide) (by decide)
  have hsub := writeOf_subOrder ha
  rw [writeAct_accepted ha, actSubGo_passes hv, forwardOrder_inFlight, hsub]
  · rw [writeOf_enabledBook ha (by decide) (by decide), hen]
  · rw [hsub, orderCheck_congr hoff, hchk]
  · rw [hsub, ownPort_congr hoff, hown]
  · rw [mayPower_congr hoff, hpow]

theorem cancel_inFlight {i : Init} {v : Word} (ha : Accepts b i BOOK.CANCEL.GO.a v) (hv : v.toNat.testBit 0 = true)
    (hen : enabled b pgBOOK = true) (hown : ownPort b (v.toNat / 2 ^ 24) = true)
    (hchk : cancelCheck b (v.toNat / 2 ^ 24) (v.toNat / 2 ^ 20 % 16) = 0) :
    (writeAct i false BOOK.CANCEL.GO.a v actCancel b).factor.inFlight =
      some (.withdraw (v.toNat / 2 ^ 24) (v.toNat / 2 ^ 20 % 16)) := by
  rw [writeAct_accepted ha, actCancel_passes hv, forwardOrder_inFlight]
  · rw [writeOf_enabledBook ha (by decide) (by decide), hen]
  · rw [ownPort_congr (writeOf_rd_off_page (pg := pgBOOK) ha (by decide) (by decide)), hown]
  · rw [cancelCheck_of_factor writeOf_factor, hchk]

/-! The book's answers (R60 to R62). -/

theorem gated_book {f : Blk → Blk} (h : enabled b pgBOOK = true) : gated pgBOOK f b = f b := gated_on h rfl (by decide)

/-- An order whose kind the book knows, that passes the checks and finds a slot takes it under the next SEQ (R60). -/
theorem bookAccept_takes {o : OrderReq} {k : Nat} (hchk : orderCheck b o = 0)
    (hfull : ((portSlots o.port).all fun j => orderLive (orderOf b j)) = false) (hk : slotFor b o.port = some k) :
    (bookAccept o b).1.factor =
      { (setOrder k { req := o, state := 1, seq := b.factor.nextSeq } b).factor with
        nextSeq := b.factor.nextSeq + 1, acts := b.factor.acts ++ [(k, false)] } := by
  have hkind : ¬(o.kind = 0 ∨ 3 < o.kind) := by
    intro hbad
    rw [orderCheck, if_pos (hbad.imp_right .inl)] at hchk
    exact absurd hchk (by decide)
  simp [bookAccept, hchk, hfull, hk, hkind, setOrder]

theorem doOrderAccept_submit {o : OrderReq} {k : Nat} (hacc : accepts b = true) (hchk : orderCheck b o = 0)
    (hfull : ((portSlots o.port).all fun j => orderLive (orderOf b j)) = false) (hk : slotFor b o.port = some k) :
    orderOf (doOrderAccept (.submit o) b) k = { req := o, state := 1, seq := b.factor.nextSeq } ∧
      (doOrderAccept (.submit o) b).factor.nextSeq = b.factor.nextSeq + 1 := by
  have hf : (doOrderAccept (.submit o) b).factor = (bookAccept o b).1.factor := by
    simp only [doOrderAccept, hacc, if_true, bookTake, giveResult_factor]
  rw [orderOf, hf, bookAccept_takes hchk hfull hk]
  exact ⟨orderOf_setOrder_same k _, rfl⟩

theorem doOrderAccept_withdraw {p n : Nat} (hacc : accepts b = true) (hchk : cancelCheck b p n = 0) :
    (doOrderAccept (.withdraw p n) b).factor.acts = b.factor.acts ++ [(16 * p + n, true)] := by
  simp [doOrderAccept, hacc, bookTake, bookCancel, hchk, addActs]

/-- A fault counts against the open DRAW of its port, which ends at the limit (R62). -/
theorem drawFault_counts {p k : Nat} (hk : openOrder b p 1 = some k) :
    (orderOf (drawFault p b) k).flt = (orderOf b k).flt + 1 ∧
      (rd b FCTR.LOOP.FAULT_LIMIT ≤ (orderOf b k).flt + 1 → (orderOf (drawFault p b) k).state = 6) := by
  have hlim (o : Order) : rd (setOrder k o b) FCTR.LOOP.FAULT_LIMIT = rd b FCTR.LOOP.FAULT_LIMIT := rfl
  unfold drawFault
  rw [hk]
  dsimp only
  rw [orderOf_of_factor (raise_factor ..), hlim]
  split
  · simp [closeOrder, orderOf_setOrder_same]
  · rename_i hbelow
    exact ⟨by rw [orderOf_setOrder_same], fun h => absurd h hbelow⟩

theorem doOrderAccept_fault {p k : Nat} (hk : openOrder b p 1 = some k) :
    (orderOf (doOrderAccept (.fault p) b) k).flt = (orderOf b k).flt + 1 ∧
      (rd b FCTR.LOOP.FAULT_LIMIT ≤ (orderOf b k).flt + 1 → (orderOf (doOrderAccept (.fault p) b) k).state = 6) := by
  have hf : (doOrderAccept (.fault p) b).factor = (drawFault p b).factor := (sends_when _ (sends_passUp _)).factor
  rw [orderOf_of_factor hf]
  exact drawFault_counts hk

theorem doOrderAccept_block {m k : Nat} (hk : k < 12) (hpos : k / 3 = myPos b) (hm : m.testBit k = true) :
    isOn (doOrderAccept (.block m) b) (FCTR.GRP_STAT.BLOCKED k) = true := by
  refine (isOn_blocked_forEach true k _).trans (if_pos ?_)
  simp [mem_bitsOf, hk, hpos, hm]

/-! SUB_RESULT (R58, R59, R63). -/

theorem subResult_shows {res slot seq : Nat} (hres : res < 2 ^ 3) (hslot : slot < 2 ^ 4) (hseq : seq < 2 ^ 32) :
    rd (subResult res slot seq b) BOOK.SUB_STAT.RESULT = res ∧ rd (subResult res slot seq b) BOOK.SUB_STAT.SLOT = slot ∧
      rd (subResult res slot seq b) BOOK.SUB_SEQ.SEQ = seq ∧ isOn (subResult res slot seq b) BOOK.SUB_STAT.BUSY = false ∧
      (subResult res slot seq b).factor.inFlight = none := by
  have hrd (F : Fld) : rd (subResult res slot seq b) F =
      rd (wr (wr (wr (wrB b BOOK.SUB_STAT.BUSY false) BOOK.SUB_STAT.RESULT res) BOOK.SUB_STAT.SLOT slot)
        BOOK.SUB_SEQ.SEQ seq) F := rd_setFactor ..
  refine ⟨?_, ?_, ?_, ?_, rfl⟩
  · rw [hrd, rd_wr_ne (by decide), rd_wr_ne (by decide), rd_wr_same (by decide)]
    exact Nat.mod_eq_of_lt hres
  · rw [hrd, rd_wr_ne (by decide), rd_wr_same (by decide)]
    exact Nat.mod_eq_of_lt hslot
  · rw [hrd, rd_wr_same (by decide)]
    exact Nat.mod_eq_of_lt hseq
  · rw [isOn, hrd, rd_wr_ne (by decide), rd_wr_ne (by decide), rd_wr_ne (by decide)]
    exact isOn_wrB_same (by decide) (by decide) false

/-- A copy of the book that takes an answer changes orders and acts alone. -/
theorem ackOrder_eq (m : OrderMsg) (res slot seq : Nat) :
    ∃ o l, ackOrder m res slot seq b = { b with factor := { b.factor with book := o, acts := l } } := by
  unfold ackOrder
  split <;> exact ⟨_, _, rfl⟩

@[simp] theorem countReject_factor : (countReject b).factor = b.factor := by simp [countReject]

@[simp] theorem ackEvent_factor (m : OrderMsg) (res : Nat) : (ackEvent m res b).factor = b.factor := by
  unfold ackEvent
  split <;> simp

/-- The answer to the order in flight is shown and ends the flight. -/
theorem doSubResult_ends {m : OrderMsg} {res slot seq : Nat} (hown : ownPort b (orderPort m) = true)
    (hfly : b.factor.inFlight = some m) : ∃ c, doSubResult m res slot seq b = subResult res slot seq c := by
  unfold doSubResult
  dsimp only
  split
  · exact ⟨b, rfl⟩
  · obtain ⟨o, l, he⟩ := ackOrder_eq (b := b) m res slot seq
    have hown' : ownPort (ackOrder m res slot seq b) (orderPort m) = true := by rw [he]; exact hown
    rw [if_pos hown', if_pos]
    · exact ⟨_, rfl⟩
    · have hfly' : (ackOrder m res slot seq b).factor.inFlight = some m := by rw [he]; exact hfly
      split
      · exact hfly'
      · rw [ackEvent_factor]
        exact hfly'

end Sys2Proof.Machine
end

section
/-!
SUPPORT. The cut of the book, the start of clearings, and the commands of the order book (R53, R58 to R64): O13.
-/

namespace Sys2Proof.Machine

open Sys2Proof.Num

variable {b c d : Blk}

/-! Orders that change state touch the book and the BOOK page alone. -/

/-- A block and what it is after orders have changed state. -/
structure Books (b c : Blk) : Prop where
  words : ∀ a, a / 0x1000 * 0x1000 ≠ pgBOOK → wordOf c a = wordOf b a
  factor : { c.factor with book := [] } = { b.factor with book := [] }

namespace Books

theorem refl : Books b b := ⟨fun _ _ => rfl, rfl⟩

theorem trans (h : Books b c) (h' : Books c d) : Books b d :=
  ⟨fun a ha => (h'.words a ha).trans (h.words a ha), h'.factor.trans h.factor⟩

theorem rd (h : Books b c) {F : Fld} (hF : F.a / 0x1000 * 0x1000 ≠ pgBOOK) : rd c F = rd b F :=
  congrArg F.of (h.words F.a hF)

theorem acts (h : Books b c) : c.factor.acts = b.factor.acts := (congrArg FactorSt.acts h.factor :)
theorem cutAt (h : Books b c) : c.factor.cutAt = b.factor.cutAt := (congrArg FactorSt.cutAt h.factor :)

end Books

theorem books_forEach {α : Type} {f : α → Blk → Blk} (l : List α) (h : ∀ x ∈ l, ∀ c, Books c (f x c)) :
    Books b (forEach l f b) :=
  forEach_rel (P := Books b) l (fun x hx c hc => hc.trans (h x hx c)) .refl

theorem books_setOrder (k : Nat) (o : Order) : Books b (setOrder k o b) := ⟨fun _ _ => rfl, rfl⟩

theorem books_wr {F : Fld} {v : Nat} (hF : F.a / 0x1000 * 0x1000 = pgBOOK) : Books b (wr b F v) :=
  ⟨fun _ ha => wordOf_wr_ne fun he => ha (he ▸ hF), rfl⟩

theorem books_raise (k : Nat) : Books b (raise pgBOOK k b) := by
  refine ⟨fun _ ha => wordOf_raise fun he => ha ?_, by rw [raise_factor]⟩
  rw [he]
  decide

theorem books_closeOrder (k st : Nat) : Books b (closeOrder k st b) := books_setOrder k _

theorem books_cutAct (a : Nat × Bool) : Books b (cutAct a b) := by
  unfold cutAct
  dsimp only
  split
  · split
    · exact books_closeOrder _ 4
    · exact .refl
  split
  · exact .refl
  refine Books.trans ?_ (books_setOrder _ _)
  split
  · exact .refl
  split
  · exact (books_closeOrder _ 3).trans (books_raise 2)
  · exact .refl

/-- A cut takes the acts that waited, and changes nothing else but the book and its page. -/
theorem books_bookCut : Books { b with factor := { b.factor with acts := [] } } (bookCut b) := by
  unfold bookCut
  refine Books.trans ?_ (books_wr rfl)
  refine (books_forEach _ fun a _ _ => books_cutAct a).trans (books_forEach _ fun k _ c => ?_)
  dsimp only
  split
  · exact (books_closeOrder k 5).trans (books_raise 4)
  · exact .refl

/-! CLEARING_CUT (R53, R61, R64). -/

theorem gated_fctr {f : Blk → Blk} (h : enabled b pgFCTR = true) : gated pgFCTR f b = f b := gated_on h rfl (by decide)

/-- A report stored touches the reports, PEERS and the page's events. -/
theorem storeReport_rd (pos : Nat) (r : Report) {F : Fld} (hF : F.a ≠ FCTR.PEERS.PRESENT.a) (hraw : F.a ≠ pgFCTR + 0x20) :
    rd (storeReport pos r b) F = rd b F := by
  unfold storeReport
  extract_lets f mgr was b₁ b₂
  have h₁ : rd b₁ F = rd b F := by unfold b₁; split <;> rfl
  have h₂ : rd b₂ F = rd b₁ F := by
    unfold b₂
    split
    · rfl
    · exact rd_wr_ne (.inl hF)
  split
  · rw [h₂, h₁]
  · rw [rd_raise_ne hraw, h₂, h₁]

/-- Where a report is kept: with the late ones once the bid is made, else as its position's. -/
theorem storeReport_factor (pos : Nat) (r : Report) :
    (storeReport pos r b).factor =
      if b.factor.bidDone then { b.factor with inbox := b.factor.inbox ++ [(pos, r)] }
      else { b.factor with
        reports := Tab.put (fun _ => {}) b.factor.reports pos r, newReports := b.factor.newReports ||| 2 ^ pos } := by
  unfold storeReport
  extract_lets f mgr was b₁ b₂
  have h₂ : b₂.factor = b₁.factor := by
    unfold b₂
    split <;> simp
  have hsame : (if was = true then b₂ else raise pgFCTR 4 b₂).factor = b₁.factor := by
    split
    · exact h₂
    · rw [raise_factor, h₂]
  rw [hsame]
  unfold b₁
  split <;> rfl

/-- This device's report of a cut, kept by level two or sent to it. -/
def reportCut (b : Blk) : Blk :=
  if runsTwo b then storeReport (myPos b) (ownReport b) b
  else toPos 0 2 (.report (myPos b) (ownReport b)) (emit b (.report (myPos b) (ownReport b)))

/-- A cut in its three parts: the period begins, the book is cut where clearings run, and the report leaves. -/
theorem doCut_eq : doCut b =
    let c := deviceReturns (newPeriod (incWrap b FCTR.CLR_NUM.CLR_NUM))
    reportCut (if isManager c && !isOn c FCTR.BOOK_CTL.RUN then c else cutSnap (bookCut c)) := rfl

theorem reportCut_rd {F : Fld} (hF : F.a ≠ FCTR.PEERS.PRESENT.a) (hraw : F.a ≠ pgFCTR + 0x20)
    (hlink : F.a / 0x1000 * 0x1000 ≠ pgLINK) : rd (reportCut b) F = rd b F := by
  unfold reportCut
  split
  · exact storeReport_rd _ _ hF hraw
  · exact ((sends_emit _).trans (sends_toPos 0 2 _)).rd hlink

theorem reportCut_factor : (reportCut b).factor.acts = b.factor.acts ∧ (reportCut b).factor.cutAt = b.factor.cutAt := by
  unfold reportCut
  split
  · rw [storeReport_factor]
    split <;> exact ⟨rfl, rfl⟩
  · rw [((sends_emit _).trans (sends_toPos 0 2 _)).factor]
    exact ⟨rfl, rfl⟩

/-- The return of a regained device shows the site joined and touches nothing else that a cut shows. -/
theorem deviceReturns_rd {F : Fld} (hF : F.a ≠ SYS.MODE.SITE_STATE.a ∨ F.lo + F.w ≤ 18 ∨ 20 ≤ F.lo)
    (hraw : F.a ≠ pgFCTR + 0x20) : rd (deviceReturns b) F = rd b F := by
  have hne : F.a ≠ SYS.MODE.SITE_STATE.a ∨ F.lo + F.w ≤ SYS.MODE.SITE_STATE.lo ∨
      SYS.MODE.SITE_STATE.lo + SYS.MODE.SITE_STATE.w ≤ F.lo := hF
  unfold deviceReturns
  split
  · rfl
  dsimp only
  split
  · rw [rd_setFactor, rd_wr_ne hne, rd_setFactor]
  · rw [rd_raise_ne hraw, rd_wr_ne hne, rd_setFactor]

theorem deviceReturns_joins (h : b.factor.regain = true) : rd (deviceReturns b) SYS.MODE.SITE_STATE = 1 := by
  unfold deviceReturns
  rw [if_neg (by simp [h])]
  dsimp only
  split
  · rw [rd_setFactor, rd_wr_same (by decide)]
    decide
  · rw [rd_raise_ne (by decide), rd_wr_same (by decide)]
    decide

theorem deviceReturns_cutAt : (deviceReturns b).factor.cutAt = b.factor.cutAt := by
  unfold deviceReturns
  split
  · rfl
  dsimp only
  split <;> simp

/-- What a period's start, with the number of the clearing, leaves of the registers. -/
theorem rd_newPeriod (F : Fld) : rd (newPeriod b) F = rd b F := rfl

theorem rd_cutSnap (F : Fld) : rd (cutSnap b) F = rd b F := rfl

/-- The book's part of a cut leaves the registers of the other pages and the time of the cut, and takes the acts. -/
theorem bookPart_keeps :
    let c := if isManager b && !isOn b FCTR.BOOK_CTL.RUN then b else cutSnap (bookCut b)
    (∀ F : Fld, F.a / 0x1000 * 0x1000 ≠ pgBOOK → rd c F = rd b F) ∧ c.factor.cutAt = b.factor.cutAt ∧
      (isManager b = false ∨ isOn b FCTR.BOOK_CTL.RUN = true → c.factor.acts = []) := by
  have hcut := books_bookCut (b := b)
  dsimp only
  split
  · rename_i hidle
    simp only [Bool.and_eq_true, Bool.not_eq_true'] at hidle
    exact ⟨fun _ _ => rfl, rfl, fun h => by simp [hidle] at h⟩
  · exact ⟨fun F hF => (rd_cutSnap F).trans (hcut.rd hF), hcut.cutAt, fun _ => hcut.acts⟩

theorem doCut_shows :
    rd (doCut b) FCTR.CLR_NUM.CLR_NUM = (rd b FCTR.CLR_NUM.CLR_NUM + 1) % 2 ^ 32 ∧ (doCut b).factor.cutAt = b.time.clk ∧
      (isManager b = false ∨ isOn b FCTR.BOOK_CTL.RUN = true → (doCut b).factor.acts = []) ∧
      (b.factor.regain = true → rd (doCut b) SYS.MODE.SITE_STATE = 1) := by
  rw [doCut_eq]
  extract_lets c
  obtain ⟨hrd, hat, hacts⟩ := bookPart_keeps (b := c)
  have hreport := reportCut_factor (b := if isManager c && !isOn c FCTR.BOOK_CTL.RUN then c else cutSnap (bookCut c))
  have hkept {F : Fld} (hF : F.a ≠ SYS.MODE.SITE_STATE.a ∨ F.lo + F.w ≤ 18 ∨ 20 ≤ F.lo) (hraw : F.a ≠ pgFCTR + 0x20)
      (hclr : F.a ≠ FCTR.CLR_NUM.CLR_NUM.a) : rd c F = rd b F := by
    unfold c
    rw [deviceReturns_rd hF hraw, rd_newPeriod, incWrap, rd_wr_ne (.inl hclr)]
  refine ⟨?_, ?_, fun h => ?_, fun h => ?_⟩
  · rw [reportCut_rd (by decide) (by decide) (by decide), hrd _ (by decide)]
    unfold c
    rw [deviceReturns_rd (by decide) (by decide), rd_newPeriod, incWrap, rd_wr_same (by decide)]
    rfl
  · rw [hreport.2, hat]
    exact deviceReturns_cutAt
  · rw [hreport.1]
    refine hacts (h.imp (fun hm => ?_) fun hr => ?_)
    · rw [isManager, hkept (by decide) (by decide) (by decide)]
      exact hm
    · rw [isOn, hkept (by decide) (by decide) (by decide)]
      exact hr
  · rw [reportCut_rd (by decide) (by decide) (by decide), hrd _ (by decide)]
    exact deviceReturns_joins h

/-! BOOK_CTL.RUN (R46, R53). -/

/-- A stack that joins changes registers of SYS alone. -/
theorem outside_joinSite : outside [pgSYS] (joinSite b) = outside [pgSYS] b := by
  unfold joinSite
  exact (outside_when _ outside_driveLands).trans (outside_wr (by decide))

theorem writeOf_run {i : Init} {v : Word} (h : Accepts b i FCTR.BOOK_CTL.RUN.a v) :
    rd (writeOf b i FCTR.BOOK_CTL.RUN.a v).blk FCTR.BOOK_CTL.RUN = FCTR.BOOK_CTL.RUN.of v :=
  writeOf_rd_plain (l₁ := [RegForm.fd 17 1 .rwl .any]) (f := RegForm.fd 16 1 .rwl .any)
    (l₂ := [RegForm.fd 8 8 .rwl (.range 1 32), RegForm.fd 0 8 .rwl (.range 2 100)]) h (by decide) (by decide) (by decide)
    ⟨.inr rfl, rfl, by rfl, by decide⟩

/-- With RUN set the clearings start, and RUN stays set. -/
theorem actBookCtl_runs (h : isOn b FCTR.BOOK_CTL.RUN = true) :
    (actBookCtl b).factor.ran = true ∧ isOn (actBookCtl b) FCTR.BOOK_CTL.RUN = true := by
  unfold actBookCtl
  split
  · dsimp only
    split
    · have hjoin := outside_joinSite (b := wr { b with factor := { b.factor with ran := true } } SYS.MODE.STACK 0)
      have hsend := (sends_emit (b := joinSite (wr { b with factor := { b.factor with ran := true } } SYS.MODE.STACK 0))
        (.stackNumber 0)).trans (sends_toMembers (.stackNumber 0))
      refine ⟨?_, ?_⟩
      · rw [hsend.factor, outside_factor hjoin, wr_factor]
      · have hrun : wordOf (joinSite _) FCTR.BOOK_CTL.RUN.a = _ := outside_wordOf hjoin (by decide)
        rw [hsend.isOn (by decide), isOn, rd, hrun, wordOf_wr_ne (by decide)]
        exact h
    · exact ⟨rfl, h⟩
  · rename_i hran
    exact ⟨by simpa [h] using hran, h⟩

end Sys2Proof.Machine
end

section
/-!
SUPPORT. The order book's statement: O13.
-/

namespace Sys2Proof.Machine

open Sys2Proof.Num

/-- Settles O13: what goes in flight, what the book takes, counts, blocks, answers and cuts, each by its own lemma. -/
theorem orderBook : Obligations.OrderBook := by
  refine ⟨fun i v s ha hv hen hchk hown hpow => ?_, fun i v s ha hv hen hown hchk => ?_,
    fun o k s hen hacc hchk hfull hk hnow => ?_, fun p n s hen hacc hchk hnow => ?_, fun p k s hen hk hnow => ?_,
    fun m s hen hnow => ?_, fun m res slot seq s hen hown hfly hnow => ?_, fun i v s ha => ?_,
    fun i v s ha hv => ?_, fun s hen => ?_⟩
  · exact completes_run (f := writeAct i false BOOK.SUB_GO.GO.a v actSubGo) rfl (subGo_inFlight ha hv hen hchk hown hpow)
  · exact completes_run (f := writeAct i false BOOK.CANCEL.GO.a v actCancel) rfl (cancel_inFlight ha hv hen hown hchk)
  · refine ⟨_, runIn_now 3 _ hnow, ?_⟩
    rw [enterOrderAccept, gated_book hen]
    exact doOrderAccept_submit hacc hchk hfull hk
  · refine ⟨_, runIn_now 3 _ hnow, ?_⟩
    rw [enterOrderAccept, gated_book hen]
    exact doOrderAccept_withdraw hacc hchk
  · refine ⟨_, runIn_now 3 _ hnow, ?_⟩
    rw [enterOrderAccept, gated_book hen]
    exact doOrderAccept_fault hk
  · refine ⟨_, runIn_now 3 _ hnow, fun k hk hpos hm => ?_⟩
    rw [enterOrderAccept, gated_book hen]
    exact doOrderAccept_block hk hpos hm
  · refine ⟨_, runIn_now 3 _ hnow, ?_⟩
    obtain ⟨c, hc⟩ := doSubResult_ends (res := res.toNat) (slot := slot.toNat) (seq := seq.toNat) hown hfly
    rw [enterSubResult, gated_book hen, hc]
    exact subResult_shows res.isLt slot.isLt seq.isLt
  · refine completes_run (f := writeAct i false FCTR.GRP_ARM.ARM.a v actGrpArm) rfl fun k hk hv => ?_
    rw [writeAct_accepted ha]
    exact (isOn_blocked_forEach false k _).trans (if_pos (mem_bitsOf.2 ⟨hk, hv⟩))
  · refine completes_run (f := writeAct i false FCTR.BOOK_CTL.RUN.a v fun _ => actBookCtl) rfl ?_
    rw [writeAct_accepted ha]
    exact actBookCtl_runs (by rw [isOn, writeOf_run ha, hv]; decide)
  · refine completes_run (f := gated pgFCTR doCut) rfl ?_
    rw [gated_fctr hen]
    exact doCut_shows

end Sys2Proof.Machine
end

section
/-!
SUPPORT. Lost peers, island state and slices (R83, R84, R87): O15.
-/

namespace Sys2Proof.Machine

open Sys2Proof.Num

variable {b c : Blk}

theorem repOf_dropReport (n : Nat) : repOf (dropReport n b) n = {} :=
  Tab.at'_put_same (fun _ => ({} : Report)) b.factor.reports n {}

/-- An absent stack is no longer present to the manager, and its bid is dropped. -/
theorem doPeerAbsent_stack {n : Nat} (hrole : rd b SYS.MODE.ROLE = 2) :
    (rd (doPeerAbsent true n b) FCTR.PEERS.PRESENT).testBit n = false ∧ bidOf (doPeerAbsent true n b) n = {} := by
  simp only [doPeerAbsent, hrole, if_true]
  refine ⟨?_, ?_⟩
  · rw [rd_raise_ne (by decide), rd_setFactor, rd_wr_same (by decide), Nat.testBit_mod_two_pow, setBit_testBit]
    simp
  · rw [bidOf, raise_factor]
    exact Tab.at'_put_same (fun _ => ({} : Bid)) _ n {}

theorem doPeerAbsent_position {n : Nat} (hmaster : isMaster b = true) : repOf (doPeerAbsent false n b) n = {} := by
  have hpresent (F : Fld) (v : Nat) : repOf (wr (dropReport n b) F v) n = {} := by
    rw [repOf, wr_factor]
    exact repOf_dropReport n
  simp only [doPeerAbsent, hmaster, Bool.false_eq_true, if_false, if_true]
  rw [repOf, raise_factor]
  split
  · exact repOf_dropReport n
  · exact hpresent _ _

theorem doIslandEnter_island (h : rd b SYS.MODE.SITE_STATE = 2) : rd (doIslandEnter b) SYS.MODE.SITE_STATE = 3 := by
  rw [doIslandEnter, if_pos h, rd_raise_ne (by decide), rd_wr_same (by decide)]
  decide

/-! Slices (R87). -/

theorem mem_put {α : Type} [DecidableEq α] {f : Nat → α} {t : Tab α} {k : Nat} {x : α} {e : Nat × α}
    (h : e ∈ Tab.put f t k x) : e.1 = k ∨ e ∈ t := by
  have hrest : (Tab.put f t k x).all (fun e => decide (e.1 = k ∨ e ∈ t)) = true := by
    have hall : t.all (fun e => decide (e.1 = k ∨ e ∈ t)) = true := by simp +contextual
    unfold Tab.put
    split
    · exact Tab.all_drop hall k
    · exact Tab.all_list hall (by simp)
  simpa using List.all_eq_true.1 hrest e h

theorem mem_insertBy {α : Type} {le : α → α → Bool} {x y : α} {l : List α} (h : y ∈ insertBy le x l) : y = x ∨ y ∈ l := by
  induction l with
  | nil => simpa [insertBy] using h
  | cons z l ih =>
    unfold insertBy at h
    split at h
    · simpa using h
    · rcases List.mem_cons.1 h with rfl | h
      · simp
      · exact (ih h).imp_right (List.mem_cons_of_mem z)

theorem mem_of_mem_sortBy {α : Type} {le : α → α → Bool} {y : α} {l : List α} (h : y ∈ sortBy le l) : y ∈ l := by
  induction l with
  | nil => exact h
  | cons x l ih => exact (mem_insertBy h).elim (fun he => he ▸ List.mem_cons_self) fun h => List.mem_cons_of_mem x (ih h)

/-- The book after an entry of a slice: the entry has its place, and every other is as before. -/
theorem adoptEntry_book {e x : Nat × Order} (h : x ∈ (adoptEntry e b).factor.book) : x.1 = e.1 ∨ x ∈ b.factor.book := by
  have hput : (adoptEntry e b).factor.book =
      Tab.put (fun _ => {}) b.factor.book e.1 { e.2 with seq := if e.2.seq = 0 then 0 else b.factor.nextSeq } := by
    unfold adoptEntry when
    dsimp only
    split <;> rfl
  exact mem_put (hput ▸ h)

/-- What the manager's book holds of a stack whose slice it adopted came with the slice. -/
theorem adoptSlice_book (stack : Nat) (l : List (Nat × Order)) :
    ∀ e ∈ (adoptSlice stack l b).factor.book, e.1 / 256 = stack → e.1 ∈ l.map (·.1) := by
  unfold adoptSlice
  dsimp only
  rw [raise_factor]
  refine forEach_rel (P := fun c => ∀ e ∈ c.factor.book, e.1 / 256 = stack → e.1 ∈ l.map (·.1)) _ ?_ ?_
  · intro x hx c hc e he hst
    have hin : x ∈ l := (List.mem_filter.1 (mem_of_mem_sortBy hx)).1
    rcases adoptEntry_book he with hkey | hold
    · exact hkey ▸ List.mem_map_of_mem hin
    · exact hc e hold hst
  · intro e he hst
    have hout := (List.mem_filter.1 he).2
    simp [hst] at hout

theorem doSlice_manager {stack : Nat} {l : List (Nat × Order)} (hmgr : isManager b = true) :
    doSlice stack l b = adoptSlice stack l b := by
  simp only [doSlice, hmgr, if_true]

/-- The slice leaves for the manager regained, and the next cut joins. -/
theorem doSlice_master {stack : Nat} {l : List (Nat × Order)} (hmgr : isManager b = false) (hmaster : isMaster b = true)
    (hsite : 2 ≤ rd b SYS.MODE.SITE_STATE) :
    (doSlice stack l b).factor.regain = true ∧ Msg.slice (sitePort b 0 / 16) (ownSlice b) ∈ (doSlice stack l b).io.out := by
  simp only [doSlice, hmgr, hmaster, hsite, Bool.false_eq_true, if_false, and_self, if_true]
  have hsend := sends_toManager (b := emit { b with factor := { b.factor with regain := true } }
    (.slice (sitePort b 0 / 16) (ownSlice b))) (.slice (sitePort b 0 / 16) (ownSlice b))
  refine ⟨?_, hsend.out _ (by simp)⟩
  rw [hsend.factor]
  rfl

/-- Settles O15: what the absence and the return of a device or stack leave known, shown and sent. -/
theorem lostPeers : Obligations.LostPeers := by
  refine ⟨fun n s hen hrole => ?_, fun n s hen hmaster => ?_, fun s hen hsite => ?_, fun st l s hen hmgr hnow => ?_,
    fun st l s hen hmgr hmaster hsite hnow => ?_⟩
  · refine completes_run (f := gated pgFCTR (doPeerAbsent true n.val)) rfl ?_
    rw [gated_fctr hen]
    exact doPeerAbsent_stack hrole
  · refine completes_run (f := gated pgFCTR (doPeerAbsent false n.val)) rfl ?_
    rw [gated_fctr hen]
    exact doPeerAbsent_position hmaster
  · refine completes_run (f := gated pgFCTR doIslandEnter) rfl ?_
    rw [gated_fctr hen]
    exact doIslandEnter_island hsite
  · refine ⟨_, runIn_now 3 _ hnow, fun e he hst => ?_⟩
    rw [enterSliceReconcile, gated_fctr hen, doSlice_manager hmgr] at he
    exact adoptSlice_book _ _ e he hst
  · refine ⟨_, runIn_now 3 _ hnow, ?_⟩
    rw [enterSliceReconcile, gated_fctr hen]
    exact doSlice_master hmgr hmaster hsite

end Sys2Proof.Machine
end

section
/-!
SUPPORT. Reports, bids, deadlines and plan frames (R64 to R67), and what publishing a plan leaves: O14.
-/

namespace Sys2Proof.Machine

open Sys2Proof.Num

variable {b c : Blk}

/-! Monitors' probes (R478, R479). -/

/-- A probe touches a monitor's accumulators and the monitor page alone. -/
theorem monTake_eq (field : Bool) (m : Nat) (x : Int) (re : Nat) :
    ∃ r o e, monTake field m x re b = { b with regs := r, io := o, events := e } := by
  unfold monTake
  extract_lets r pg a k lim breach a' c
  split
  · exact ⟨b.regs, b.io, b.events, rfl⟩
  split
  · exact ⟨b.regs, b.io, b.events, rfl⟩
  split
  · obtain ⟨r', o, h⟩ := raise_eq (wrBit c ⟨pg + 0x44, 0, 16⟩ m true) pg (if field then 0 else m)
    exact ⟨r', o, _, h⟩
  · exact ⟨b.regs, b.io, _, rfl⟩

theorem wordOf_monTake {field : Bool} {m : Nat} {x : Int} {re a : Nat}
    (ha : a / 0x1000 * 0x1000 ≠ if field then pgFMON else pgMON) : wordOf (monTake field m x re b) a = wordOf b a := by
  have hpg : (if field then pgFMON else pgMON) % 0x1000 = 0 := by cases field <;> decide
  unfold monTake
  extract_lets r pg mon k lim breach mon' c
  split
  · rfl
  split
  · rfl
  split
  · have hraw : a ≠ (hRAW pg).a := by simp only [hRAW, pg]; omega
    rw [wordOf_raise hraw, wrBit, wordOf_wr_ne (by simp only [pg]; omega)]
    rfl
  · rfl

theorem probe_eq (field : Bool) (code : Nat) (inst : Option Nat) (x : Int) :
    ∃ r o e, probe field code inst x b = { b with regs := r, io := o, events := e } := by
  unfold probe
  refine forEach_rel (P := fun c => ∃ r o e, c = { b with regs := r, io := o, events := e }) _ ?_ ⟨b.regs, b.io, b.events, rfl⟩
  rintro m - c ⟨r, o, e, rfl⟩
  dsimp only
  split
  · obtain ⟨r', o', e', h⟩ := monTake_eq (b := { b with regs := r, io := o, events := e }) field m (satS 32 x) 0
    exact ⟨r', o', e', h⟩
  · exact ⟨r, o, e, rfl⟩

@[simp] theorem probe_factor (field : Bool) (code : Nat) (inst : Option Nat) (x : Int) :
    (probe field code inst x b).factor = b.factor := by
  obtain ⟨r, o, e, h⟩ := probe_eq (b := b) field code inst x
  rw [h]

@[simp] theorem probe_ce (field : Bool) (code : Nat) (inst : Option Nat) (x : Int) :
    (probe field code inst x b).ce = b.ce := by
  obtain ⟨r, o, e, h⟩ := probe_eq (b := b) field code inst x
  rw [h]

theorem wordOf_probe {field : Bool} {code : Nat} {inst : Option Nat} {x : Int} {a : Nat}
    (ha : a / 0x1000 * 0x1000 ≠ if field then pgFMON else pgMON) : wordOf (probe field code inst x b) a = wordOf b a := by
  unfold probe
  refine forEach_rel (P := fun c => wordOf c a = wordOf b a) _ (fun m _ c hc => ?_) rfl
  dsimp only
  split
  · exact (wordOf_monTake ha).trans hc
  · exact hc

/-! Reports and bids (R64, R65). -/

theorem storeReport_keeps (pos : Nat) (r : Report) :
    if b.factor.bidDone then (storeReport pos r b).factor.inbox = b.factor.inbox ++ [(pos, r)]
    else repOf (storeReport pos r b) pos = r := by
  unfold repOf
  rw [storeReport_factor]
  split
  · rfl
  · exact Tab.at'_put_same (fun _ => ({} : Report)) _ pos r

theorem storeBid_factor (bd : Bid) : (storeBid bd b).factor =
    { b.factor with bids := Tab.put (fun _ => {}) b.factor.bids bd.stack bd, newBids := b.factor.newBids ||| 2 ^ bd.stack } := by
  unfold storeBid
  dsimp only
  split
  · split <;> simp
  · simp

theorem bidOf_storeBid (bd : Bid) : bidOf (storeBid bd b) bd.stack = bd := by
  rw [bidOf, storeBid_factor]
  exact Tab.at'_put_same (fun _ => ({} : Bid)) _ bd.stack bd

/-- The deadline of the reports: late ones wait, missing ones are shown (R67). -/
def closeReports (b : Blk) : Blk :=
  let c := wrU { b with factor := { b.factor with bidDone := true } } FCTR.CLR_STAT.STALE (missingReports b)
  let c := when (decide (0 < missingReports b)) (raise pgFCTR 2) c
  when (!c.factor.isolated && namesAbsent c) (raise pgFCTR 13) c

theorem doBidDeadline_eq (htwo : runsTwo b = true) (hrun : isOn b FCTR.BOOK_CTL.RUN = true) :
    doBidDeadline b =
      if isManager (closeReports b) || (closeReports b).factor.isolated then storeBid (makeBid (atCut b)) (closeReports b)
      else toManager (bidMsg (makeBid (atCut b))) (emit (closeReports b) (bidMsg (makeBid (atCut b)))) := by
  unfold doBidDeadline
  rw [if_neg (by simp [htwo, hrun])]
  rfl

theorem when_raise_factor (x : Bool) (pg k : Nat) : (when x (raise pg k) b).factor = b.factor := by
  cases x
  · rfl
  · exact raise_factor b pg k

theorem rd_when_raise_ne {x : Bool} {pg k : Nat} {F : Fld} (h : F.a ≠ pg + 0x20) : rd (when x (raise pg k) b) F = rd b F := by
  cases x
  · rfl
  · exact rd_raise_ne h

theorem closeReports_factor : (closeReports b).factor = { b.factor with bidDone := true } := by
  simp only [closeReports, when_raise_factor, wrU_factor]

theorem isManager_of_role (h : rd c SYS.MODE.ROLE = rd b SYS.MODE.ROLE) : isManager c = isManager b := by
  simp only [isManager, h]

theorem closeReports_isManager : isManager (closeReports b) = isManager b := by
  refine isManager_of_role ?_
  unfold closeReports
  dsimp only
  rw [rd_when_raise_ne (by decide), rd_when_raise_ne (by decide), wrU, rd_wr_ne (by decide), rd_setFactor]

theorem doBidDeadline_stores (htwo : runsTwo b = true) (hrun : isOn b FCTR.BOOK_CTL.RUN = true)
    (hown : isManager b = true ∨ b.factor.isolated = true) :
    bidOf (doBidDeadline b) (makeBid (atCut b)).stack = makeBid (atCut b) ∧ (doBidDeadline b).factor.bidDone = true := by
  have hkeep : (isManager (closeReports b) || (closeReports b).factor.isolated) = true := by
    rw [closeReports_isManager, closeReports_factor]
    exact Bool.or_eq_true_iff.2 hown
  rw [doBidDeadline_eq htwo hrun, if_pos hkeep]
  refine ⟨bidOf_storeBid _, ?_⟩
  rw [storeBid_factor, closeReports_factor]

theorem doBidDeadline_sends (htwo : runsTwo b = true) (hrun : isOn b FCTR.BOOK_CTL.RUN = true)
    (hmgr : isManager b = false) (hiso : b.factor.isolated = false) :
    bidMsg (makeBid (atCut b)) ∈ (doBidDeadline b).io.out ∧ (doBidDeadline b).factor.bidDone = true := by
  have hsend : (isManager (closeReports b) || (closeReports b).factor.isolated) = false := by
    rw [closeReports_isManager, closeReports_factor, hmgr]
    exact hiso
  rw [doBidDeadline_eq htwo hrun, if_neg (by rw [hsend]; decide)]
  refine ⟨(sends_toManager _).out _ (by simp), ?_⟩
  rw [(sends_toManager _).factor, emit_factor, closeReports_factor]

/-! Deadlines with nothing received (R67). -/

theorem overrun_counts : rd (overrun b) FCTR.CLR_STAT.OVERRUNS = min (rd b FCTR.CLR_STAT.OVERRUNS + 1) 255 := by
  rw [overrun, rd_raise_incSat (by decide) (by decide), min_comm]
  rfl

@[simp] theorem overrun_factor : (overrun b).factor = b.factor := by simp [overrun]

theorem doGrantDeadline_late (hmaster : isMaster b = true) (hrole : rd b SYS.MODE.ROLE = 1)
    (hrun : isOn b FCTR.BOOK_CTL.RUN = true) (hnew : b.factor.frameNew = false) :
    rd (doGrantDeadline b) FCTR.CLR_STAT.OVERRUNS = min (rd b FCTR.CLR_STAT.OVERRUNS + 1) 255 ∧
      (doGrantDeadline b).factor.grantLate = true := by
  rw [doGrantDeadline, if_pos ⟨hmaster, hrole, hrun, by simp [hnew]⟩]
  exact ⟨overrun_counts, by rw [overrun_factor]⟩

theorem doPlanDeadline_late (hnone : b.factor.planNext = none)
    (hruns : runsTwo b = false ∨ isOn b FCTR.BOOK_CTL.RUN = true) :
    rd (doPlanDeadline b) FCTR.CLR_STAT.OVERRUNS = min (rd b FCTR.CLR_STAT.OVERRUNS + 1) 255 ∧
      (doPlanDeadline b).factor.planLate = true := by
  have hgo : ¬(b.factor.planNext.isSome = true ∨ runsTwo b = true ∧ (!isOn b FCTR.BOOK_CTL.RUN) = true) := by
    rcases hruns with h | h <;> simp [hnone, h]
  rw [doPlanDeadline, if_neg hgo]
  exact ⟨overrun_counts, by rw [overrun_factor]⟩

/-! Plans (R66, R67, R77). -/

theorem takePlan_factor (p : Plan) :
    (takePlan p b).factor = if b.factor.planLate then b.factor else { b.factor with planNext := some p } := by
  unfold takePlan
  split <;> rfl

theorem doPlanFrame_next {p : Plan} (hlate : b.factor.planLate = false) : (doPlanFrame p b).factor.planNext = some p := by
  unfold doPlanFrame
  extract_lets bad was f b₁ b₂
  have h₁ : b₁.factor.planNext = some p := by
    unfold b₁
    rw [takePlan_factor, if_neg (by simp [f, hlate])]
  have h₂ : b₂.factor = b₁.factor := by
    unfold b₂
    split <;> simp
  rw [when_raise_factor, h₂, h₁]

/-- The plan published, before it is taken: events, the duration shown and the plan sent. -/
def announce (gs : List Nat) (held : Bool) (b : Blk) : Blk :=
  let p := levelTwo (atCut b) gs held
  let c := when (p.trunks.any fun t => t.reason == 3) (raise pgFCTR 8) b
  let c := when (moveBlocked (atCut c) gs) (raise pgFCTR 14) c
  let ns := c.time.clk - c.factor.cutAt
  toMembers (.plan p) (emit (probe false 3 none ns (wrU c FCTR.CLR_STAT.DUR_US (ns / 1000))) (.plan p))

theorem publish_eq (gs : List Nat) (held : Bool) :
    publish gs held b = takePlan (levelTwo (atCut b) gs held) (announce gs held b) := rfl

theorem announce_factor (gs : List Nat) (held : Bool) : (announce gs held b).factor = b.factor := by
  unfold announce
  dsimp only
  rw [(sends_toMembers _).factor, emit_factor, probe_factor, wrU_factor, when_raise_factor, when_raise_factor]

theorem publish_factor (gs : List Nat) (held : Bool) : (publish gs held b).factor =
    if b.factor.planLate then b.factor else { b.factor with planNext := some (levelTwo (atCut b) gs held) } := by
  rw [publish_eq, takePlan_factor, announce_factor]

/-- Publishing leaves the registers but the duration shown, the page's events, and those of the lanes and monitors. -/
theorem publish_rd (gs : List Nat) (held : Bool) {F : Fld} (hlink : F.a / 0x1000 * 0x1000 ≠ pgLINK)
    (hmon : F.a / 0x1000 * 0x1000 ≠ pgMON) (hdur : F.a ≠ FCTR.CLR_STAT.DUR_US.a) (hraw : F.a ≠ pgFCTR + 0x20) :
    rd (publish gs held b) F = rd b F := by
  have htake (p : Plan) (c : Blk) : rd (takePlan p c) F = rd c F := by
    unfold takePlan
    split <;> rfl
  rw [publish_eq, htake]
  unfold announce
  dsimp only
  rw [(sends_toMembers _).rd hlink, emit_rd]
  refine (congrArg F.of (wordOf_probe hmon)).trans ?_
  refine (rd_wr_ne (.inl hdur)).trans ?_
  rw [rd_when_raise_ne hraw, rd_when_raise_ne hraw]

/-- A plan published in time is the next. -/
theorem publish_next {gs : List Nat} {held : Bool} (h : b.factor.planLate = false) :
    (publish gs held b).factor.planNext.isSome = true := by
  rw [publish_factor, if_neg (by simp [h])]
  rfl

theorem publish_frame {gs : List Nat} {held : Bool} : (publish gs held b).factor.frame = b.factor.frame ∧
    (publish gs held b).factor.frameNew = b.factor.frameNew := by
  rw [publish_factor]
  split <;> exact ⟨rfl, rfl⟩

theorem doGrantFrame_takes {f : GrantFrame} (hmaster : isMaster b = true) (hrole : rd b SYS.MODE.ROLE = 1)
    (hstack : f.stack = sitePort b 0 / 16) (hsite : rd b SYS.MODE.SITE_STATE ≠ 3) (hlate : b.factor.grantLate = false) :
    (doGrantFrame f b).factor.frame = some f ∧
      (b.factor.planLate = false → (doGrantFrame f b).factor.planNext.isSome = true) := by
  rw [doGrantFrame, if_pos ⟨hmaster, hrole, hstack, hsite, by simp [hlate]⟩]
  refine ⟨publish_frame.1.trans ?_, fun h => publish_next ?_⟩
  · rw [wrU_factor, wr_factor]
  · rw [wrU_factor, wr_factor]
    exact h

end Sys2Proof.Machine
end

section
/-!
SUPPORT. Level one (R70 to R73, R84, R85): what it leaves of the Factor's state and the site cap it shows: O14.
-/

namespace Sys2Proof.Machine

open Sys2Proof.Num

variable {b c : Blk}

/-- A count stored in a field reads back, cut at the field's limit. -/
theorem rd_wrU_same {F : Fld} {v : Nat} (hF : F.lo + F.w ≤ 32) : rd (wrU b F v) F = satU F.w v := by
  have hlt : satU F.w v < 2 ^ F.w := (satU_le _ _).trans_lt (Nat.sub_lt (Nat.two_pow_pos _) Nat.one_pos)
  rw [wrU, rd_wr_same hF, Nat.mod_eq_of_lt hlt]

theorem rd_wrU_ne {F G : Fld} {v : Nat} (h : G.a ≠ F.a) : rd (wrU b F v) G = rd b G := rd_wr_ne (.inl h)

/-! Missing bids (R67). -/

/-- The registers that the count of missing bids leaves. -/
theorem staleBids_rd {F : Fld} (hage : ∀ s, F.a ≠ (FCTR.ROW.STK_AGE.AGE s).a) (hstat : F.a ≠ FCTR.CLR_STAT.STALE.a)
    (hraw : F.a ≠ pgFCTR + 0x20) : rd (staleBids b) F = rd b F := by
  unfold staleBids
  extract_lets l c
  have hc : rd c F = rd b F :=
    forEach_rel (P := fun c => rd c F = rd b F) l (fun s _ c hc => (rd_wr_ne (.inl (hage s))).trans hc) rfl
  split
  · exact hc
  · rw [rd_raise_ne hraw, rd_wrU_ne hstat, hc]

theorem staleBids_factor : (staleBids b).factor = b.factor := by
  unfold staleBids
  extract_lets l c
  have hc : c.factor = b.factor :=
    forEach_rel (P := fun c => c.factor = b.factor) l (fun s _ c hc => (incSat_factor c _ _).trans hc) rfl
  split
  · exact hc
  · rw [raise_factor, wrU_factor, hc]

/-! The site cap (R70). -/

/-- The site cap rests on registers of the configuration, of present stacks and of the mode, and on the cut's snapshot. -/
theorem portCap_atCut_congr (hf : c.factor = b.factor)
    (h : ∀ F : Fld, (∀ s, F.a ≠ (FCTR.ROW.STK_AGE.AGE s).a) → F.a ≠ FCTR.CLR_STAT.STALE.a → F.a ≠ pgFCTR + 0x20 →
      rd c F = rd b F) : portCap (atCut c) = portCap (atCut b) := by
  have hrd {F : Fld} (hlow : F.a < 0x80400) (hstat : F.a ≠ FCTR.CLR_STAT.STALE.a) (hraw : F.a ≠ pgFCTR + 0x20) :
      rd (atCut c) F = rd (atCut b) F :=
    h F (fun s => by simp only [FCTR.ROW.STK_AGE.AGE]; omega) hstat hraw
  have hrow (s : Nat) : isOn (atCut c) (FCTR.ROW.STK_CFG.PRESENT s) = isOn (atCut b) (FCTR.ROW.STK_CFG.PRESENT s) := by
    have hword : rd (atCut c) (FCTR.ROW.STK_CFG.PRESENT s) = rd (atCut b) (FCTR.ROW.STK_CFG.PRESENT s) :=
      h _ (fun r => by simp only [FCTR.ROW.STK_CFG.PRESENT, FCTR.ROW.STK_AGE.AGE]; omega)
        (by simp only [FCTR.ROW.STK_CFG.PRESENT, FCTR.CLR_STAT.STALE]; omega)
        (by simp only [FCTR.ROW.STK_CFG.PRESENT, pgFCTR]; omega)
    simp only [isOn, hword]
  have hfac : (atCut c).factor = (atCut b).factor := by simp only [atCut, hf]
  have hin : stacksIn (atCut c) = stacksIn (atCut b) := by
    unfold stacksIn sitePort
    rw [hrd (F := SYS.MODE.ROLE) (by decide) (by decide) (by decide),
      hrd (F := SYS.MODE.STACK) (by decide) (by decide) (by decide),
      hrd (F := FCTR.PEERS.PRESENT) (by decide) (by decide) (by decide)]
    simp only [hrow]
  have hbid : bidOf (atCut c) = bidOf (atCut b) := by
    funext s
    simp only [bidOf, hfac]
  unfold portCap
  rw [hin, hbid, hfac, hrd (F := FCTR.BOOK_CTL.PERIOD) (by decide) (by decide) (by decide),
    hrd (F := FCTR.SITE_CAP.CAP_KW) (by decide) (by decide) (by decide),
    hrd (F := FCTR.MARGIN.MARGIN_KW) (by decide) (by decide) (by decide)]

theorem portCap_staleBids : portCap (atCut (staleBids b)) = portCap (atCut b) :=
  portCap_atCut_congr staleBids_factor fun _ hage hstat hraw => staleBids_rd hage hstat hraw

/-! Level one. -/

/-- Level one shows its results and keeps the grants and their reasons, and nothing else of the Factor's state. -/
theorem levelOne_factor (island : Bool) :
    ∃ g r, (levelOne island b).factor = { b.factor with grants := g, reasons := r } := by
  unfold levelOne
  extract_lets b₁ a pc cap b₂ b₃ b₄ r gr b₅ b₆
  have h₁ : b₁.factor = b.factor := by
    unfold b₁
    split
    · rfl
    · exact staleBids_factor
  have h₂ : b₂.factor = b₁.factor := by
    unfold b₂
    split <;> simp
  have h₆ : b₆.factor = b.factor := by
    unfold b₆ b₅ b₄ b₃
    rw [wrU_factor, when_raise_factor, when_raise_factor, wrU_factor, h₂, h₁]
  exact ⟨gr, reasonTab a gr, congrArg (fun f : FactorSt => { f with grants := gr, reasons := reasonTab a gr }) h₆⟩

/-- The site cap as the manager's level one shows it. -/
def ShowsCap (b c : Blk) : Prop :=
  rd c FCTR.CAP_EFF.CAP_EFF = satU FCTR.CAP_EFF.CAP_EFF.w (portCap (atCut b)).2.2.1 ∧
    rd c FCTR.P_ALLOW.P_ALLOW = satU FCTR.P_ALLOW.P_ALLOW.w (portCap (atCut b)).1 ∧
    rd c FCTR.P_OVH.P_OVH = satU FCTR.P_OVH.P_OVH.w (portCap (atCut b)).2.1

theorem levelOne_showsCap : ShowsCap b (levelOne false b) := by
  unfold levelOne
  extract_lets b₁ a pc cap b₂ b₃ b₄ r gr b₅ b₆
  have hpc : pc = portCap (atCut b) := portCap_staleBids
  have hlast {F : Fld} (hraw : F.a ≠ pgFCTR + 0x20) (hgr : F.a ≠ FCTR.GRANTED.GRANTED.a) : rd b₆ F = rd b₃ F := by
    unfold b₆ b₅ b₄
    rw [rd_wrU_ne hgr, rd_when_raise_ne hraw, rd_when_raise_ne hraw]
  refine ⟨?_, ?_, ?_⟩
  · rw [rd_setFactor, hlast (by decide) (by decide), ← hpc]
    exact rd_wrU_same (by decide)
  · rw [rd_setFactor, hlast (by decide) (by decide), ← hpc]
    unfold b₃
    rw [rd_wrU_ne (by decide)]
    exact (rd_wrU_ne (by decide)).trans (rd_wrU_same (by decide))
  · rw [rd_setFactor, hlast (by decide) (by decide), ← hpc]
    unfold b₃
    rw [rd_wrU_ne (by decide)]
    exact rd_wrU_same (by decide)

/-! LEVEL_ONE (R53). -/

/-- The manager's grant frames leave for the stacks, each with the budget it shows. -/
def grantStacks (b : Blk) : Blk :=
  let here := stacksIn b
  forEach (List.range 16) (fun s b =>
    if !here.contains s then wr b (FCTR.ROW.STK_BUDGET.BUDGET s) 0
    else
      let b := wrU b (FCTR.ROW.STK_BUDGET.BUDGET s) (frameFor b s).budget
      if s = sitePort b 0 / 16 then b else toStack s (.grantFrame (frameFor b s)) (emit b (.grantFrame (frameFor b s)))) b

theorem grantStacks_keeps : (grantStacks b).factor = b.factor ∧ ∀ F : Fld, F.a < 0x80400 → F.a / 0x1000 * 0x1000 ≠ pgLINK →
    rd (grantStacks b) F = rd b F := by
  unfold grantStacks
  refine forEach_rel (P := fun c => c.factor = b.factor ∧ ∀ F : Fld, F.a < 0x80400 → F.a / 0x1000 * 0x1000 ≠ pgLINK →
    rd c F = rd b F) _ (fun s _ c ⟨hf, hrd⟩ => ?_) ⟨rfl, fun _ _ _ => rfl⟩
  have hbudget {F : Fld} (hlow : F.a < 0x80400) : F.a ≠ (FCTR.ROW.STK_BUDGET.BUDGET s).a := by
    simp only [FCTR.ROW.STK_BUDGET.BUDGET]
    omega
  split
  · exact ⟨(wr_factor ..).trans hf, fun F hlow hlink => (rd_wr_ne (.inl (hbudget hlow))).trans (hrd F hlow hlink)⟩
  extract_lets d
  have hd : d.factor = b.factor := (wrU_factor ..).trans hf
  have hdrd (F : Fld) (hlow : F.a < 0x80400) (hlink : F.a / 0x1000 * 0x1000 ≠ pgLINK) : rd d F = rd b F :=
    (rd_wrU_ne (hbudget hlow)).trans (hrd F hlow hlink)
  split
  · exact ⟨hd, hdrd⟩
  · have hsend := (sends_emit (b := d) (.grantFrame (frameFor d s))).trans (sends_toStack s (.grantFrame (frameFor d s)))
    exact ⟨hsend.factor.trans hd, fun F hlow hlink => (hsend.rd hlink).trans (hdrd F hlow hlink)⟩

/-- A frame comes into force for this device's stack and its plan is published. -/
def issueFrame (f : GrantFrame) (b : Blk) : Blk :=
  publish f.grants false { b with factor := { b.factor with frame := some f, frameNew := true } }

theorem issueFrame_publishes (f : GrantFrame) : (issueFrame f b).factor.frameNew = true ∧
    (b.factor.planLate = false → (issueFrame f b).factor.planNext.isSome = true) :=
  ⟨publish_frame.2, fun h => publish_next h⟩

theorem doLevelOne_isolated (hrun : isOn b FCTR.BOOK_CTL.RUN = true) (hpow : mayPower b = true)
    (hiso : b.factor.isolated = true) :
    doLevelOne b = issueFrame (frameFor (levelOne true (storeBid (makeBid (atCut b)) b))
      (sitePort (levelOne true (storeBid (makeBid (atCut b)) b)) 0 / 16)) (levelOne true (storeBid (makeBid (atCut b)) b)) := by
  unfold doLevelOne
  rw [if_neg (by simp [hrun, hpow]), if_pos (.inl hiso)]
  rfl

theorem doLevelOne_manager (hrun : isOn b FCTR.BOOK_CTL.RUN = true) (hpow : mayPower b = true)
    (hiso : b.factor.isolated = false) (hmgr : isManager b = true) :
    doLevelOne b = issueFrame (frameFor (grantStacks (levelOne false b)) (sitePort (grantStacks (levelOne false b)) 0 / 16))
      (grantStacks (levelOne false b)) := by
  have hrole : rd b SYS.MODE.ROLE ≠ 1 := by
    have hor : rd b SYS.MODE.ROLE = 2 ∨ rd b SYS.MODE.ROLE = 0 := by simpa [isManager] using hmgr
    omega
  unfold doLevelOne
  rw [if_neg (by simp [hrun, hpow]), if_neg (by simp [hiso, hrole]), if_neg (by simp [hrole]), if_pos hmgr]
  rfl

theorem doLevelOne_publishes (hrun : isOn b FCTR.BOOK_CTL.RUN = true) (hpow : mayPower b = true)
    (hown : b.factor.isolated = true ∨ isManager b = true) :
    (doLevelOne b).factor.frameNew = true ∧
      (b.factor.planLate = false → (doLevelOne b).factor.planNext.isSome = true) := by
  by_cases hiso : b.factor.isolated = true
  · rw [doLevelOne_isolated hrun hpow hiso]
    obtain ⟨g, r, hone⟩ := levelOne_factor (b := storeBid (makeBid (atCut b)) b) true
    refine ⟨(issueFrame_publishes _).1, fun h => (issueFrame_publishes _).2 ?_⟩
    rw [hone, storeBid_factor]
    exact h
  · rw [doLevelOne_manager hrun hpow (Bool.eq_false_iff.2 hiso) (hown.resolve_left hiso)]
    obtain ⟨g, r, hone⟩ := levelOne_factor (b := b) false
    refine ⟨(issueFrame_publishes _).1, fun h => (issueFrame_publishes _).2 ?_⟩
    rw [grantStacks_keeps.1, hone]
    exact h

theorem doLevelOne_showsCap (hrun : isOn b FCTR.BOOK_CTL.RUN = true) (hpow : mayPower b = true)
    (hiso : b.factor.isolated = false) (hmgr : isManager b = true) : ShowsCap b (doLevelOne b) := by
  obtain ⟨heff, hallow, hovh⟩ := levelOne_showsCap (b := b)
  have hrd {F : Fld} (hlow : F.a < 0x80400) (hlink : F.a / 0x1000 * 0x1000 ≠ pgLINK)
      (hmon : F.a / 0x1000 * 0x1000 ≠ pgMON) (hdur : F.a ≠ FCTR.CLR_STAT.DUR_US.a) (hraw : F.a ≠ pgFCTR + 0x20) :
      rd (doLevelOne b) F = rd (levelOne false b) F := by
    rw [doLevelOne_manager hrun hpow hiso hmgr, issueFrame, publish_rd _ _ hlink hmon hdur hraw, rd_setFactor,
      grantStacks_keeps.2 F hlow hlink]
  exact ⟨(hrd (by decide) (by decide) (by decide) (by decide) (by decide)).trans heff,
    (hrd (by decide) (by decide) (by decide) (by decide) (by decide)).trans hallow,
    (hrd (by decide) (by decide) (by decide) (by decide) (by decide)).trans hovh⟩

end Sys2Proof.Machine
end

section
/-!
SUPPORT. What the adoption of a plan (R64, R73, R78 to R82) leaves of the Factor's state: O14.
-/

namespace Sys2Proof.Machine

open Sys2Proof.Num

variable {b c : Blk}

theorem factor_forEach {α : Type} {f : α → Blk → Blk} (l : List α) (h : ∀ x c, (f x c).factor = c.factor) :
    (forEach l f b).factor = b.factor :=
  forEach_rel (P := fun c => c.factor = b.factor) l (fun x _ c hc => (h x c).trans hc) rfl

/-! The sequencer's part (R99 to R101, R153). -/

@[simp] theorem setXfer_factor (g : Nat) (x : XferSt) : (setXfer g x b).factor = b.factor := by
  unfold setXfer
  split <;> rfl

@[simp] theorem setWeight_factor (k t mode : Nat) : (setWeight k t mode b).factor = b.factor := rfl
@[simp] theorem setClamp_factor (g : Nat) (on : Bool) : (setClamp g on b).factor = b.factor := by simp [setClamp]
@[simp] theorem vToward_factor (g v : Nat) : (vToward g v b).factor = b.factor := setXfer_factor g _
@[simp] theorem vFrom_factor (g v : Nat) : (vFrom g v b).factor = b.factor := setXfer_factor g _
@[simp] theorem divTest_factor (g t dst : Nat) : (divTest g t dst b).factor = b.factor := by simp [divTest]
@[simp] theorem xferMatch_factor (g : Nat) : (xferMatch g b).factor = b.factor := by simp [xferMatch]

@[simp] theorem xferStart_factor (g src dst rank : Nat) : (xferStart g src dst rank b).factor = b.factor := by
  unfold xferStart
  dsimp only
  split
  · split <;> simp
  split <;> simp

@[simp] theorem noteMove_factor (k : Nat) (d : GrpPlan) (old : Nat) : (noteMove k d old b).factor = b.factor := by
  unfold noteMove
  dsimp only
  split <;> rfl

@[simp] theorem adoptGroup_factor (k : Nat) (d : GrpPlan) : (adoptGroup k d b).factor = b.factor := by
  unfold adoptGroup
  extract_lets w loc g cur b₁ src dst
  have h₁ : b₁.factor = b.factor := by
    unfold b₁
    split <;> rfl
  split
  · rfl
  split
  · rfl
  split
  · exact h₁
  split
  · exact h₁
  · rw [xferStart_factor, h₁]

/-! The loops' part (R79 to R81, R152, R155, R156). -/

@[simp] theorem setSlot_factor (i : Nat) (x : SlotSt) : (setSlot i x b).factor = b.factor := rfl
@[simp] theorem setP_factor (i p : Nat) : (setP i p b).factor = b.factor := wr_factor b _ _
@[simp] theorem clearSat_factor (i : Nat) : (clearSat i b).factor = b.factor := by simp [clearSat]

@[simp] theorem setState_factor (i p : Nat) : (setState i p b).factor = b.factor := by
  unfold setState
  split <;> simp

@[simp] theorem softStart_factor (i : Nat) : (softStart i b).factor = b.factor := by simp [softStart]
@[simp] theorem awaitStart_factor (i : Nat) : (awaitStart i b).factor = b.factor := by simp [awaitStart]

@[simp] theorem newDraw_factor (i p : Nat) : (newDraw i p b).factor = b.factor := by
  unfold newDraw
  dsimp only
  split <;> simp

@[simp] theorem placeLoop_factor (i : Nat) : (placeLoop i b).factor = b.factor := by
  unfold placeLoop
  split <;> simp

/-- A slot that a plan takes into use. -/
theorem startSlot_factor (i t p r : Nat) :
    (wr (wr (wr (wr (wr b (CE.SLOT.CFG.KIND i) 1) (CE.SLOT.BIND.TRUNK i) t) (CE.SLOT.BIND.SITE_PORT i) p)
      (CE.SLOT.STATE.RETRY i) r) (CE.SLOT.STATE.SEG i) r).factor = b.factor := by simp

@[simp] theorem adoptLoop_factor (t : Nat) (e : TrunkPlan) : (adoptLoop t e b).factor = b.factor := by
  unfold adoptLoop
  extract_lets me i x b₁ j b₂ b₃ b₄
  have h₁ : b₁.factor = b.factor := (newDraw_factor ..).trans (setSlot_factor ..)
  have h₄ : b₄.factor = b.factor := by
    rw [show b₄.factor = b₃.factor from (clearSat_factor j).trans (setSlot_factor ..)]
    exact startSlot_factor ..
  split
  · split
    · split
      · rw [placeLoop_factor, h₁]
      · exact h₁
    split
    · rfl
    split
    · rw [setSlot_factor, h₄]
    · rw [awaitStart_factor, h₄]
  split
  · split
    · exact setSlot_factor ..
    · exact setSlot_factor ..
  · rfl

@[simp] theorem adoptOnly_factor (e : TrunkPlan) : (adoptOnly e b).factor = b.factor :=
  factor_forEach _ fun g c => setMod_factor c g _

theorem adoptField_factor (p : Plan) : (adoptField p b).factor = b.factor := by
  unfold adoptField
  split
  · rfl
  dsimp only
  rw [factor_forEach _ fun t c => adoptOnly_factor _, factor_forEach, factor_forEach]
  · intro k c
    split
    · exact adoptGroup_factor k _
    · rfl
  · intro t c
    split
    · exact adoptLoop_factor t _
    · rfl

/-! Registers, offsets and the mirror (R82, R90, R128). -/

theorem setOrder_factor (k : Nat) (o : Order) :
    (setOrder k o b).factor = { b.factor with book := (setOrder k o b).factor.book } := rfl

/-- What a plan says of a trunk reaches the Factor's book alone. -/
theorem adoptTrunk_factor (t : Nat) (e : TrunkPlan) :
    (adoptTrunk t e b).factor = { b.factor with book := (adoptTrunk t e b).factor.book } := by
  unfold adoptTrunk
  extract_lets o l b₁ b₂ b₃ b₄
  have h₁ : b₁.factor = b.factor := by
    unfold b₁
    split <;> rfl
  have h₄ : b₄.factor = b.factor := by
    unfold b₄ b₃ b₂
    rw [wr_factor, wr_factor, wr_factor, wrB_factor, h₁]
  split
  · rw [setOrder_factor, h₄]
  · rw [h₄]

@[simp] theorem modOffsets_factor (g : Nat) : (modOffsets g b).factor = b.factor := by
  unfold modOffsets
  dsimp only
  rw [factor_forEach _ fun p c => wr_factor c _ _, wr_factor]

@[simp] theorem hostRecord_factor (code : Nat) (perm : Bool) (p : List Byte) : (hostRecord code perm p b).factor = b.factor := by
  unfold hostRecord
  split
  · rfl
  · exact wr_factor _ _ _

theorem sends_toMirror (m : Msg) : Sends b (toMirror m b) := by
  unfold toMirror
  dsimp only
  split
  · exact (sends_emit m).trans (sends_toPartner 3 m)
  · exact (sends_emit m).trans (sends_sendTo _ 3 m)

@[simp] theorem dbRead_factor (k n : Nat) : (dbRead b k n).blk.factor = b.factor := by
  unfold dbRead
  rw [outside_factor (outside_readMem k n _)]
  split <;> rfl

@[simp] theorem copyRecord_factor (k : Nat) : (copyRecord k b).factor = b.factor := by
  unfold copyRecord
  dsimp only
  split
  · simp
  · rw [(sends_toMirror _).factor, dbRead_factor]

@[simp] theorem startFullCopy_factor : (startFullCopy b).factor = b.factor := by
  unfold startFullCopy
  dsimp only
  rw [factor_forEach _ fun k c => copyRecord_factor k, wrB_factor]

@[simp] theorem adoptMirror_factor (w : Nat) : (adoptMirror w b).factor = b.factor := by
  unfold adoptMirror
  extract_lets w old b₁ d b₂
  have h₂ : b₂.factor = b.factor := by
    rw [show b₂.factor = b₁.factor from rfl, raise_factor, hostRecord_factor, setWord_factor]
  split
  · rfl
  split
  · rw [startFullCopy_factor, h₂]
  · rw [wrB_factor, h₂]

/-! PLAN_ADOPT (R64). -/

/-- A plan and the next one, after what a plan says of the trunks. -/
theorem plans_adoptTrunks (p : Plan) (l : List Nat) :
    (forEach l (fun t c => adoptTrunk t (p.trunks.getD t {}) c) b).factor.plan = b.factor.plan ∧
      (forEach l (fun t c => adoptTrunk t (p.trunks.getD t {}) c) b).factor.planNext = b.factor.planNext := by
  refine forEach_rel (P := fun c => c.factor.plan = b.factor.plan ∧ c.factor.planNext = b.factor.planNext) l
    (fun t _ c ⟨hplan, hnext⟩ => ?_) ⟨rfl, rfl⟩
  rw [adoptTrunk_factor]
  exact ⟨hplan, hnext⟩

theorem doPlanAdopt_adopts {p : Plan} (h : b.factor.planNext = some p) :
    (doPlanAdopt b).factor.plan = p ∧ (doPlanAdopt b).factor.planNext = none := by
  unfold doPlanAdopt
  simp only [h]
  rw [raise_factor, adoptMirror_factor, factor_forEach _ fun g c => ?_, (plans_adoptTrunks p _).1, (plans_adoptTrunks p _).2,
    adoptField_factor, factor_forEach _ fun k c => noteMove_factor k _ _]
  · exact ⟨rfl, rfl⟩
  · split
    · exact modOffsets_factor g
    · rfl

/-- The bid of a stack's frame is stored under the stack it names. -/
theorem enterBid_stores {x : BidData} (hen : enabled b pgFCTR = true) (hmgr : isManager b = true)
    (hstack : frameLE x.frame 4 1 < 16) :
    bidOf (enterBid x b) (frameLE x.frame 4 1) = bidFrom x.frame x.lims x.noGrant.toNat x.absent.toNat := by
  rw [enterBid, gated_fctr hen, if_pos ⟨hmgr, hstack⟩]
  exact bidOf_storeBid _

/-- Settles O14: each step reaches its case of the model, whose record (a report, a bid, a frame, a plan) is the one named. -/
theorem clearingLevels : Obligations.ClearingLevels := by
  refine ⟨fun pos r s hen hmaster hnow => ?_, fun f l ng ab s hen hmgr hstack hnow => ?_,
    fun s hen htwo hrun hown => ?_, fun s hen htwo hrun hmgr hiso => ?_, fun s hen hrun hpow hown => ?_,
    fun s hen hrun hpow hiso hmgr => ?_, fun f s hen hmaster hrole hstack hsite hlate hnow => ?_,
    fun s hen hmaster hrole hrun hnew => ?_, fun p s hen hlate hnow => ?_, fun s hen hnone hruns => ?_,
    fun p s hen hnext => ?_⟩
  · refine ⟨_, runIn_now 3 _ hnow, ?_⟩
    rw [enterAvailReport, gated_fctr hen, if_pos hmaster]
    exact storeReport_keeps pos.val r
  · exact ⟨_, runIn_now 3 _ hnow, enterBid_stores hen hmgr hstack⟩
  · refine completes_run (f := gated pgFCTR doBidDeadline) rfl ?_
    rw [gated_fctr hen]
    exact doBidDeadline_stores htwo hrun hown
  · refine completes_run (f := gated pgFCTR doBidDeadline) rfl ?_
    rw [gated_fctr hen]
    exact doBidDeadline_sends htwo hrun hmgr hiso
  · refine completes_run (f := gated pgFCTR doLevelOne) rfl ?_
    rw [gated_fctr hen]
    exact doLevelOne_publishes hrun hpow hown
  · refine completes_run (f := gated pgFCTR doLevelOne) rfl ?_
    rw [gated_fctr hen]
    exact doLevelOne_showsCap hrun hpow hiso hmgr
  · refine ⟨_, runIn_now 3 _ hnow, ?_⟩
    rw [enterGrantFrame, gated_fctr hen]
    exact doGrantFrame_takes hmaster hrole hstack hsite hlate
  · refine completes_run (f := gated pgFCTR doGrantDeadline) rfl ?_
    rw [gated_fctr hen]
    exact doGrantDeadline_late hmaster hrole hrun hnew
  · refine ⟨_, runIn_now 3 _ hnow, ?_⟩
    rw [enterPlanFrame, gated_fctr hen]
    exact doPlanFrame_next hlate
  · refine completes_run (f := gated pgFCTR doPlanDeadline) rfl ?_
    rw [gated_fctr hen]
    exact doPlanDeadline_late hnone hruns
  · refine completes_run (f := gated pgFCTR doPlanAdopt) rfl ?_
    rw [gated_fctr hen]
    exact doPlanAdopt_adopts hnext

end Sys2Proof.Machine
end

section
/-!
SUPPORT. What the control engine (chapter 7) keeps when other parts of a device act: its state and the registers of its slots.
-/

namespace Sys2Proof.Machine

open Sys2Proof.Num

variable {b c : Blk}

/-- What a block shows of the control engine: its state and the words of its slots' registers. -/
def engine (b : Blk) : (Nat → Word) × CeSt :=
  (fun a => if 0x130400 ≤ a ∧ a < 0x130800 then wordOf b a else 0, b.ce)

/-- An address that is no slot's register. -/
def OffSlots (a : Nat) : Prop := a < 0x130400 ∨ 0x130800 ≤ a

theorem engine_of (hw : ∀ a, ¬OffSlots a → wordOf c a = wordOf b a) (hce : c.ce = b.ce) : engine c = engine b := by
  refine Prod.ext (funext fun a => ?_) hce
  by_cases ha : 0x130400 ≤ a ∧ a < 0x130800
  · simp only [engine, ha, hw a (by unfold OffSlots; omega)]
  · simp only [engine, ha, if_false]

theorem engine_ce (h : engine c = engine b) : c.ce = b.ce := congrArg Prod.snd h

theorem engine_wordOf (h : engine c = engine b) {a : Nat} (ha : ¬OffSlots a) : wordOf c a = wordOf b a := by
  have ha' : 0x130400 ≤ a ∧ a < 0x130800 := by unfold OffSlots at ha; omega
  simpa [engine, ha'] using congrFun (congrArg Prod.fst h) a

theorem engine_rd (h : engine c = engine b) {F : Fld} (hF : ¬OffSlots F.a) : rd c F = rd b F :=
  congrArg F.of (engine_wordOf h hF)

theorem engine_slotOf (h : engine c = engine b) (i : Nat) : slotOf c i = slotOf b i := by rw [slotOf, slotOf, engine_ce h]

/-! Registers that are no slot's. -/

theorem engine_wr {F : Fld} {v : Nat} (h : OffSlots F.a) : engine (wr b F v) = engine b :=
  engine_of (fun _ ha => wordOf_wr_ne fun he => ha (he ▸ h)) (wr_ce b F v)

theorem engine_wrB {F : Fld} {v : Bool} (h : OffSlots F.a) : engine (wrB b F v) = engine b := engine_wr h
theorem engine_incSat {F : Fld} {n : Nat} (h : OffSlots F.a) : engine (incSat b F n) = engine b := engine_wr h

theorem engine_raise {pg k : Nat} (h : OffSlots (pg + 0x20)) : engine (raise pg k b) = engine b :=
  engine_of (fun _ ha => wordOf_raise fun he => ha (he ▸ h)) (raise_ce b pg k)

/-! Parts that are not the engine's. -/

@[simp] theorem engine_emit (m : Msg) : engine (emit b m) = engine b := rfl
@[simp] theorem engine_setLsw (n : Nat) (x : LswCh) : engine (setLsw n x b) = engine b := rfl
@[simp] theorem engine_setMod (g : Nat) (x : ModSt) : engine (setMod g x b) = engine b := by
  unfold setMod
  split <;> rfl

theorem engine_forEach {α : Type} {f : α → Blk → Blk} (l : List α) (h : ∀ x ∈ l, ∀ c, engine (f x c) = engine c) :
    engine (forEach l f b) = engine b :=
  forEach_rel (P := fun c => engine c = engine b) l (fun x hx c hc => (h x hx c).trans hc) rfl

theorem engine_sends (h : Sends b c) : engine c = engine b := by
  refine engine_of (fun a ha => h.words a fun hpg => ha ?_) h.ce
  simp only [pgLINK] at hpg
  unfold OffSlots
  omega

@[simp] theorem engine_probe (field : Bool) (code : Nat) (inst : Option Nat) (x : Int) :
    engine (probe field code inst x b) = engine b := by
  refine engine_of (fun a ha => wordOf_probe fun hpg => ha ?_) (probe_ce ..)
  unfold OffSlots
  cases field <;> simp only [pgFMON, pgMON, if_true, Bool.false_eq_true, if_false] at hpg <;> omega

/-! Orders and faults (R56, R62). -/

@[simp] theorem engine_drawFault (p : Nat) : engine (drawFault p b) = engine b := by
  unfold drawFault
  split
  · rfl
  · dsimp only
    rw [engine_raise (.inl (by decide))]
    split <;> rfl

@[simp] theorem engine_hwLimit (n src req : Nat) : engine (hwLimit n src req b) = engine b :=
  engine_sends ((sends_emit _).trans (sends_passUp _))

@[simp] theorem engine_hwWithdraw (n src : Nat) : engine (hwWithdraw n src b) = engine b :=
  engine_sends ((sends_emit _).trans (sends_passUp _))

@[simp] theorem engine_tellFault (p mask : Nat) : engine (tellFault p mask b) = engine b := by
  unfold tellFault
  dsimp only
  rw [engine_forEach _ fun q _ c => engine_sends (sends_toPos q 2 _), engine_emit]
  have hup : engine (passUp (.fault p) (drawFault p (emit b (.order (.fault p))))) = engine b := by
    rw [engine_sends (sends_passUp _), engine_drawFault, engine_emit]
  split
  · exact hup
  · exact (engine_sends (sends_sendTo ..)).trans hup

/-! Group commands (R20, R80, R116). -/

@[simp] theorem engine_applyCmd {g : Nat} (hg : g < 3) (x : CmdRt) : engine (applyCmd g x b) = engine b := by
  have hcnt : OffSlots (MOD.CMD_CNT.STALE g).a := .inl (by simp only [ MOD.CMD_CNT.STALE]; omega)
  have hcmd : OffSlots (MOD.IGPK.CMD g).a := .inl (by simp only [ MOD.IGPK.CMD]; omega)
  unfold applyCmd
  extract_lets y stale foreign b₁
  split
  · exact engine_incSat hcnt
  split
  · rfl
  · rw [engine_probe, engine_wr hcmd, engine_setMod]

@[simp] theorem engine_takeCmd {g : Nat} (hg : g < 3) (x : CmdRt) : engine (takeCmd g x b) = engine b := by
  have hstale : OffSlots (MOD.CMD_CNT.STALE g).a := .inl (by simp only [ MOD.CMD_CNT.STALE]; omega)
  have hlate : OffSlots (MOD.CMD_CNT.LATE g).a := .inl (by simp only [ MOD.CMD_CNT.LATE]; omega)
  unfold takeCmd
  extract_lets y stale d
  split
  · exact engine_incSat hstale
  split
  · rw [engine_applyCmd hg, engine_incSat hlate]
  · exact engine_setMod ..

@[simp] theorem engine_doGroupCommand (cycle trunk mask : Nat) (refs : List Nat) (owner : Nat) :
    engine (doGroupCommand cycle trunk mask refs owner b) = engine b := by
  refine engine_forEach _ fun e _ c => ?_
  split
  · split
    · exact engine_takeCmd (Nat.mod_lt _ (by decide)) _
    · rfl
  · rfl

/-- After an abort the old owner's plan words and the groups' commands are as before the handover (R80). -/
theorem engine_restoreOwner {t : Nat} (ht : t < 32) : engine (restoreOwner t b) = engine b := by
  have hpos : OffSlots (FCTR.TRUNK_PLAN.OWNER_POS t).a := .inl (by simp only [FCTR.TRUNK_PLAN.OWNER_POS]; omega)
  have hslot : OffSlots (FCTR.TRUNK_PLAN.SLOT t).a := .inl (by simp only [FCTR.TRUNK_PLAN.SLOT]; omega)
  unfold restoreOwner
  extract_lets o b₁ l b₂
  have h₁ : engine b₁ = engine b := by
    unfold b₁
    split
    · rfl
    · rw [engine_wr hslot, engine_wr hpos]
  rw [engine_forEach]
  · exact h₁
  · intro g _ c
    split
    · exact engine_setMod ..
    · rfl

/-! Switched channels a loop drives (R354 to R365). -/

/-- Every register of the low-side switches lies above the control engine's. -/
theorem offSlots_high {k i : Nat} (h : 0x130800 ≤ k) : OffSlots (k + i) := .inr (Nat.le_add_right_of_le h)

@[simp] theorem engine_lswPeriod (n vr : Nat) : engine (lswPeriod n vr b) = engine b := by
  unfold lswPeriod
  extract_lets x eff freq b₁ b₂
  have h₁ : engine b₁ = engine b := by
    unfold b₁
    split <;> rfl
  split
  · rfl
  · rw [engine_wrB (offSlots_high (by decide)), engine_wr (offSlots_high (by decide))]
    exact h₁

@[simp] theorem engine_lswShut (n : Nat) : engine (lswShut n b) = engine b :=
  engine_forEach _ fun m _ c => by
    rw [engine_wrB (offSlots_high (by decide)), engine_wrB (offSlots_high (by decide)),
      engine_wrB (offSlots_high (by decide)), engine_setLsw]

@[simp] theorem engine_lswInrushEnd (n : Nat) : engine (lswInrushEnd n b) = engine b :=
  engine_forEach _ fun m _ c => by
    rw [engine_lswPeriod, engine_setLsw, engine_wrB (offSlots_high (by decide)),
      engine_wrB (offSlots_high (by decide))]

@[simp] theorem engine_lswStart (n : Nat) : engine (lswStart n b) = engine b := by
  unfold lswStart
  extract_lets k burst first stage l b₁
  have h₁ : engine b₁ = engine b := engine_forEach _ fun m _ c => by
    rw [engine_wr (offSlots_high (by decide)), engine_wrB (offSlots_high (by decide)),
      engine_wrB (offSlots_high (by decide)), engine_wrB (offSlots_high (by decide)), engine_setLsw]
  split
  · rfl
  split
  · rw [engine_lswInrushEnd, h₁]
  · exact h₁

@[simp] theorem engine_lswFollow (n : Nat) : engine (lswFollow n b) = engine b := by
  unfold lswFollow
  dsimp only
  split
  · rfl
  split
  · split
    · rfl
    · exact engine_lswStart n
  · rw [engine_forEach _ fun m _ c => engine_setLsw m _, engine_lswShut]

@[simp] theorem engine_lswDrive (n : Nat) (on : Bool) (duty : Nat) : engine (lswDrive n on duty b) = engine b := by
  unfold lswDrive
  dsimp only
  split
  · rfl
  · rw [engine_lswFollow, engine_setLsw]

@[simp] theorem engine_coolDrive (i n : Nat) : engine (coolDrive i n b) = engine b := by
  unfold coolDrive
  extract_lets u mn mx p v b₁
  have h₁ : engine b₁ = engine b := by
    unfold b₁
    split
    · exact engine_lswDrive ..
    · rfl
  split
  · split
    · rw [engine_lswDrive, h₁]
    split
    · rw [engine_lswDrive, h₁]
    · exact h₁
  · exact h₁

@[simp] theorem engine_genDrive (i : Nat) : engine (genDrive i b) = engine b := by
  unfold genDrive
  dsimp only
  split
  · exact engine_lswDrive ..
  · rfl

end Sys2Proof.Machine
end

section
/-!
SUPPORT. What the computations of loops and tunes (R148 to R165) keep: the cycles that slots show and the measurement windows.
-/

namespace Sys2Proof.Machine

open Sys2Proof.Num

variable {b c : Blk}

/-- The cycle words of the slots and the measurement windows of a block. -/
def windows (b : Blk) : (Nat → Word) × Tab (Int × Int × Nat) :=
  (fun i => if i < 16 then wordOf b (CE.SLOT.CYCLE.CYCLE i).a else 0, b.ce.win)

/-- An address that shows no slot's cycle. -/
def OffCycles (a : Nat) : Prop := a < 0x130400 ∨ 0x130800 ≤ a ∨ a % 64 ≠ 0x28

/-- A slot's register of another offset shows no cycle. -/
theorem offCycles_slot {a k i : Nat} (h : a = k + 64 * i) (hk : k % 64 ≠ 0x28) : OffCycles a := by
  unfold OffCycles
  omega

theorem windows_of (hw : ∀ a, ¬OffCycles a → wordOf c a = wordOf b a) (hwin : c.ce.win = b.ce.win) :
    windows c = windows b := by
  refine Prod.ext (funext fun i => ?_) hwin
  by_cases hi : i < 16
  · have ha : ¬OffCycles (CE.SLOT.CYCLE.CYCLE i).a := by
      simp only [OffCycles, CE.SLOT.CYCLE.CYCLE]
      omega
    simp only [windows, hi, if_true, hw _ ha]
  · simp only [windows, hi, if_false]

theorem windows_win (h : windows c = windows b) : c.ce.win = b.ce.win := congrArg Prod.snd h

theorem windows_cycle (h : windows c = windows b) {i : Nat} (hi : i < 16) :
    rd c (CE.SLOT.CYCLE.CYCLE i) = rd b (CE.SLOT.CYCLE.CYCLE i) := by
  have hword : wordOf c (CE.SLOT.CYCLE.CYCLE i).a = wordOf b (CE.SLOT.CYCLE.CYCLE i).a := by
    simpa [windows, hi] using congrFun (congrArg Prod.fst h) i
  exact congrArg (CE.SLOT.CYCLE.CYCLE i).of hword

theorem windows_engine (h : engine c = engine b) : windows c = windows b := by
  refine windows_of (fun a ha => engine_wordOf h fun hoff => ha ?_) (by rw [engine_ce h])
  unfold OffSlots at hoff
  unfold OffCycles
  omega

/-! Registers and the engine's other state. -/

@[simp] theorem windows_wr {F : Fld} {v : Nat} (h : OffCycles F.a) : windows (wr b F v) = windows b :=
  windows_of (fun _ ha => wordOf_wr_ne fun he => ha (he ▸ h)) (by simp)

@[simp] theorem windows_wrB {F : Fld} {v : Bool} (h : OffCycles F.a) : windows (wrB b F v) = windows b := windows_wr h
@[simp] theorem windows_wrU {F : Fld} {v : Nat} (h : OffCycles F.a) : windows (wrU b F v) = windows b := windows_wr h
@[simp] theorem windows_wrI {F : Fld} {v : Int} (h : OffCycles F.a) : windows (wrI b F v) = windows b := windows_wr h
@[simp] theorem windows_incSat {F : Fld} {n : Nat} (h : OffCycles F.a) : windows (incSat b F n) = windows b := windows_wr h

@[simp] theorem windows_raiseCE (k : Nat) : windows (raise pgCE k b) = windows b := windows_engine (engine_raise (.inl (by decide)))
@[simp] theorem windows_raiseLUT (k : Nat) : windows (raise pgLUT k b) = windows b :=
  windows_engine (engine_raise (.inr (by decide)))
@[simp] theorem windows_raiseFCTR (k : Nat) : windows (raise pgFCTR k b) = windows b :=
  windows_engine (engine_raise (.inl (by decide)))
@[simp] theorem windows_setSlot (i : Nat) (x : SlotSt) : windows (setSlot i x b) = windows b :=
  windows_of (fun _ _ => rfl) rfl
@[simp] theorem windows_setTune (x : TuneSt) : windows { b with ce := { b.ce with tune := x } } = windows b :=
  windows_of (fun _ _ => rfl) rfl
@[simp] theorem windows_setLims (x : Tab (Option Nat)) : windows { b with ce := { b.ce with lims := x } } = windows b :=
  windows_of (fun _ _ => rfl) rfl

theorem windows_when {f : Blk → Blk} (x : Bool) (h : windows (f b) = windows b) : windows (when x f b) = windows b := by
  cases x
  · rfl
  · exact h

theorem windows_forEach {α : Type} {f : α → Blk → Blk} (l : List α) (h : ∀ x ∈ l, ∀ c, windows (f x c) = windows c) :
    windows (forEach l f b) = windows b :=
  forEach_rel (P := fun c => windows c = windows b) l (fun x hx c hc => (h x hx c).trans hc) rfl

/-! The loop law (R148 to R151). -/

@[simp] theorem windows_clearSat (i : Nat) : windows (clearSat i b) = windows b := by
  simp (disch := exact offCycles_slot rfl (by decide)) [clearSat]

@[simp] theorem windows_freeSlot (i : Nat) : windows (freeSlot i b) = windows b := by
  simp (disch := exact offCycles_slot rfl (by decide)) [freeSlot, setP]

@[simp] theorem windows_satBook (i lim : Nat) (sat : Bool) : windows (satBook i lim sat b) = windows b := by
  unfold satBook
  dsimp only
  split
  · exact windows_clearSat i
  split
  · rw [windows_when _ (windows_raiseCE 4)]
    simp (disch := exact offCycles_slot rfl (by decide))
  · simp (disch := exact offCycles_slot rfl (by decide))

@[simp] theorem windows_loopLaw (i t : Nat) (e lo hi : Int) (lim : Nat) : windows (loopLaw i t e lo hi lim b) = windows b := by
  unfold loopLaw
  dsimp only
  split
  · split <;> simp (disch := exact offCycles_slot rfl (by decide))
  · simp (disch := exact offCycles_slot rfl (by decide))

/-! Port loops (R152 to R158, R267). -/

@[simp] theorem windows_setP (i p : Nat) : windows (setP i p b) = windows b :=
  windows_wr (offCycles_slot rfl (by decide))

@[simp] theorem windows_setState (i p : Nat) : windows (setState i p b) = windows b := by
  unfold setState
  split <;> simp

@[simp] theorem windows_softStart (i : Nat) : windows (softStart i b) = windows b := by
  simp (disch := exact offCycles_slot rfl (by decide)) [softStart]

@[simp] theorem windows_slewRefs (i itgt : Nat) : windows (slewRefs i itgt b) = windows b := by
  unfold slewRefs
  dsimp only
  split <;> simp (disch := exact offCycles_slot rfl (by decide))

@[simp] theorem windows_zeroOut (i : Nat) : windows (zeroOut i b) = windows b := by
  simp (disch := exact offCycles_slot rfl (by decide)) [zeroOut]

/-- A retry bit or a group shut down shows no cycle (R62). -/
theorem windows_blockGroups (m : Nat) :
    windows (forEach (bitsOf 12 m) (fun k b => wrB b (FCTR.GRP_STAT.BLOCKED k) true) b) = windows b := by
  refine windows_forEach _ fun k hk c => windows_wrB (.inl ?_)
  have hlt := (mem_bitsOf.1 hk).1
  simp only [FCTR.GRP_STAT.BLOCKED]
  omega

@[simp] theorem windows_shortDetect (i : Nat) : windows (shortDetect i b) = windows b := by
  unfold shortDetect
  extract_lets t b₁ x b₂ shadow b₃ mask b₄
  have h₂ : windows b₂ = windows b := by
    simp (disch := exact offCycles_slot rfl (by decide)) [b₂, b₁]
  have h₃ : windows b₃ = windows b := by rw [windows_setState, h₂]
  have h₄ : windows b₄ = windows b := (windows_blockGroups mask).trans h₃
  split
  · split
    · exact h₃
    · rw [windows_engine (engine_tellFault ..), windows_raiseCE, h₄]
  · rw [windows_setState, h₂]

@[simp] theorem windows_rampDown (i : Nat) : windows (rampDown i b) = windows b := by
  unfold rampDown
  dsimp only
  rw [windows_setState, windows_wrU (offCycles_slot rfl (by decide)), windows_setSlot]

@[simp] theorem windows_measMiss (i : Nat) : windows (measMiss i b) = windows b := by
  unfold measMiss
  dsimp only
  split <;> simp (disch := exact offCycles_slot rfl (by decide))

@[simp] theorem windows_portLaw (i : Nat) (m : MeasFrame) : windows (portLaw i m b) = windows b := by
  unfold portLaw
  extract_lets x t soft b₁ x₁ b₂ b₃ ir vr eI eV b₄ b₅ b₆ y us b₇
  have h₂ : windows b₂ = windows b := by
    unfold b₂
    split <;> rfl
  have h₇ : windows b₇ = windows b := by
    rw [windows_setSlot, windows_loopLaw, windows_wrU (offCycles_slot rfl (by decide)),
      windows_wrB (offCycles_slot rfl (by decide)), windows_slewRefs, h₂]
  split
  · exact h₇
  split
  · rw [windows_shortDetect, h₇]
  split
  · rw [windows_raiseCE, windows_wr (offCycles_slot rfl (by decide)), windows_setState, h₇]
  · exact h₇

@[simp] theorem windows_portStep (i p : Nat) (m : MeasFrame) : windows (portStep i p m b) = windows b := by
  unfold portStep
  split
  · split
    · unfold beginSoft
      split <;> simp
    · rfl
  · exact windows_portLaw i m
  · exact windows_portLaw i m
  · split <;> simp
  · rfl
  · rfl

@[simp] theorem windows_startDrop (i : Nat) : windows (startDrop i b) = windows b := by
  simp (disch := exact offCycles_slot rfl (by decide)) [startDrop]

/-! LOOP_COMPUTE of a port slot (R80, R145, R155, R267). -/

/-- A part of the engine that no loop computation but the ramps' changes: the weights of the groups. -/
theorem rampTick_eq (t us : Nat) : ∃ w, rampTick t us b = { b with ce := { b.ce with weight := w } } := by
  refine forEach_rel (P := fun c => ∃ w, c = { b with ce := { b.ce with weight := w } }) _ (fun k _ c hc => ?_)
    ⟨b.ce.weight, rfl⟩
  obtain ⟨w, rfl⟩ := hc
  dsimp only
  split
  · exact ⟨_, rfl⟩
  · exact ⟨w, rfl⟩

theorem slotCycle_rampTick (i t us : Nat) : slotCycle (rampTick t us b) i = slotCycle b i := by
  obtain ⟨w, hw⟩ := rampTick_eq (b := b) t us
  rw [hw]
  rfl

theorem rd_cycle_wr (i : Nat) : rd (wr b (CE.SLOT.CYCLE.CYCLE i) (slotCycle b i)) (CE.SLOT.CYCLE.CYCLE i) = slotCycle b i := by
  rw [rd_wr_same (by simp [CE.SLOT.CYCLE.CYCLE])]
  exact Nat.mod_mod _ _

/-- The port loop's computation shows its cycle first; what follows leaves it. -/
theorem windows_portCompute (i : Nat) :
    ∃ t us, windows (portCompute i b) =
      windows (wr (rampTick t us b) (CE.SLOT.CYCLE.CYCLE i) (slotCycle (rampTick t us b) i)) := by
  unfold portCompute
  extract_lets x t frame b₁ b₂ b₃ x₃ b₄ p x₄ x₅
  refine ⟨t, slotT b i, ?_⟩
  clear_value frame
  have h₃ : windows b₃ = windows b₂ := by
    unfold b₃
    split <;> simp (disch := exact offCycles_slot rfl (by decide))
  have h₄ : windows b₄ = windows b₂ := (windows_setSlot ..).trans h₃
  have h₅ : windows x₅ = windows b₂ := (windows_setSlot ..).trans h₄
  rw [show wr b₁ (CE.SLOT.CYCLE.CYCLE i) (slotCycle b₁ i) = b₂ from rfl]
  split
  · rw [windows_wr (offCycles_slot rfl (by decide)), windows_setSlot, h₄]
  split
  · rw [windows_zeroOut, h₄]
  split
  · exact h₄
  split
  · split
    · split
      · rw [windows_portLaw, windows_softStart, h₄]
      · exact h₄
    · exact h₄
  split
  · split
    · rw [windows_rampDown, h₄]
    split
    · exact h₄
    · rw [windows_measMiss, h₄]
  · split
    · rw [windows_startDrop, h₅]
    split
    · rw [windows_rampDown, h₅]
    · rw [windows_portStep, h₅]

/-- A shadow owner that gives up leaves the cycles shown (R80). -/
@[simp] theorem windows_handAbort (i : Nat) : windows (handAbort i b) = windows b := by
  unfold handAbort
  extract_lets t m
  rw [windows_raiseFCTR, windows_engine (engine_restoreOwner (rd_lt (CE.SLOT.BIND.TRUNK i))), windows_freeSlot,
    windows_engine (engine_sends (sends_sendRt _ m)), windows_engine (engine_emit m)]

@[simp] theorem windows_digestCheck (i : Nat) : windows (digestCheck i b) = windows b := by
  unfold digestCheck
  dsimp only
  split
  · split
    · exact windows_handAbort i
    · rfl
  · rfl

theorem windows_portCycle (i : Nat) : windows (portCycle i b) = windows (portCompute i b) := by
  unfold portCycle
  extract_lets c x k t sh
  split
  · rw [windows_engine (engine_sends (sends_toOwner ..)), windows_engine (engine_emit _)]
  split
  · rw [windows_digestCheck, windows_setSlot]
  · rfl

/-! LOOP_COMPUTE of a cooling or general slot (R151, R160 to R165). -/

/-- The words of the local ports stand below the slots'. -/
theorem offCycles_ploc {a n : Nat} (h : a = 0x130100 + 4 * n) (hn : n < 4) : OffCycles a := .inl (by omega)

theorem windows_putLim {n : Nat} (hn : n < 4) (src : Nat) (l : Option Nat) : windows (putLim n src l b) = windows b := by
  unfold putLim
  extract_lets key had x b₁ b₂ b₃ b₄
  have h₄ : windows b₄ = windows b := by
    have h₂ : windows b₂ = windows b₁ := by
      refine windows_wrB ?_
      split <;> exact offCycles_ploc rfl hn
    have h₃ : windows b₃ = windows b := (windows_wrU (offCycles_ploc rfl hn)).trans (h₂.trans (windows_setLims _))
    unfold b₄
    split
    · rw [windows_engine (engine_hwWithdraw n src), h₃]
    · exact h₃
  split
  · rw [windows_engine (engine_hwLimit ..), h₄]
  · exact h₄

theorem windows_coolEnter {n : Nat} (hn : n < 4) (lim req : Nat) : windows (coolEnter n lim req b) = windows b := by
  unfold coolEnter
  split
  · rw [windows_raiseCE, windows_putLim hn]
  split
  · rw [windows_raiseCE, windows_putLim hn]
  · rfl

theorem windows_coolDerate {n : Nat} (hn : n < 4) (t : Option Int) : windows (coolDerate n t b) = windows b := by
  unfold coolDerate
  extract_lets lim tder tmax lost b₁
  have h₁ : windows b₁ = windows b := windows_wrB (offCycles_ploc rfl hn)
  split
  · rw [windows_coolEnter hn, h₁]
  split
  · rw [windows_coolEnter hn, h₁]
  split
  · rw [windows_raiseCE, windows_putLim hn, h₁]
  · exact h₁

@[simp] theorem windows_tuneEnd (st cause : Nat) : windows (tuneEnd st cause b) = windows b := by
  unfold tuneEnd
  extract_lets t b₁ b₂ x b₃
  have h₁ : windows b₁ = windows b := by
    rw [windows_wr (.inl (by decide)), windows_wr (.inl (by decide))]
  have h₂ : windows b₂ = windows b := by
    unfold b₂
    split
    · rw [windows_setP, h₁]
    · exact h₁
  rw [windows_raiseCE, windows_setTune, h₂]

@[simp] theorem windows_tuneResult : windows (tuneResult b) = windows b := by
  unfold tuneResult
  dsimp only
  rw [windows_tuneEnd, windows_wrU (.inl (by decide)), windows_wrU (.inl (by decide)), windows_wrU (.inl (by decide)),
    windows_wrU (.inl (by decide)), windows_wrU (.inl (by decide))]

@[simp] theorem windows_tuneCycle (i : Nat) (e : Int) : windows (tuneCycle i e b) = windows b := by
  unfold tuneCycle
  extract_lets t bias d hys high u edge first t₁ t₂ n keep t₃ x b₁ y b₂ b₃
  have h₃ : windows b₃ = windows b := by
    rw [windows_wrI (offCycles_slot rfl (by decide)), windows_wrU (offCycles_slot rfl (by decide)), windows_setSlot,
      windows_setTune]
  split
  · exact windows_tuneEnd 3 3
  split
  · rw [windows_tuneResult, h₃]
  · exact h₃

@[simp] theorem windows_satAct (i : Nat) : windows (satAct i b) = windows b := by
  unfold satAct
  dsimp only
  split
  · rw [windows_setP, windows_wr (offCycles_slot rfl (by decide)), windows_setSlot]
  · rfl

theorem windows_localCompute (i : Nat) :
    windows (localCompute i b) = windows (wr b (CE.SLOT.CYCLE.CYCLE i) (slotCycle b i)) := by
  unfold localCompute
  extract_lets cool n b₁
  split
  · rfl
  rename_i inp hinp
  split
  · rfl
  extract_lets b₂ b₃ lo hi b₄
  have hn : n < 4 := Nat.mod_lt _ (by decide)
  have h₂ : windows b₂ = windows b₁ := by
    unfold b₂
    split
    · exact windows_coolDerate hn inp
    · rfl
  have h₃ : windows b₃ = windows b₁ := by
    unfold b₃
    split
    · rw [windows_wrI (offCycles_slot rfl (by decide)), h₂]
    · exact h₂
  have h₄ : windows b₄ = windows b₁ := by
    unfold b₄
    split
    · rw [windows_wr (offCycles_slot rfl (by decide)), windows_wr (offCycles_slot rfl (by decide)), h₃]
    · exact h₃
  split
  · rw [windows_wrU (offCycles_slot rfl (by decide)), windows_setSlot, h₄]
  extract_lets e
  split
  · exact h₄
  split
  · rw [windows_tuneCycle, h₄]
  · rw [windows_satAct, windows_loopLaw, h₄]

/-! LOOP_COMPUTE (R145). -/

theorem windows_loopSlack (i per : Nat) : windows (loopSlack i per b) = windows b := windows_engine (engine_probe ..)

theorem doLoopCompute_cycle {i : Nat} (hi : i < 16) (hkind : kindOf b i ≠ 0) :
    rd (doLoopCompute i b) (CE.SLOT.CYCLE.CYCLE i) = slotCycle b i := by
  unfold doLoopCompute
  split
  · exact absurd ‹_› hkind
  · obtain ⟨t, us, hwin⟩ := windows_portCompute (b := b) i
    rw [windows_cycle ((windows_loopSlack ..).trans ((windows_portCycle i).trans hwin)) hi, rd_cycle_wr,
      slotCycle_rampTick]
  · rw [windows_cycle ((windows_loopSlack ..).trans (windows_localCompute i)) hi, rd_cycle_wr]

end Sys2Proof.Machine
end

section
/-!
SUPPORT. Cycle starts of loop slots (R145): the output released and the measurement windows.
-/

namespace Sys2Proof.Machine

open Sys2Proof.Num

variable {b c : Blk}

@[simp] theorem slotOf_setSlot_same (i : Nat) (x : SlotSt) : slotOf (setSlot i x b) i = x := Tab.at'_put_same _ _ i x

theorem slotOf_setSlot_ne {i j : Nat} (h : j ≠ i) (x : SlotSt) : slotOf (setSlot i x b) j = slotOf b j :=
  Tab.at'_put_ne _ _ h x

theorem slotOf_ce (h : c.ce = b.ce) (i : Nat) : slotOf c i = slotOf b i := by rw [slotOf, slotOf, h]

@[simp] theorem slotOf_wr (F : Fld) (v i : Nat) : slotOf (wr b F v) i = slotOf b i := slotOf_ce (wr_ce b F v) i
@[simp] theorem slotOf_raise (pg k i : Nat) : slotOf (raise pg k b) i = slotOf b i := slotOf_ce (raise_ce b pg k) i

@[simp] theorem rd_setSlot (i : Nat) (x : SlotSt) (F : Fld) : rd (setSlot i x b) F = rd b F := rfl
theorem pfWarn_setSlot (i : Nat) (x : SlotSt) : pfWarn (setSlot i x b) = pfWarn b := rfl

/-! The output released (R145, R154, R166). -/

/-- New targets change a slot's grant and what is to come alone. -/
theorem newTargets_slot (i : Nat) :
    ∃ g n, slotOf (newTargets i b) i = { slotOf b i with grantI := g, tgtNext := n } := by
  unfold newTargets
  extract_lets x running
  split
  · exact ⟨x.grantI, x.tgtNext, rfl⟩
  · rename_i amps volts _
    refine ⟨amps, none, ?_⟩
    extract_lets changed missed b₁
    have h₁ : slotOf b₁ i = { x with grantI := amps, tgtNext := none } := by rw [slotOf_wr, slotOf_setSlot_same]
    split
    · rw [slotOf_raise, slotOf_wr, h₁]
    split
    · rw [slotOf_wr, h₁]
    · exact h₁

theorem pfWarn_wr {F : Fld} {v : Nat} (h : FPMU.PFSTAT.WARN.a ≠ F.a) : pfWarn (wr b F v) = pfWarn b := isOn_wr_ne (.inl h)

theorem newTargets_pfWarn {i : Nat} (hi : i < 16) : pfWarn (newTargets i b) = pfWarn b := by
  have htgt : FPMU.PFSTAT.WARN.a ≠ (CE.SLOT.TGT.V_TGT i).a := by
    simp only [FPMU.PFSTAT.WARN, CE.SLOT.TGT.V_TGT]
    omega
  have hend : FPMU.PFSTAT.WARN.a ≠ (CE.SLOT.STATE.TGT_END i).a := by
    simp only [FPMU.PFSTAT.WARN, CE.SLOT.STATE.TGT_END]
    omega
  unfold newTargets
  extract_lets x running
  split
  · rfl
  · extract_lets changed missed b₁
    have h₁ : pfWarn b₁ = pfWarn b := (pfWarn_wr htgt).trans (pfWarn_setSlot ..)
    split
    · exact (isOn_raise_ne (by decide)).trans ((pfWarn_wr hend).trans h₁)
    split
    · rw [pfWarn_wr hend, h₁]
    · exact h₁

/-- A slot that is not to fall to zero releases the output last computed. -/
theorem nextOut_slot {i : Nat} (hpf : pfWarn b = false) (hdrop : (slotOf b i).drop = false) :
    nextOut i b = setSlot i { slotOf b i with rel := (slotOf b i).u } b := by
  unfold nextOut
  simp only [hpf, hdrop, Bool.false_eq_true, if_false]

/-- The references sent leave the slots as the release left them (R153). -/
theorem engine_sendCmd (i : Nat) : engine (sendCmd i b) = engine (nextOut i b) := by
  unfold sendCmd
  dsimp only
  split
  · exact engine_doGroupCommand ..
  · rw [engine_sends (sends_toTrunks ..), engine_emit, engine_doGroupCommand]

theorem sendCmd_slot {i : Nat} (hpf : pfWarn b = false) (hdrop : (slotOf b i).drop = false) :
    slotOf (sendCmd i b) i = { slotOf b i with rel := (slotOf b i).u } := by
  rw [engine_slotOf (engine_sendCmd i), nextOut_slot hpf hdrop, slotOf_setSlot_same]

theorem portStart_releases {i : Nat} (hi : i < 16) (hpf : pfWarn b = false) (hhand : (slotOf b i).hand = 0)
    (hdrop : (slotOf b i).drop = false) (hend : (slotOf b i).ending = false) :
    (slotOf (portStart i b) i).rel = (slotOf b i).u := by
  unfold portStart
  extract_lets y b₁ x k sh t b₂ b₃ b₄
  obtain ⟨g, n, hx⟩ : ∃ g n, x = { y with lutHold := none, grantI := g, tgtNext := n } := by
    simpa only [slotOf_setSlot_same] using newTargets_slot (b := setSlot i { y with lutHold := none } b) i
  have hpf₁ : pfWarn b₁ = false := (newTargets_pfWarn hi).trans hpf
  have hx₀ : x.hand = 0 := by rw [hx]; exact hhand
  have hx₁ : x.drop = false := by rw [hx]; exact hdrop
  have hx₂ : x.ending = false := by rw [hx]; exact hend
  have hx₃ : x.u = y.u := by rw [hx]
  have h₃ : b₃ = b₁ := if_neg fun h => absurd (hx₀.symm.trans h.1) (by decide)
  have h₄ : (slotOf b₄ i).rel = x.u ∧ (slotOf b₄ i).ending = false := by
    unfold b₄
    rw [h₃]
    split
    · rename_i hsilent
      have hzero : x.u = 0 ∧ x.rel = 0 := of_decide_eq_true (Bool.and_eq_true_iff.1 hsilent).2
      exact ⟨hzero.2.trans hzero.1.symm, hx₂⟩
    · rw [sendCmd_slot hpf₁ hx₁]
      exact ⟨rfl, hx₂⟩
  have hdone : loopDone b₄ i = false := by simp [loopDone, h₄.2]
  rw [if_neg (by omega), if_neg (by omega), if_neg (by simp [hdone]), h₄.1, hx₃]

/-- A tune that begins leaves the slots (R164). -/
theorem tuneBegin_slotOf (i j : Nat) : slotOf (tuneBegin i b) j = slotOf b j := by
  unfold tuneBegin
  dsimp only
  split
  · exact slotOf_wr ..
  · rfl

theorem localStart_releases (i : Nat) : (slotOf (localStart i b) i).rel = (slotOf b i).u := by
  unfold localStart
  extract_lets x b₁ b₂
  have h₂ : (slotOf b₂ i).rel = x.u := by rw [tuneBegin_slotOf, slotOf_setSlot_same]
  split
  · exact h₂
  split
  · rw [engine_slotOf (engine_coolDrive ..), h₂]
  · rw [engine_slotOf (engine_genDrive i), h₂]

/-! Windows (R145, R152). -/

/-- A port's window is closed with its frame and a new one is open. -/
theorem sendMeas_win (n : Nat) : (sendMeas n b).ce.win = Tab.put (fun _ => (0, 0, 0)) b.ce.win n (0, 0, 0) := by
  unfold sendMeas
  extract_lets w x b₁ b₂ t v i drop cyc m f b₃
  have h₂ : b₂.ce.win = Tab.put (fun _ => (0, 0, 0)) b.ce.win n (0, 0, 0) := by rw [show b₂.ce = b₁.ce from wrU_ce ..]
  have h₃ : b₃.ce.win = b₂.ce.win := by rw [(sends_toOwner t f).ce, emit_ce]
  split
  · exact h₂
  · rw [forEach_rel (P := fun c => c.ce.win = b₃.ce.win) _ (fun s _ c hc => ?_) rfl, h₃, h₂]
    split
    · exact hc
    · exact hc

theorem sendMeas_opens {n : Nat} {l : List Nat} (h : n ∈ l ∨ Tab.at' (fun _ => (0, 0, 0)) b.ce.win n = (0, 0, 0)) :
    Tab.at' (fun _ => (0, 0, 0)) (forEach l sendMeas b).ce.win n = (0, 0, 0) := by
  induction l generalizing b with
  | nil => exact h.resolve_left (List.not_mem_nil)
  | cons m l ih =>
    refine ih (b := sendMeas m b) ?_
    rw [sendMeas_win]
    by_cases hnm : n = m
    · exact .inr (hnm ▸ Tab.at'_put_same ..)
    · rw [Tab.at'_put_ne _ _ hnm]
      exact h.imp_left fun hmem => (List.mem_cons.1 hmem).resolve_left hnm

@[simp] theorem windows_newTargets (i : Nat) : windows (newTargets i b) = windows b := by
  unfold newTargets
  dsimp only
  split
  · rfl
  · split
    · simp (disch := exact offCycles_slot rfl (by decide))
    split <;> simp (disch := exact offCycles_slot rfl (by decide))

@[simp] theorem windows_nextOut (i : Nat) : windows (nextOut i b) = windows b := by
  unfold nextOut
  dsimp only
  split
  · rfl
  split
  · rw [windows_wrU (offCycles_slot rfl (by decide)), windows_setSlot]
  · rfl

@[simp] theorem windows_sendCmd (i : Nat) : windows (sendCmd i b) = windows b := by
  rw [windows_engine (engine_sendCmd i), windows_nextOut]

@[simp] theorem windows_portStart (i : Nat) : windows (portStart i b) = windows b := by
  unfold portStart
  extract_lets y b₁ x k sh t b₂ b₃ b₄
  have h₁ : windows b₁ = windows b := (windows_newTargets i).trans (windows_setSlot ..)
  have h₃ : windows b₃ = windows b := by
    unfold b₃
    split
    · rw [windows_setSlot, windows_engine (engine_sends (sends_toOwner ..)), windows_engine (engine_emit _), h₁]
    · exact h₁
  have h₄ : windows b₄ = windows b := by
    unfold b₄
    split
    · exact h₃
    · rw [windows_sendCmd, h₃]
  split
  · split
    · split
      · rw [windows_sendCmd, windows_raiseFCTR, windows_setP, windows_setSlot, h₁]
      · rw [windows_handAbort, h₁]
    split
    · rw [windows_handAbort, h₁]
    · exact h₁
  split
  · rw [windows_freeSlot, h₃]
  split
  · rw [windows_freeSlot, h₄]
  · exact h₄

@[simp] theorem windows_tuneBegin (i : Nat) : windows (tuneBegin i b) = windows b := by
  unfold tuneBegin
  dsimp only
  split
  · rw [windows_setP, windows_setTune]
  · rfl

@[simp] theorem windows_localStart (i : Nat) : windows (localStart i b) = windows b := by
  unfold localStart
  extract_lets x b₁ b₂
  have h₂ : windows b₂ = windows b := by rw [windows_tuneBegin, windows_setSlot]
  split
  · exact h₂
  split
  · rw [windows_engine (engine_coolDrive ..), h₂]
  · rw [windows_engine (engine_genDrive i), h₂]

/-- A slot's cycle start, by its kind (R145). -/
def startSlot (i : Nat) (b : Blk) : Blk :=
  match kindOf b i with
  | 0 => b
  | 1 => portStart i b
  | _ => localStart i b

theorem doCycleStart_eq (slots ports : Nat) :
    doCycleStart slots ports b = forEach (bitsOf 16 slots) startSlot (forEach (bitsOf 4 ports) sendMeas b) := rfl

theorem windows_startSlot (i : Nat) : windows (startSlot i b) = windows b := by
  unfold startSlot
  split
  · rfl
  · exact windows_portStart i
  · exact windows_localStart i

/-- Every local port named opens a new window. -/
theorem doCycleStart_opens {slots ports n : Nat} (hn : n < 4) (hbit : ports.testBit n = true) :
    Tab.at' (fun _ => (0, 0, 0)) (doCycleStart slots ports b).ce.win n = (0, 0, 0) := by
  rw [doCycleStart_eq, windows_win (windows_forEach _ fun i _ c => windows_startSlot i)]
  exact sendMeas_opens (.inl (mem_bitsOf.2 ⟨hn, hbit⟩))

theorem startSlot_releases {i : Nat} (hi : i < 16) (hkind : kindOf b i ≠ 0) (hpf : pfWarn b = false)
    (hhand : (slotOf b i).hand = 0) (hdrop : (slotOf b i).drop = false) (hend : (slotOf b i).ending = false) :
    (slotOf (startSlot i b) i).rel = (slotOf b i).u := by
  unfold startSlot
  split
  · exact absurd ‹_› hkind
  · exact portStart_releases hi hpf hhand hdrop hend
  · exact localStart_releases i

theorem bitsOf_two_pow : ∀ i : Fin 16, bitsOf 16 (2 ^ i.val) = [i.val] := by decide

/-- A cycle start of one slot alone. -/
theorem doCycleStart_one (i : Fin 16) : doCycleStart (2 ^ i.val) 0 b = startSlot i.val b := by
  rw [doCycleStart_eq, bitsOf_two_pow]
  rfl

end Sys2Proof.Machine
end

section
/-!
SUPPORT. Deadlines, cool-off, measurement frames and handovers of loop slots (R80, R146, R152, R158); the control loops: O16.
-/

namespace Sys2Proof.Machine

open Sys2Proof.Num

variable {b c : Blk}

theorem gated_ce {f : Blk → Blk} (h : enabled b pgCE = true) : gated pgCE f b = f b := gated_on h rfl (by decide)

/-! A missed deadline (R146). -/

theorem doDeadlineMiss_keeps {i : Nat} (hkind : kindOf b i ≠ 0) : (slotOf (doDeadlineMiss i b) i).u = (slotOf b i).rel := by
  unfold doDeadlineMiss
  rw [if_neg hkind, slotOf_raise, incSat, incSat, slotOf_wr, slotOf_wr, slotOf_setSlot_same]

/-! The end of a cool-off (R156, R158). -/

/-- A register's other fields, and other registers of the slot, leave its state. -/
theorem pstate_wr {F : Fld} {v i : Nat}
    (h : (CE.SLOT.STATE.PSTATE i).a ≠ F.a ∨ F.lo + F.w ≤ (CE.SLOT.STATE.PSTATE i).lo) :
    pstate (wr b F v) i = pstate b i := rd_wr_ne (h.imp_right .inr)

theorem pstate_setP {i p : Nat} (hp : p < 8) : pstate (setP i p b) i = p := by
  rw [pstate, setP, rd_wr_same (by simp [CE.SLOT.STATE.PSTATE])]
  exact Nat.mod_eq_of_lt hp

/-- Soft start of a slot that is no shadow: its state, its reference at zero and its cool-off as it was. -/
theorem softStart_begins {i : Nat} (h : pstate b i ≠ 6) :
    pstate (softStart i b) i = 1 ∧ (slotOf (softStart i b) i).iRef = 0 ∧
      (slotOf (softStart i b) i).coolUs = (slotOf b i).coolUs := by
  unfold softStart
  extract_lets x b₁ b₂
  have h₁ : slotOf b₂ i = slotOf b₁ i := by simp only [b₂, slotOf_wr]
  have hp : pstate (wr (wr b₂ (CE.SLOT.REF.V_REF i) 0) (CE.SLOT.STATE.TGT_END i) 0) i = pstate b i := by
    unfold b₂
    rw [pstate_wr (.inr (by simp [CE.SLOT.STATE.TGT_END, CE.SLOT.STATE.PSTATE])),
      pstate_wr (.inl (by simp [CE.SLOT.REF.V_REF, CE.SLOT.STATE.PSTATE])),
      pstate_wr (.inl (by simp [CE.SLOT.REF.I_REF, CE.SLOT.STATE.PSTATE])),
      pstate_wr (.inl (by simp [CE.SLOT.OUT.U, CE.SLOT.STATE.PSTATE])),
      pstate_wr (.inl (by simp [CE.SLOT.INTEG.I, CE.SLOT.STATE.PSTATE]))]
    rfl
  rw [setState, if_neg (by rw [hp]; exact h), setP, slotOf_wr, slotOf_wr, slotOf_wr, h₁, slotOf_setSlot_same]
  exact ⟨pstate_setP (by decide), rfl, rfl⟩

theorem doCooloffEnd_starts {i : Nat} (hkind : kindOf b i = 1) (hstate : pstate b i = 4)
    (hretry : rd b (CE.SLOT.STATE.RETRY i) ≤ rd b CE.SSTART.RETRY_MAX) :
    pstate (doCooloffEnd i b) i = 1 ∧ (slotOf (doCooloffEnd i b) i).iRef = 0 ∧
      (slotOf (doCooloffEnd i b) i).coolUs = 0 := by
  have hgov : govState b i = 4 := by simp [govState, hstate]
  have hp : pstate (setSlot i { slotOf b i with coolUs := 0 } b) i ≠ 6 := by
    rw [pstate, rd_setSlot, ← pstate, hstate]
    decide
  obtain ⟨hstarts, href, hcool⟩ := softStart_begins hp
  rw [doCooloffEnd, if_pos ⟨hkind, hgov, hretry⟩]
  exact ⟨hstarts, href, hcool.trans (by rw [slotOf_setSlot_same])⟩

/-! Measurement frames (R152). -/

/-- The step of a measurement frame for one slot. -/
def takeMeas (t : Nat) (m : MeasFrame) (after : Int) (s : Nat) (b : Blk) : Blk :=
  if kindOf b s = 1 ∧ rd b (CE.SLOT.BIND.TRUNK s) = t then
    probe true 3 (some s) after (setSlot s { slotOf b s with meas := some m } b)
  else b

theorem doMeasFrame_eq (t : Nat) (m : MeasFrame) :
    doMeasFrame t m b =
      forEach (List.range 16) (takeMeas t m ((eFollow b : Int) - (applyInstant b m.cycle - 2000))) b := rfl

/-- The slots' registers stand; a slot keeps what it measures or takes the frame. -/
theorem takeMeas_rd {t : Nat} {m : MeasFrame} {after : Int} {s : Nat} {F : Fld} (hF : ¬OffSlots F.a) :
    rd (takeMeas t m after s b) F = rd b F := by
  unfold takeMeas
  split
  · rw [engine_rd (engine_probe ..) hF, rd_setSlot]
  · rfl

theorem takeMeas_same {t : Nat} {m : MeasFrame} {after : Int} {k : Nat} (hkind : kindOf b k = 1)
    (ht : rd b (CE.SLOT.BIND.TRUNK k) = t) : (slotOf (takeMeas t m after k b) k).meas = some m := by
  rw [takeMeas, if_pos ⟨hkind, ht⟩, engine_slotOf (engine_probe ..), slotOf_setSlot_same]

theorem takeMeas_ne {t : Nat} {m : MeasFrame} {after : Int} {s k : Nat} (hne : k ≠ s) :
    slotOf (takeMeas t m after s b) k = slotOf b k := by
  unfold takeMeas
  split
  · rw [engine_slotOf (engine_probe ..), slotOf_setSlot_ne hne]
  · rfl

theorem forEach_takeMeas {t : Nat} {m : MeasFrame} {after : Int} {k : Nat} (hk : k < 16) {l : List Nat}
    (hkind : kindOf b k = 1) (ht : rd b (CE.SLOT.BIND.TRUNK k) = t) (h : k ∈ l ∨ (slotOf b k).meas = some m) :
    (slotOf (forEach l (takeMeas t m after) b) k).meas = some m := by
  have hcfg : ¬OffSlots (CE.SLOT.CFG.KIND k).a := by
    simp only [OffSlots, CE.SLOT.CFG.KIND]
    omega
  have hbind : ¬OffSlots (CE.SLOT.BIND.TRUNK k).a := by
    simp only [OffSlots, CE.SLOT.BIND.TRUNK]
    omega
  induction l generalizing b with
  | nil => exact h.resolve_left List.not_mem_nil
  | cons s l ih =>
    refine ih (b := takeMeas t m after s b) ((takeMeas_rd hcfg).trans hkind) ((takeMeas_rd hbind).trans ht) ?_
    by_cases hks : k = s
    · subst hks
      exact .inr (takeMeas_same hkind ht)
    · rw [takeMeas_ne hks]
      exact h.imp_left fun hmem => (List.mem_cons.1 hmem).resolve_left hks

theorem doMeasFrame_keeps {t k : Nat} {m : MeasFrame} (hk : k < 16) (hkind : kindOf b k = 1)
    (ht : rd b (CE.SLOT.BIND.TRUNK k) = t) : (slotOf (doMeasFrame t m b) k).meas = some m := by
  rw [doMeasFrame_eq]
  exact forEach_takeMeas hk hkind ht (.inl (List.mem_range.2 hk))

/-- A frame enters at once where inputs do, and one of a cycle that is not over always (R339, R340). -/
theorem execMeasurementFrame_runs {t : Fin 16} {cyc : BitVec 32} {v i w : BitVec 16} {s : State}
    (h : takesNow s.blk = true ∨ cycOlder cyc.toNat (cycleNow s.blk) = false) :
    execMeasurementFrame t cyc v i w s = run (enterMeasurementFrame t cyc v i w) s := by
  unfold execMeasurementFrame
  dsimp only
  split
  · rename_i hold
    exact runIn_now 4 _ (h.resolve_right (by simp [hold]))
  · rfl

/-! Handovers (R80). -/

theorem doHandover_takes {t : Nat} {h : LoopSnap} (hslot : slotFor' b t < 16) (hhand : (slotOf b (slotFor' b t)).hand = 1) :
    (slotOf (doHandover t (.state h) b) (slotFor' b t)).handSnap = true ∧
      (slotOf (doHandover t (.state h) b) (slotFor' b t)).u = h.u ∧
      (slotOf (doHandover t (.state h) b) (slotFor' b t)).iRef = h.iRef := by
  unfold doHandover
  extract_lets i x
  dsimp only
  rw [if_pos ⟨hslot, hhand⟩, setP, slotOf_wr, wrU, slotOf_wr, slotOf_wr, slotOf_wr, slotOf_wr, wrI, slotOf_wr,
    slotOf_setSlot_same]
  exact ⟨rfl, rfl, rfl⟩

theorem doHandover_abort {t : Nat} (ht : t < 32) (hslot : slotFor' b t < 16)
    (hhand : (slotOf b (slotFor' b t)).hand = 2) : (slotOf (doHandover t .abort b) (slotFor' b t)).hand = 0 := by
  unfold doHandover
  dsimp only
  rw [engine_slotOf (engine_restoreOwner ht), if_pos ⟨hslot, hhand⟩, slotOf_raise, slotOf_setSlot_same]

/-- Settles O16: each step reaches its case of the model; what the other parts of the engine do to the slot's release, windows
and cycle is kept out by the views `engine` and `windows`. -/
theorem controlLoops : Obligations.ControlLoops := by
  refine ⟨fun sl i s hen hsl hkind hpf hhand hdrop hend => ?_, fun sl po s hen => ?_, fun i s hen hkind => ?_,
    fun i s hen hkind => ?_, fun i s hen hkind hstate hretry => ?_,
    fun t cyc vp ip w k s hen hnow hkind ht => ?_, fun t h s hen hslot hhand hnow => ?_,
    fun t s hen hslot hhand hnow => ?_⟩
  · refine completes_run (f := gated pgCE fun b => doCycleStart sl.toNat 0 b) rfl ?_
    rw [gated_ce hen, hsl, doCycleStart_one]
    exact startSlot_releases i.isLt hkind hpf hhand hdrop hend
  · refine completes_run (f := gated pgCE fun b =>
      doCycleStart sl.toNat po.toNat (when (decide (po ≠ 0)) (ticketed 14 []) b)) rfl fun n hn hbit => ?_
    rw [gated_ce hen]
    exact doCycleStart_opens hn hbit
  · refine completes_run (f := gated pgCE (doLoopCompute i.val)) rfl ?_
    rw [gated_ce hen]
    exact doLoopCompute_cycle i.isLt hkind
  · refine completes_run (f := gated pgCE (doDeadlineMiss i.val)) rfl ?_
    rw [gated_ce hen]
    exact doDeadlineMiss_keeps hkind
  · refine completes_run (f := gated pgCE (doCooloffEnd i.val)) rfl ?_
    rw [gated_ce hen]
    exact doCooloffEnd_starts hkind hstate hretry
  · refine completes_run (execMeasurementFrame_runs hnow) ?_
    rw [enterMeasurementFrame, gated_ce hen]
    exact doMeasFrame_keeps k.isLt hkind ht
  · refine ⟨_, runIn_now 3 _ hnow, ?_⟩
    rw [enterHandover, gated_ce hen]
    exact doHandover_takes hslot hhand
  · refine ⟨_, runIn_now 3 _ hnow, ?_⟩
    rw [enterHandover, gated_ce hen]
    exact doHandover_abort (by omega) hslot hhand

end Sys2Proof.Machine
end

section
/-!
SUPPORT. What the operations of the trunk sequencer leave of a group's transfer, and what the end of a transfer leaves
(R99 to R106).
-/

namespace Sys2Proof.Machine

open Sys2Proof.Num Sys2Proof.Stated

variable {b c : Blk} {g : Nat}

/-- A command of the enabled sequencer completes with what its operation leaves. -/
theorem completes_trunk {i : Instr} {s : State} {f : Blk → Blk} {P : Blk → Prop} (he : exec i s = run (gated pgTRUNK f) s)
    (hen : enabled s.blk pgTRUNK = true) (h : P (f s.blk)) : Completes i s P :=
  completes_run he (by rwa [gated_trunk hen])

theorem Sends.trunk (h : Sends b c) : c.trunk = b.trunk := (congrArg Blk.trunk h.rest :)

theorem xferOf_of_trunk (h : c.trunk = b.trunk) (k : Nat) : xferOf c k = xferOf b k := by unfold xferOf; rw [h]

/-! Operations that change no transfer. -/

@[simp] theorem xferOf_wr (F : Fld) (v k : Nat) : xferOf (wr b F v) k = xferOf b k := xferOf_of_trunk (wr_trunk ..) k
@[simp] theorem xferOf_wrB (F : Fld) (v : Bool) (k : Nat) : xferOf (wrB b F v) k = xferOf b k := xferOf_wr F _ k
@[simp] theorem xferOf_incSat (F : Fld) (n k : Nat) : xferOf (incSat b F n) k = xferOf b k := xferOf_wr F _ k
@[simp] theorem xferOf_raise (pg n k : Nat) : xferOf (raise pg n b) k = xferOf b k := xferOf_of_trunk (raise_trunk ..) k
@[simp] theorem xferOf_coilState (n st k : Nat) : xferOf (coilState n st b) k = xferOf b k := xferOf_wr ..
@[simp] theorem xferOf_setTrunk (h t k : Nat) : xferOf (setTrunk h t b) k = xferOf b k := xferOf_wr ..
@[simp] theorem xferOf_blockGroup (h k : Nat) : xferOf (blockGroup h b) k = xferOf b k := xferOf_wr ..
@[simp] theorem xferOf_setWeight (n t mode k : Nat) : xferOf (setWeight n t mode b) k = xferOf b k := rfl

@[simp] theorem xferOf_setClamp (h : Nat) (on : Bool) (k : Nat) : xferOf (setClamp h on b) k = xferOf b k :=
  xferOf_of_trunk (by simp [setClamp]) k

@[simp] theorem xferOf_xferResult (h res k : Nat) : xferOf (xferResult h res b) k = xferOf b k :=
  xferOf_of_trunk (by simp [xferResult]) k

@[simp] theorem xferOf_tellEnd (h t phase k : Nat) : xferOf (tellEnd h t phase b) k = xferOf b k := by
  unfold tellEnd
  dsimp only
  split
  · exact xferOf_of_trunk (sends_sendRt _ _).trunk k
  · rfl

@[simp] theorem xferOf_hostRecord (code : Nat) (perm : Bool) (p : List Byte) (k : Nat) :
    xferOf (hostRecord code perm p b) k = xferOf b k := by
  unfold hostRecord
  split
  · rfl
  · exact xferOf_wr ..

@[simp] theorem trunkV_wr (F : Fld) (v t : Nat) : trunkV (wr b F v) t = trunkV b t := rfl

@[simp] theorem trunkV_setXfer (k : Nat) (x : XferSt) (t : Nat) : trunkV (setXfer k x b) t = trunkV b t := by
  unfold setXfer
  split <;> rfl

@[simp] theorem xferOf_weldFound (h n vsrc vg k : Nat) : xferOf (weldFound h n vsrc vg b) k = xferOf b k := by
  simp [weldFound]

/-! The group's voltage reference (R99, R101). -/

@[simp] theorem xferOf_vToward (hg : g < 3) (v : Nat) :
    xferOf (vToward g v b) g = { xferOf b g with vref := vNow b (xferOf b g), vtgt := v, vAt := b.time.clk } :=
  xferOf_setXfer _ hg

@[simp] theorem xferOf_vFrom (hg : g < 3) (v : Nat) :
    xferOf (vFrom g v b) g = { xferOf b g with vref := 100000 * v, vtgt := v, vAt := b.time.clk } :=
  xferOf_setXfer _ hg

theorem divTest_transfer (hg : g < 3) (t dst : Nat) :
    (xferOf (divTest g t dst b) g).step = (xferOf b g).step ∧ (xferOf (divTest g t dst b) g).vsrc = trunkV b t := by
  simp [divTest, hg]

theorem xferMatch_transfer (hg : g < 3) :
    (xferOf (xferMatch g b) g).step = 5 ∧ (xferOf (xferMatch g b) g).proven = (xferOf b g).proven := by
  simp [xferMatch, hg]

/-! Ends (R100, R104, R105). -/

/-- The retest of a welded coil takes the group's transfer and notes the coil's trunk's voltage. -/
theorem xferOf_weldRetest (hg : g < 3) (n : Nat) :
    ∃ v, xferOf (weldRetest g n b) g = { xferOf b g with step := 13, coil := n, due := 24, vsrc := v } :=
  ⟨_, (xferOf_setXfer _ hg).trans (by rw [xferOf_coilState])⟩

/-- The end of a transfer keeps when the group last closed and that it was proven free, and begins a retest due. -/
theorem xferEnd_transfer (hg : g < 3) :
    (xferOf (xferEnd g b) g).step = endStep (xferOf b g) ∧ (xferOf (xferEnd g b) g).closedAt = (xferOf b g).closedAt ∧
      (xferOf (xferEnd g b) g).proven = (xferOf b g).proven := by
  unfold xferEnd
  extract_lets x b₁ b₂
  have h₂ : xferOf b₂ g = { closedAt := x.closedAt, proven := x.proven } := by simp [b₂, b₁, hg]
  split
  · obtain ⟨v, hv⟩ := xferOf_weldRetest (b := b₂) hg x.due
    rw [hv, h₂]
    exact ⟨rfl, rfl, rfl⟩
  · rw [h₂]
    exact ⟨rfl, rfl, rfl⟩

theorem xferEnd_step (hg : g < 3) : (xferOf (xferEnd g b) g).step = endStep (xferOf b g) := (xferEnd_transfer hg).1

theorem xferFail_step (hg : g < 3) (res : Nat) : (xferOf (xferFail g res b) g).step = endStep (xferOf b g) := by
  simp [xferFail, xferEnd_step hg]

/-- A contact proven closed ends the transfer and stamps the closing (R99). -/
theorem provenClosed_transfer (hg : g < 3) :
    (xferOf (provenClosed g b) g).step = endStep (xferOf b g) ∧
      (xferOf (provenClosed g b) g).closedAt = some b.time.clk := by
  unfold provenClosed
  extract_lets x t b₁ b₂ b₃
  have h₃ : xferOf b₃ g = { x with closedAt := some b.time.clk } := by simp [b₃, b₂, b₁, hg, coilState, setTrunk]
  obtain ⟨hstep, hat, -⟩ := xferEnd_transfer (b := tellEnd g t 2 b₃) hg
  rw [xferOf_raise, hstep, hat, xferOf_tellEnd, h₃]
  exact ⟨rfl, rfl⟩

/-- A contact proven open leaves its group proven free; on the way to a destination the match begins (R99, R101). -/
theorem provenOpen_transfer (hg : g < 3) :
    (xferOf (provenOpen g b) g).proven = true ∧
      ((xferOf b g).proof = false → (xferOf b g).dst < 8 → (xferOf (provenOpen g b) g).step = 5) := by
  unfold provenOpen
  extract_lets x b₁ b₂ b₃
  have h₂ : xferOf b₂ g = { x with proven := true } := by simp [b₂, hg]
  split
  · rename_i hproof
    refine ⟨?_, fun h => ?_⟩
    · rw [(xferEnd_transfer hg).2.2, xferOf_setWeight, h₂]
    · exact absurd (hproof.symm.trans h) (by decide)
  split
  · obtain ⟨hstep, hproven⟩ := xferMatch_transfer (b := b₂) hg
    exact ⟨by rw [hproven, h₂], fun _ _ => hstep⟩
  · rename_i hdst
    refine ⟨?_, fun _ h => absurd h hdst⟩
    rw [xferOf_raise, (xferEnd_transfer hg).2.2, xferOf_setWeight, xferOf_incSat, xferOf_xferResult, h₂]

end Sys2Proof.Machine
end

section
/-!
SUPPORT. What the end of a transfer leaves of the registers: it writes states of coils, the groups' words of FCTR and
CLAMPED, and nothing of the fields beside them.
-/

namespace Sys2Proof.Machine

open Sys2Proof.Num

variable {b : Blk} {g : Nat} {F : Fld}

/-- A field above the three bits of a coil's state, at or past the coils' registers, that is not CLAMPED's bit. -/
structure BesideTransfers (F : Fld) : Prop where
  past : 0x88400 ≤ F.a
  above : 3 ≤ F.lo
  clear : F.lo + F.w ≤ 25 ∨ 26 ≤ F.lo

theorem gIdx_lt (hg : g < 3) : gIdx b g < 12 := by
  have hpos : myPos b < 4 := rd_lt SYS.MODE.POS
  unfold gIdx
  omega

theorem setXfer_rd (F : Fld) (k : Nat) (x : XferSt) : rd (setXfer k x b) F = rd b F := by unfold setXfer; split <;> rfl

section
variable (hF : BesideTransfers F)
include hF

theorem grpStat_rd {G : Fld} {c : Blk} (hg : g < 3) (hG : G.a = 0x80100 + 4 * gIdx c g) (v : Nat) :
    rd (wr b G v) F = rd b F :=
  rd_wr_ne (.inl (by have := hF.past; have := gIdx_lt (b := c) hg; omega))

theorem setTrunk_rd (hg : g < 3) (t : Nat) : rd (setTrunk g t b) F = rd b F := grpStat_rd (c := b) hF hg rfl t
theorem blockGroup_rd (hg : g < 3) : rd (blockGroup g b) F = rd b F := grpStat_rd (c := b) hF hg rfl _

theorem coilState_rd (n st : Nat) : rd (coilState n st b) F = rd b F :=
  rd_wr_ne (.inr (.inr (by simpa [TRUNK.COIL.STAT.STATE] using hF.above)))

theorem setClamp_rd (on : Bool) : rd (setClamp g on b) F = rd b F := by
  have hmod : rd (setMod g { modOf b g with clamp := on } b) F = rd b F := by unfold setMod; split <;> rfl
  exact (rd_wr_ne (.inr hF.clear)).trans hmod

theorem xferResult_rd (res : Nat) : rd (xferResult g res b) F = rd b F := by
  have hlow (G : Fld) (hG : G.a = 0x8806c) {v : Nat} {c : Blk} : rd (wr c G v) F = rd c F :=
    rd_wr_ne (.inl (by have := hF.past; omega))
  unfold xferResult wrU
  rw [hlow TRUNK.LAST_XFER.DUR_MS rfl, hlow TRUNK.LAST_XFER.TO rfl, hlow TRUNK.LAST_XFER.FROM rfl,
    hlow TRUNK.LAST_XFER.GROUP rfl, hlow TRUNK.LAST_XFER.RESULT rfl]

theorem tellEnd_rd (t phase : Nat) : rd (tellEnd g t phase b) F = rd b F := by
  unfold tellEnd
  dsimp only
  split
  · exact ((sends_emit _).trans (sends_sendRt _ _)).rd (by have := hF.past; simp only [pgLINK]; omega)
  · rfl

theorem weldRetest_rd (n : Nat) : rd (weldRetest g n b) F = rd b F :=
  (setXfer_rd F g _).trans (coilState_rd hF n 4)

theorem xferEnd_rd (hg : g < 3) : rd (xferEnd g b) F = rd b F := by
  unfold xferEnd
  extract_lets x b₁ b₂
  have h₂ : rd b₂ F = rd b F :=
    (setClamp_rd hF false).trans ((grpStat_rd (c := b₁) hF hg rfl _).trans (setXfer_rd F g _))
  split
  · exact (weldRetest_rd hF x.due).trans h₂
  · exact h₂

end

/-- A coil found welded is marked (R103). -/
theorem isOn_weldFound {n vsrc vg : Nat} (hg : g < 3) :
    isOn (weldFound g n vsrc vg b) (TRUNK.COIL.STAT.WELDED n) = true := by
  have hF : BesideTransfers (TRUNK.COIL.STAT.WELDED n) :=
    ⟨by simp only [TRUNK.COIL.STAT.WELDED]; omega, by simp [TRUNK.COIL.STAT.WELDED], by simp [TRUNK.COIL.STAT.WELDED]⟩
  have hrec {c : Blk} {p : List Byte} :
      rd (hostRecord 0x0010 true p c) (TRUNK.COIL.STAT.WELDED n) = rd c (TRUNK.COIL.STAT.WELDED n) :=
    congrArg (Fld.of _) (wordOf_hostRecord (by simp only [TRUNK.COIL.STAT.WELDED, DBK.DSTAT.QUEUE]; omega))
  unfold weldFound
  dsimp only
  rw [isOn_raise_ne (by simp only [TRUNK.COIL.STAT.WELDED, pgTRUNK]; omega), isOn, hrec, blockGroup_rd hF hg, incSat,
    rd_wr_ne (.inl (by simp only [TRUNK.COIL.STAT.WELDED, TRUNK.XFER_STAT.WELDS]; omega))]
  exact isOn_wrB_same (by simp [TRUNK.COIL.STAT.WELDED]) (by simp [TRUNK.COIL.STAT.WELDED]) true

end Sys2Proof.Machine
end

section
/-!
SUPPORT. The trunk sequencer's commands that open a contact (R99, R101, R103, R105): O5.
-/

namespace Sys2Proof.Machine

open Sys2Proof.Num Sys2Proof.Stated

variable {b : Blk} {g : Nat}

theorem doShiftEnd_step (hg : g < 3) (h : (xferOf b g).step = 1) : (xferOf (doShiftEnd g b) g).step = 2 := by
  simp [doShiftEnd, h, hg]

theorem doZeroHeld_step (hg : g < 3) (h : (xferOf b g).step = 2) (hz : zeroCurrent b g = true) :
    (xferOf (doZeroHeld g b) g).step = 3 := by
  simp [doZeroHeld, h, hz, hg]

theorem doZeroTimeout_step (hg : g < 3) (h : (xferOf b g).step = 1 ∨ (xferOf b g).step = 2) :
    (xferOf (doZeroTimeout g b) g).step = endStep (xferOf b g) := by
  rw [doZeroTimeout, if_pos h, xferOf_setWeight, xferFail_step hg]

/-- The divergence test of an opened source contact begins, against its trunk's voltage now. -/
theorem doOpenEnd_opened (hg : g < 3) (h : (xferOf b g).step = 3) :
    (xferOf (doOpenEnd g b) g).step = 4 ∧
      (xferOf (doOpenEnd g b) g).vsrc = trunkV b (trunkOf b g (xferOf b g).src) := by
  rw [doOpenEnd, if_pos h, (divTest_transfer hg ..).1, (divTest_transfer hg ..).2]
  simp [hg, coilState]

/-- After a failure to close the test is repeated against the destination (R103). -/
theorem doOpenEnd_failed (hg : g < 3) (h : (xferOf b g).step = 8) :
    (xferOf (doOpenEnd g b) g).step = 9 ∧
      (xferOf (doOpenEnd g b) g).vsrc = trunkV b (trunkOf b g (xferOf b g).dst) := by
  have hne : (xferOf b g).step ≠ 3 := by omega
  rw [doOpenEnd, if_neg hne, if_pos h, (divTest_transfer hg ..).1, (divTest_transfer hg ..).2]
  simp [hg, coilState]

theorem doDiverged_eq {vg : Nat} (h : (xferOf b g).step = 4) (hs : (xferOf b g).silent = false)
    (hd : diverged b vg (testTrunk b g) (xferOf b g).vsrc = true) : doDiverged g vg b = provenOpen g (vFrom g vg b) := by
  simp [doDiverged, h, hs, hd]

/-- The mark of a coil found welded outlasts the end of its transfer. -/
theorem doDivTimeout_ends (hg : g < 3) (h : (xferOf b g).step = 4) :
    (xferOf (doDivTimeout g b) g).step = endStep (xferOf b g) ∧
      ((xferOf b g).src < 8 → isOn (doDivTimeout g b) (TRUNK.COIL.STAT.WELDED (8 * g + (xferOf b g).src)) = true) := by
  rw [doDivTimeout, if_pos h]
  extract_lets n b₁ b₂
  have hx : xferOf b₂ g = xferOf b g := by
    unfold b₂
    split <;> simp [b₁]
  refine ⟨(xferEnd_step hg).trans (by rw [hx]), fun hsrc => ?_⟩
  have hn : n = 8 * g + (xferOf b g).src := by simp [n, hsrc]
  have hF : BesideTransfers (TRUNK.COIL.STAT.WELDED n) :=
    ⟨by simp only [TRUNK.COIL.STAT.WELDED]; omega, by simp [TRUNK.COIL.STAT.WELDED], by simp [TRUNK.COIL.STAT.WELDED]⟩
  have h₂ : rd b₂ (TRUNK.COIL.STAT.WELDED n) = rd b₁ (TRUNK.COIL.STAT.WELDED n) := by
    unfold b₂
    split
    · rfl
    · rw [tellEnd_rd hF, xferResult_rd hF]
  rw [← hn, isOn, xferEnd_rd hF hg, h₂, setTrunk_rd hF hg]
  exact isOn_weldFound hg

theorem doMatched_notes {vg : Nat} (hg : g < 3) (h : (xferOf b g).step = 5) (hs : (xferOf b g).silent = false)
    (hmay : mayClose b vg (trunkOf b g (xferOf b g).dst) = true) : (xferOf (doMatched g vg b) g).matched = true := by
  simp [doMatched, h, hs, hmay, hg]

theorem doMatchTimeout_step (hg : g < 3) (h : (xferOf b g).step = 5) :
    (xferOf (doMatchTimeout g b) g).step = endStep (xferOf b g) := by
  rw [doMatchTimeout, if_pos h, xferOf_setWeight, xferFail_step hg]

/-- Settles O5: each command reaches its case of the sequencer, whose next step is the one named. -/
theorem transferOpens : Obligations.TransferOpens := by
  refine ⟨fun g s hen h => ?_, fun g s hen h hz => ?_, fun g s hen h => ?_, fun g s hen h => ?_, fun g s hen h => ?_,
    fun g vg s hen h hs hd => ?_, fun g s hen h => ?_, fun g vg s hen h hs hmay => ?_, fun g s hen h => ?_⟩
  · exact completes_trunk rfl hen (doShiftEnd_step g.isLt h)
  · exact completes_trunk rfl hen (doZeroHeld_step g.isLt h hz)
  · exact completes_trunk rfl hen (doZeroTimeout_step g.isLt h)
  · exact completes_trunk rfl hen (doOpenEnd_opened g.isLt h)
  · exact completes_trunk rfl hen (doOpenEnd_failed g.isLt h)
  · refine completes_trunk (f := doDiverged g.val vg.toNat) rfl hen ?_
    rw [doDiverged_eq h hs hd]
    have hopen := provenOpen_transfer (b := vFrom g.val vg.toNat s.blk) g.isLt
    rwa [xferOf_vFrom g.isLt] at hopen
  · exact completes_trunk rfl hen (doDivTimeout_ends g.isLt h)
  · exact completes_trunk rfl hen (doMatched_notes g.isLt h hs hmay)
  · exact completes_trunk rfl hen (doMatchTimeout_step g.isLt h)

end Sys2Proof.Machine
end

section
/-!
SUPPORT. The trunk sequencer's commands that close a contact (R96, R97, R99, R100, R102, R103): O6. Of a dead trunk's close
check MATCH_PCT % is taken of the group's voltage, the model's choice (notes/assumptions/17.md).
-/

namespace Sys2Proof.Machine

open Sys2Proof.Num Sys2Proof.Stated

variable {b : Blk} {g : Nat}

/-- A matched transfer with power, its turn, its trunk's owner and no other coil of the group energises its coil. -/
theorem doCoilEnergise_step {vg : Nat} (hg : g < 3) (h : (xferOf b g).step = 5) (hm : (xferOf b g).matched = true)
    (hs : (xferOf b g).silent = false) (hp : mayPower b = true) (hrank : rankWaits b g = false)
    (hhand : handWaits b (trunkOf b g (xferOf b g).dst) = false)
    (hmay : mayClose b vg (trunkOf b g (xferOf b g).dst) = true)
    (hcoil : (List.range 8).any (fun r => coilOn b (8 * g + r) || isOn b (TRUNK.COIL.STAT.WELDED (8 * g + r))) = false) :
    (xferOf (doCoilEnergise g vg b) g).step = 6 := by
  have hready : ¬((xferOf b g).step ≠ 5 ∨ (!(xferOf b g).matched) = true ∨ (xferOf b g).silent = true ∨ (!mayPower b) = true) := by
    simp [h, hm, hs, hp]
  rw [doCoilEnergise, if_neg hready, hrank, hhand, if_neg (by decide), hmay, if_neg (by decide), hcoil, if_neg (by decide),
    xferOf_setXfer _ hg]

theorem doCloseEnd_step (hg : g < 3) (h : (xferOf b g).step = 6) (hs : (xferOf b g).silent = false) :
    (xferOf (doCloseEnd g b) g).step = 7 := by
  rw [doCloseEnd, if_pos ⟨h, by simp [hs]⟩]
  dsimp only
  split <;> simp [hg]

theorem doCloseCheckEnd_eq {i : Nat} (h : (xferOf b g).step = 7) (hd : (xferOf b g).dead = false)
    (hs : (xferOf b g).silent = false) (hi : 2 * rd b TRUNK.ZERO.ZERO_I ≤ i) : doCloseCheckEnd g i b = provenClosed g b := by
  simp [doCloseCheckEnd, h, hd, hs, hi]

theorem doDeadCloseEnd_eq {vg : Nat} (h : (xferOf b g).step = 7) (hd : (xferOf b g).dead = true) (hv : 1500 ≤ vg)
    (hm : 100 * (((vg : Int) - trunkV b (trunkOf b g (xferOf b g).dst)).natAbs) ≤ rd b TRUNK.MATCH.MATCH_PCT * vg) :
    doDeadCloseEnd g vg b = provenClosed g b := by
  simp [doDeadCloseEnd, h, hd, hv, hm]

/-- Whether or not the repeated test diverges, the transfer ends. -/
theorem doFailCloseRetest_step {vg : Nat} (hg : g < 3) (h : (xferOf b g).step = 9) :
    (xferOf (doFailCloseRetest g vg b) g).step = endStep (xferOf b g) := by
  rw [doFailCloseRetest, if_pos h]
  dsimp only
  split <;> simp [xferEnd_step hg]

theorem doSilence_marks (hg : g < 3) (hlo : 4 ≤ (xferOf b g).step) (hhi : (xferOf b g).step ≤ 7) :
    (xferOf (doSilence g b) g).silent = true := by
  simp [doSilence, hlo, hhi, hg]

@[simp] theorem trunkV_vToward (k v t : Nat) : trunkV (vToward k v b) t = trunkV b t := trunkV_setXfer k _ t

/-- A received voltage is the trunk's, whichever groups follow it. -/
theorem doTrunkVoltage_shows (t v : Nat) : trunkV (doTrunkVoltage t v b) t = v := by
  unfold doTrunkVoltage
  refine forEach_rel (P := fun c => trunkV c t = v) _ (fun k _ c hc => ?_) (Tab.at'_put_same ..)
  split
  · dsimp only
    split
    · rw [trunkV_vToward, trunkV_setXfer, hc]
    · rw [trunkV_setXfer, hc]
  · exact hc

/-- Settles O6: each command reaches its case of the sequencer, whose next step is the one named. -/
theorem transferCloses : Obligations.TransferCloses := by
  refine ⟨fun g vg s hen h hm hs hp hrank hhand hmay hcoil => ?_, fun g s hen h hs => ?_, fun g im s hen h hd hs hi => ?_,
    fun g vg s hen h hd hv hm => ?_, fun g vg s hen h => ?_, fun g s hen hlo hhi => ?_, fun t v s hen => ?_⟩
  · exact completes_trunk rfl hen (doCoilEnergise_step g.isLt h hm hs hp hrank hhand hmay hcoil)
  · exact completes_trunk rfl hen (doCloseEnd_step g.isLt h hs)
  · refine completes_trunk (f := doCloseCheckEnd g.val im.toNat) rfl hen ?_
    rw [doCloseCheckEnd_eq h hd hs hi]
    exact provenClosed_transfer g.isLt
  · refine completes_trunk (f := doDeadCloseEnd g.val vg.toNat) rfl hen ?_
    rw [doDeadCloseEnd_eq h hd hv hm]
    exact provenClosed_transfer g.isLt
  · exact completes_trunk rfl hen (doFailCloseRetest_step g.isLt h)
  · exact completes_trunk rfl hen (doSilence_marks g.isLt hlo hhi)
  · exact completes_trunk rfl hen (doTrunkVoltage_shows t.val v.toNat)

end Sys2Proof.Machine
end

section
/-!
SUPPORT. Welded coils and the operations of coils (R104, R111, R112): O8.
-/

namespace Sys2Proof.Machine

open Sys2Proof.Num Sys2Proof.Stated

variable {b : Blk} {g : Nat}

/-- WELD_CLR clears FAIL_CLOSE at once; a marked coil of an idle group is retested (R104). -/
theorem actWeldClr_clears {v : Nat} (hgo : v.testBit 31 = true) (hc : v % 32 < 24) (hen : enabled b pgTRUNK = true) :
    isOn (actWeldClr v b) (TRUNK.COIL.STAT.FAIL_CLOSE (v % 32)) = false ∧
      (isOn b (TRUNK.COIL.STAT.WELDED (v % 32)) = true → (xferOf b (v % 32 / 8)).step = 0 →
        (xferOf (actWeldClr v b) (v % 32 / 8)).step = 13 ∧ (xferOf (actWeldClr v b) (v % 32 / 8)).coil = v % 32) := by
  have htaken : ¬(!v.testBit 31 || decide (24 ≤ v % 32) || !enabled b pgTRUNK) = true := by simp [hgo, hc, hen]
  rw [actWeldClr, if_neg htaken]
  generalize v % 32 = n at hc
  extract_lets b₁
  have hg : n / 8 < 3 := by omega
  have hF : BesideTransfers (TRUNK.COIL.STAT.FAIL_CLOSE n) :=
    ⟨by simp only [TRUNK.COIL.STAT.FAIL_CLOSE]; omega, by simp [TRUNK.COIL.STAT.FAIL_CLOSE],
      by simp [TRUNK.COIL.STAT.FAIL_CLOSE]⟩
  have hclear : isOn b₁ (TRUNK.COIL.STAT.FAIL_CLOSE n) = false :=
    isOn_wrB_same (by simp [TRUNK.COIL.STAT.FAIL_CLOSE]) (by simp [TRUNK.COIL.STAT.FAIL_CLOSE]) false
  have hweld : isOn b₁ (TRUNK.COIL.STAT.WELDED n) = isOn b (TRUNK.COIL.STAT.WELDED n) :=
    isOn_wrB_ne (.inr (.inl (by simp [TRUNK.COIL.STAT.FAIL_CLOSE, TRUNK.COIL.STAT.WELDED])))
  have hx : xferOf b₁ (n / 8) = xferOf b (n / 8) := xferOf_wrB ..
  rw [hweld, hx]
  refine ⟨?_, fun hw hidle => ?_⟩
  · split
    · split
      · exact (congrArg (fun k => decide (k ≠ 0)) (weldRetest_rd hF n)).trans hclear
      · exact (congrArg (fun k => decide (k ≠ 0)) (setXfer_rd _ _ _)).trans hclear
    · exact hclear
  · obtain ⟨w, hretest⟩ := xferOf_weldRetest (b := b₁) hg n
    rw [if_pos hw, if_pos hidle, hretest]
    exact ⟨rfl, rfl⟩

theorem doWeldRetest_step {vg : Nat} (hg : g < 3) (h : (xferOf b g).step = 13) :
    (xferOf (doWeldRetest g vg b) g).step = endStep (xferOf b g) := by
  rw [doWeldRetest, if_pos h]
  extract_lets b₁ b₂ b₃
  split
  · obtain ⟨w, hretest⟩ := xferOf_weldRetest (b := b₃) hg (xferOf b g).due
    rw [hretest]
  · rw [xferOf_setXfer _ hg]

/-- A coil's count takes the value, whether or not its wear warning is given. -/
theorem coilOps_rd {c n : Nat} : rd (coilOps c n b) (TRUNK.COIL.OPS.OPS c) = n % 2 ^ 24 := by
  have hset : rd (wr b (TRUNK.COIL.OPS.OPS c) n) (TRUNK.COIL.OPS.OPS c) = n % 2 ^ 24 :=
    rd_wr_same (by simp [TRUNK.COIL.OPS.OPS])
  unfold coilOps
  dsimp only
  split
  · rw [rd_raise_ne (by simp only [TRUNK.COIL.OPS.OPS, pgTRUNK]; omega)]
    exact (rd_wr_ne (.inl (by simp only [TRUNK.COIL.OPS.OPS, TRUNK.COIL.STAT.WARNED]; omega))).trans hset
  · exact hset

theorem actOpsPreset_presets {v : Nat} (hc : v / 2 ^ 24 % 32 < 24) :
    rd (actOpsPreset v b) (TRUNK.COIL.OPS.OPS (v / 2 ^ 24 % 32)) = v % 2 ^ 24 := by
  rw [actOpsPreset, if_neg (Nat.not_le.2 hc)]
  refine (congrArg (Fld.of _) (wordOf_hostRecord ?_)).trans (coilOps_rd.trans (Nat.mod_mod _ _))
  simp only [TRUNK.COIL.OPS.OPS, DBK.DSTAT.QUEUE]
  omega

/-- Settles O8: the accepted write acts on what the command found, since it changes no other register and no transfer. -/
theorem coilWear : Obligations.CoilWear := by
  refine ⟨fun i v s ha hgo hc hen => ?_, fun g vg s hen h => ?_, fun i v s ha hc => ?_⟩
  · refine completes_run (f := writeAct i false TRUNK.WELD_CLR.GO.a v actWeldClr) rfl ?_
    have hkeep {F : Fld} (hF : F.a ≠ TRUNK.WELD_CLR.GO.a) : rd (writeOf s.blk i TRUNK.WELD_CLR.GO.a v).blk F = rd s.blk F :=
      writeOf_rd_ne ha (by decide) hF
    have hen' : enabled (writeOf s.blk i TRUNK.WELD_CLR.GO.a v).blk pgTRUNK = true := by
      rw [enabled, isOn, hkeep (by decide)]
      exact hen
    have hclr := actWeldClr_clears hgo hc hen'
    rw [isOn, isOn, hkeep (by simp only [TRUNK.COIL.STAT.WELDED, TRUNK.WELD_CLR.GO]; omega),
      xferOf_of_trunk writeOf_trunk] at hclr
    rw [writeAct_accepted ha]
    exact hclr
  · exact completes_trunk rfl hen (doWeldRetest_step g.isLt h)
  · refine completes_run (f := writeAct i false TRUNK.OPS_PRESET.VALUE.a v actOpsPreset) rfl ?_
    rw [writeAct_accepted ha]
    exact actOpsPreset_presets hc

end Sys2Proof.Machine
end
section
/-!
SUPPORT. A register write that takes some field, whether or not another is refused (R534): what it leaves, and that a taken
field which takes any value reads back what was written.
-/

namespace Sys2Proof.Machine

open Sys2Proof.Num

variable {b : Blk} {i : Init} {u : Bool} {pg off a c k : Nat} {v : Word}

/-! What a write that takes some bits leaves. -/

/-- What a write of a row stores, field by field, with the calibration check of R181. -/
def stored (b : Blk) (i : Init) (u : Bool) (pg off : Nat) (v : Word) (r : RegRow) : Blk :=
  calTouch pg r (wordOf b (pg + off)) (judged b i u pg off v r).1
    (setWord (touchPage i pg b) (pg + off) (judged b i u pg off v r).1)

/-- A write that takes some bits stores the word judged; a refused field beside them adds a rejection on the page. -/
theorem storeWord_taken (hm : (storeWord b i u pg off v).mask ≠ 0) :
    ∃ p n r j, pageAt pg = some (p, n) ∧ rowAt p off = some (r, j) ∧
      (storeWord b i u pg off v).mask = (judged b i u pg off v r).2.1 ∧
      ((storeWord b i u pg off v).blk = answer (stored b i u pg off v r) .accepted ∨
        (storeWord b i u pg off v).blk = answer (reject (stored b i u pg off v r) pg) .rejected) := by
  revert hm
  unfold storeWord
  split
  · exact fun h => absurd rfl h
  split
  · exact fun h => absurd rfl h
  rename_i p n hp
  dsimp only
  split
  · exact fun h => absurd rfl h
  split
  · exact fun h => absurd rfl h
  split
  · exact fun h => absurd rfl h
  split
  · exact fun h => absurd rfl h
  rename_i r j hr
  split
  · exact fun _ => ⟨p, n, r, j, hp, hr, rfl, .inl rfl⟩
  · exact fun _ => ⟨p, n, r, j, hp, hr, rfl, .inr rfl⟩

theorem writeOf_taken (hm : (writeOf b i a v).mask ≠ 0) (hcal : calPage (a / 0x1000 * 0x1000) = false) :
    ∃ r, fieldsAt a = some r.fields ∧
      (writeOf b i a v).mask = (judged b i false (a / 0x1000 * 0x1000) (a % 0x1000) v r).2.1 ∧
      ∀ x, x ≠ a / 0x1000 * 0x1000 + 0x10 → wordOf (writeOf b i a v).blk x =
        wordOf (setWord b a (judged b i false (a / 0x1000 * 0x1000) (a % 0x1000) v r).1) x := by
  obtain ⟨p, n, r, j, hp, hr, hmask, hb⟩ := storeWord_taken hm
  have ha : a / 0x1000 * 0x1000 + a % 0x1000 = a := by omega
  refine ⟨r, fieldsAt_eq hp hr, hmask, fun x hx => ?_⟩
  have hstored : wordOf (stored b i false (a / 0x1000 * 0x1000) (a % 0x1000) v r) x =
      wordOf (setWord b a (judged b i false (a / 0x1000 * 0x1000) (a % 0x1000) v r).1) x := by
    rw [stored, calTouch, hcal, if_neg (by simp), ha]
    rfl
  rcases hb with hb | hb
  · rw [writeOf, hb, answer_wordOf, hstored]
  · rw [writeOf, hb, answer_wordOf, wordOf_reject hx, hstored]

/-- Outside the calibration block it changes no word but the register's and the page's PAGE_STAT. -/
theorem writeOf_taken_wordOf_ne (hm : (writeOf b i a v).mask ≠ 0) (hcal : calPage (a / 0x1000 * 0x1000) = false)
    (hc : c ≠ a) (hstat : c ≠ a / 0x1000 * 0x1000 + 0x10) : wordOf (writeOf b i a v).blk c = wordOf b c := by
  obtain ⟨r, -, -, hw⟩ := writeOf_taken hm hcal
  rw [hw c hstat]
  exact wordOf_setWord_ne hc

theorem writeOf_taken_rd_ne {F : Fld} (hm : (writeOf b i a v).mask ≠ 0) (hcal : calPage (a / 0x1000 * 0x1000) = false)
    (hF : F.a ≠ a) (hstat : F.a ≠ a / 0x1000 * 0x1000 + 0x10) : rd (writeOf b i a v).blk F = rd b F :=
  congrArg F.of (writeOf_taken_wordOf_ne hm hcal hF hstat)

/-! A taken field. -/

/-- A field that is stored as it is written, whatever its value. -/
structure Verbatim (f : FieldRow) : Prop where
  acc : f.acc = .rw ∨ f.acc = .rwl
  chk : f.chk = .any
  fits : f.lo + f.w ≤ 32

/-- A step over a field that takes a bit puts the field's written value into the word. -/
theorem fieldStep_taken {x : Word × Nat × Nat} {f : FieldRow} (hf : Verbatim f) (hx : x.2.1.testBit k = false)
    (h : (fieldStep b i u pg off v x f).2.1.testBit k = true) :
    Fld.of ⟨a, f.lo, f.w⟩ (fieldStep b i u pg off v x f).1 = Fld.of ⟨a, f.lo, f.w⟩ v := by
  have hno {p : Prop} (h : x.2.1.testBit k = true) : p := absurd (hx.symm.trans h) (by decide)
  have hput : Fld.of ⟨a, f.lo, f.w⟩ (Fld.ins ⟨0, f.lo, f.w⟩ x.1 (Fld.of ⟨0, f.lo, f.w⟩ v)) = Fld.of ⟨a, f.lo, f.w⟩ v :=
    (Fld.of_ins (F := ⟨0, f.lo, f.w⟩) hf.fits x.1 _).trans (Nat.mod_mod _ _)
  revert h
  unfold fieldStep
  dsimp only
  split
  · exact hno
  split
  · exact hno
  split
  · rename_i hacc
    exact absurd hacc (by rcases hf.acc with h | h <;> simp [h])
  · rename_i hacc
    exact absurd hacc (by rcases hf.acc with h | h <;> simp [h])
  · rw [hf.chk]
    by_cases hkeep : keepRule b (pg + off) f.lo (Fld.of ⟨0, f.lo, f.w⟩ v) v.toNat = true
    · rw [if_pos hkeep]
      exact fun _ => hput
    · rw [if_neg hkeep]
      exact hno

/-- A step over a field adds no bit outside the field. -/
theorem fieldStep_mask_ne {x : Word × Nat × Nat} {f : FieldRow} (hk : k < f.lo ∨ f.lo + f.w ≤ k)
    (h : (fieldStep b i u pg off v x f).2.1.testBit k = true) : x.2.1.testBit k = true := by
  have hout : ((2 ^ f.w - 1) * 2 ^ f.lo).testBit k = false := by
    rw [Nat.mul_comm, Nat.testBit_two_pow_mul, Nat.testBit_two_pow_sub_one]
    rcases hk with hk | hk
    · simp [Nat.not_le.2 hk]
    · simp [show ¬k - f.lo < f.w by omega]
  have hor (h : (x.2.1 ||| (2 ^ f.w - 1) * 2 ^ f.lo).testBit k = true) : x.2.1.testBit k = true := by
    rwa [Nat.testBit_or, hout, Bool.or_false] at h
  revert h
  unfold fieldStep
  dsimp only
  split
  · exact id
  split
  · exact id
  split
  · exact hor
  · exact hor
  · split
    · exact hor
    · exact id

theorem foldl_fieldStep_mask_ne {x : Word × Nat × Nat} (l : List FieldRow) (hl : ∀ f ∈ l, k < f.lo ∨ f.lo + f.w ≤ k)
    (h : (l.foldl (fieldStep b i u pg off v) x).2.1.testBit k = true) : x.2.1.testBit k = true := by
  induction l generalizing x with
  | nil => exact h
  | cons f l ih =>
    exact fieldStep_mask_ne (hl f List.mem_cons_self) (ih (fun g hg => hl g (List.mem_cons_of_mem f hg)) h)

/-- After a write outside the calibration block that took a bit of its first field, a stored one, the field reads what was
written to it. -/
theorem writeOf_rd_taken {f : FieldRow} {l : List FieldRow} (hk : (writeOf b i a v).mask.testBit k = true)
    (hcal : calPage (a / 0x1000 * 0x1000) = false) (hstat : a % 0x1000 ≠ 0x10) (hfields : fieldsAt a = some (f :: l))
    (hf : Verbatim f) (hbit : ∀ g ∈ l, k < g.lo ∨ g.lo + g.w ≤ k) (hd : ∀ g ∈ l, f.lo + f.w ≤ g.lo ∨ g.lo + g.w ≤ f.lo) :
    rd (writeOf b i a v).blk ⟨a, f.lo, f.w⟩ = Fld.of ⟨a, f.lo, f.w⟩ v := by
  have hm : (writeOf b i a v).mask ≠ 0 := fun h => by simp [h] at hk
  obtain ⟨r, hr, hmask, hw⟩ := writeOf_taken hm hcal
  rw [hr, Option.some.injEq] at hfields
  rw [hmask] at hk
  unfold judged at hk hw
  rw [hfields, List.foldl_cons] at hk hw
  rw [rd, hw a (by omega), wordOf_setWord_same, foldl_fieldStep_of_ne (G := ⟨a, f.lo, f.w⟩) l hd]
  exact fieldStep_taken hf (Nat.zero_testBit k) (foldl_fieldStep_mask_ne l hbit hk)

end Sys2Proof.Machine
end

section
/-!
SUPPORT. What driving a load switch (R354 to R365) leaves of a block: all registers below the channels' and every part but
the channels' own state and the free values.
-/

namespace Sys2Proof.Machine

open Sys2Proof.Num

variable {b c d : Blk}

/-- A block and what it is after load switches were driven. -/
structure Switches (b c : Blk) : Prop where
  words : ∀ a, a < 0x178400 → wordOf c a = wordOf b a
  rest : { c with regs := [], io := {}, lsw := {} } = { b with regs := [], io := {}, lsw := {} }

namespace Switches

theorem refl : Switches b b := ⟨fun _ _ => rfl, rfl⟩

theorem trans (h : Switches b c) (h' : Switches c d) : Switches b d :=
  ⟨fun a ha => (h'.words a ha).trans (h.words a ha), h'.rest.trans h.rest⟩

theorem vp (h : Switches b c) : c.vp = b.vp := (congrArg Blk.vp h.rest :)

theorem rd (h : Switches b c) {F : Fld} (hF : F.a < 0x178400) : rd c F = rd b F := congrArg F.of (h.words F.a hF)

end Switches

/-- The channels' registers stand from their base on. -/
theorem switches_wr {k i lo w v : Nat} (h : 0x178400 ≤ k) : Switches b (wr b ⟨k + i, lo, w⟩ v) :=
  ⟨fun _ ha => wordOf_wr_ne (by show _ ≠ k + i; omega), rfl⟩

theorem switches_wrB {k i lo w : Nat} {v : Bool} (h : 0x178400 ≤ k) : Switches b (wrB b ⟨k + i, lo, w⟩ v) := switches_wr h

theorem switches_setLsw (n : Nat) (x : LswCh) : Switches b (setLsw n x b) := ⟨fun _ _ => rfl, rfl⟩
theorem switches_spend : Switches b (spend b) := ⟨fun _ _ => rfl, rfl⟩

theorem switches_forEach {α : Type} {f : α → Blk → Blk} (l : List α) (h : ∀ x c, Switches c (f x c)) :
    Switches b (forEach l f b) :=
  forEach_rel (P := Switches b) l (fun x _ c hc => hc.trans (h x c)) .refl

theorem switches_lswPeriod (n vr : Nat) : Switches b (lswPeriod n vr b) := by
  unfold lswPeriod
  extract_lets x eff freq b₁ b₂
  have h₁ : Switches b b₁ := by
    unfold b₁
    split
    · exact switches_spend
    · exact .refl
  split
  · exact .refl
  · exact ((h₁.trans (switches_setLsw ..)).trans (switches_wr (by decide))).trans (switches_wrB (by decide))

theorem switches_lswShut (n : Nat) : Switches b (lswShut n b) :=
  switches_forEach _ fun _ _ => (((switches_setLsw ..).trans (switches_wrB (by decide))).trans
    (switches_wrB (by decide))).trans (switches_wrB (by decide))

theorem switches_lswInrushEnd (n : Nat) : Switches b (lswInrushEnd n b) :=
  switches_forEach _ fun _ _ => (((switches_wrB (by decide)).trans (switches_wrB (by decide))).trans
    (switches_setLsw ..)).trans (switches_lswPeriod ..)

theorem switches_lswStart (n : Nat) : Switches b (lswStart n b) := by
  unfold lswStart
  extract_lets k burst first stage l b₁
  have h₁ : Switches b b₁ := switches_forEach _ fun _ _ => ((((switches_setLsw ..).trans
    (switches_wrB (by decide))).trans (switches_wrB (by decide))).trans (switches_wrB (by decide))).trans
      (switches_wr (by decide))
  split
  · exact .refl
  split
  · exact h₁.trans (switches_lswInrushEnd n)
  · exact h₁

theorem switches_lswFollow (n : Nat) : Switches b (lswFollow n b) := by
  unfold lswFollow
  dsimp only
  split
  · exact .refl
  split
  · split
    · exact .refl
    · exact switches_lswStart n
  · exact (switches_lswShut n).trans (switches_forEach _ fun c _ => switches_setLsw c _)

theorem switches_lswDrive (n : Nat) (on : Bool) (duty : Nat) : Switches b (lswDrive n on duty b) := by
  unfold lswDrive
  dsimp only
  split
  · exact switches_setLsw ..
  · exact (switches_setLsw ..).trans (switches_lswFollow n)

end Sys2Proof.Machine
end

section
/-!
SUPPORT. What a vehicle port's hold conditions and causes leave (R266, R284), and the port's lock (R265).
-/

namespace Sys2Proof.Machine

open Sys2Proof.Num

variable {b : Blk} {n : Nat} {F : Fld}

theorem clocked_vp (hn : n < 4) : clocked b (pgVP n) = true := by
  unfold clocked
  rw [if_neg (by simp only [pgVP, pgMTR]; omega), if_neg (by simp only [pgVP, pgMESH]; omega),
    if_neg (by simp only [pgVP, pgTHM]; omega), if_neg (by simp only [pgVP, pgETH]; omega)]

theorem gated_vp {f : Blk → Blk} (hn : n < 4) (h : enabled b (pgVP n) = true) : gated (pgVP n) f b = f b :=
  gated_on h (clocked_vp hn) (by simp only [pgVP, pgCH]; omega)

@[simp] theorem vpOf_setVp (x : VpSt) : vpOf (setVp n x b) n = x := Tab.at'_put_same ..

/-! Hold conditions and causes. -/

/-- A field that a port's causes and hold conditions do not show: no event, drop time or cause of the port, and of its
VSTAT only the bits above those of the drop. -/
structure BesideHold (n : Nat) (F : Fld) : Prop where
  raw : F.a ≠ 0x160020 + 0x1000 * n
  drop : F.a < 0x16009c + 0x1000 * n ∨ 0x1600a8 + 0x1000 * n ≤ F.a
  stat : F.a = 0x160044 + 0x1000 * n → 24 ≤ F.lo

/-- Registers below the ports' pages are none of a port's. -/
theorem besideHold_of_lt (h : F.a < 0x160000) : BesideHold n F := ⟨by omega, by omega, by omega⟩

@[simp] theorem vpCause_vp (k : Nat) : (vpCause k n b).vp = b.vp := by
  unfold vpCause
  split <;> simp

theorem vpCause_rd (hF : BesideHold n F) (k : Nat) : rd (vpCause k n b) F = rd b F := by
  obtain ⟨hraw, hdrop, -⟩ := hF
  unfold vpCause
  split
  · rw [rd_raise_ne (by simp only [pgVP]; omega)]
    exact rd_wr_ne (.inl (by simp only [VP.CAUSE.CAUSE]; omega))
  · rfl

@[simp] theorem vpHold_vp : (vpHold n b).vp = b.vp := by
  unfold vpHold
  extract_lets old new b₁ b₂ was now b₃
  have h₂ : b₂.vp = b.vp := by
    unfold b₂
    split <;> simp [b₁]
  split
  · rfl
  split <;> simp [b₃, h₂]

theorem vpHold_rd (hF : BesideHold n F) : rd (vpHold n b) F = rd b F := by
  have hstat {G : Fld} {v : Nat} {c : Blk} (ha : G.a = 0x160044 + 0x1000 * n) (hG : G.lo + G.w ≤ 24) :
      rd (wr c G v) F = rd c F := by
    by_cases hFa : F.a = G.a
    · exact rd_wr_ne (.inr (.inr (hG.trans (hF.stat (hFa.trans ha)))))
    · exact rd_wr_ne (.inl hFa)
  have htime {v : Nat} {c : Blk} : rd (wr64 c (VP.DROP_TS.E n) v) F = rd c F := by
    have hdrop := hF.drop
    exact congrArg F.of ((wordOf_setWord_ne (by simp only [VP.DROP_TS.E]; omega)).trans
      (wordOf_setWord_ne (by simp only [VP.DROP_TS.E]; omega)))
  unfold vpHold
  extract_lets old new b₁ b₂ was now b₃
  have h₁ : rd b₁ F = rd b F := hstat rfl (by simp [VP.VSTAT.HOLD])
  have h₂ : rd b₂ F = rd b₁ F := by
    unfold b₂
    split
    · exact hstat rfl (by simp [VP.VSTAT.DROP_LATCH])
    · rfl
  have h₃ : rd b₃ F = rd b F := (hstat rfl (by simp [VP.VSTAT.DROP])).trans (h₂.trans h₁)
  split
  · rfl
  split
  · rw [vpCause_rd hF, htime, h₃]
  · exact h₃

theorem isOn_vpHold (hF : BesideHold n F) : isOn (vpHold n b) F = isOn b F := by simp only [isOn, vpHold_rd hF]

/-- The upper bits of VSTAT. -/
theorem besideHold_vstat {lo w : Nat} (h : 24 ≤ lo) : BesideHold n ⟨0x160044 + 0x1000 * n, lo, w⟩ :=
  ⟨by simp only []; omega, .inl (by simp only []; omega), fun _ => h⟩

/-! The lock. -/

theorem lockPulseEnd_switches : Switches (setVp n { vpOf b n with pulse := 0 } b) (lockPulseEnd n b) := by
  unfold lockPulseEnd
  extract_lets x b₁
  split
  · exact switches_lswDrive ..
  · exact switches_lswDrive ..
  · exact .refl

theorem lockPulseEnd_pulse : (vpOf (lockPulseEnd n b) n).pulse = 0 := by
  rw [vpOf, lockPulseEnd_switches.vp, ← vpOf, vpOf_setVp]

/-- A drive of the lock switches its channels and leaves the registers below them. -/
theorem lockDrive_rd (hF : F.a < 0x178400) : rd (lockDrive n b) F = rd b F := by
  unfold lockDrive
  extract_lets lock unlock cmd b₁ b₂
  split
  · rfl
  split
  · exact (switches_lswDrive ..).rd hF
  · exact ((switches_lswDrive ..).rd hF).trans (lockPulseEnd_switches.rd hF)

/-- A bistable lock is pulsed the way CMD says (R265). -/
theorem lockDrive_pulse (hen : enabled b (pgVP n) = true) (hlock : rd b (VP.VCTL.LOCK_CH n) ≠ 0xFF)
    (hunlock : rd b (VP.VCTL.UNLOCK_CH n) ≠ 0xFF) :
    (vpOf (lockDrive n b) n).pulse = if isOn b (VP.LOCK.CMD n) then 1 else 2 := by
  unfold lockDrive
  extract_lets lock unlock cmd b₁ b₂
  have hdrives : ¬(lock = 0xFF ∨ (!enabled b (pgVP n)) = true) := by simp [lock, hlock, hen]
  rw [if_neg hdrives, if_neg hunlock, vpOf, (switches_lswDrive ..).vp, ← vpOf, vpOf_setVp]

theorem besideHold_lock : BesideHold n (VP.LOCK.CMD n) :=
  ⟨by simp only [VP.LOCK.CMD]; omega, .inl (by simp only [VP.LOCK.CMD]; omega),
    fun h => absurd h (by simp only [VP.LOCK.CMD]; omega)⟩

theorem actLock_cmd (hn : n < 4) (old : Nat) : rd (actLock old n b) (VP.LOCK.CMD n) = rd b (VP.LOCK.CMD n) := by
  unfold actLock
  split
  · rfl
  · rw [vpHold_rd besideHold_lock, lockDrive_rd (by simp only [VP.LOCK.CMD]; omega)]
    rfl

theorem actLock_pulse {old : Nat} (hold : rd b (VP.LOCK.CMD n) ≠ old) (hen : enabled b (pgVP n) = true)
    (hlock : rd b (VP.VCTL.LOCK_CH n) ≠ 0xFF) (hunlock : rd b (VP.VCTL.UNLOCK_CH n) ≠ 0xFF) :
    (vpOf (actLock old n b) n).pulse = if isOn b (VP.LOCK.CMD n) then 1 else 2 := by
  rw [actLock, if_neg hold, vpOf, vpHold_vp, ← vpOf]
  exact lockDrive_pulse hen hlock hunlock

/-- LOCK holds CMD, which takes any value, and the pulse's length. -/
theorem fieldsAt_lock : ∀ p : Fin 4,
    fieldsAt (VP.LOCK.CMD p.val).a = some [RegForm.fd 31 1 .rw .any, RegForm.fd 0 8 .rwl (.range 10 250)] := by decide

theorem calPage_lock : ∀ p : Fin 4, calPage ((VP.LOCK.CMD p.val).a / 0x1000 * 0x1000) = false := by decide

/-- A write of LOCK whose CMD is taken shows the CMD written. -/
theorem writeOf_lock_cmd {i : Init} {v : Word} (p : Fin 4)
    (hk : (writeOf b i (VP.LOCK.CMD p.val).a v).mask.testBit 31 = true) :
    rd (writeOf b i (VP.LOCK.CMD p.val).a v).blk (VP.LOCK.CMD p.val) = v.toNat / 2 ^ 31 := by
  have hread := writeOf_rd_taken hk (calPage_lock p) (by simp only [VP.LOCK.CMD]; omega) (fieldsAt_lock p)
    ⟨.inl rfl, rfl, by decide⟩ (by decide) (by decide)
  refine hread.trans ?_
  simp [RegForm.fd, Fld.of, Nat.shiftRight_eq_div_pow]
  omega

/-- It leaves PAGE_CTL and VCTL. -/
theorem writeOf_lock_rd_ne {i : Init} {v : Word} (p : Fin 4) (hm : (writeOf b i (VP.LOCK.CMD p.val).a v).mask ≠ 0)
    (hF : F.a = 0x16000c + 0x1000 * p.val ∨ F.a = 0x160040 + 0x1000 * p.val) :
    rd (writeOf b i (VP.LOCK.CMD p.val).a v).blk F = rd b F :=
  writeOf_taken_rd_ne hm (calPage_lock p) (by simp only [VP.LOCK.CMD]; omega) (by simp only [VP.LOCK.CMD]; omega)

/-- A write of LOCK whose CMD is taken and allowed shows CMD and, where it changed, pulses a bistable lock (R265). -/
theorem doLockWrite_commands {i : Init} {v : Word} (p : Fin 4) (hlate : lateWrite b (VP.LOCK.CMD p.val).a = false)
    (hk : (writeOf b i (VP.LOCK.CMD p.val).a v).mask.testBit 31 = true) (hmay : lockMay b p.val (v.toNat / 2 ^ 31) = true) :
    rd (doLockWrite i p.val v b) (VP.LOCK.CMD p.val) = v.toNat / 2 ^ 31 ∧
      (enabled b (pgVP p.val) = true → rd b (VP.LOCK.CMD p.val) ≠ v.toNat / 2 ^ 31 →
        rd b (VP.VCTL.LOCK_CH p.val) ≠ 0xFF → rd b (VP.VCTL.UNLOCK_CH p.val) ≠ 0xFF →
        (vpOf (doLockWrite i p.val v b) p.val).pulse = if v.toNat / 2 ^ 31 = 1 then 1 else 2) := by
  have hm : (writeOf b i (VP.LOCK.CMD p.val).a v).mask ≠ 0 := fun h => by simp [h] at hk
  have hcmd := writeOf_lock_cmd p hk
  have hact : doLockWrite i p.val v b =
      actLock (rd b (VP.LOCK.CMD p.val)) p.val (writeOf b i (VP.LOCK.CMD p.val).a v).blk := by
    rw [doLockWrite, hmay, if_pos rfl, writeAct_now hlate]
    exact if_neg hm
  have hen' : enabled (writeOf b i (VP.LOCK.CMD p.val).a v).blk (pgVP p.val) = enabled b (pgVP p.val) := by
    rw [enabled, isOn, writeOf_lock_rd_ne p hm (.inl (by simp only [hEN, pgVP]; omega)), ← isOn, ← enabled]
  rw [hact]
  refine ⟨(actLock_cmd p.isLt _).trans hcmd, fun hen hne hlock hunlock => ?_⟩
  rw [actLock_pulse (hcmd ▸ hne.symm) (hen'.trans hen) (by rwa [writeOf_lock_rd_ne p hm (.inr rfl)])
    (by rwa [writeOf_lock_rd_ne p hm (.inr rfl)]), isOn, hcmd]
  have hv : v.toNat / 2 ^ 31 = 0 ∨ v.toNat / 2 ^ 31 = 1 := by omega
  rcases hv with hv | hv <;> rw [hv] <;> rfl

end Sys2Proof.Machine
end
section
/-!
SUPPORT. The feedback, the faults and the release of a port's lock (R265): O25.
-/

namespace Sys2Proof.Machine

open Sys2Proof.Num

variable {b : Blk} {n : Nat}

theorem vpHold_vpOf (k : Nat) : vpOf (vpHold n b) k = vpOf b k := congrArg (Tab.at' _ · k) vpHold_vp

theorem lockFault_shows : isOn (lockFault n b) (VP.VSTAT.LOCK_FAULT n) = true := by
  have hF : BesideHold n (VP.VSTAT.LOCK_FAULT n) := besideHold_vstat (by decide)
  rw [lockFault, isOn_vpHold hF, isOn, vpCause_rd hF]
  exact isOn_wrB_same (by simp [VP.VSTAT.LOCK_FAULT]) (by simp [VP.VSTAT.LOCK_FAULT]) true

theorem lockFault_vpOf : vpOf (lockFault n b) n = vpOf b n := by
  rw [lockFault, vpHold_vpOf]
  exact congrArg (Tab.at' _ · n) ((vpCause_vp 11).trans (wrB_vp ..))

/-- The window of a command closes with a fault where the feedback is against CMD. -/
theorem doLockTimeout_fault (hwin : (vpOf b n).lockWin = true)
    (hne : isOn b (VP.VSTAT.LOCKED n) ≠ isOn b (VP.LOCK.CMD n)) :
    isOn (doLockTimeout n b) (VP.VSTAT.LOCK_FAULT n) = true ∧ (vpOf (doLockTimeout n b) n).lockWin = false := by
  have hfault : doLockTimeout n b =
      lockFault n (setVp n { vpOf b n with lockWin := false, lockTest := isOn b (VP.LOCK.CMD n) } b) := by
    rw [doLockTimeout, hwin, if_neg (by decide)]
    exact if_neg hne
  rw [hfault, lockFault_vpOf, vpOf_setVp]
  exact ⟨lockFault_shows, rfl⟩

theorem doLockLost_eq (hcmd : isOn b (VP.LOCK.CMD n) = true) (htest : (vpOf b n).lockTest = true)
    (hopen : isOn b (VP.VSTAT.LOCKED n) = false) (hlock : rd b (VP.VCTL.LOCK_CH n) ≠ 0xFF) :
    doLockLost n b = lockFault n b := if_pos ⟨hcmd, htest, by rw [hopen]; rfl, hlock⟩

/-- LOCKED shows the feedback after FB_INV. -/
theorem lockShow_shows : isOn (lockShow n b) (VP.VSTAT.LOCKED n) = ((vpOf b n).fb != isOn b (VP.VCTL.FB_INV n)) := by
  unfold lockShow
  extract_lets l b₁ x b₂
  have hF : BesideHold n (VP.VSTAT.LOCKED n) := besideHold_vstat (by decide)
  have h₂ : isOn b₂ (VP.VSTAT.LOCKED n) = isOn b₁ (VP.VSTAT.LOCKED n) := by
    unfold b₂
    split <;> rfl
  rw [isOn_vpHold hF, h₂]
  exact isOn_wrB_same (by simp [VP.VSTAT.LOCKED]) (by simp [VP.VSTAT.LOCKED]) l

theorem lockClr_clears : isOn (lockClr n b) (VP.VSTAT.LOCK_FAULT n) = false := by
  have hF : BesideHold n (VP.VSTAT.LOCK_FAULT n) := besideHold_vstat (by decide)
  rw [lockClr, isOn_vpHold hF]
  exact isOn_wrB_same (by simp [VP.VSTAT.LOCK_FAULT]) (by simp [VP.VSTAT.LOCK_FAULT]) false

/-- A write of ARM with the bit of LOCK_CLR alone, on an enabled page (R283). -/
theorem actArm_lockClr (hn : n < 4) (hen : enabled b (pgVP n) = true) : actArm n 4 b = lockClr n b := by
  rw [actArm, gated_vp hn hen]
  rfl

theorem calPage_arm : ∀ p : Fin 4, calPage ((VP.ARM.DROP_CLR p.val).a / 0x1000 * 0x1000) = false := by decide

theorem armWrite_lockClr {i : Init} (p : Fin 4) (hen : enabled b (pgVP p.val) = true)
    (ha : Accepts b i (VP.ARM.DROP_CLR p.val).a 4) :
    armWrite i p.val 2 b = lockClr p.val (writeOf b i (VP.ARM.DROP_CLR p.val).a 4).blk := by
  have hne : (hEN (pgVP p.val)).a ≠ (VP.ARM.DROP_CLR p.val).a := by
    simp only [hEN, pgVP, VP.ARM.DROP_CLR]
    omega
  have hen' : enabled (writeOf b i (VP.ARM.DROP_CLR p.val).a 4).blk (pgVP p.val) = true := by
    rw [enabled, isOn, writeOf_rd_ne ha (calPage_arm p) hne]
    exact hen
  exact (writeAct_accepted ha).trans (actArm_lockClr p.isLt hen')

end Sys2Proof.Machine
end

section
/-!
SUPPORT. Gate enables removed and returned (R138), and what a trunk stop leaves of them (R12, R108).
-/

namespace Sys2Proof.Machine

open Sys2Proof.Num

variable {b : Blk} {g h k : Nat}

/-- What each repetition brings about for its own element and keeps for the others holds of all at the end. -/
theorem forEach_each {α : Type} {f : α → Blk → Blk} {P : α → Blk → Prop} {l : List α}
    (hown : ∀ x ∈ l, ∀ c, P x (f x c)) (hkeep : ∀ x ∈ l, ∀ y ∈ l, x ≠ y → ∀ c, P x c → P x (f y c)) :
    ∀ x ∈ l, P x (forEach l f b) := by
  have hall : ∀ m : List α, (∀ y ∈ m, y ∈ l) → ∀ c, ∀ x ∈ l, x ∈ m ∨ P x c → P x (forEach m f c) := by
    intro m
    induction m with
    | nil => exact fun _ _ _ _ hx => hx.resolve_left List.not_mem_nil
    | cons y m ih =>
      intro hm c x hxl hx
      refine ih (fun z hz => hm z (List.mem_cons_of_mem y hz)) (f y c) x hxl ?_
      by_cases hxy : x = y
      · exact .inr (hxy ▸ hown x hxl c)
      · exact hx.imp (fun hmem => (List.mem_cons.1 hmem).resolve_left hxy)
          (hkeep x hxl y (hm y List.mem_cons_self) hxy c)
  exact fun x hx => hall l (fun _ hy => hy) b x hx (.inl hx)

/-! Modulators. -/

@[simp] theorem modOf_setMod_same (x : ModSt) (hg : g < 3) : modOf (setMod g x b) g = x := by
  match g, hg with
  | 0, _ => rfl
  | 1, _ => rfl
  | 2, _ => rfl

theorem modOf_setMod_ne (x : ModSt) (hg : g < 3) (hh : h < 3) (hne : g ≠ h) : modOf (setMod h x b) g = modOf b g := by
  match g, hg, h, hh with
  | 0, _, 1, _ | 0, _, 2, _ | 1, _, 0, _ | 1, _, 2, _ | 2, _, 0, _ | 2, _, 1, _ => rfl
  | 0, _, 0, _ | 1, _, 1, _ | 2, _, 2, _ => exact absurd rfl hne

@[simp] theorem modOf_wr (F : Fld) (v : Nat) : modOf (wr b F v) g = modOf b g := by
  unfold modOf
  rw [wr_mod0, wr_mod1, wr_mod2]

@[simp] theorem setMod_rd (x : ModSt) (F : Fld) : rd (setMod g x b) F = rd b F := by unfold setMod; split <;> rfl

/-! Gate enables. -/

/-- A cause of removal beyond the first four is no hardware's; any of these shows HW_OFF. -/
theorem gateRemove_hwOff {cause : Nat} (hg : g < 3) (hc : cause < 4) :
    isOn (gateRemove g cause b) (MOD.GSTAT.HW_OFF g) = true := by
  have hbit (n : Nat) : (n ||| 2 ^ cause) % 16 ≠ 0 := fun h => by
    have hset : ((n ||| 2 ^ cause) % 2 ^ 4).testBit cause = true := by
      rw [Nat.testBit_mod_two_pow, Nat.testBit_or, Nat.testBit_two_pow_self]
      simp [hc]
    rw [show (2 : Nat) ^ 4 = 16 from rfl, h, Nat.zero_testBit] at hset
    exact absurd hset (by decide)
  unfold gateRemove
  extract_lets was b₁ x b₂ b₃
  have hgate : (modOf b₂ g).gate % 16 ≠ 0 := by
    rw [modOf_setMod_same _ hg]
    exact hbit _
  have h₃ : isOn b₃ (MOD.GSTAT.HW_OFF g) = true :=
    (isOn_wrB_same (by simp [ MOD.GSTAT.HW_OFF]) (by simp [ MOD.GSTAT.HW_OFF]) _).trans (decide_eq_true hgate)
  split
  · rwa [isOn_raise_ne (by simp only [ MOD.GSTAT.HW_OFF, pgMOD]; omega)]
  · exact h₃

theorem gateRemove_isOn_ne {cause : Nat} (hne : g ≠ h) :
    isOn (gateRemove h cause b) (MOD.GSTAT.HW_OFF g) = isOn b (MOD.GSTAT.HW_OFF g) := by
  have hother {c : Blk} {v : Bool} : isOn (wrB c (MOD.GSTAT.HW_OFF h) v) (MOD.GSTAT.HW_OFF g) = isOn c (MOD.GSTAT.HW_OFF g) :=
    isOn_wrB_ne (.inl (by simp only [ MOD.GSTAT.HW_OFF]; omega))
  unfold gateRemove
  extract_lets was b₁ x b₂ b₃
  have h₂ : isOn b₂ (MOD.GSTAT.HW_OFF g) = isOn b (MOD.GSTAT.HW_OFF g) := by
    simp only [isOn, b₂, b₁, pwmLow, setMod_rd]
  split
  · rw [isOn_raise_ne (by simp only [ MOD.GSTAT.HW_OFF, pgMOD]; omega), hother, h₂]
  · rw [hother, h₂]

/-- HW_OFF of a group stands whichever group's gate is removed next. -/
theorem gateRemove_keeps_hwOff {cause : Nat} (hh : h < 3) (hc : cause < 4) (hoff : isOn b (MOD.GSTAT.HW_OFF g) = true) :
    isOn (gateRemove h cause b) (MOD.GSTAT.HW_OFF g) = true := by
  by_cases hgh : g = h
  · subst hgh
    exact gateRemove_hwOff hh hc
  · rwa [gateRemove_isOn_ne hgh]

/-- A cause that clears is no cause of removal any more (R138). -/
theorem gateRestore_gate (hg : g < 3) (cause : Nat) : (modOf (gateRestore g cause b) g).gate.testBit cause = false := by
  unfold gateRestore
  rw [wrB, modOf_wr, modOf_setMod_same _ hg, setBit_testBit, if_pos rfl]

theorem gateRestore_modOf_ne {cause : Nat} (hg : g < 3) (hh : h < 3) (hne : g ≠ h) :
    modOf (gateRestore h cause b) g = modOf b g := by
  unfold gateRestore
  rw [wrB, modOf_wr, modOf_setMod_ne _ hg hh hne]

/-! Trunk stops. -/

theorem xferAbort_rd {F : Fld} (hF : BesideTransfers F) (hg : g < 3) (res : Nat) : rd (xferAbort g res b) F = rd b F := by
  unfold xferAbort
  extract_lets x b₁ b₂
  have h₁ : rd b₁ F = rd b F := by
    unfold b₁
    rw [tellEnd_rd hF, wrB, grpStat_rd (c := b) hF hg rfl, xferResult_rd hF]
  have h₂ : rd b₂ F = rd b F := by
    unfold b₂
    split
    · rw [setTrunk_rd hF hg, coilState_rd hF, h₁]
    · exact h₁
  split
  · rfl
  split
  · rw [setXfer_rd, h₁]
  split
  · rw [setXfer_rd, h₁]
  · rw [xferEnd_rd hF hg, h₂]

theorem stopLoop_rd {F : Fld} (hF : F.a < 0x130400) (i : Nat) : rd (stopLoop i b) F = rd b F := by
  unfold stopLoop
  dsimp only
  rw [rd_wr_ne (.inl (by simp only [CE.SLOT.INTEG.I]; omega)), rd_wr_ne (.inl (by simp only [CE.SLOT.OUT.U]; omega))]
  rfl

/-- A trunk stop returns no gate enable. -/
theorem trunkStop_keeps_hwOff (hg : g < 3) (mask : Nat) (hoff : isOn b (MOD.GSTAT.HW_OFF g) = true) :
    isOn (trunkStop mask b) (MOD.GSTAT.HW_OFF g) = true := by
  have hF : BesideTransfers (MOD.GSTAT.HW_OFF g) :=
    ⟨by simp only [ MOD.GSTAT.HW_OFF]; omega, by simp [ MOD.GSTAT.HW_OFF], by simp [ MOD.GSTAT.HW_OFF]⟩
  have hce : (MOD.GSTAT.HW_OFF g).a < 0x130400 := by
    simp only [ MOD.GSTAT.HW_OFF]
    omega
  unfold trunkStop
  dsimp only
  split
  · exact hoff
  rw [isOn_raise_ne (by simp only [ MOD.GSTAT.HW_OFF, pgTRUNK]; omega), isOn,
    rd_wr_ne (.inl (by simp only [ MOD.GSTAT.HW_OFF, TRUNK.TSTOP.STOPPED]; omega)), ← isOn]
  refine forEach_rel (P := fun c => isOn c (MOD.GSTAT.HW_OFF g) = true) _ (fun i _ c hc => ?_)
    (forEach_rel (P := fun c => isOn c (MOD.GSTAT.HW_OFF g) = true) _ (fun h hh c hc => ?_) hoff)
  · split
    · rwa [isOn, stopLoop_rd hce, ← isOn]
    · exact hc
  · split
    · rw [isOn, blockGroup_rd hF (List.mem_range.1 hh), xferAbort_rd hF (List.mem_range.1 hh), ← isOn]
      exact gateRemove_keeps_hwOff (List.mem_range.1 hh) (by decide) hc
    · exact hc

theorem sends_toStopped (mask : Nat) : Sends b (toStopped mask b) := (sends_emit _).trans (sends_sendRt _ _)

/-- What a device does beside its own stop to send one. -/
theorem sendStop_eq (mask : Nat) : ∃ c, Sends b c ∧ ∀ F, rd (sendStop mask b) F = rd (trunkStop mask c) F := by
  refine ⟨if isActive (toStopped mask b) then toStopped mask b else toPartner 0 (.trunkStop mask) (toStopped mask b), ?_,
    fun _ => rfl⟩
  split
  · exact sends_toStopped mask
  · exact (sends_toStopped mask).trans (sends_toPartner ..)

end Sys2Proof.Machine
end
section
/-!
SUPPORT. The emergency stop of a device (R108, R138, R270, R271), and the statement of locks and emergency stops: O25.
-/

namespace Sys2Proof.Machine

open Sys2Proof.Num

variable {b : Blk} {n k : Nat}

/-! The trunks stopped. -/

theorem foldl_or_testBit (l : List Nat) (m : Nat) :
    (l.foldl (fun n i => n ||| 2 ^ i) m).testBit k = (m.testBit k || decide (k ∈ l)) := by
  induction l generalizing m with
  | nil => simp
  | cons i l ih =>
    rw [List.foldl_cons, ih, Nat.testBit_or, Nat.testBit_two_pow]
    simp [Bool.or_assoc, eq_comm]

theorem ofBits_testBit (l : List Nat) : (ofBits l).testBit k = decide (k ∈ l) := by
  rw [ofBits, foldl_or_testBit, Nat.zero_testBit, Bool.false_or]

theorem ofBits_lt {l : List Nat} (h : ∀ i ∈ l, i < n) : ofBits l < 2 ^ n :=
  Nat.lt_pow_two_of_testBit _ fun i hi => by
    rw [ofBits_testBit, decide_eq_false_iff_not]
    exact fun hmem => absurd (h i hmem) (Nat.not_lt.2 hi)

theorem myPos_lt : myPos b < 4 := rd_lt SYS.MODE.POS

/-- The trunks an emergency stop stops: a site's or a port's (R108). -/
def estopMask (b : Blk) (site : Bool) (n : Nat) : Nat := if site then siteTrunks b else 2 ^ (4 * myPos b + n)

theorem estopMask_lt (site : Bool) (hn : n < 4) : estopMask b site n < 2 ^ 16 := by
  have hpos := myPos_lt (b := b)
  cases site with
  | false => exact Nat.pow_lt_pow_right (by decide) (by omega)
  | true =>
    refine Nat.or_lt_two_pow (ofBits_lt fun i hi => ?_) (ofBits_lt fun i hi => ?_)
    · exact of_decide_eq_true (List.mem_filter.1 hi).2
    · obtain ⟨m, hm, rfl⟩ := List.mem_map.1 hi
      have := List.mem_range.1 hm
      omega

/-- The port's own trunk is among them. -/
theorem estopMask_own (site : Bool) (hn : n < 4) : (estopMask b site n).testBit (4 * myPos b + n) = true := by
  cases site with
  | false => exact Nat.testBit_two_pow_self
  | true =>
    have hown : (ofBits ((List.range 4).map fun n => 4 * myPos b + n)).testBit (4 * myPos b + n) = true := by
      rw [ofBits_testBit]
      exact decide_eq_true (List.mem_map_of_mem (List.mem_range.2 hn))
    exact (Nat.testBit_or ..).trans (by rw [hown, Bool.or_true])

/-- The device's own stop, as the hard-wired path acts: gate enables removed, the trunk stop built (R12). -/
def hardStop (mask : Nat) (b : Blk) : Blk := sendStop mask (forEach (List.range 3) (fun g => gateRemove g 0) b)

theorem hardStop_hwOff {g : Nat} (hg : g < 3) (mask : Nat) : isOn (hardStop mask b) (MOD.GSTAT.HW_OFF g) = true := by
  have hgates : ∀ g ∈ List.range 3, isOn (forEach (List.range 3) (fun g => gateRemove g 0) b) (MOD.GSTAT.HW_OFF g) = true :=
    forEach_each (P := fun g c => isOn c (MOD.GSTAT.HW_OFF g) = true)
      (fun g hg c => gateRemove_hwOff (List.mem_range.1 hg) (by decide))
      (fun g _ h hh _ c => gateRemove_keeps_hwOff (List.mem_range.1 hh) (by decide))
  obtain ⟨c, hsends, hrd⟩ := sendStop_eq (b := forEach (List.range 3) (fun g => gateRemove g 0) b) mask
  rw [hardStop, isOn, hrd, ← isOn]
  refine trunkStop_keeps_hwOff hg mask ?_
  rw [hsends.isOn (by simp only [ MOD.GSTAT.HW_OFF, pgLINK]; omega)]
  exact hgates g (List.mem_range.2 hg)

theorem hardStop_stopped {mask : Nat} (hmask : mask < 2 ^ 16) (hk : mask.testBit k = true) :
    rdBit (hardStop mask b) TRUNK.TSTOP.STOPPED k = true := by
  obtain ⟨c, -, hrd⟩ := sendStop_eq (b := forEach (List.range 3) (fun g => gateRemove g 0) b) mask
  have hstop := trunkStop_stopped (b := c) (BitVec.ofNat 16 mask)
  rw [BitVec.toNat_ofNat, Nat.mod_eq_of_lt hmask] at hstop
  rw [hardStop, rdBit, hrd, hstop, Nat.testBit_or, hk, Bool.or_true]

/-! What ports show. -/

/-- The inputs of the emergency stop, of a port or a site, by port. -/
def estopFld (site : Bool) (n : Nat) : Fld := if site then VP.VSTAT.SITE_ESTOP n else VP.VSTAT.ESTOP n

theorem estopFld_eq (site : Bool) (n : Nat) : estopFld site n = ⟨0x160044 + 0x1000 * n, if site then 25 else 26, 1⟩ := by
  cases site <;> rfl

theorem besideHold_estop (site : Bool) (m n : Nat) : BesideHold n (estopFld site m) := by
  rw [estopFld_eq]
  refine ⟨?_, ?_, fun _ => ?_⟩
  · simp only []
    omega
  · simp only []
    omega
  · cases site <;> simp

theorem estopFld_same (site v : Bool) (n : Nat) : isOn (wrB b (estopFld site n) v) (estopFld site n) = v := by
  rw [estopFld_eq]
  exact isOn_wrB_same (by cases site <;> simp) Nat.one_pos v

theorem estopFld_ne (site v : Bool) {m n : Nat} (hmn : m ≠ n) :
    isOn (wrB b (estopFld site n) v) (estopFld site m) = isOn b (estopFld site m) := by
  rw [estopFld_eq, estopFld_eq]
  exact isOn_wrB_ne (.inl (by simp only []; omega))

/-- A port shows an input asserted, with its cause and its hold condition. -/
def estopShow (site : Bool) (n : Nat) (b : Blk) : Blk :=
  vpHold n (vpCause (if site then 15 else 14) n (wrB b (estopFld site n) true))

theorem estopShow_rd {F : Fld} (hF : F.a < 0x160000) (site : Bool) (n : Nat) : rd (estopShow site n b) F = rd b F := by
  rw [estopShow, vpHold_rd (besideHold_of_lt hF), vpCause_rd (besideHold_of_lt hF), estopFld_eq]
  exact rd_wr_ne (.inl (by simp only []; omega))

theorem isOn_estopShow_same (site : Bool) (n : Nat) : isOn (estopShow site n b) (estopFld site n) = true := by
  rw [estopShow, isOn_vpHold (besideHold_estop ..), isOn, vpCause_rd (besideHold_estop ..)]
  exact estopFld_same site true n

theorem isOn_estopShow_ne (site : Bool) {m n : Nat} (hmn : m ≠ n) :
    isOn (estopShow site n b) (estopFld site m) = isOn b (estopFld site m) := by
  rw [estopShow, isOn_vpHold (besideHold_estop ..), isOn, vpCause_rd (besideHold_estop ..)]
  exact estopFld_ne site true hmn

/-! Assertion. -/

/-- The site's input is shown on every port, a port's on its own. -/
def estopPorts (site : Bool) (n : Nat) : List Nat := if site then List.range 4 else [n]

/-- An input that was not asserted stops the device, then shows. -/
theorem doEstop_eq {site : Bool} (h : isOn b (if site then VP.VSTAT.SITE_ESTOP 0 else VP.VSTAT.ESTOP n) = false) :
    ∃ c, (∀ F, rd c F = rd (hardStop (estopMask b site n) b) F) ∧
      doEstop site n b = forEach (estopPorts site n) (estopShow site) c := by
  rw [doEstop, h, if_neg (by decide)]
  cases site with
  | false => exact ⟨_, fun _ => rfl, rfl⟩
  | true =>
    let c := hardStop (siteTrunks b) b
    exact ⟨{ c with trunk := { c.trunk with siteMask := siteTrunks b } }, fun _ => rfl, rfl⟩

theorem forEach_estopShow_rd {F : Fld} (hF : F.a < 0x160000) (site : Bool) (l : List Nat) :
    rd (forEach l (estopShow site) b) F = rd b F :=
  forEach_rel (P := fun c => rd c F = rd b F) l (fun n _ _ hc => (estopShow_rd hF site n).trans hc) rfl

theorem forEach_estopShow_isOn (site : Bool) (l : List Nat) :
    ∀ n ∈ l, isOn (forEach l (estopShow site) b) (estopFld site n) = true :=
  forEach_each (P := fun n c => isOn c (estopFld site n) = true) (fun n _ _ => isOn_estopShow_same site n)
    (fun _ _ _ _ hne _ hc => (isOn_estopShow_ne site hne).trans hc)

/-- An emergency stop shows, stops the port's trunk and removes every gate enable. -/
theorem doEstop_stops {site : Bool} (hn : n < 4)
    (h : isOn b (if site then VP.VSTAT.SITE_ESTOP 0 else VP.VSTAT.ESTOP n) = false) :
    isOn (doEstop site n b) (if site then VP.VSTAT.SITE_ESTOP 0 else VP.VSTAT.ESTOP n) = true ∧
      rdBit (doEstop site n b) TRUNK.TSTOP.STOPPED (4 * myPos b + n) = true ∧
      ∀ g : Nat, g < 3 → isOn (doEstop site n b) (MOD.GSTAT.HW_OFF g) = true := by
  obtain ⟨c, hc, heq⟩ := doEstop_eq h
  rw [heq]
  refine ⟨?_, ?_, fun g hg => ?_⟩
  · cases site with
    | false => exact forEach_estopShow_isOn (b := c) false [n] n List.mem_cons_self
    | true => exact forEach_estopShow_isOn (b := c) true (List.range 4) 0 (by decide)
  · rw [rdBit, forEach_estopShow_rd (by decide), hc]
    exact hardStop_stopped (estopMask_lt site hn) (estopMask_own site hn)
  · rw [isOn, forEach_estopShow_rd (by simp only [ MOD.GSTAT.HW_OFF]; omega), hc]
    exact hardStop_hwOff hg _

/-! Release. -/

/-- Once no input is asserted the emergency stop is no cause of removal (R138). -/
def estopGates (b : Blk) : Blk := if anyEstop b then b else forEach (List.range 3) (fun g => gateRestore g 0) b

theorem estopGates_gate (h : anyEstop (estopGates b) = false) {g : Nat} (hg : g < 3) :
    (modOf (estopGates b) g).gate.testBit 0 = false := by
  unfold estopGates at h ⊢
  split
  · rename_i hany
    rw [if_pos hany, hany] at h
    exact absurd h (by decide)
  · exact forEach_each (P := fun g c => (modOf c g).gate.testBit 0 = false)
      (fun g hg _ => gateRestore_gate (List.mem_range.1 hg) 0)
      (fun g hg h hh hne _ hc => by rwa [gateRestore_modOf_ne (List.mem_range.1 hg) (List.mem_range.1 hh) hne])
      g (List.mem_range.2 hg)

/-- The return of the gates leaves the inputs shown. -/
theorem estopGates_isOn (site : Bool) (n : Nat) : isOn (estopGates b) (estopFld site n) = isOn b (estopFld site n) := by
  have hF : ∀ g, (estopFld site n).a ≠ (MOD.GSTAT.HW_OFF g).a := by
    intro g
    rw [estopFld_eq]
    simp only [ MOD.GSTAT.HW_OFF]
    omega
  unfold estopGates
  split
  · rfl
  · exact forEach_rel (P := fun c => isOn c (estopFld site n) = isOn b (estopFld site n)) _
      (fun g _ c hc => by rwa [isOn, gateRestore_rd g 0 hF, ← isOn]) rfl

/-- A port shows an input released. -/
def estopHide (site : Bool) (n : Nat) (b : Blk) : Blk := vpHold n (wrB b (estopFld site n) false)

theorem isOn_estopHide_same (site : Bool) (n : Nat) : isOn (estopHide site n b) (estopFld site n) = false := by
  rw [estopHide, isOn_vpHold (besideHold_estop ..)]
  exact estopFld_same site false n

theorem isOn_estopHide_ne (site : Bool) {m n : Nat} (hmn : m ≠ n) :
    isOn (estopHide site n b) (estopFld site m) = isOn b (estopFld site m) := by
  rw [estopHide, isOn_vpHold (besideHold_estop ..)]
  exact estopFld_ne site false hmn

theorem doEstopRelease_eq (site : Bool) :
    ∃ c, doEstopRelease site n b = estopGates (forEach (estopPorts site n) (estopHide site) c) := by
  cases site with
  | false => exact ⟨_, rfl⟩
  | true => exact ⟨_, rfl⟩

/-- The input released shows no more on the ports that show it, and the gates return with the last. -/
theorem doEstopRelease_releases (site : Bool) :
    (∀ k ∈ estopPorts site n, isOn (doEstopRelease site n b) (estopFld site k) = false) ∧
      (anyEstop (doEstopRelease site n b) = false →
        ∀ g : Nat, g < 3 → (modOf (doEstopRelease site n b) g).gate.testBit 0 = false) := by
  obtain ⟨c, hc⟩ := doEstopRelease_eq (n := n) (b := b) site
  rw [hc]
  refine ⟨fun k hk => ?_, fun h g hg => estopGates_gate h hg⟩
  rw [estopGates_isOn]
  exact forEach_each (P := fun n c => isOn c (estopFld site n) = false) (fun n _ _ => isOn_estopHide_same site n)
    (fun _ _ _ _ hne _ hc => (isOn_estopHide_ne site hne).trans hc) k hk

/-- Settles O25: each command of the lock and of the emergency stop by what its operation shows. -/
theorem vehicleLocks : Obligations.VehicleLocks := by
  refine ⟨fun i p v s hlate hk hmay => ?_, fun p s hen => ?_, fun p s hen hwin hne => ?_,
    fun p s hen hcmd htest hopen hlock => ?_, fun p fb s hen hnow => ?_, fun i p s hen ha => ?_, fun site p s h => ?_,
    fun p s => ?_, fun p s => ?_⟩
  · exact completes_run (f := doLockWrite i p.val v) rfl (doLockWrite_commands p hlate hk hmay)
  · refine completes_run (f := gated (pgVP p.val) (lockPulseEnd p.val)) rfl ?_
    rw [gated_vp p.isLt hen]
    exact lockPulseEnd_pulse
  · refine completes_run (f := gated (pgVP p.val) (doLockTimeout p.val)) rfl ?_
    rw [gated_vp p.isLt hen]
    exact doLockTimeout_fault hwin hne
  · refine completes_run (f := gated (pgVP p.val) (doLockLost p.val)) rfl ?_
    rw [gated_vp p.isLt hen, doLockLost_eq hcmd htest hopen hlock]
    exact lockFault_shows
  · refine ⟨_, runIn_now 8 _ hnow, ?_⟩
    rw [enterLockFeedbackChange, gated_vp p.isLt hen]
    refine lockShow_shows.trans ?_
    rw [vpOf_setVp]
    rfl
  · refine completes_run (f := armWrite i p.val 2) rfl ?_
    rw [armWrite_lockClr p hen ha]
    exact lockClr_clears
  · exact completes_run (f := doEstop site p.val) rfl (doEstop_stops p.isLt h)
  · obtain ⟨hshown, hgates⟩ := doEstopRelease_releases (n := p.val) (b := s.blk) false
    exact completes_run (f := doEstopRelease false p.val) rfl ⟨hshown p.val List.mem_cons_self, hgates⟩
  · obtain ⟨hshown, hgates⟩ := doEstopRelease_releases (n := p.val) (b := s.blk) true
    exact completes_run (f := doEstopRelease true p.val) rfl ⟨fun k hk => hshown k (List.mem_range.2 hk), hgates⟩

end Sys2Proof.Machine
end
section
/-!
SUPPORT. A phase modulator (chapter 6): its commands, its state beside register writes and events, and one phase of it.
-/

namespace Sys2Proof.Machine

open Sys2Proof.Num Sys2Proof.Stated

variable {b c : Blk} {g p : Nat}

/-! Commands. -/

theorem clocked_mod (hg : g < 3) : clocked b (pgMOD g) = true := by
  unfold clocked
  rw [if_neg (by simp only [pgMOD, pgMTR]; omega), if_neg (by simp only [pgMOD, pgMESH]; omega),
    if_neg (by simp only [pgMOD, pgTHM]; omega), if_neg (by simp only [pgMOD, pgETH]; omega)]

/-- A command of an enabled modulator completes with what its operation leaves. -/
theorem completes_mod {i : Instr} {s : State} {f : Blk → Blk} {P : Blk → Prop} (hg : g < 3)
    (he : exec i s = run (gated (pgMOD g) f) s) (hen : enabled s.blk (pgMOD g) = true) (h : P (f s.blk)) :
    Completes i s P :=
  completes_run he (by rwa [gated_on hen (clocked_mod hg) (by simp only [pgMOD, pgCH]; omega)])

/-! Fields by their registers. -/

theorem rd_wr_reg_ne {a a' lo lo' w w' v : Nat} (h : a' ≠ a) : rd (wr b ⟨a, lo, w⟩ v) ⟨a', lo', w'⟩ = rd b ⟨a', lo', w'⟩ :=
  rd_wr_ne (.inl h)

theorem isOn_wr_reg_ne {a a' lo lo' w w' v : Nat} (h : a' ≠ a) :
    isOn (wr b ⟨a, lo, w⟩ v) ⟨a', lo', w'⟩ = isOn b ⟨a', lo', w'⟩ :=
  isOn_wr_ne (.inl h)

theorem isOn_wrB_bit {a k : Nat} (hk : k < 32) (x : Bool) : isOn (wrB b ⟨a, k, 1⟩ x) ⟨a, k, 1⟩ = x :=
  isOn_wrB_same (F := ⟨a, k, 1⟩) hk Nat.one_pos x

theorem isOn_of_rd {F : Fld} (h : rd c F = rd b F) : isOn c F = isOn b F := by rw [isOn, h, isOn]

/-! The state of a group. -/

@[simp] theorem modOf_wrB (F : Fld) (v : Bool) : modOf (wrB b F v) g = modOf b g := modOf_wr F _
@[simp] theorem modOf_wrU (F : Fld) (v : Nat) : modOf (wrU b F v) g = modOf b g := modOf_wr F _
@[simp] theorem modOf_wrBit (F : Fld) (i : Nat) (v : Bool) : modOf (wrBit b F i v) g = modOf b g := modOf_wr F _
@[simp] theorem modOf_incSat (F : Fld) (n : Nat) : modOf (incSat b F n) g = modOf b g := modOf_wr F _
@[simp] theorem modOf_incWrap (F : Fld) (n : Nat) : modOf (incWrap b F n) g = modOf b g := modOf_wr F _

@[simp] theorem modOf_raise (pg k : Nat) : modOf (raise pg k b) g = modOf b g := by
  unfold modOf
  rw [raise_mod0, raise_mod1, raise_mod2]

theorem modOf_forEach {α : Type} {f : α → Blk → Blk} (l : List α) (h : ∀ x c, modOf (f x c) g = modOf c g) :
    modOf (forEach l f b) g = modOf b g :=
  forEach_rel (P := fun c => modOf c g = modOf b g) l (fun x _ c hc => (h x c).trans hc) rfl

/-! One phase. -/

theorem modOf_setPhase (hg : g < 3) (st : Nat) (hi lo : Bool) :
    modOf (setPhase g p st hi lo b) g =
      { modOf b g with
        step := Tab.put (fun _ => 0) (modOf b g).step p st
        pwmh := setBit (modOf b g).pwmh p hi
        pwml := setBit (modOf b g).pwml p lo } :=
  modOf_setMod_same _ hg

/-- A phase put into a step is in it, its high side as given. -/
theorem setPhase_shows (hg : g < 3) (st : Nat) (hi lo : Bool) :
    phStep (setPhase g p st hi lo b) g p = st ∧ (modOf (setPhase g p st hi lo b) g).pwmh.testBit p = hi := by
  rw [phStep, modOf_setPhase hg]
  exact ⟨Tab.at'_put_same .., (setBit_testBit ..).trans (if_pos rfl)⟩

theorem phStep_of_modOf (h : modOf c g = modOf b g) : phStep c g p = phStep b g p := by rw [phStep, h, phStep]

@[simp] theorem setPhase_rd (st : Nat) (hi lo : Bool) (F : Fld) : rd (setPhase g p st hi lo b) F = rd b F := setMod_rd _ F
@[simp] theorem setPh_rd (x : PhSet) (F : Fld) : rd (setPh g p x b) F = rd b F := setMod_rd _ F
@[simp] theorem takeSet_rd (F : Fld) : rd (takeSet g p b) F = rd b F := setPh_rd _ F

end Sys2Proof.Machine
end

section
/-!
SUPPORT. The switching period of a phase (R117, R121, R122): O9.
-/

namespace Sys2Proof.Machine

open Sys2Proof.Num Sys2Proof.Stated

variable {b : Blk} {g p ton cur : Nat}

/-! The start of a period. -/

/-- The latch of a phase's reference leaves the group's applied reference. -/
theorem applied_latch (v : Nat) (hg : g < 3) : applied (wrU b (MOD.PH.PREF.REF g p) v) g = applied b g := by
  have hlow {F : Fld} (hF : F.a < 0x120408 + 0x1000 * g + 32 * p) : rd (wrU b (MOD.PH.PREF.REF g p) v) F = rd b F :=
    rd_wrU_ne (by simp only [ MOD.PH.PREF.REF]; omega)
  have hgate : gateOn (wrU b (MOD.PH.PREF.REF g p) v) g = gateOn b g := by
    unfold gateOn mayPower enabled isOn
    rw [modOf_wrU, hlow (F := hEN (pgMOD g)) (by simp only [hEN, pgMOD]; omega),
      hlow (F := SYS.STRAP.STRAP_ERR) (by simp only [SYS.STRAP.STRAP_ERR]; omega),
      hlow (F := FSYS.STRAP.STRAP_ERR) (by simp only [FSYS.STRAP.STRAP_ERR]; omega),
      hlow (F := SYS.MODE.SITE_STATE) (by simp only [SYS.MODE.SITE_STATE]; omega)]
  rw [applied, modClamp, hgate, modOf_wrU, hlow (F := MOD.IGPK.CMD g) (by simp only [ MOD.IGPK.CMD]; omega),
    hlow (F := TRUNK.ZERO.ZERO_I) (by simp only [TRUNK.ZERO.ZERO_I]; omega), ← modClamp, ← applied]

/-- An active phase that may switch latches its reference and skips, or takes its settings and drives its low side off. -/
theorem doPhaseStart_eq (hg : g < 3) (hact : (phAct b g).testBit p = true) (hmay : maySwitch b g = true)
    (hpf : pfWarn b = false) :
    doPhaseStart g p b =
      if phRef b g p ≤ rd b (MOD.LIMIT.IPK_SKIP g) ∨ applied b g = 0 ∨ (modOf b g).quiet then
        wrB (wrU b (MOD.PH.PREF.REF g p) (phRef b g p)) (MOD.PH.PSTAT.SKIP g p) true
      else
        setPhase g p 1 false false
          (takeSet g p (wrB (wrU b (MOD.PH.PREF.REF g p) (phRef b g p)) (MOD.PH.PSTAT.SKIP g p) false)) := by
  have hskip : rd (wrU b (MOD.PH.PREF.REF g p) (phRef b g p)) (MOD.LIMIT.IPK_SKIP g) = rd b (MOD.LIMIT.IPK_SKIP g) :=
    rd_wrU_ne (by simp only [ MOD.LIMIT.IPK_SKIP, MOD.PH.PREF.REF]; omega)
  have hgo : ¬(!(phAct b g).testBit p || !maySwitch b g || pfWarn b) = true := by simp [hact, hmay, hpf]
  rw [doPhaseStart, if_neg hgo]
  dsimp only
  rw [hskip, applied_latch _ hg, modOf_wrU]

theorem doPhaseStart_switches (hg : g < 3) (hact : (phAct b g).testBit p = true) (hmay : maySwitch b g = true)
    (hpf : pfWarn b = false) (hskip : rd b (MOD.LIMIT.IPK_SKIP g) < phRef b g p) (hfits : phRef b g p < 2 ^ 16)
    (happlied : applied b g ≠ 0) (hquiet : (modOf b g).quiet = false) :
    phStep (doPhaseStart g p b) g p = 1 ∧ rd (doPhaseStart g p b) (MOD.PH.PREF.REF g p) = phRef b g p ∧
      isOn (doPhaseStart g p b) (MOD.PH.PSTAT.SKIP g p) = false := by
  have hgo : ¬(phRef b g p ≤ rd b (MOD.LIMIT.IPK_SKIP g) ∨ applied b g = 0 ∨ (modOf b g).quiet = true) := by
    simp [hskip, happlied, hquiet]
  rw [doPhaseStart_eq hg hact hmay hpf, if_neg hgo]
  refine ⟨(setPhase_shows hg ..).1, ?_, ?_⟩
  · rw [setPhase_rd, takeSet_rd]
    have hlatch : rd (wrU b (MOD.PH.PREF.REF g p) (phRef b g p)) (MOD.PH.PREF.REF g p) = phRef b g p :=
      (rd_wrU_same (by simp [ MOD.PH.PREF.REF])).trans (Nat.min_eq_left (Nat.le_pred_of_lt hfits))
    exact (rd_wr_reg_ne (by omega)).trans hlatch
  · rw [isOn, setPhase_rd, takeSet_rd, ← isOn]
    exact isOn_wrB_bit (by decide) false

theorem doPhaseStart_skips (hg : g < 3) (hact : (phAct b g).testBit p = true) (hmay : maySwitch b g = true)
    (hpf : pfWarn b = false) (hskip : phRef b g p ≤ rd b (MOD.LIMIT.IPK_SKIP g) ∨ applied b g = 0) :
    isOn (doPhaseStart g p b) (MOD.PH.PSTAT.SKIP g p) = true := by
  rw [doPhaseStart_eq hg hact hmay hpf, if_pos (hskip.imp_right .inl)]
  exact isOn_wrB_bit (by decide) true

/-! Dead times and turn-off. -/

theorem doDeadTimeEnd_turnsOn (hg : g < 3) (h : phStep b g p = 1) (hpf : pfWarn b = false) :
    phStep (doDeadTimeEnd g p b) g p = 2 ∧ (modOf (doDeadTimeEnd g p b) g).pwmh.testBit p = true := by
  rw [doDeadTimeEnd, if_pos h, hpf, if_neg (by decide)]
  exact setPhase_shows hg ..

theorem doDeadTimeEnd_ends (hg : g < 3) (h : phStep b g p = 3) : phStep (doDeadTimeEnd g p b) g p = 0 := by
  rw [doDeadTimeEnd, if_neg (by omega), if_pos h]
  exact (setPhase_shows hg ..).1

/-- The high side of a phase turned off is off, and its limit flag as before. -/
theorem phaseOff_shows (hg : g < 3) :
    phStep (phaseOff g p ton b) g p = 3 ∧ (modOf (phaseOff g p ton b) g).pwmh.testBit p = false ∧
      isOn (phaseOff g p ton b) (MOD.PH.PSTAT.DLIM g p) = isOn b (MOD.PH.PSTAT.DLIM g p) := by
  obtain ⟨hstep, hhigh⟩ := setPhase_shows (b := wrU (setPh g p { phSet b g p with
    lowAt := edgeAt (phSet b g p).taps (ton + (phSet b g p).dtHl) } b) (MOD.PH.PTIME.TON g p) (ton / 64)) (p := p)
    hg 3 false false
  refine ⟨hstep, hhigh, isOn_of_rd ?_⟩
  rw [phaseOff, setPhase_rd]
  exact (rd_wr_reg_ne (by omega)).trans (setPh_rd ..)

/-- From the minimum on-time on, a current at the threshold turns the high side off without DLIM. -/
theorem doPeakOff_turnsOff (hg : g < 3) (h : phStep b g p = 2) (hleast : (phSet b g p).least ≤ ton)
    (hmax : 64 * ton ≤ (phSet b g p).tonMax) (hcur : dacCode b g p ton ≤ cur) (hton : ton < 2 ^ 16) :
    phStep (doPeakOff g p ton cur b) g p = 3 ∧ (modOf (doPeakOff g p ton cur b) g).pwmh.testBit p = false ∧
      rd (doPeakOff g p ton cur b) (MOD.PH.PTIME.TON g p) = ton ∧
      isOn (doPeakOff g p ton cur b) (MOD.PH.PSTAT.DLIM g p) = false := by
  obtain ⟨hstep, hhigh, hdlim⟩ := phaseOff_shows (b := wrB b (MOD.PH.PSTAT.DLIM g p) false) (p := p)
    (ton := 64 * (ton + 1)) hg
  rw [doPeakOff, if_pos ⟨h, hleast, hmax, hcur⟩, modOf_wrU]
  refine ⟨(phStep_of_modOf (modOf_wrU ..)).trans hstep, hhigh, ?_, ?_⟩
  · exact (rd_wrU_same (by simp [ MOD.PH.PTIME.TON])).trans (Nat.min_eq_left (Nat.le_pred_of_lt hton))
  · exact (isOn_wr_reg_ne (by omega)).trans (hdlim.trans (isOn_wrB_bit (by decide) false))

theorem doTonMax_turnsOff (hg : g < 3) (h : phStep b g p = 2) :
    phStep (doTonMax g p b) g p = 3 ∧ isOn (doTonMax g p b) (MOD.PH.PSTAT.DLIM g p) = true ∧
      (modOf (doTonMax g p b) g).pwmh.testBit p = false := by
  obtain ⟨hstep, hhigh, hdlim⟩ := phaseOff_shows (p := p) (ton := (phSet b g p).tonMax)
    (b := incSat (wrB b (MOD.PH.PSTAT.DLIM g p) true) (MOD.PH.PCNT.DLIM_CNT g p)) hg
  rw [doTonMax, if_pos h]
  exact ⟨hstep, hdlim.trans ((isOn_wr_reg_ne (by omega)).trans (isOn_wrB_bit (by decide) true)), hhigh⟩

/-- Settles O9: each command of an enabled group reaches its case of the phase's sequence. -/
theorem phaseSwitching : Obligations.PhaseSwitching := by
  refine ⟨fun g p s hen hact hmay hpf hskip hfits happlied hquiet => ?_, fun g p s hen hact hmay hpf hskip => ?_,
    fun g p s hen h hpf => ?_, fun g p s hen h => ?_, fun g p ton cur s hen h hleast hmax hcur => ?_,
    fun g p s hen h => ?_⟩
  · exact completes_mod g.isLt rfl hen (doPhaseStart_switches g.isLt hact hmay hpf hskip hfits happlied hquiet)
  · exact completes_mod g.isLt rfl hen (doPhaseStart_skips g.isLt hact hmay hpf hskip)
  · exact completes_mod g.isLt rfl hen (doDeadTimeEnd_turnsOn g.isLt h hpf)
  · exact completes_mod g.isLt rfl hen (doDeadTimeEnd_ends g.isLt h)
  · exact completes_mod g.isLt rfl hen (doPeakOff_turnsOff g.isLt h hleast hmax hcur ton.isLt)
  · exact completes_mod g.isLt rfl hen (doTonMax_turnsOff g.isLt h)

end Sys2Proof.Machine
end
section
/-!
SUPPORT. The trims of a group's phases (R129, R130), and when a balance step is skipped: O58.
-/

namespace Sys2Proof.Machine

open Sys2Proof.Num Sys2Proof.Stated

variable {b : Blk} {g p q : Nat} {t : Int}

/-- A step under one of the conditions of R130 changes nothing. -/
theorem doBalance_skips
    (h : rd b (MOD.MEAS.IGRP g) < rd b (MOD.IMB.BAL_MIN g) ∨ isOn b (MOD.GSTAT.CLAMPED g) = true ∨ gateOn b g = false) :
    doBalance g b = b := by
  have hskip : rd b (MOD.MEAS.IGRP g) < rd b (MOD.IMB.BAL_MIN g) ∨ isOn b (MOD.GSTAT.CLAMPED g) = true ∨
      (!gateOn b g) = true := by simpa using h
  rw [doBalance]
  exact if_pos (.inr (.inr hskip))

theorem balMin_reset : ∀ g : Fin 3, rd Blk.reset (MOD.IMB.BAL_MIN g.val) = 400 := by decide

/-- Settles O58: the step changes nothing, whether or not the page is enabled. -/
theorem balanceHold : Obligations.BalanceHold := by
  intro g s hskip
  have hsame : gated (pgMOD g.val) (doBalance g.val) s.blk = s.blk :=
    gated_rel (P := (· = s.blk)) rfl (doBalance_skips hskip)
  refine completes_run (f := gated (pgMOD g.val) (doBalance g.val)) rfl ⟨fun p _ => ?_, balMin_reset g⟩
  rw [hsame]

/-! Trims. -/

/-- A signed value that fits its 16-bit field reads back. -/
theorem rdI_wrI_same {a lo : Nat} (hF : lo + 16 ≤ 32) (hlo : -2 ^ 15 ≤ t) (hhi : t < 2 ^ 15) :
    rdI (wrI b ⟨a, lo, 16⟩ t) ⟨a, lo, 16⟩ = t := by
  have hread : rd (wrI b ⟨a, lo, 16⟩ t) ⟨a, lo, 16⟩ = ofInt 16 t % 2 ^ 16 := rd_wr_same hF
  rw [rdI, hread]
  unfold toInt ofInt
  dsimp only
  omega

/-- A trim put is shown within the group's limit. -/
theorem putTrim_trim (hmax : rd b (MOD.BAL.TRIM_MAX g) < 2 ^ 15) :
    rdI (putTrim g p t b) (MOD.PH.PSTAT.TRIM g p) =
      clamp (-(rd b (MOD.BAL.TRIM_MAX g) : Int)) (rd b (MOD.BAL.TRIM_MAX g)) t := by
  unfold putTrim
  extract_lets mx was sat first b₁
  have h₁ : rd b₁ (MOD.PH.PSTAT.TRIM g p) = rd (wrI b (MOD.PH.PSTAT.TRIM g p) (clamp (-mx) mx t)) (MOD.PH.PSTAT.TRIM g p) :=
    rd_wr_ne (.inr (.inl (by simp [ MOD.PH.PSTAT.TRIM, MOD.PH.PSTAT.TRIM_SAT])))
  have hmx : 0 ≤ mx ∧ mx < 2 ^ 15 := by omega
  rw [rdI, rd_when_raise_ne (by simp only [ MOD.PH.PSTAT.TRIM, pgMOD]; omega), h₁, ← rdI]
  exact rdI_wrI_same (by decide) (by unfold clamp; omega) (by unfold clamp; omega)

/-- It changes no field of a register but the phase's PSTAT and the page's EVT_RAW. -/
theorem putTrim_rd {F : Fld} (hF : F.a ≠ (MOD.PH.PSTAT.TRIM g p).a) (hraw : F.a ≠ pgMOD g + 0x20) :
    rd (putTrim g p t b) F = rd b F := by
  unfold putTrim
  extract_lets mx was sat first b₁
  have hsat : F.a ≠ (MOD.PH.PSTAT.TRIM_SAT g p).a := hF
  have h₁ : rd b₁ F = rd b F :=
    (rd_wr_ne (F := MOD.PH.PSTAT.TRIM_SAT g p) (.inl hsat)).trans (rd_wr_ne (F := MOD.PH.PSTAT.TRIM g p) (.inl hF))
  rw [rd_when_raise_ne hraw, h₁]

/-- A phase's trim stands within its group's limit, where the trim's field can hold that limit. -/
structure TrimWithin (g p : Nat) (b : Blk) : Prop where
  bounds : rd b (MOD.BAL.TRIM_MAX g) < 2 ^ 15 →
    -(rd b (MOD.BAL.TRIM_MAX g) : Int) ≤ rdI b (MOD.PH.PSTAT.TRIM g p) ∧
      rdI b (MOD.PH.PSTAT.TRIM g p) ≤ (rd b (MOD.BAL.TRIM_MAX g) : Int)

theorem putTrim_max : rd (putTrim g p t b) (MOD.BAL.TRIM_MAX g) = rd b (MOD.BAL.TRIM_MAX g) :=
  putTrim_rd (by simp only [ MOD.BAL.TRIM_MAX, MOD.PH.PSTAT.TRIM]; omega)
    (by simp only [ MOD.BAL.TRIM_MAX, pgMOD]; omega)

theorem putTrim_within : TrimWithin g p (putTrim g p t b) := by
  refine ⟨fun hmax => ?_⟩
  rw [putTrim_max] at hmax ⊢
  rw [putTrim_trim hmax]
  unfold clamp
  omega

theorem putTrim_keeps_within (hne : p ≠ q) (h : TrimWithin g p b) : TrimWithin g p (putTrim g q t b) := by
  have htrim : rd (putTrim g q t b) (MOD.PH.PSTAT.TRIM g p) = rd b (MOD.PH.PSTAT.TRIM g p) :=
    putTrim_rd (by simp only [ MOD.PH.PSTAT.TRIM]; omega) (by simp only [ MOD.PH.PSTAT.TRIM, pgMOD]; omega)
  constructor
  rw [putTrim_max, rdI, htrim]
  exact h.bounds

/-! BALANCE_STEP (R129). -/

/-- A step that is not skipped puts a trim of each active phase. -/
theorem doBalance_eq (hact : nAct b g ≠ 0) (hk : rd b (MOD.BAL.K_BAL g) ≠ 0)
    (hmin : rd b (MOD.IMB.BAL_MIN g) ≤ rd b (MOD.MEAS.IGRP g)) (hclamp : isOn b (MOD.GSTAT.CLAMPED g) = false)
    (hgate : gateOn b g = true) :
    ∃ (f : Nat → Int) (m : Int), doBalance g b =
      forEach ((bitsOf 8 (phAct b g)).map fun p => (p, f p)) (fun e => putTrim g e.1 (e.2 - m)) b := by
  have hgo : ¬(nAct b g = 0 ∨ rd b (MOD.BAL.K_BAL g) = 0 ∨ rd b (MOD.MEAS.IGRP g) < rd b (MOD.IMB.BAL_MIN g) ∨
      isOn b (MOD.GSTAT.CLAMPED g) = true ∨ (!gateOn b g) = true) := by
    simp [hact, hk, hmin, hclamp, hgate]
  exact ⟨_, _, if_neg hgo⟩

theorem forEach_putTrim_within (m : Int) (l : List (Nat × Int)) :
    ∀ e ∈ l, TrimWithin g e.1 (forEach l (fun e => putTrim g e.1 (e.2 - m)) b) :=
  forEach_each (P := fun (e : Nat × Int) => TrimWithin g e.1) (fun _ _ _ => putTrim_within) fun x _ y _ _ c hx => by
    by_cases hxy : x.1 = y.1
    · rw [hxy]
      exact putTrim_within
    · exact putTrim_keeps_within hxy hx

theorem forEach_putTrim_max (m : Int) (l : List (Nat × Int)) :
    rd (forEach l (fun e => putTrim g e.1 (e.2 - m)) b) (MOD.BAL.TRIM_MAX g) = rd b (MOD.BAL.TRIM_MAX g) :=
  forEach_rel (P := fun c => rd c (MOD.BAL.TRIM_MAX g) = rd b (MOD.BAL.TRIM_MAX g)) l
    (fun _ _ _ hc => putTrim_max.trans hc) rfl

/-- After a step the trim of every active phase is within the limit. -/
theorem doBalance_bounds (hact : nAct b g ≠ 0) (hk : rd b (MOD.BAL.K_BAL g) ≠ 0)
    (hmin : rd b (MOD.IMB.BAL_MIN g) ≤ rd b (MOD.MEAS.IGRP g)) (hclamp : isOn b (MOD.GSTAT.CLAMPED g) = false)
    (hgate : gateOn b g = true) (hmax : rd b (MOD.BAL.TRIM_MAX g) < 2 ^ 15) (hp : p < 8)
    (hbit : (phAct b g).testBit p = true) :
    -(rd b (MOD.BAL.TRIM_MAX g) : Int) ≤ rdI (doBalance g b) (MOD.PH.PSTAT.TRIM g p) ∧
      rdI (doBalance g b) (MOD.PH.PSTAT.TRIM g p) ≤ (rd b (MOD.BAL.TRIM_MAX g) : Int) := by
  obtain ⟨f, m, heq⟩ := doBalance_eq hact hk hmin hclamp hgate
  have hwithin := forEach_putTrim_within (g := g) (b := b) m ((bitsOf 8 (phAct b g)).map fun p => (p, f p)) (p, f p)
    (List.mem_map_of_mem (mem_bitsOf.2 ⟨hp, hbit⟩))
  have hbounds := hwithin.bounds
  rw [forEach_putTrim_max] at hbounds
  rw [heq]
  exact hbounds hmax

end Sys2Proof.Machine
end

section
/-!
SUPPORT. Periods, alignment edges, the delay line's calibration and the imbalance of phases (R118 to R120, R126, R127, R131):
O10.
-/

namespace Sys2Proof.Machine

open Sys2Proof.Num Sys2Proof.Stated

variable {b : Blk} {g p : Nat}

/-! PERIOD_START (R118, R126). -/

theorem modOf_modOffsets (k : Nat) : modOf (modOffsets g b) k = modOf b k :=
  (modOf_forEach _ fun _ _ => modOf_wr ..).trans (modOf_wr ..)

/-- The ramp of the command timeout leaves the period and its correction. -/
theorem modRamp_period (hg : g < 3) :
    (modOf (modRamp g b) g).corr = (modOf b g).corr ∧ (modOf (modRamp g b) g).perSet = (modOf b g).perSet := by
  unfold modRamp
  dsimp only
  split
  · rw [modOf_wr, modOf_setMod_same _ hg]
    exact ⟨rfl, rfl⟩
  · exact ⟨rfl, rfl⟩

theorem doPeriodStart_takes (hg : g < 3) (im : List Int) (vg : Int) :
    (modOf (doPeriodStart g im vg b) g).corr = 0 ∧
      (modOf (doPeriodStart g im vg b) g).perSet = 64 * rd b (MOD.PERIOD.PER g) + rd b (MOD.PERIOD.PER_FINE g) := by
  unfold doPeriodStart
  extract_lets x set b₁ b₂ fs b₃ sum b₄
  have h₂ : (modOf b₂ g).corr = 0 ∧ (modOf b₂ g).perSet = set := by
    rw [modOf_setMod_same _ hg]
    exact ⟨rfl, rfl⟩
  have h₄ : modOf b₄ g = modOf b₂ g := by
    rw [modOf_wrU, modOf_wr]
    exact modOf_forEach _ fun _ _ => modOf_wr ..
  obtain ⟨hcorr, hper⟩ := modRamp_period (b := modOffsets g b₄) hg
  rw [hcorr, hper, modOf_modOffsets, h₄]
  exact h₂

/-! Alignment edges (R126, R127). -/

theorem modLoss_miss (hg : g < 3) : (modOf (modLoss g b) g).miss = (modOf b g).miss := by
  unfold modLoss
  split
  · dsimp only
    rw [modOf_raise, modOf_wrB, modOf_wrB, modOf_setMod_same _ hg]
  · rfl

theorem edgeMissing_counts (hg : g < 3) (hsel : rd b (MOD.GCTL.SYNC_SEL g) ≠ 0) :
    (modOf (edgeMissing g b) g).miss = (modOf b g).miss + 1 := by
  rw [edgeMissing, if_neg hsel]
  extract_lets x b₁
  have h₁ : (modOf b₁ g).miss = x.miss + 1 := by rw [modOf_setMod_same _ hg]
  split
  · rw [modLoss_miss hg, h₁]
  · exact h₁

/-- An edge within the tolerance counts up, whether or not the group locks with it. -/
theorem doSyncEdge_counts {e dev : Int} (hg : g < 3) (hsel : rd b (MOD.GCTL.SYNC_SEL g) ≠ 0)
    (hdev : dev.natAbs * 1000 ≤ (modOf b g).sync.tol * (modOf b g).sync.div * (modOf b g).perSet) :
    (modOf (doSyncEdge g e dev b) g).miss = 0 ∧ (modOf (doSyncEdge g e dev b) g).valid = (modOf b g).valid + 1 := by
  rw [doSyncEdge, if_neg hsel]
  extract_lets x tol b₁ ret b₂ hold lim n y b₃ z
  rw [if_neg (Nat.not_lt.2 hdev)]
  have h₃ : (modOf b₃ g).miss = 0 ∧ (modOf b₃ g).valid = x.valid + 1 := by
    rw [modOf_setMod_same _ hg]
    exact ⟨rfl, rfl⟩
  split
  · rw [modOf_raise, modOf_wrB, modOf_setMod_same _ hg]
    exact h₃
  · exact h₃

/-! Calibration and imbalance (R120, R131). -/

theorem doCalDone_ends (hg : g < 3) (taps : Nat) :
    (modOf (doCalDone g taps b) g).calRun = false ∧ (modOf (doCalDone g taps b) g).calDone = true := by
  unfold doCalDone
  extract_lets x b₁
  have h₁ : (modOf b₁ g).calRun = false ∧ (modOf b₁ g).calDone = true := by
    rw [modOf_incWrap, modOf_setMod_same _ hg]
    exact ⟨rfl, rfl⟩
  split
  · rwa [modOf_wrB, modOf_wr]
  · rwa [modOf_raise, modOf_wrB]

theorem doImbalance_shows {imb : Bool} (h : imb = imbalanced b g p) :
    isOn (doImbalance g p imb b) (MOD.PH.PSTAT.IMB g p) = imb := by
  rw [doImbalance, if_neg (not_not.2 h)]
  extract_lets was b₁
  rw [isOn, rd_when_raise_ne (by simp only [ MOD.PH.PSTAT.IMB, pgMOD]; omega), ← isOn]
  exact isOn_wrB_bit (by decide) imb

/-- Settles O10: each command of an enabled group by what its operation leaves of the group's state and trims. -/
theorem phaseAlignment : Obligations.PhaseAlignment := by
  refine ⟨fun g im vg s hen hnow => ?_, fun g e dev s hen hsel hdev => ?_, fun g s hen hsel => ?_, fun g s hen => ?_,
    fun g taps s hen => ?_, fun g s hen hact hk hmin hclamp hgate hmax => ?_, fun g p im s hen him => ?_⟩
  · exact completes_mod g.isLt (runIn_now 7 _ hnow) hen (doPeriodStart_takes g.isLt im vg)
  · exact completes_mod g.isLt rfl hen (doSyncEdge_counts g.isLt hsel hdev)
  · exact completes_mod g.isLt rfl hen (edgeMissing_counts g.isLt hsel)
  · exact completes_mod g.isLt rfl hen (by rw [modOf_setMod_same _ g.isLt])
  · exact completes_mod g.isLt rfl hen (doCalDone_ends g.isLt _)
  · exact completes_mod g.isLt rfl hen fun p hp hbit => doBalance_bounds hact hk hmin hclamp hgate hmax hp hbit
  · exact completes_mod g.isLt rfl hen (doImbalance_shows him)

end Sys2Proof.Machine
end

section
/-!
SUPPORT. Desaturation, trips and the power-fail stop of a group (R133 to R135, R138): O11.
-/

namespace Sys2Proof.Machine

open Sys2Proof.Num Sys2Proof.Stated

variable {b : Blk} {g p : Nat}

/-! Gate enables. -/

theorem modOf_gateRemove (hg : g < 3) (cause : Nat) :
    modOf (gateRemove g cause b) g =
      { modOf b g with
        pwmh := 0, pwml := 0, step := [], gate := (modOf b g).gate ||| 2 ^ cause, hold := true, quiet := true } := by
  unfold gateRemove
  extract_lets was b₁ x b₂ b₃
  have h₁ : modOf b₁ g = { modOf b g with pwmh := 0, pwml := 0, step := [] } := modOf_setMod_same _ hg
  have h₃ : modOf b₃ g = { modOf b₁ g with gate := (modOf b₁ g).gate ||| 2 ^ cause, hold := true, quiet := true } := by
    rw [modOf_wrB, modOf_setMod_same _ hg]
  split
  · rw [modOf_raise, h₃, h₁]
  · rw [h₃, h₁]

/-- The fields of GSTAT below HW_OFF outlast the removal and the return of a gate enable. -/
theorem gateRemove_rd {F : Fld} {cause : Nat} (hF : F.lo + F.w ≤ 28) (hraw : F.a ≠ pgMOD g + 0x20) :
    rd (gateRemove g cause b) F = rd b F := by
  unfold gateRemove
  extract_lets was b₁ x b₂ b₃
  have h₃ : rd b₃ F = rd b F := by
    refine (rd_wr_ne (.inr (.inl hF))).trans ?_
    simp only [b₂, b₁, pwmLow, setMod_rd]
  split
  · rw [rd_raise_ne hraw, h₃]
  · exact h₃

theorem gateRestore_rd_below {F : Fld} {cause : Nat} (hF : F.lo + F.w ≤ 28) : rd (gateRestore g cause b) F = rd b F :=
  (rd_wr_ne (.inr (.inl hF))).trans (setMod_rd _ F)

/-! Desaturation (R133, R134). -/

theorem faultField_fits : (MOD.GSTAT.PH_FAULT g).lo + (MOD.GSTAT.PH_FAULT g).w ≤ 32 := by simp [ MOD.GSTAT.PH_FAULT]

/-- A trip leaves the faults marked, and every phase of the group at rest. -/
theorem modTrip_stops (hg : g < 3) :
    rd (modTrip g b) (MOD.GSTAT.PH_FAULT g) = rd b (MOD.GSTAT.PH_FAULT g) ∧ phStep (modTrip g b) g p = 0 := by
  unfold modTrip
  extract_lets b₁
  have h₁ : rd b₁ (MOD.GSTAT.PH_FAULT g) = rd b (MOD.GSTAT.PH_FAULT g) :=
    (rd_wr_ne (.inr (.inl (by simp [ MOD.GSTAT.PH_FAULT, MOD.GSTAT.TRIPPED])))).trans
      (gateRemove_rd (by simp [ MOD.GSTAT.PH_FAULT]) (by simp only [ MOD.GSTAT.PH_FAULT, pgMOD]; omega))
  constructor
  · have hk : gIdx (raise (pgMOD g) 1 b₁) g < 12 := gIdx_lt hg
    rw [blockGroup, wrB, rd_wr_ne (.inl (by simp only [ MOD.GSTAT.PH_FAULT, FCTR.GRP_STAT.BLOCKED]; omega)),
      rd_raise_ne (by simp only [ MOD.GSTAT.PH_FAULT, pgMOD]; omega), h₁]
  · rw [phStep, blockGroup, modOf_wrB, modOf_raise, modOf_wrB, modOf_gateRemove hg]
    rfl

/-- A phase not yet faulted is marked and put at rest, whether or not the group trips with it. -/
theorem doDesat_marks {low : Bool} (hg : g < 3) (hp : p < 8)
    (h : (rd b (MOD.GSTAT.PH_FAULT g)).testBit p = false) :
    (rd (doDesat g p low b) (MOD.GSTAT.PH_FAULT g)).testBit p = true ∧ phStep (doDesat g p low b) g p = 0 := by
  have hstat {c : Blk} {lo w v : Nat} :
      rd (wr c ⟨0x120404 + 0x1000 * g + 32 * p, lo, w⟩ v) (MOD.GSTAT.PH_FAULT g) = rd c (MOD.GSTAT.PH_FAULT g) :=
    rd_wr_reg_ne (by omega)
  unfold doDesat
  extract_lets b₁ x b₂ b₃ b₄ b₅ t
  have hstep : phStep b₂ g p = 0 := by
    rw [phStep, modOf_setMod_same _ hg]
    exact (setPhase_shows hg ..).1
  have hnew : ¬(rd b₂ (MOD.GSTAT.PH_FAULT g)).testBit p = true := by
    rw [setMod_rd, setPhase_rd, h]
    decide
  have h₃ : (rd b₃ (MOD.GSTAT.PH_FAULT g)).testBit p = true :=
    (congrArg (Nat.testBit · p) hstat).trans ((rdBit_wrBit faultField_fits hp).trans (if_pos rfl))
  have h₄ : rd b₄ (MOD.GSTAT.PH_FAULT g) = rd b₃ (MOD.GSTAT.PH_FAULT g) ∧ modOf b₄ g = modOf b₂ g := by
    have hmod : modOf b₃ g = modOf b₂ g := by rw [modOf_wrB, modOf_wrBit]
    cases low with
    | false => exact ⟨rfl, hmod⟩
    | true => exact ⟨hstat, (modOf_wrB ..).trans hmod⟩
  have h₅ : (rd b₅ (MOD.GSTAT.PH_FAULT g)).testBit p = true ∧ phStep b₅ g p = 0 := by
    have hcnt {c : Blk} : rd (incSat c (MOD.PH.PCNT.DESAT_CNT g p)) (MOD.GSTAT.PH_FAULT g) = rd c (MOD.GSTAT.PH_FAULT g) :=
      rd_wr_reg_ne (by omega)
    have hdrop : rd (dropTrim g p b₄) (MOD.GSTAT.PH_FAULT g) = rd b₄ (MOD.GSTAT.PH_FAULT g) := hstat.trans hstat
    constructor
    · rwa [rd_raise_ne (by simp only [ MOD.GSTAT.PH_FAULT, pgMOD]; omega), hcnt, hdrop, h₄.1]
    · rwa [phStep, modOf_raise, modOf_incSat, dropTrim, modOf_wrB, modOf_wr, h₄.2]
  have hkeep (f : Option Nat) : (rd (setMod g { modOf b₅ g with fault := f } b₅) (MOD.GSTAT.PH_FAULT g)).testBit p = true ∧
      phStep (setMod g { modOf b₅ g with fault := f } b₅) g p = 0 := by
    rw [setMod_rd, phStep, modOf_setMod_same _ hg]
    exact h₅
  rw [if_neg hnew]
  split
  · split
    · obtain ⟨hfault, hrest⟩ := modTrip_stops (b := b₅) (p := p) hg
      rw [hfault]
      exact ⟨h₅.1, hrest⟩
    · exact hkeep _
  · exact hkeep _

/-! Clearing (R135). -/

/-- A write of ARM clears the faults of the phases it names, whether or not it clears the trip beside them. -/
theorem actModArm_clears {v : Nat} (hp : p < 8) (hbit : v.testBit p = true) :
    (rd (actModArm g v b) (MOD.GSTAT.PH_FAULT g)).testBit p = false := by
  have hstat {c : Blk} {q lo : Nat} {x : Bool} :
      rd (wrB c ⟨0x120404 + 0x1000 * g + 32 * q, lo, 1⟩ x) (MOD.GSTAT.PH_FAULT g) = rd c (MOD.GSTAT.PH_FAULT g) :=
    rd_wr_reg_ne (by omega)
  have hclear {c : Blk} {q k : Nat} (hk : k < 8) :
      rdBit (wrB (wrB (wrBit c (MOD.GSTAT.PH_FAULT g) q false) (MOD.PH.PSTAT.DESAT g q) false) (MOD.PH.PSTAT.DESAT_OFF g q)
        false) (MOD.GSTAT.PH_FAULT g) k = if k = q then false else rdBit c (MOD.GSTAT.PH_FAULT g) k :=
    (congrArg (Nat.testBit · k) (hstat.trans hstat)).trans (rdBit_wrBit faultField_fits hk)
  unfold actModArm
  extract_lets b₁ x b₂
  have h₁ : rdBit b₁ (MOD.GSTAT.PH_FAULT g) p = false :=
    forEach_each (P := fun q c => rdBit c (MOD.GSTAT.PH_FAULT g) q = false)
      (fun q hq _ => (hclear (mem_bitsOf.1 hq).1).trans (if_pos rfl))
      (fun q hq _ _ hne _ hc => (hclear (mem_bitsOf.1 hq).1).trans ((if_neg hne).trans hc)) p (mem_bitsOf.2 ⟨hp, hbit⟩)
  have h₂ : rd b₂ (MOD.GSTAT.PH_FAULT g) = rd b₁ (MOD.GSTAT.PH_FAULT g) := by
    unfold b₂
    split
    · exact setMod_rd ..
    · rfl
  have h₃ : rd (wrB b₂ (MOD.GSTAT.TRIPPED g) false) (MOD.GSTAT.PH_FAULT g) = rd b₂ (MOD.GSTAT.PH_FAULT g) :=
    rd_wr_ne (.inr (.inl (by simp [ MOD.GSTAT.PH_FAULT, MOD.GSTAT.TRIPPED])))
  split
  · rw [gateRestore_rd_below (by simp [ MOD.GSTAT.PH_FAULT]), h₃, h₂]
    exact h₁
  · rw [h₂]
    exact h₁

theorem actModArm_untrips {v : Nat} (hv : v.testBit 8 = true) :
    isOn (actModArm g v b) (MOD.GSTAT.TRIPPED g) = false := by
  unfold actModArm
  extract_lets b₁ x b₂
  rw [if_pos hv, isOn, gateRestore_rd_below (by simp [ MOD.GSTAT.TRIPPED]), ← isOn]
  exact isOn_wrB_bit (by decide) false

/-! The power-fail stop (R138). -/

theorem doPfGate_stops (hg : g < 3) (hpf : pfWarn b = true) (h : isOn b (MOD.GSTAT.PF_STOP g) = false) :
    isOn (doPfGate g b) (MOD.GSTAT.PF_STOP g) = true ∧ (modOf (doPfGate g b) g).gate.testBit 4 = true := by
  rw [doPfGate, if_pos ⟨hpf, by rw [h]; rfl⟩]
  extract_lets was b₁
  have hgate : (modOf b₁ g).gate.testBit 4 = true := by
    rw [modOf_wrB, modOf_gateRemove hg, Nat.testBit_or, Nat.testBit_two_pow_self, Bool.or_true]
  have hstop : isOn b₁ (MOD.GSTAT.PF_STOP g) = true := isOn_wrB_bit (by decide) true
  split
  · rw [isOn_raise_ne (by simp only [ MOD.GSTAT.PF_STOP, pgMOD]; omega), modOf_raise]
    exact ⟨hstop, hgate⟩
  · exact ⟨hstop, hgate⟩

/-- Settles O11: the commands of an enabled group by their operations, the writes of ARM by what the register does. -/
theorem phaseFaults : Obligations.PhaseFaults := by
  refine ⟨fun g p low s hen h hnow => ?_, fun i g ph d s ha => ?_, fun i g s ha => ?_, fun g s hen hpf h => ?_⟩
  · exact completes_mod g.isLt (runIn_now 7 _ hnow) hen (doDesat_marks g.isLt p.isLt h)
  · refine completes_run (f := fun b => writeAct i false (MOD.ARM.PH g.val).a (ph.setWidth 32) (actModArm g.val)
      (setMod g.val { modOf b g.val with desat := d.toNat } b)) rfl fun p hp hbit => ?_
    rw [writeAct_accepted ha, BitVec.toNat_setWidth_of_le (by decide)]
    exact actModArm_clears hp hbit
  · refine completes_run (f := writeAct i false (MOD.ARM.PH g.val).a 0x100 (actModArm g.val)) rfl ?_
    rw [writeAct_accepted ha]
    exact actModArm_untrips (by decide)
  · exact completes_mod g.isLt rfl hen (doPfGate_stops g.isLt hpf h)

end Sys2Proof.Machine
end
section
/-!
SUPPORT. The registers a group's command timeout writes (R20, R168): O53.
-/

namespace Sys2Proof.Machine

open Sys2Proof.Num Sys2Proof.Stated

/-- Refutes O53: GROUP_CMD_TIMEOUT raises event 30 of the control engine (R168), so it sets a bit of EVT_RAW on the CE page,
which is not the group's page. The state has group 0 and the engine enabled and a command applied that has not timed out. -/
theorem not_powerStageFrames : ¬ Obligations.PowerStageFrames := by
  rintro ⟨-, -, -, -, -, -, -, -, -, -, htimeout, -⟩
  obtain ⟨-, hwords, -⟩ := htimeout 0
    { blk := setMod 0 { last := some { cycle := 3, trunk := 4, ref := 777, owner := 1 } }
        (wrB (wrB Blk.reset (hEN (pgMOD 0)) true) (hEN pgCE) true)
      pending := [] } _ rfl
  exact absurd (hwords (hRAW pgCE).a (by decide)) (by decide)

end Sys2Proof.Machine
end

section
/-!
SUPPORT. The end of an auto-tune and its results (R164, R165): O59. The amplitude and the period are the floors of the means
of the cycles measured, the model's deduction (notes/assumptions/19.md).
-/

namespace Sys2Proof.Machine

open Sys2Proof.Num Sys2Proof.Stated

variable {b : Blk}

/-! The end of a tune (R164). -/

/-- A slot's state stands above the engine's common registers. -/
theorem setP_rd {F : Fld} (hF : F.a < 0x130400) (i p : Nat) : rd (setP i p b) F = rd b F :=
  rd_wr_ne (.inl (by simp only [CE.SLOT.STATE.PSTATE]; omega))

/-- The end of a tune writes its status; the slot's state and the event stand elsewhere. -/
theorem tuneEnd_rd {F : Fld} (hF : F.a < 0x130400) (hraw : F.a ≠ pgCE + 0x20) (st cause : Nat) :
    rd (tuneEnd st cause b) F = rd (wr (wr b CE.TUNE_STAT.STATE st) CE.TUNE_STAT.CAUSE cause) F := by
  unfold tuneEnd
  extract_lets t b₁ b₂ x b₃
  refine (rd_raise_ne hraw).trans (show rd b₂ F = rd b₁ F from ?_)
  unfold b₂
  split
  · exact setP_rd hF ..
  · rfl

theorem tuneEnd_rd_ne {F : Fld} (hF : F.a < 0x130400) (hraw : F.a ≠ pgCE + 0x20) (hstat : F.a ≠ CE.TUNE_STAT.STATE.a)
    (st cause : Nat) : rd (tuneEnd st cause b) F = rd b F := by
  have hcause : F.a ≠ CE.TUNE_STAT.CAUSE.a := hstat
  rw [tuneEnd_rd hF hraw, rd_wr_ne (.inl hcause), rd_wr_ne (.inl hstat)]

theorem tuneEnd_tune (st cause : Nat) : (tuneEnd st cause b).ce.tune = {} := by
  unfold tuneEnd
  dsimp only
  rw [raise_ce]

theorem tuneEnd_shows {st cause : Nat} (hst : st < 4) (hcause : cause < 4) :
    rd (tuneEnd st cause b) CE.TUNE_STAT.STATE = st ∧ rd (tuneEnd st cause b) CE.TUNE_STAT.CAUSE = cause ∧
      (tuneEnd st cause b).ce.tune = {} := by
  refine ⟨?_, ?_, tuneEnd_tune st cause⟩
  · rw [tuneEnd_rd (by decide) (by decide), rd_wr_ne (.inr (by decide)), rd_wr_same (by decide)]
    exact Nat.mod_eq_of_lt hst
  · rw [tuneEnd_rd (by decide) (by decide), rd_wr_same (by decide)]
    exact Nat.mod_eq_of_lt hcause

/-! The results of a tune (R165). -/

/-- A count that fits its field reads back. -/
theorem rd_wrU_fits {F : Fld} {v : Nat} (hF : F.lo + F.w ≤ 32) (hv : v < 2 ^ F.w) : rd (wrU b F v) F = v := by
  rw [rd_wrU_same hF]
  exact Nat.min_eq_left (Nat.le_sub_one_of_lt hv)

/-- A count stored leaves the fields of other registers and the other fields of its own. -/
theorem rd_wrU_beside {F G : Fld} {v : Nat} (h : G.a ≠ F.a ∨ G.lo + G.w ≤ F.lo ∨ F.lo + F.w ≤ G.lo) :
    rd (wrU b F v) G = rd b G := rd_wr_ne h

/-- The registers of R165 with the results given. -/
def showTune (amp tu ku kp ki : Nat) (b : Blk) : Blk :=
  wrU (wrU (wrU (wrU (wrU b CE.TUNE_RES.AMP amp) CE.TUNE_RES.TU tu) CE.TUNE_KU.KU ku) CE.TUNE_SUG.KP_SUG kp)
    CE.TUNE_SUG.KI_SUG ki

theorem showTune_shows {amp tu ku kp ki : Nat} (hamp : amp < 65536) (htu : tu < 65536) (hku : ku < 2 ^ 32)
    (hkp : kp < 65536) (hki : ki < 65536) :
    rd (showTune amp tu ku kp ki b) CE.TUNE_RES.AMP = amp ∧ rd (showTune amp tu ku kp ki b) CE.TUNE_RES.TU = tu ∧
      rd (showTune amp tu ku kp ki b) CE.TUNE_KU.KU = ku ∧ rd (showTune amp tu ku kp ki b) CE.TUNE_SUG.KP_SUG = kp ∧
      rd (showTune amp tu ku kp ki b) CE.TUNE_SUG.KI_SUG = ki := by
  unfold showTune
  refine ⟨?_, ?_, ?_, ?_, rd_wrU_fits (by decide) hki⟩
  · rw [rd_wrU_beside (by decide), rd_wrU_beside (by decide), rd_wrU_beside (by decide), rd_wrU_beside (by decide),
      rd_wrU_fits (by decide) hamp]
  · rw [rd_wrU_beside (by decide), rd_wrU_beside (by decide), rd_wrU_beside (by decide), rd_wrU_fits (by decide) htu]
  · rw [rd_wrU_beside (by decide), rd_wrU_beside (by decide), rd_wrU_fits (by decide) hku]
  · rw [rd_wrU_beside (by decide), rd_wrU_fits (by decide) hkp]

/-- Where the oscillation has an amplitude and a period, a finished tune shows R165's figures of them. -/
theorem tuneResult_eq (hamp : 0 < tuneAmp b) (htu : 0 < tuneTu b) :
    tuneResult b =
      tuneEnd 2 0 (showTune (tuneAmp b) (tuneTu b) (gainKu (rd b CE.TUNE.D) (tuneAmp b))
        (gainKu (rd b CE.TUNE.D) (tuneAmp b) * 45 / 100)
        (gainKu (rd b CE.TUNE.D) (tuneAmp b) * 45 / 100 * 256 * 100 / (83 * tuneTu b)) b) := by
  have hcyc : 1 ≤ rd b CE.TUNE.CYC := by
    by_contra hzero
    rw [tuneAmp, Nat.eq_zero_of_not_pos hzero, Nat.div_zero] at hamp
    exact absurd hamp (Nat.lt_irrefl 0)
  unfold tuneResult
  dsimp only
  rw [Nat.max_eq_right hcyc, Nat.max_eq_right hamp, Nat.max_eq_right htu]
  rfl

/-- Settles O59: the tune's end leaves the registers of its results, and each result fits its field. -/
theorem tuneResults : Obligations.TuneResults := by
  intro b hamp hampFits htu htuFits hkuFits hkpFits hkiFits
  obtain ⟨hshowAmp, hshowTu, hshowKu, hshowKp, hshowKi⟩ :=
    showTune_shows (b := b) hampFits htuFits hkuFits hkpFits hkiFits
  rw [tuneResult_eq hamp htu]
  simp (disch := decide) only [tuneEnd_rd_ne, hshowAmp, hshowTu, hshowKu, hshowKp, hshowKi, and_self]

end Sys2Proof.Machine
end

section
/-!
SUPPORT. The commit of gain tables (R169): a valid shadow table is put in force, and the tables committed with it leave it so.
-/

namespace Sys2Proof.Machine

open Sys2Proof.Num

variable {b c : Blk} {t k : Nat}

/-! Shadow tables. -/

/-- A shadow table as it would stand in force. -/
def shadowTable (b : Blk) (t : Nat) : LutLive := { hys := rd b (LUT.TBL.HYS t), pts := shadowPts b t }

/-- A field of the registers that hold the shadow tables: TBL and PT. -/
def OnShadow (F : Fld) : Prop := (LUT.TBL.NPTS 0).a ≤ F.a ∧ F.a < LUT.COMMIT.TBL.a ∨ (LUT.PT.BP.BP 0).a ≤ F.a

theorem onShadow_tbl (ht : t < 8) {lo w : Nat} : OnShadow ⟨0x138040 + 4 * t, lo, w⟩ :=
  .inl ⟨by simp only [LUT.TBL.NPTS]; omega, by simp only [LUT.COMMIT.TBL]; omega⟩

theorem onShadow_pt {a lo w : Nat} (ha : 0x138400 ≤ a) : OnShadow ⟨a, lo, w⟩ := .inr ha

/-- A table of another block with the same shadow registers is the same. -/
theorem shadowTable_congr (h : ∀ F, OnShadow F → rd c F = rd b F) (ht : t < 8) : shadowTable c t = shadowTable b t := by
  have hpts : shadowPts c t = shadowPts b t := by
    unfold shadowPts
    rw [h (LUT.TBL.NPTS t) (onShadow_tbl ht)]
    refine List.map_congr_left fun j _ => ?_
    rw [h (LUT.PT.BP.BP (8 * t + j)) (onShadow_pt (Nat.le_add_right ..)),
      h (LUT.PT.GAIN.KP (8 * t + j)) (onShadow_pt (Nat.le_add_right_of_le (by decide))),
      h (LUT.PT.GAIN.KI (8 * t + j)) (onShadow_pt (Nat.le_add_right_of_le (by decide)))]
  rw [shadowTable, shadowTable, hpts, h (LUT.TBL.HYS t) (onShadow_tbl ht)]

theorem shadowValid_congr (h : ∀ F, OnShadow F → rd c F = rd b F) (ht : t < 8) : shadowValid c t = shadowValid b t := by
  have hpts : shadowPts c t = shadowPts b t := congrArg LutLive.pts (shadowTable_congr h ht)
  rw [shadowValid, shadowValid, hpts, h (LUT.TBL.NPTS t) (onShadow_tbl ht)]

/-! The tables in force. -/

/-- A table in force: its bit of LSTAT.VALID, and the table the loops use. -/
def InForce (b : Blk) (t : Nat) (l : LutLive) : Prop :=
  rdBit b LUT.LSTAT.VALID t = true ∧ Tab.at' (fun _ => {}) b.ce.lut t = l

/-- An event leaves the tables in force. -/
theorem InForce.raise {l : LutLive} (h : InForce b t l) (n : Nat) : InForce (raise pgLUT n b) t l := by
  obtain ⟨hvalid, htab⟩ := h
  refine ⟨?_, by rwa [raise_ce]⟩
  rwa [rdBit, rd_raise_ne (by decide)]

/-- The running slots that use a table hold the old one for the cycle in progress. -/
def holdTable (t : Nat) (old : Option LutLive) (b : Blk) : Blk :=
  forEach ((List.range 16).filter fun i => slotUses b i t && (slotOf b i).lutHold.isNone)
    (fun i b => setSlot i { slotOf b i with lutHold := some old } b) b

theorem holdTable_keeps (t : Nat) (old : Option LutLive) :
    (∀ F, rd (holdTable t old b) F = rd b F) ∧ (holdTable t old b).ce.lut = b.ce.lut :=
  forEach_rel (P := fun c => (∀ F, rd c F = rd b F) ∧ c.ce.lut = b.ce.lut) _ (fun _ _ _ hc => hc) ⟨fun _ => rfl, rfl⟩

/-- The table that was in force. -/
def liveTable (b : Blk) (t : Nat) : Option LutLive :=
  if (rd b LUT.LSTAT.VALID).testBit t then some (Tab.at' (fun _ => {}) b.ce.lut t) else none

/-- What puts a table in force, before its event. -/
def enforceTable (t : Nat) (b : Blk) : Blk :=
  let h := holdTable t (liveTable b t) b
  wrBit { h with ce := { h.ce with lut := Tab.put (fun _ => {}) h.ce.lut t (shadowTable b t) } } LUT.LSTAT.VALID t true

theorem enforceTable_rd {F : Fld} (hF : F.a ≠ LUT.LSTAT.VALID.a) : rd (enforceTable t b) F = rd b F := by
  obtain ⟨hrd, -⟩ := holdTable_keeps (b := b) t (liveTable b t)
  exact (rd_wr_ne (.inl hF)).trans (hrd F)

theorem enforceTable_lut : (enforceTable t b).ce.lut = Tab.put (fun _ => {}) b.ce.lut t (shadowTable b t) := by
  obtain ⟨-, hlut⟩ := holdTable_keeps (b := b) t (liveTable b t)
  unfold enforceTable
  extract_lets h
  rw [wrBit, wr_ce, hlut]

theorem enforceTable_valid (hk : k < 8) :
    rdBit (enforceTable t b) LUT.LSTAT.VALID k = if k = t then true else rdBit b LUT.LSTAT.VALID k := by
  obtain ⟨hrd, -⟩ := holdTable_keeps (b := b) t (liveTable b t)
  unfold enforceTable
  extract_lets h
  refine (rdBit_wrBit (by decide) hk).trans (congrArg (if k = t then true else ·) ?_)
  exact congrArg (Nat.testBit · k) (hrd LUT.LSTAT.VALID)

/-- A table is in force then, and another stays so. -/
theorem enforceTable_same (ht : t < 8) : InForce (enforceTable t b) t (shadowTable b t) :=
  ⟨(enforceTable_valid ht).trans (if_pos rfl), by rw [enforceTable_lut, Tab.at'_put_same]⟩

theorem enforceTable_ne {l : LutLive} (hk : k < 8) (hne : k ≠ t) (h : InForce b k l) : InForce (enforceTable t b) k l := by
  obtain ⟨hvalid, htab⟩ := h
  exact ⟨((enforceTable_valid hk).trans (if_neg hne)).trans hvalid, by rw [enforceTable_lut, Tab.at'_put_ne _ _ hne, htab]⟩

/-! COMMIT. -/

/-- The commit of one table. -/
def commitTable (t : Nat) (b : Blk) : Blk :=
  if shadowValid b t then raise pgLUT 0 (enforceTable t b) else raise pgLUT 1 b

theorem actLutCommit_eq {v : Nat} (hen : enabled b pgLUT = true) : actLutCommit v b = forEach (bitsOf 8 v) commitTable b := by
  rw [actLutCommit, hen]
  rfl

theorem commitTable_rd {F : Fld} (hF : OnShadow F) : rd (commitTable t b) F = rd b F := by
  have hraw : F.a ≠ pgLUT + 0x20 := by
    simp only [OnShadow, LUT.TBL.NPTS, LUT.COMMIT.TBL, LUT.PT.BP.BP, pgLUT] at hF ⊢
    omega
  have hstat : F.a ≠ LUT.LSTAT.VALID.a := by
    simp only [OnShadow, LUT.TBL.NPTS, LUT.COMMIT.TBL, LUT.PT.BP.BP, LUT.LSTAT.VALID] at hF ⊢
    omega
  unfold commitTable
  split
  · rw [rd_raise_ne hraw, enforceTable_rd hstat]
  · exact rd_raise_ne hraw

theorem commitTable_same (ht : t < 8) (hvalid : shadowValid b t = true) : InForce (commitTable t b) t (shadowTable b t) := by
  rw [commitTable, if_pos hvalid]
  exact (enforceTable_same ht).raise 0

theorem commitTable_ne {l : LutLive} (hk : k < 8) (hne : k ≠ t) (h : InForce b k l) : InForce (commitTable t b) k l := by
  unfold commitTable
  split
  · exact (enforceTable_ne hk hne h).raise 0
  · exact h.raise 1

/-- A valid table that is among those committed, or stands in force as its shadow has it, does so at the end. -/
theorem forEach_commitTable {l : List Nat} (hk : k < 8) (hvalid : shadowValid b k = true)
    (h : k ∈ l ∨ InForce b k (shadowTable b k)) : InForce (forEach l commitTable b) k (shadowTable b k) := by
  induction l generalizing b with
  | nil => exact h.resolve_left List.not_mem_nil
  | cons t l ih =>
    have hshadow : shadowTable (commitTable t b) k = shadowTable b k := shadowTable_congr (fun _ => commitTable_rd) hk
    have hrest := ih (b := commitTable t b) ((shadowValid_congr (fun _ => commitTable_rd) hk).trans hvalid)
    rw [hshadow] at hrest
    refine hrest ?_
    by_cases hkt : k = t
    · exact .inr (hkt ▸ commitTable_same (hkt ▸ hk) (hkt ▸ hvalid))
    · exact h.imp (fun hmem => (List.mem_cons.1 hmem).resolve_left hkt) (commitTable_ne hk hkt)

/-- An accepted COMMIT puts a valid table it names in force as its shadow was. -/
theorem lutCommit_enforces {i : Init} {v : Word} (ha : Accepts b i LUT.COMMIT.TBL.a v) (hen : enabled b pgLUT = true)
    (ht : t < 8) (hbit : v.toNat.testBit t = true) (hvalid : shadowValid b t = true) :
    InForce (writeAct i false LUT.COMMIT.TBL.a v actLutCommit b) t (shadowTable b t) := by
  have hrd : ∀ F, F.a ≠ LUT.COMMIT.TBL.a → rd (writeOf b i LUT.COMMIT.TBL.a v).blk F = rd b F :=
    fun _ hF => writeOf_rd_ne ha (by decide) hF
  have hshadow : ∀ F, OnShadow F → rd (writeOf b i LUT.COMMIT.TBL.a v).blk F = rd b F := fun F hF => hrd F (by
    simp only [OnShadow, LUT.COMMIT.TBL, LUT.PT.BP.BP] at hF ⊢
    omega)
  rw [writeAct_accepted ha, actLutCommit_eq ((isOn_of_rd (hrd (hEN pgLUT) (by decide))).trans hen),
    ← shadowTable_congr hshadow ht]
  exact forEach_commitTable ht ((shadowValid_congr hshadow ht).trans hvalid) (.inl (mem_bitsOf.2 ⟨ht, hbit⟩))

end Sys2Proof.Machine
end

section
/-!
SUPPORT. The commands of auto-tune and the status of groups (R153, R163, R164); gain tables, auto-tune and group status: O17.
GROUP_STATUS carries a trunk and a phase code beside R434's fields, and a code of 2 or more ends a group's leaving of a trunk:
the model's choice (notes/assumptions/17.md).
-/

namespace Sys2Proof.Machine

open Sys2Proof.Num

variable {b c : Blk}

/-! TUNE_GO and the timeout of a tune (R163, R164). -/

theorem actTuneGo_starts (hen : enabled b pgCE = true) :
    rd (actTuneGo 1 b) CE.TUNE_STAT.STATE = 1 ∧ (actTuneGo 1 b).ce.tune = { slot := rd b CE.TUNE.SLOT } := by
  have hstart : actTuneGo 1 b = wr (wr { b with ce := { b.ce with tune := { slot := rd b CE.TUNE.SLOT } } }
      CE.TUNE_STAT.STATE 1) CE.TUNE_STAT.CAUSE 0 := by
    rw [actTuneGo, hen]
    rfl
  rw [hstart]
  exact ⟨(rd_wr_ne (.inr (by decide))).trans (rd_wr_same (by decide)), by rw [wr_ce, wr_ce]⟩

theorem actTuneGo_aborts (hen : enabled b pgCE = true) (hrun : rd b CE.TUNE_STAT.STATE = 1) :
    actTuneGo 2 b = tuneEnd 3 2 b := by
  rw [actTuneGo, hen]
  exact if_pos hrun

/-- An accepted write of TUNE_GO acts on a block that reads as before in every other register. -/
theorem tuneGo_acts {i : Init} {v : Word} (ha : Accepts b i CE.TUNE_GO.GO.a v) (hen : enabled b pgCE = true) :
    ∃ c, writeAct i false CE.TUNE_GO.GO.a v actTuneGo b = actTuneGo v.toNat c ∧ enabled c pgCE = true ∧
      ∀ F, F.a ≠ CE.TUNE_GO.GO.a → rd c F = rd b F := by
  have hrd : ∀ F, F.a ≠ CE.TUNE_GO.GO.a → rd (writeOf b i CE.TUNE_GO.GO.a v).blk F = rd b F :=
    fun _ hF => writeOf_rd_ne ha (by decide) hF
  exact ⟨_, writeAct_accepted ha, (isOn_of_rd (hrd (hEN pgCE) (by decide))).trans hen, hrd⟩

theorem doTuneTimeout_ends (hrun : rd b CE.TUNE_STAT.STATE = 1) (hosc : b.ce.tune.oscs = 0)
    (hlong : 64 * (rd b CE.TUNE.CYC + 2) * 16 ≤ b.ce.tune.total) : doTuneTimeout b = tuneEnd 3 1 b :=
  if_pos ⟨hrun, hosc, hlong⟩

/-! The status of a local group (R153). -/

/-- The status message of a local group. -/
def statusMsg (b : Blk) (g : Nat) : Msg :=
  .grpStatus (gIdx b g) (rd b (FCTR.GRP_STAT.DERATE (gIdx b g))) (grpPhase b g).1 (grpPhase b g).2

/-- What lies past the LINK page is as before messages were sent. -/
theorem sends_wordOf_past (h : Sends b c) {a : Nat} (ha : 0x51000 ≤ a) : wordOf c a = wordOf b a :=
  h.words a (by simp only [pgLINK]; omega)

theorem sends_rd_past (h : Sends b c) {F : Fld} (hF : 0x51000 ≤ F.a) : rd c F = rd b F :=
  congrArg F.of (sends_wordOf_past h hF)

theorem sends_gIdx (h : Sends b c) (g : Nat) : gIdx c g = gIdx b g := by
  rw [gIdx, gIdx, myPos, myPos, h.rd (by decide)]

theorem sends_reachTrunk (h : Sends b c) (k r : Nat) : reachTrunk c k r = reachTrunk b k r := by
  have hbyte : reachByte c k r = reachByte b k r := by
    rw [reachByte, reachByte, sends_wordOf_past h (by simp only [TRUNK.REACH_LO.T0]; omega)]
  rw [reachTrunk, reachTrunk, hbyte]

theorem sends_planTrunk (h : Sends b c) (k : Nat) : planTrunk c k = planTrunk b k := by
  have hmask : ∀ t, rd c (FCTR.TRUNK_PLAN.GRP_MASK t) = rd b (FCTR.TRUNK_PLAN.GRP_MASK t) :=
    fun t => sends_rd_past h (Nat.le_add_right_of_le (by decide))
  simp only [planTrunk, hmask]

/-- How a group stands does not depend on what has been sent. -/
theorem sends_grpPhase (h : Sends b c) (g : Nat) : grpPhase c g = grpPhase b g := by
  have htrunk : rd c (FCTR.GRP_STAT.TRUNK (gIdx b g)) = rd b (FCTR.GRP_STAT.TRUNK (gIdx b g)) :=
    sends_rd_past h (Nat.le_add_right_of_le (by decide))
  simp only [grpPhase, trunkOf, xferOf_of_trunk h.trunk, sends_gIdx h, sends_reachTrunk h, sends_planTrunk h, htrunk]

theorem sends_statusMsg (h : Sends b c) (g : Nat) : statusMsg c g = statusMsg b g := by
  have hderate : rd c (FCTR.GRP_STAT.DERATE (gIdx b g)) = rd b (FCTR.GRP_STAT.DERATE (gIdx b g)) :=
    sends_rd_past h (Nat.le_add_right_of_le (by decide))
  simp only [statusMsg, sends_gIdx h, hderate, sends_grpPhase h]

theorem sends_sendStatus (g : Nat) : Sends b (sendStatus g b) := (sends_emit _).trans (sends_toOwner _ _)

theorem sendStatus_out (g : Nat) : statusMsg b g ∈ (sendStatus g b).io.out :=
  (sends_toOwner (grpPhase b g).1 (statusMsg b g)).out _ (by simp [statusMsg])

/-- The status of each group a list names is sent as it stands before. -/
theorem forEach_sendStatus_out {g : Nat} {l : List Nat} (h : g ∈ l ∨ statusMsg b g ∈ b.io.out) :
    statusMsg b g ∈ (forEach l sendStatus b).io.out := by
  induction l generalizing b with
  | nil => exact h.resolve_left List.not_mem_nil
  | cons k l ih =>
    have hsends := sends_sendStatus (b := b) k
    have hrest := ih (b := sendStatus k b)
    rw [sends_statusMsg hsends] at hrest
    refine hrest ?_
    by_cases hgk : g = k
    · exact .inr (hgk ▸ sendStatus_out g)
    · exact h.imp (fun hmem => (List.mem_cons.1 hmem).resolve_left hgk) (hsends.out _)

/-! GROUP_STATUS received (R153). -/

/-- The weight a group takes on a trunk leaves its DERATE and what leaves trunks. -/
theorem doGroupStatus_keeps (k derate t st : Nat) :
    Tab.at' (fun _ => 256) (doGroupStatus k derate t st b).ce.derate k = derate ∧
      (2 ≤ st → Tab.at' (fun _ => 16) (doGroupStatus k derate t st b).trunk.leaving k = 16) := by
  unfold doGroupStatus
  extract_lets ce b₁ w trunk b₂
  have hkept : Tab.at' (fun _ => 256) b₂.ce.derate k = derate ∧
      (2 ≤ st → Tab.at' (fun _ => 16) b₂.trunk.leaving k = 16) := by
    unfold b₂
    split
    · exact ⟨Tab.at'_put_same .., fun _ => Tab.at'_put_same (fun _ => 16) b.trunk.leaving k 16⟩
    · exact ⟨Tab.at'_put_same .., fun hst => absurd hst ‹_›⟩
  split
  · exact hkept
  split
  · exact hkept
  split
  · exact hkept
  · exact hkept

/-- Settles O17: each command reaches its case of the model; a commit of several tables leaves each valid one in force, and
what is sent for one group leaves how the others stand. -/
theorem gainsAndTuning : Obligations.GainsAndTuning := by
  refine ⟨fun i v t s ha hen hbit hvalid => ?_, fun i s ha hen => ?_, fun i s ha hen hrun => ?_,
    fun s hen hrun hosc hlong => ?_, fun s hen => ?_, fun k d u j s hen => ?_⟩
  · exact completes_run (f := writeAct i false LUT.COMMIT.TBL.a v actLutCommit) rfl
      (lutCommit_enforces ha hen t.isLt hbit hvalid)
  · refine completes_run (f := writeAct i false CE.TUNE_GO.GO.a 1 actTuneGo) rfl ?_
    obtain ⟨c, hact, hcen, hrd⟩ := tuneGo_acts ha hen
    rw [hact, ← hrd CE.TUNE.SLOT (by decide)]
    exact actTuneGo_starts hcen
  · refine completes_run (f := writeAct i false CE.TUNE_GO.GO.a 2 actTuneGo) rfl ?_
    obtain ⟨c, hact, hcen, hrd⟩ := tuneGo_acts ha hen
    have hend : actTuneGo (2 : Word).toNat c = tuneEnd 3 2 c := actTuneGo_aborts hcen ((hrd _ (by decide)).trans hrun)
    rw [hact, hend]
    exact tuneEnd_shows (by decide) (by decide)
  · refine completes_run (f := gated pgCE doTuneTimeout) rfl ?_
    rw [gated_ce hen, doTuneTimeout_ends hrun hosc hlong]
    exact tuneEnd_shows (by decide) (by decide)
  · refine completes_run (f := gated pgCE doGroupStatusSend) rfl fun g hg => ?_
    rw [gated_ce hen]
    exact forEach_sendStatus_out (.inl (List.mem_range.2 hg))
  · refine completes_run (f := gated pgCE (doGroupStatus k.val d.toNat u.toNat j.val)) rfl ?_
    rw [gated_ce hen]
    exact doGroupStatus_keeps ..

end Sys2Proof.Machine
end

section
/-!
SUPPORT. Captures, the calibration check word and the pulse outputs (R180, R181, R190, R191): O36.
-/

namespace Sys2Proof.Machine

open Sys2Proof.Num

variable {b : Blk} {i : Init}

theorem gated_mtr {f : Blk → Blk} (hen : enabled b pgMTR = true) (hclk : clocked b pgMTR = true) : gated pgMTR f b = f b :=
  gated_on hen hclk (by decide)

/-- A write that is taken leaves PAGE_CTL of MTR. -/
theorem writeOf_enabled_mtr {a : Nat} {v : Word} (h : Accepts b i a v) (ha : (hEN pgMTR).a ≠ a) :
    enabled (writeOf b i a v).blk pgMTR = enabled b pgMTR :=
  isOn_of_rd (congrArg (hEN pgMTR).of (writeOf_wordOf_ne_calStat h ha (by decide)))

/-! Captures (R180). -/

theorem actCapture_starts {v : Nat} (hv : v.testBit 0 = true) (hen : enabled b pgMTR = true) :
    isOn (actCapture v b) MTR.CAPT_STAT.BUSY = true ∧ rd (actCapture v b) MTR.CAPT_STAT.DONE_N = 0 ∧
      rd64 (actCapture v b) MTR.CAPT_SUM.SUM = 0 ∧ rd64 (actCapture v b) MTR.CAPT_SQ.SQ = 0 := by
  have hstat (c : Blk) : wordsOf [MTR.CAPT_STAT.BUSY.a] (wr64 (wr64 c MTR.CAPT_SUM.SUM 0) MTR.CAPT_SQ.SQ 0) =
      wordsOf [MTR.CAPT_STAT.BUSY.a] c := by
    rw [wordsOf_wr64 (by decide) (by decide), wordsOf_wr64 (by decide) (by decide)]
  rw [actCapture, if_pos ⟨hv, hen⟩]
  refine ⟨?_, ?_, ?_, rd64_wr64_same (by decide)⟩
  · rw [isOn_of_wordsOf (hstat _) (by decide), isOn_wrB_same (by decide) (by decide)]
  · rw [rd_of_wordsOf (hstat _) (by decide), wrB, rd_wr_ne (by decide), rd_wr_same (by decide)]
    rfl
  · rw [rd64_of_wordsOf (l := [MTR.CAPT_SUM.SUM.a, MTR.CAPT_SUM.SUM.a + 4]) (wordsOf_wr64 (by decide) (by decide)) (by decide)
      (by decide), rd64_wr64_same (by decide)]

theorem doCaptureDone_ends (hbusy : isOn b MTR.CAPT_STAT.BUSY = true)
    (hfull : rd b MTR.CAPT_CTL.N ≤ rd b MTR.CAPT_STAT.DONE_N) : isOn (doCaptureDone b) MTR.CAPT_STAT.BUSY = false := by
  rw [doCaptureDone, if_pos ⟨hbusy, hfull⟩, isOn_raise_ne (by decide), isOn_wrB_same (by decide) (by decide)]

/-! The calibration check word (R181). -/

theorem calCrc_lt : calCrc b < 2 ^ 32 := BitVec.isLt _

/-- A write that is taken leaves COMMITS, whether or not it clears CAL_OK beside it. -/
theorem writeOf_commits {a : Nat} {v : Word} (h : Accepts b i a v) (ha : MTR.CAL_STAT.COMMITS.a ≠ a) :
    rd (writeOf b i a v).blk MTR.CAL_STAT.COMMITS = rd b MTR.CAL_STAT.COMMITS := by
  obtain ⟨-, hs, hm, -⟩ := h
  obtain ⟨p, n, r, k, -, -, -, hb⟩ := storeWord_accepted hs hm
  have hkey : a / 0x1000 * 0x1000 + a % 0x1000 = a := by omega
  have htouch (c : Blk) (pg : Nat) (old new : Word) :
      rd (calTouch pg r old new c) MTR.CAL_STAT.COMMITS = rd c MTR.CAL_STAT.COMMITS := by
    unfold calTouch
    split
    · exact rd_wr_ne (by decide)
    · rfl
  rw [writeOf, hb, answer_rd, htouch, hkey]
  exact congrArg _ (wordOf_setWord_ne ha)

theorem actCalCommit_stores {v : Nat} (hv : v.testBit 0 = true) (hen : enabled b pgMTR = true) :
    isOn (actCalCommit v b) MTR.CAL_STAT.CAL_OK = true ∧ rd (actCalCommit v b) MTR.CAL_CRC.CRC = calCrc b ∧
      rd (actCalCommit v b) MTR.CAL_STAT.COMMITS = min 65535 (rd b MTR.CAL_STAT.COMMITS + 1) := by
  rw [actCalCommit, if_pos ⟨hv, hen⟩]
  refine ⟨?_, ?_, ?_⟩
  · rw [incSat, isOn_wr_ne (by decide), isOn_wrB_same (by decide) (by decide)]
  · rw [incSat, rd_wr_ne (by decide), wrB, rd_wr_ne (by decide), rd_wr_same (by decide)]
    exact Nat.mod_eq_of_lt calCrc_lt
  · rw [rd_incSat (by decide), wrB, rd_wr_ne (by decide), rd_wr_ne (by decide)]
    rfl

theorem doCalCheck_compares :
    isOn (doCalCheck b) MTR.CAL_STAT.CAL_OK =
      (isOn b MTR.CAL_STAT.CAL_OK && decide (rd b MTR.CAL_STAT.COMMITS = 0 ∨ calCrc b = rd b MTR.CAL_CRC.CRC)) := by
  by_cases hgood : rd b MTR.CAL_STAT.COMMITS = 0 ∨ calCrc b = rd b MTR.CAL_CRC.CRC
  · rw [doCalCheck, if_pos hgood, decide_eq_true hgood, Bool.and_true]
  · rw [doCalCheck, if_neg hgood, isOn_raise_ne (by decide), isOn_wrB_same (by decide) (by decide), decide_eq_false hgood,
      Bool.and_false]

/-! Pulse outputs (R190, R191). -/

/-- A block whose pulse accumulator holds a value. -/
def setPulse (q a : Nat) (b : Blk) : Blk :=
  { b with met := { b.met with pulse := Tab.put (fun _ => 0) b.met.pulse q a } }

theorem setPulse_pulse (q a : Nat) : Tab.at' (fun _ => 0) (setPulse q a b).met.pulse q = a := Tab.at'_put_same ..

theorem setPulse_rd (q a : Nat) (F : Fld) : rd (setPulse q a b) F = rd b F := rfl

/-- A pulse accumulator with some energy added. -/
def pulseSum (b : Blk) (q e : Nat) : Nat := Tab.at' (fun _ => 0) b.met.pulse q + rd b (MTR.PULSE.PCFG.CONST q) * e

theorem pulseSum_zero {q : Nat} : pulseSum b q 0 = Tab.at' (fun _ => 0) b.met.pulse q := rfl

theorem pulseAdd_met (q e : Nat) :
    (pulseAdd q e b).met = { b.met with pulse := Tab.put (fun _ => 0) b.met.pulse q (pulseSum b q e) } := by
  unfold pulseAdd
  extract_lets a m b₁ n was b₂
  have h₂ : b₂.met = b₁.met := by simp [b₂]
  split
  · rw [raise_met, h₂]
    rfl
  · exact h₂

theorem wordsOf_pulseAdd {l : List Nat} {q : Nat} (hstat : (MTR.PULSE.PSTAT.SAT q).a ∉ l) (hraw : pgMTR + 0x20 ∉ l)
    (e : Nat) :
    wordsOf l (pulseAdd q e b) = wordsOf l b := by
  unfold pulseAdd
  extract_lets a m b₁ n was b₂
  have h₂ : wordsOf l b₂ = wordsOf l b := by
    unfold b₂
    rw [wordsOf_wrB hstat, wordsOf_wrU (F := MTR.PULSE.PSTAT.PEND q) hstat]
    rfl
  split
  · rw [wordsOf_raise hraw, h₂]
  · exact h₂

/-- No energy added leaves the accumulator. -/
theorem pulseAdd_zero_pulse {q : Nat} :
    Tab.at' (fun _ => 0) (pulseAdd q 0 b).met.pulse q = Tab.at' (fun _ => 0) b.met.pulse q := by
  rw [pulseAdd_met, Tab.at'_put_same, pulseSum_zero]

/-- Energy added leaves the pulses counted. -/
theorem pulseAdd_zero_count {q : Nat} :
    rd (pulseAdd q 0 b) (MTR.PULSE.PCNT.COUNT q) = rd b (MTR.PULSE.PCNT.COUNT q) := by
  refine rd_of_wordsOf (l := [(MTR.PULSE.PCNT.COUNT q).a]) (wordsOf_pulseAdd ?_ ?_ 0) (List.mem_singleton_self _)
  · simp only [MTR.PULSE.PCNT.COUNT, MTR.PULSE.PSTAT.SAT, List.mem_singleton]
    omega
  · simp only [MTR.PULSE.PCNT.COUNT, pgMTR, List.mem_singleton]
    omega

theorem drivePulse_met (q : Nat) (on : Bool) :
    (drivePulse q on b).met = { b.met with active := setBit b.met.active q on } := by
  unfold drivePulse
  dsimp only
  split
  · rfl
  · rfl

theorem drivePulse_pulse (q : Nat) (on : Bool) : (drivePulse q on b).met.pulse = b.met.pulse := by rw [drivePulse_met]

theorem drivePulse_rd (q : Nat) (on : Bool) (F : Fld) : rd (drivePulse q on b) F = rd b F := by
  unfold drivePulse
  dsimp only
  split
  · rfl
  · rfl

theorem drivePulse_active (q : Nat) (on : Bool) : (drivePulse q on b).met.active.testBit q = on := by
  rw [drivePulse_met]
  exact (setBit_testBit ..).trans (if_pos rfl)

/-- A due pulse is counted, its energy leaves the accumulator, and the output goes active. -/
theorem doPulseStart_counts {q : Nat} (hdue : 36 * 10 ^ 22 ≤ Tab.at' (fun _ => 0) b.met.pulse q)
    (hidle : b.met.active.testBit q = false) :
    rd (doPulseStart q b) (MTR.PULSE.PCNT.COUNT q) = (rd b (MTR.PULSE.PCNT.COUNT q) + 1) % 2 ^ 32 ∧
      (doPulseStart q b).met.active.testBit q = true ∧
      Tab.at' (fun _ => 0) (doPulseStart q b).met.pulse q = Tab.at' (fun _ => 0) b.met.pulse q - 36 * 10 ^ 22 := by
  unfold doPulseStart
  extract_lets a m b₁ b₂
  have hb₁ : b₁ = setPulse q (a - 36 * 10 ^ 22) b := rfl
  have hstarts : ¬(a < 36 * 10 ^ 22 ∨ b.met.active.testBit q = true) := by
    rw [hidle]
    exact not_or.2 ⟨Nat.not_lt.2 hdue, Bool.false_ne_true⟩
  have hw : (MTR.PULSE.PCNT.COUNT q).w = 32 := rfl
  rw [if_neg hstarts]
  refine ⟨?_, drivePulse_active .., ?_⟩
  · rw [drivePulse_rd, incWrap, rd_wr_same (by simp [MTR.PULSE.PCNT.COUNT]), pulseAdd_zero_count, hb₁, setPulse_rd, hw]
  · rw [drivePulse_pulse, incWrap, wr_met, pulseAdd_zero_pulse, hb₁, setPulse_pulse]

theorem doPulseEnd_clears {q : Nat} (hactive : b.met.active.testBit q = true) :
    (doPulseEnd q b).met.active.testBit q = false := by
  rw [doPulseEnd, if_pos hactive, drivePulse_active]

theorem actPulseCfg_clears (q v : Nat) :
    Tab.at' (fun _ => 0) (actPulseCfg q v b).met.pulse q = 0 ∧ rd (actPulseCfg q v b) (MTR.PULSE.PCNT.COUNT q) = 0 := by
  have hact : actPulseCfg q v b = wr (pulseAdd q 0 (setPulse q 0 b)) (MTR.PULSE.PCNT.COUNT q) 0 := rfl
  rw [hact]
  refine ⟨?_, (rd_wr_same (by simp [MTR.PULSE.PCNT.COUNT])).trans (Nat.zero_mod _)⟩
  rw [wr_met, pulseAdd_zero_pulse, setPulse_pulse]

/-- A write of PCFG is judged by the fields it is taken in. -/
theorem regWrite_pulseCfg (q : Fin 5) {v : Word} (hlate : lateWrite b (MTR.PULSE.PCFG.CONST q.val).a = false)
    (hcfg : (writeOf b i (MTR.PULSE.PCFG.CONST q.val).a v).mask / 2 ^ 12 ≠ 0) :
    regWrite i (MTR.PULSE.PCFG.CONST q.val).a v b =
      actPulseCfg q.val v.toNat (writeOf b i (MTR.PULSE.PCFG.CONST q.val).a v).blk := by
  have hpg : (MTR.PULSE.PCFG.CONST q.val).a / 0x1000 * 0x1000 = pgMTR := by
    simp only [MTR.PULSE.PCFG.CONST, pgMTR]
    omega
  have hoff : (MTR.PULSE.PCFG.CONST q.val).a % 0x1000 = 0xB0 + 16 * q.val := by
    simp only [MTR.PULSE.PCFG.CONST]
    omega
  have hnow : regWriteNow i false (MTR.PULSE.PCFG.CONST q.val).a v b = pulseCfgWrite i false q.val v b := by
    unfold regWriteNow
    dsimp only
    rw [hpg, hoff, if_neg (by omega), if_neg (by omega), if_neg (by omega), if_neg (by omega),
      if_pos ⟨rfl, by omega, by omega, by omega⟩, show (0xB0 + 16 * q.val - 0xB0) / 16 = q.val by omega]
  rw [regWrite, hlate, if_neg Bool.false_ne_true, hnow]
  unfold writeOf at hcfg ⊢
  rw [hpg] at hcfg ⊢
  exact if_neg hcfg

/-- Settles O36: each command by what its operation leaves of its registers, and each accepted write by what its register
does in the block the write leaves. -/
theorem calibrationAndPulses : Obligations.CalibrationAndPulses := by
  refine ⟨fun i v s ha hen hclk => ?_, fun s hen hclk hbusy hfull => ?_, fun i s ha hen hclk => ?_, fun s hen hclk => ?_,
    fun q s hen hclk hdue hidle => ?_, fun q s hen hclk hactive => ?_, fun i q v s ha hcfg => ?_⟩
  · refine completes_run (f := writeAct i false MTR.CAPT_CTL.GO.a (v ||| 1) actCapture) rfl ?_
    rw [writeAct_accepted ha]
    exact actCapture_starts (by simp) ((writeOf_enabled_mtr ha (by decide)).trans hen)
  · refine completes_run (f := gated pgMTR doCaptureDone) rfl ?_
    rw [gated_mtr hen hclk]
    exact doCaptureDone_ends hbusy hfull
  · refine completes_run (f := writeAct i false MTR.CAL_COMMIT.GO.a 1 actCalCommit) rfl ?_
    rw [writeAct_accepted ha, ← writeOf_commits ha (by decide)]
    exact actCalCommit_stores rfl ((writeOf_enabled_mtr ha (by decide)).trans hen)
  · refine completes_run (f := gated pgMTR doCalCheck) rfl ?_
    rw [gated_mtr hen hclk]
    exact doCalCheck_compares
  · refine completes_run (f := gated pgMTR (doPulseStart q.val)) rfl ?_
    rw [gated_mtr hen hclk]
    exact doPulseStart_counts hdue hidle
  · refine completes_run (f := gated pgMTR (doPulseEnd q.val)) rfl ?_
    rw [gated_mtr hen hclk]
    exact doPulseEnd_clears hactive
  · refine completes_run (f := regWrite i (MTR.PULSE.PCFG.CONST q.val).a v) rfl ?_
    rw [regWrite_pulseCfg q ha.1 hcfg]
    exact actPulseCfg_clears ..

end Sys2Proof.Machine
end

section
/-!
SUPPORT. What billing leaves of a block (chapter 10): the registers below the CH page, and every part beside its answers and its
Counting House.
-/

namespace Sys2Proof.Machine

open Sys2Proof.Num

variable {b c : Blk} {l : List Nat}

/-- The parts of a block beside its registers, its answers and its Counting House. -/
def unbilled (b : Blk) : Blk := { b with regs := [], io := {}, house := {} }

theorem unbilled_of_unhoused (h : unhoused c = unhoused b) : unbilled c = unbilled b :=
  congrArg (fun x : Blk => { x with regs := [], io := {} }) h

theorem unbilled_met (h : unbilled c = unbilled b) : c.met = b.met := (congrArg Blk.met h :)

@[simp] theorem unbilled_wr (F : Fld) (v : Nat) : unbilled (wr b F v) = unbilled b := rfl
@[simp] theorem unbilled_wrB (F : Fld) (v : Bool) : unbilled (wrB b F v) = unbilled b := rfl
@[simp] theorem unbilled_wrU (F : Fld) (v : Nat) : unbilled (wrU b F v) = unbilled b := rfl
@[simp] theorem unbilled_wrS (F : Fld) (v : Int) : unbilled (wrS b F v) = unbilled b := rfl
@[simp] theorem unbilled_wr64 (F : Fld) (v : Nat) : unbilled (wr64 b F v) = unbilled b := rfl
@[simp] theorem unbilled_incSat (F : Fld) (n : Nat) : unbilled (incSat b F n) = unbilled b := rfl
@[simp] theorem unbilled_setHouse (h : HouseSt) : unbilled { b with house := h } = unbilled b := rfl
@[simp] theorem unbilled_setLive (h : HouseCore) : unbilled (setLive h b) = unbilled b := rfl
@[simp] theorem unbilled_setB (t : Nat) : unbilled (setB t b) = unbilled b := rfl
@[simp] theorem unbilled_noteFired (n : Nat) : unbilled (noteFired n b) = unbilled b := rfl

@[simp] theorem unbilled_raise (pg k : Nat) : unbilled (raise pg k b) = unbilled b := by
  obtain ⟨r, o, h⟩ := raise_eq b pg k
  rw [h]
  rfl

theorem unbilled_ite {p : Prop} [Decidable p] {d : Blk} (hc : unbilled c = unbilled b) (hd : unbilled d = unbilled b) :
    unbilled (if p then c else d) = unbilled b := by
  split
  · exact hc
  · exact hd

theorem unbilled_forEach {α : Type} {f : α → Blk → Blk} (xs : List α) (h : ∀ x c, unbilled (f x c) = unbilled c) :
    unbilled (forEach xs f b) = unbilled b :=
  forEach_rel (P := fun c => unbilled c = unbilled b) xs (fun x _ c hc => (h x c).trans hc) rfl

/-! Settling (R227 to R243). -/

@[simp] theorem unbilled_tallyAdd (k q : Nat) : unbilled (tallyAdd k q b) = unbilled b := unbilled_ite rfl rfl

@[simp] theorem unbilled_countPart (p : Part) : unbilled (countPart p b) = unbilled b := by
  unfold countPart
  dsimp only
  rw [unbilled_setLive, unbilled_setHouse]
  simp only [apply_ite unbilled, unbilled_tallyAdd, ite_self]

@[simp] theorem unbilled_countBefore (seg t : Nat) : unbilled (countBefore seg t b) = unbilled b :=
  unbilled_forEach _ fun p _ => unbilled_countPart p

@[simp] theorem unbilled_countAll (seg : Nat) : unbilled (countAll seg b) = unbilled b :=
  unbilled_forEach _ fun p _ => unbilled_countPart p

theorem unbilled_doReset (t : Nat) : unbilled (doReset t b) = unbilled b := by
  unfold doReset
  dsimp only
  rw [unbilled_of_unhoused (unhoused_issueEvent ..), unbilled_incSat,
    unbilled_forEach _ fun k c => by rw [unbilled_wr64, unbilled_wr]]
  refine unbilled_of_unhoused ?_
  rw [unhoused_setLive, unhoused_issue, unhoused_forEach _ fun k c => unhoused_resetTotals ..,
    unhoused_forEach _ fun n c => by rw [unhoused_resetTotals, unhoused_resetTotals]]

theorem unbilled_maxDemand (k d t : Nat) :
    unbilled (wr64 (wr b (DMD.MAX.D.D_W k) d) (DMD.MAX.TIME.B k) t) = unbilled b := by rw [unbilled_wr64, unbilled_wr]

theorem unbilled_closeSub (t : Nat) : unbilled (closeSub t b) = unbilled b := by
  have hreset (x : Bool) (c : Blk) : unbilled (if x = true then doReset t c else c) = unbilled c :=
    unbilled_ite (unbilled_doReset t) rfl
  have hcommit (x : Bool) (c : Blk) : unbilled (when x commit c) = unbilled c :=
    unbilled_ite (unbilled_of_unhoused unhoused_commit) rfl
  unfold closeSub
  dsimp only
  rw [hcommit, unbilled_of_unhoused (unhoused_openSub ..), unbilled_of_unhoused (unhoused_adoptScheme _), unbilled_noteFired,
    hreset, unbilled_setLive, unbilled_of_unhoused (unhoused_intervalRecords ..)]
  split
  · rw [unbilled_raise, unbilled_maxDemand, unbilled_setLive, unbilled_raise, unbilled_wrU]
  · rw [unbilled_raise, unbilled_wrU]

theorem unbilled_zoneChange (t : Nat) : unbilled (zoneChange t b) = unbilled b := by
  unfold zoneChange
  dsimp only
  split
  · rfl
  · simp only [unbilled_of_unhoused (unhoused_issueEvent ..), unbilled_raise, unbilled_noteFired, apply_ite unbilled,
      unbilled_of_unhoused (unhoused_openSub ..), unbilled_of_unhoused (unhoused_markFlags _), unbilled_setLive, ite_self]

theorem unbilled_activate (t : Nat) : unbilled (activate t b) = unbilled b := by
  have hswap : unbilled (bankSwap b) = unbilled b := unbilled_forEach _ fun _ _ => rfl
  unfold activate
  dsimp only
  split
  · rfl
  · rw [unbilled_of_unhoused (unhoused_issueEvent ..), unbilled_raise, unbilled_wr64, unbilled_noteFired, unbilled_wr,
      unbilled_wr, hswap]

theorem unbilled_evalTariff (t : Nat) : unbilled (evalTariff t b) = unbilled b := by
  unfold evalTariff
  dsimp only
  exact unbilled_ite (by simp) (by simp)

theorem unbilled_fireAt (t : Nat) : unbilled (fireAt t b) = unbilled b := by
  have hclosed (x : Prop) [Decidable x] : unbilled (if x then closeSub t (setB t b) else setB t b) = unbilled b :=
    unbilled_ite ((unbilled_closeSub t).trans (unbilled_setB t)) (unbilled_setB t)
  have hedge (x : Prop) [Decidable x] (c : Blk) : unbilled (if x then raise pgDMD 3 (noteFired 1 c) else c) = unbilled c :=
    unbilled_ite ((unbilled_raise ..).trans (unbilled_noteFired 1)) rfl
  unfold fireAt
  dsimp only
  rw [hedge, unbilled_evalTariff, unbilled_activate, unbilled_zoneChange, hclosed]

theorem unbilled_applyLegal (s : LegalStep) : unbilled (applyLegal s b) = unbilled b := by
  unfold applyLegal
  dsimp only
  rw [unbilled_setB]
  split
  · rw [unbilled_of_unhoused (unhoused_splitSub ..), unbilled_of_unhoused (unhoused_issueEvent ..), unbilled_raise]
  · exact unbilled_of_unhoused (unhoused_markFlags _)

theorem unbilled_settleLoop (n : Nat) : unbilled (settleLoop n b) = unbilled b := by
  induction n generalizing b with
  | zero => rfl
  | succ n ih =>
    have hdue (t : Nat) : unbilled (runDue t b) = unbilled b := unbilled_of_unhoused (unhoused_runDue _)
    have hfired (seg t : Nat) : unbilled (fireAt t (countBefore seg t (runDue t b))) = unbilled b := by
      rw [unbilled_fireAt, unbilled_countBefore, hdue]
    unfold settleLoop
    dsimp only
    split
    · split
      · split
        · rw [ih, unbilled_setHouse, hfired]
        · rw [unbilled_countBefore, hdue]
      · split
        · rw [ih, unbilled_setHouse, hfired]
        · rw [ih, unbilled_setHouse, unbilled_applyLegal, unbilled_countAll, hdue]
    · split
      · rw [ih, unbilled_setHouse, hfired]
      · rw [unbilled_countBefore, hdue]

theorem unbilled_settle : unbilled (settle b) = unbilled b := by
  unfold settle
  split
  · exact unbilled_countAll _
  · have hbridged (x : Bool) (c : Blk) :
        unbilled (when x (fun b => { b with house := { b.house with outage := false } }) c) = unbilled c :=
      unbilled_ite (unbilled_setHouse _) rfl
    dsimp only
    rw [hbridged, unbilled_settleLoop]

/-! Billing shown (R227, R242, R258). -/

/-- Energy counted and what is due fired, with what the registers show of it. -/
def settleShown (b : Blk) : Blk := showTime (showDemand (showDstat (settle b)))

theorem unbilled_showDstat : unbilled (showDstat b) = unbilled b := by
  unfold showDstat
  dsimp only
  rw [unbilled_wrB, unbilled_wrB, unbilled_wrB, unbilled_wrB, unbilled_wrB, unbilled_wrB]

theorem unbilled_showDemand : unbilled (showDemand b) = unbilled b := by
  unfold showDemand
  dsimp only
  split
  · rw [unbilled_raise, unbilled_setHouse, unbilled_wrS, unbilled_wrB, unbilled_wr64, unbilled_wr, unbilled_wr, unbilled_wr,
      unbilled_wr]
  · rw [unbilled_wrS, unbilled_wrB, unbilled_wr64, unbilled_wr, unbilled_wr, unbilled_wr, unbilled_wr]

theorem unbilled_showTime : unbilled (showTime b) = unbilled b := by
  unfold showTime
  dsimp only
  rw [unbilled_wrB, unbilled_wr64, unbilled_wr64]

theorem unbilled_settleShown : unbilled (settleShown b) = unbilled b := by
  rw [settleShown, unbilled_showTime, unbilled_showDemand, unbilled_showDstat, unbilled_settle]

theorem unbilled_runningMeans (qe : Nat) (feed port : Int) (dt : Nat) :
    unbilled (runningMeans qe feed port dt b) = unbilled b := by
  unfold runningMeans
  dsimp only
  split
  · rw [unbilled_setHouse, unbilled_wrS, unbilled_setHouse]
  · rw [unbilled_setHouse]

theorem wordsOf_setHouseMet (h : HouseSt) (m : MetSt) : wordsOf l { b with house := h, met := m } = wordsOf l b := rfl

section
variable (hl : ∀ a ∈ l, a < 0x150000)
include hl

/-- Registers of the CH page and above are none of those below. -/
theorem not_mem_below_ch {a : Nat} (h : 0x150000 ≤ a) : a ∉ l := fun ha => absurd (hl a ha) (Nat.not_lt.2 h)

theorem not_settles_below_ch : ∀ a ∈ l, ¬Settles a := by
  intro a ha
  have hlt := hl a ha
  simp only [Settles, pgCH]
  omega

theorem wordsOf_showTime : wordsOf l (showTime b) = wordsOf l b := by
  have hnot {a : Nat} (h : 0x150000 ≤ a) : a ∉ l := not_mem_below_ch hl h
  unfold showTime
  dsimp only
  rw [wordsOf_wrB (hnot (by decide)), wordsOf_wr64 (hnot (by decide)) (hnot (by decide)),
    wordsOf_wr64 (hnot (by decide)) (hnot (by decide))]

theorem wordsOf_settleShown : wordsOf l (settleShown b) = wordsOf l b := by
  have hnot {a : Nat} (h : 0x150000 ≤ a) : a ∉ l := not_mem_below_ch hl h
  have hshown : ∀ F ∈ [DMD.LIM.KW, DMD.INT_NUM.NUM, DMD.T_INT.MS, DMD.T_REM.MS, DMD.WIN_E.MWH, DMD.WIN_E_HI.MWH_HI,
      DMD.PROJ.W], F.a ∉ l := by
    simp only [List.forall_mem_cons]
    exact ⟨hnot (by decide), hnot (by decide), hnot (by decide), hnot (by decide), hnot (by decide), hnot (by decide),
      hnot (by decide), List.forall_mem_nil _⟩
  rw [settleShown, wordsOf_showTime hl, wordsOf_showDemand (hnot (by decide)) (hnot (by decide)) hshown,
    wordsOf_showDstat (hnot (by decide)), wordsOf_settle (not_settles_below_ch hl)]

theorem wordsOf_runningMeans (qe : Nat) (feed port : Int) (dt : Nat) :
    wordsOf l (runningMeans qe feed port dt b) = wordsOf l b := by
  unfold runningMeans
  dsimp only
  split
  · rw [wordsOf_setHouse, wordsOf_wrS (not_mem_below_ch hl (by decide)), wordsOf_setHouse]
  · rfl

theorem wordsOf_firstTiming : wordsOf l (firstTiming b) = wordsOf l b := by
  have hnot {a : Nat} (h : 0x150000 ≤ a) : a ∉ l := not_mem_below_ch hl h
  unfold firstTiming
  dsimp only
  split
  · rfl
  · rw [wordsOf_of_unhoused (unhoused_issueEvent ..), wordsOf_setHouseMet,
      wordsOf_evalTariff (hnot (by decide)) (hnot (by decide)), wordsOf_of_unhoused (unhoused_openSub ..),
      wordsOf_of_unhoused (unhoused_setLive _),
      wordsOf_closeSub (not_settles_below_ch hl), wordsOf_of_unhoused (unhoused_setB _), wordsOf_wrB (hnot (by decide)),
      wordsOf_of_unhoused (unhoused_markFlags _), wordsOf_countAll (not_settles_below_ch hl)]

end

end Sys2Proof.Machine
end

section
/-!
SUPPORT. One channel's metrology sample (R172 to R178): the raw value it shows, the registers it writes, and the delay lines of
the other channels, which it leaves.
-/

namespace Sys2Proof.Machine

open Sys2Proof.Num

variable {b c : Blk} {l : List Nat}

/-! Values. -/

/-- A signed value stored in a field reads back, cut at the field's limits. -/
theorem rdI_wrS_same {F : Fld} {y : Int} (hF : F.lo + F.w ≤ 32) (hw : 0 < F.w) : rdI (wrS b F y) F = satS F.w y := by
  have htwo : 2 ^ F.w = 2 * 2 ^ (F.w - 1) := by rw [← Nat.pow_succ', Nat.succ_eq_add_one, Nat.sub_add_cancel hw]
  have hpos := Nat.two_pow_pos (F.w - 1)
  rw [rdI, wrS, rd_wr_same hF]
  unfold toInt ofInt satS
  rw [htwo]
  generalize 2 ^ (F.w - 1) = p at hpos
  generalize hz : max (-(p : Int)) (min y ((p : Int) - 1)) = z
  have hlo : -(p : Int) ≤ z := by omega
  have hhi : z < p := by omega
  rcases lt_or_ge z 0 with hneg | hneg
  · have hmod : z % ((2 * p : Nat) : Int) = z + (2 * p : Nat) := by
      rw [← Int.add_emod_right, Int.emod_eq_of_lt (by omega) (by omega)]
    rw [hmod, Nat.mod_mod, Nat.mod_eq_of_lt (by omega), if_neg (by omega)]
    omega
  · rw [Int.emod_eq_of_lt hneg (by omega), Nat.mod_mod, Nat.mod_eq_of_lt (by omega), if_pos (by omega)]
    omega

theorem satS_satS (w : Nat) (y : Int) : satS w (satS w y) = satS w y := by
  have hpos := Nat.two_pow_pos (w - 1)
  unfold satS
  omega

theorem rdI_of_wordsOf (h : wordsOf l c = wordsOf l b) {F : Fld} (hF : F.a ∈ l) : rdI c F = rdI b F := by
  rw [rdI, rdI, rd_of_wordsOf h hF]

/-- What one element of a list leaves shown holds at the end, if the others keep both what it needs and what it shows. -/
theorem forEach_shows {α : Type} {P I : Blk → Prop} {f : α → Blk → Blk} {xs : List α} {y : α} (hxs : xs.Nodup)
    (hy : y ∈ xs)
    (hneed : ∀ z ∈ xs, z ≠ y → ∀ c, I c → I (f z c)) (hshow : ∀ c, I c → P (f y c))
    (hkeep : ∀ z ∈ xs, z ≠ y → ∀ c, P c → P (f z c)) (h : I b) : P (forEach xs f b) := by
  obtain ⟨before, after, rfl⟩ := List.append_of_mem hy
  obtain ⟨-, hafter, hdisj⟩ := List.nodup_append.1 hxs
  have hreach : I (forEach before f b) :=
    forEach_rel before (fun z hz => hneed z (by simp [hz]) (hdisj z hz y (by simp))) h
  rw [forEach, List.foldl_append]
  exact forEach_rel after (fun z hz => hkeep z (by simp [hz]) fun he => (List.nodup_cons.1 hafter).1 (he ▸ hz))
    (hshow _ hreach)

/-! Delay lines (R178). -/

/-- The raw values a channel's delay keeps. -/
def rawsOf (b : Blk) (key : Nat) : List Int := Tab.at' (fun _ => []) b.met.raws key

theorem rawsOf_of_met (h : c.met = b.met) (key : Nat) : rawsOf c key = rawsOf b key := by rw [rawsOf, h, rawsOf]

theorem rawsOf_wr (F : Fld) (v key : Nat) : rawsOf (wr b F v) key = rawsOf b key := rawsOf_of_met (wr_met ..) key
theorem rawsOf_wrB (F : Fld) (v : Bool) (key : Nat) : rawsOf (wrB b F v) key = rawsOf b key := rawsOf_wr ..
theorem rawsOf_wrS (F : Fld) (v : Int) (key : Nat) : rawsOf (wrS b F v) key = rawsOf b key := rawsOf_wr ..
theorem rawsOf_raise (pg k key : Nat) : rawsOf (raise pg k b) key = rawsOf b key := rawsOf_of_met (raise_met ..) key

theorem delayed_regs (key : Nat) (ns y : Int) : (delayed key ns y b).1.regs = b.regs := by
  unfold delayed
  split
  · rfl
  · rfl

theorem delayed_raws_ne {j key : Nat} (h : j ≠ key) (ns y : Int) : rawsOf (delayed key ns y b).1 j = rawsOf b j := by
  unfold rawsOf delayed
  split
  · rfl
  · dsimp only
    exact Tab.at'_put_ne _ _ h _

/-- The delayed value rests on what the channel's own delay keeps. -/
theorem delayed_snd_congr {key : Nat} (h : rawsOf c key = rawsOf b key) (ns y : Int) :
    (delayed key ns y c).2 = (delayed key ns y b).2 := by
  unfold delayed
  split
  · rfl
  · exact congrArg (fun r => Config.fracDelay ns ((y :: r).take 64)) h

/-- The delay of one modulator result of a channel. -/
def delayStep (s : Nat) (ns : Int) (m : List Int) (acc : Blk × List Int) (k : Nat) : Blk × List Int :=
  ((delayed (4 * s + k) ns (m.getD k 0) acc.1).1, acc.2 ++ [(delayed (4 * s + k) ns (m.getD k 0) acc.1).2])

/-- The nominal delay of a current channel. -/
def curDelay (b : Blk) (s : Nat) : Int := if 4 ≤ s then rdI b (SNS.SPHASE.PH_DELAY s) else 0

theorem delayedSet_eq (s : Nat) (m : List Int) :
    delayedSet s m b = (List.range 4).foldl (delayStep s (curDelay b s) m) (b, []) := rfl

theorem foldl_delayStep_regs (s : Nat) (ns : Int) (m : List Int) (ks : List Nat) (acc : Blk × List Int) :
    (ks.foldl (delayStep s ns m) acc).1.regs = acc.1.regs := by
  induction ks generalizing acc with
  | nil => rfl
  | cons k ks ih => exact (ih _).trans (delayed_regs ..)

theorem foldl_delayStep_raws {s j : Nat} (ns : Int) (m : List Int) {ks : List Nat} (hj : ∀ k ∈ ks, j ≠ 4 * s + k)
    (acc : Blk × List Int) : rawsOf (ks.foldl (delayStep s ns m) acc).1 j = rawsOf acc.1 j := by
  induction ks generalizing acc with
  | nil => rfl
  | cons k ks ih =>
    obtain ⟨hk, hks⟩ := List.forall_mem_cons.1 hj
    exact (ih hks _).trans (delayed_raws_ne hk ..)

/-- The results of a channel delayed rest on what its own four delays keep. -/
theorem foldl_delayStep_congr {s : Nat} (ns : Int) (m : List Int) {ks : List Nat} (hks : ks.Nodup) (r : List Int)
    (h : ∀ k ∈ ks, rawsOf c (4 * s + k) = rawsOf b (4 * s + k)) :
    (ks.foldl (delayStep s ns m) (c, r)).2 = (ks.foldl (delayStep s ns m) (b, r)).2 := by
  induction ks generalizing b c r with
  | nil => rfl
  | cons k ks ih =>
    obtain ⟨hk, hrest⟩ := List.forall_mem_cons.1 h
    obtain ⟨hnot, hnodup⟩ := List.nodup_cons.1 hks
    rw [List.foldl_cons, List.foldl_cons, delayStep, delayStep, delayed_snd_congr hk]
    refine ih hnodup _ fun j hj => ?_
    have hne : 4 * s + j ≠ 4 * s + k := fun he => hnot (Nat.add_left_cancel he ▸ hj)
    rw [delayed_raws_ne hne, delayed_raws_ne hne, hrest j hj]

theorem delayedSet_regs (s : Nat) (m : List Int) : (delayedSet s m b).1.regs = b.regs := foldl_delayStep_regs ..

theorem delayedSet_raws {s j : Nat} (hj : j / 4 ≠ s) (m : List Int) : rawsOf (delayedSet s m b).1 j = rawsOf b j :=
  foldl_delayStep_raws _ _ (fun k hk => by rw [List.mem_range] at hk; omega) _

theorem delayedSet_snd_congr {s : Nat} (hdelay : curDelay c s = curDelay b s)
    (h : ∀ k, k < 4 → rawsOf c (4 * s + k) = rawsOf b (4 * s + k)) (m : List Int) :
    (delayedSet s m c).2 = (delayedSet s m b).2 := by
  rw [delayedSet_eq, delayedSet_eq, hdelay]
  exact foldl_delayStep_congr _ _ (List.nodup_range) _ fun k hk => h k (List.mem_range.1 hk)

/-! Voltage channels. -/

theorem wordsOf_keepMean (k : Nat) (y : Int) : wordsOf l (keepMean k y b) = wordsOf l b := rfl

theorem keepMean_raws (k j : Nat) (y : Int) : rawsOf (keepMean k y b) j = rawsOf b j := rfl

theorem wordsOf_delayed (key : Nat) (ns y : Int) : wordsOf l (delayed key ns y b).1 = wordsOf l b :=
  wordsOf_of_regs (delayed_regs ..)

/-- The nominal delay of a voltage channel. -/
def voltDelay (b : Blk) (v : Nat) : Int := if 4 ≤ v then rdI b (MTR.VCH.VPH.PH_DELAY v) else 0

/-- A voltage channel's value after its delay. -/
def voltDelayed (x : SensorSet) (v : Nat) (b : Blk) : Blk × Int := delayed (32 + v) (voltDelay b v) (x.volt.getD v 0) b

/-- What a voltage channel's sample does with the raw value: an overrange, the calibrated value and its mean. -/
def voltShown (v : Nat) (raw : Int) (b : Blk) : Blk :=
  let b := if ovrBound ≤ raw.natAbs ∧ !isOn b (MTR.VCH.VCTL.OVR v) then
      raise pgMTR 7 (wrB b (MTR.VCH.VCTL.OVR v) true)
    else b
  let y := voltY b v raw
  let b := keepMean (8 + v) y (wrS b (MTR.VCH.VMET.Y v) y)
  if v < 4 then wrS b (MTR.VCH.VRMS.RMS v) (meanOf b (8 + v)) else b

theorem sampleVolt_eq (x : SensorSet) (v : Nat) : sampleVolt x v b =
    voltShown v (satS 24 (voltDelayed x v b).2)
      (wrS (voltDelayed x v b).1 (MTR.VCH.VRAW.X v) (satS 24 (voltDelayed x v b).2)) := rfl

theorem wordsOf_voltShown {v : Nat} (hovr : (MTR.VCH.VCTL.OVR v).a ∉ l) (hy : (MTR.VCH.VMET.Y v).a ∉ l)
    (hrms : (MTR.VCH.VRMS.RMS v).a ∉ l) (hraw : pgMTR + 0x20 ∉ l) (raw : Int) :
    wordsOf l (voltShown v raw b) = wordsOf l b := by
  unfold voltShown
  extract_lets b₁ y b₂
  have h₁ : wordsOf l b₁ = wordsOf l b := wordsOf_ite ((wordsOf_raise hraw).trans (wordsOf_wrB hovr)) rfl
  have h₂ : wordsOf l b₂ = wordsOf l b := (wordsOf_keepMean ..).trans ((wordsOf_wrS hy).trans h₁)
  exact wordsOf_ite ((wordsOf_wrS hrms).trans h₂) h₂

theorem voltShown_raws (v j : Nat) (raw : Int) : rawsOf (voltShown v raw b) j = rawsOf b j := by
  unfold voltShown
  extract_lets b₁ y b₂
  have h₁ : rawsOf b₁ j = rawsOf b j := by
    unfold b₁
    split
    · rw [rawsOf_raise, rawsOf_wrB]
    · rfl
  have h₂ : rawsOf b₂ j = rawsOf b j := (keepMean_raws ..).trans ((rawsOf_wrS ..).trans h₁)
  split
  · exact (rawsOf_wrS ..).trans h₂
  · exact h₂

/-- A voltage channel shows its delayed raw value. -/
theorem sampleVolt_raw (x : SensorSet) (v : Nat) :
    rdI (sampleVolt x v b) (MTR.VCH.VRAW.X v) = satS 24 (voltDelayed x v b).2 := by
  have hshown : ∀ c, wordsOf [(MTR.VCH.VRAW.X v).a] (voltShown v (satS 24 (voltDelayed x v b).2) c) =
      wordsOf [(MTR.VCH.VRAW.X v).a] c := fun c => by
    refine wordsOf_voltShown ?_ ?_ ?_ ?_ _ <;>
      simp only [MTR.VCH.VRAW.X, MTR.VCH.VCTL.OVR, MTR.VCH.VMET.Y, MTR.VCH.VRMS.RMS, pgMTR, List.mem_singleton] <;> omega
  rw [sampleVolt_eq, rdI_of_wordsOf (hshown _) (List.mem_singleton_self _),
    rdI_wrS_same (by simp [MTR.VCH.VRAW.X]) (by simp [MTR.VCH.VRAW.X])]
  exact satS_satS 24 _

/-- A voltage channel's sample writes its registers VRAW to VRMS and may raise an event of MTR. -/
theorem wordsOf_sampleVolt {x : SensorSet} {v : Nat} (hraw : pgMTR + 0x20 ∉ l)
    (hl : ∀ a ∈ l, a < 0x140414 + 64 * v ∨ 0x140424 + 64 * v ≤ a) : wordsOf l (sampleVolt x v b) = wordsOf l b := by
  have hnot {a : Nat} (hlo : 0x140414 + 64 * v ≤ a) (hhi : a < 0x140424 + 64 * v) : a ∉ l := fun ha => by
    have := hl a ha
    omega
  rw [sampleVolt_eq, wordsOf_voltShown _ _ _ hraw, wordsOf_wrS, voltDelayed, wordsOf_delayed]
  all_goals
    refine hnot ?_ ?_ <;> simp only [MTR.VCH.VRAW.X, MTR.VCH.VCTL.OVR, MTR.VCH.VMET.Y, MTR.VCH.VRMS.RMS] <;> omega

theorem sampleVolt_raws {x : SensorSet} {v j : Nat} (hj : j ≠ 32 + v) : rawsOf (sampleVolt x v b) j = rawsOf b j := by
  rw [sampleVolt_eq, voltShown_raws, rawsOf_wrS, voltDelayed, delayed_raws_ne hj]

/-! Current channels. -/

theorem wordsOf_snsShow {s : Nat} (hstat : (SNS.SSTAT.FAULT s).a ∉ l) (hraw : pgSNS s + 0x20 ∉ l) (gone : Bool) :
    wordsOf l (snsShow s gone b) = wordsOf l b := by
  have hvalid : (SNS.SSTAT.VALID s).a ∉ l := hstat
  have hcount : (SNS.SSTAT.FAULT_CNT s).a ∉ l := hstat
  unfold snsShow
  extract_lets was f b₁
  have h₁ : wordsOf l b₁ = wordsOf l b := (wordsOf_wrB hvalid).trans (wordsOf_wrB hstat)
  exact wordsOf_ite ((wordsOf_raise hraw).trans ((wordsOf_incSat hcount).trans h₁)) h₁

theorem snsShow_raws (s j : Nat) (gone : Bool) : rawsOf (snsShow s gone b) j = rawsOf b j := by
  unfold snsShow
  dsimp only
  split
  · rw [rawsOf_raise, incSat, rawsOf_wr, rawsOf_wrB, rawsOf_wrB]
  · rw [rawsOf_wrB, rawsOf_wrB]

theorem driveHead_regs (s : Nat) (pick : List Int) : (driveHead s pick b).regs = b.regs := rfl

theorem driveHead_raws (s j : Nat) (pick : List Int) : rawsOf (driveHead s pick b) j = rawsOf b j := rfl

/-- A current channel's modulator results after their delay, with its head driven. -/
def curDelayed (x : SensorSet) (s : Nat) (b : Blk) : Blk × List Int :=
  delayedSet s (x.cur.getD s []) (driveHead s (x.pick.getD s []) b)

/-- A current channel's raw value. -/
def curRaw (x : SensorSet) (s : Nat) (b : Blk) : Int :=
  headX (rd b (SNS.SCFG.TYPE s)) (isOn b (SNS.SCFG.INV s)) (delayedSet s (x.cur.getD s []) b).2

theorem curDelayed_regs (x : SensorSet) (s : Nat) : (curDelayed x s b).1.regs = b.regs :=
  (delayedSet_regs ..).trans (driveHead_regs ..)

/-- What a current channel's sample does with the raw value: its flags, the calibrated value and its mean. -/
def curShown (s : Nat) (raw : Int) (b : Blk) : Blk :=
  let b := wrB b (SNS.SSTAT.TEMP_SUBST s) (headTemp b (rd b (SNS.SCH.T_CH s)) 0).2
  let b := if ovrBound ≤ raw.natAbs ∧ !isOn b (SNS.SSTAT.OVR s) then
      raise (pgSNS s) 1 (wrB b (SNS.SSTAT.OVR s) true)
    else b
  let b := snsShow s false b
  let y := curY b s raw true
  let b := keepMean s y (wrS b (SNS.SMET.Y s) y)
  if s < 4 then wrS b (SNS.SRMS.RMS s) (meanOf b s) else b

/-- The raw values of a current channel's bridge halves. -/
def bridgeShown (s : Nat) (m : List Int) (b : Blk) : Blk :=
  forEach (List.range 4) (fun k b => wrS b (SNS.BR.RAW s k) (m.getD k 0)) b

/-- The head's drive and its registers do not enter the delays, and the delays write no register. -/
theorem curRaw_curDelayed (x : SensorSet) (s : Nat) :
    headX (rd (curDelayed x s b).1 (SNS.SCFG.TYPE s)) (isOn (curDelayed x s b).1 (SNS.SCFG.INV s)) (curDelayed x s b).2 =
      curRaw x s b := by
  have hwords (k : List Nat) : wordsOf k (curDelayed x s b).1 = wordsOf k b := wordsOf_of_regs (curDelayed_regs x s)
  have hset : (curDelayed x s b).2 = (delayedSet s (x.cur.getD s []) b).2 :=
    delayedSet_snd_congr (b := b) (c := driveHead s (x.pick.getD s []) b) rfl (fun k _ => driveHead_raws ..) _
  rw [rd_of_wordsOf (hwords _) (List.mem_singleton_self _), isOn_of_wordsOf (hwords _) (List.mem_singleton_self _), hset,
    curRaw]

theorem sampleCur_eq (x : SensorSet) {s : Nat} (hen : enabled b (pgSNS s) = true) : sampleCur x s b =
    curShown s (curRaw x s b)
      (wrS (bridgeShown s (curDelayed x s b).2 (curDelayed x s b).1) (SNS.SRAW.X s) (curRaw x s b)) := by
  rw [← curRaw_curDelayed]
  exact if_neg (by rw [hen]; exact Bool.false_ne_true)

theorem sampleCur_off (x : SensorSet) {s : Nat} (hen : enabled b (pgSNS s) = false) : sampleCur x s b = b :=
  if_pos (by rw [hen]; rfl)

theorem wordsOf_curShown {s : Nat} (hstat : (SNS.SSTAT.FAULT s).a ∉ l) (hy : (SNS.SMET.Y s).a ∉ l)
    (hrms : (SNS.SRMS.RMS s).a ∉ l) (hraw : pgSNS s + 0x20 ∉ l) (raw : Int) :
    wordsOf l (curShown s raw b) = wordsOf l b := by
  have hsubst : (SNS.SSTAT.TEMP_SUBST s).a ∉ l := hstat
  have hovr : (SNS.SSTAT.OVR s).a ∉ l := hstat
  unfold curShown
  extract_lets b₁ b₂ b₃ y b₄
  have h₁ : wordsOf l b₁ = wordsOf l b := wordsOf_wrB hsubst
  have h₂ : wordsOf l b₂ = wordsOf l b :=
    wordsOf_ite ((wordsOf_raise hraw).trans ((wordsOf_wrB hovr).trans h₁)) h₁
  have h₃ : wordsOf l b₃ = wordsOf l b := (wordsOf_snsShow hstat hraw _).trans h₂
  have h₄ : wordsOf l b₄ = wordsOf l b := (wordsOf_keepMean ..).trans ((wordsOf_wrS hy).trans h₃)
  exact wordsOf_ite ((wordsOf_wrS hrms).trans h₄) h₄

theorem curShown_raws (s j : Nat) (raw : Int) : rawsOf (curShown s raw b) j = rawsOf b j := by
  unfold curShown
  extract_lets b₁ b₂ b₃ y b₄
  have h₁ : rawsOf b₁ j = rawsOf b j := rawsOf_wrB ..
  have h₂ : rawsOf b₂ j = rawsOf b j := by
    unfold b₂
    split
    · rw [rawsOf_raise, rawsOf_wrB, h₁]
    · exact h₁
  have h₃ : rawsOf b₃ j = rawsOf b j := (snsShow_raws ..).trans h₂
  have h₄ : rawsOf b₄ j = rawsOf b j := (keepMean_raws ..).trans ((rawsOf_wrS ..).trans h₃)
  split
  · exact (rawsOf_wrS ..).trans h₄
  · exact h₄

/-- An enabled current channel shows its raw value. -/
theorem sampleCur_raw (x : SensorSet) {s : Nat} (hen : enabled b (pgSNS s) = true) :
    rdI (sampleCur x s b) (SNS.SRAW.X s) = satS 24 (curRaw x s b) := by
  have hshown : ∀ c, wordsOf [(SNS.SRAW.X s).a] (curShown s (curRaw x s b) c) = wordsOf [(SNS.SRAW.X s).a] c := fun c => by
    refine wordsOf_curShown ?_ ?_ ?_ ?_ _ <;>
      simp only [SNS.SRAW.X, SNS.SSTAT.FAULT, SNS.SMET.Y, SNS.SRMS.RMS, pgSNS, List.mem_singleton] <;> omega
  rw [sampleCur_eq x hen, rdI_of_wordsOf (hshown _) (List.mem_singleton_self _),
    rdI_wrS_same (by simp [SNS.SRAW.X]) (by simp [SNS.SRAW.X])]
  rfl

/-- A current channel's sample writes its registers SRAW to BR and may raise an event of its page. -/
theorem wordsOf_sampleCur {x : SensorSet} {s : Nat} (hraw : pgSNS s + 0x20 ∉ l)
    (hl : ∀ a ∈ l, a < 0x141060 + 0x1000 * s ∨ 0x141084 + 0x1000 * s ≤ a) :
    wordsOf l (sampleCur x s b) = wordsOf l b := by
  have hnot {a : Nat} (hlo : 0x141060 + 0x1000 * s ≤ a) (hhi : a < 0x141084 + 0x1000 * s) : a ∉ l := fun ha => by
    have := hl a ha
    omega
  cases hen : enabled b (pgSNS s) with
  | false => rw [sampleCur_off x hen]
  | true =>
    have hbridge (m : List Int) (c : Blk) : wordsOf l (bridgeShown s m c) = wordsOf l c :=
      wordsOf_forEach _ fun k hk d => wordsOf_wrS (by
        rw [List.mem_range] at hk
        refine hnot ?_ ?_ <;> simp only [SNS.BR.RAW] <;> omega)
    rw [sampleCur_eq x hen, wordsOf_curShown _ _ _ hraw, wordsOf_wrS, hbridge, wordsOf_of_regs (curDelayed_regs x s)]
    all_goals
      refine hnot ?_ ?_ <;> simp only [SNS.SRAW.X, SNS.SSTAT.FAULT, SNS.SMET.Y, SNS.SRMS.RMS] <;> omega

theorem sampleCur_raws {x : SensorSet} {s j : Nat} (hj : j / 4 ≠ s) : rawsOf (sampleCur x s b) j = rawsOf b j := by
  cases hen : enabled b (pgSNS s) with
  | false => rw [sampleCur_off x hen]
  | true =>
    have hbridge (m : List Int) (c : Blk) : rawsOf (bridgeShown s m c) j = rawsOf c j :=
      forEach_rel (P := fun d => rawsOf d j = rawsOf c j) _ (fun k _ d hd => (rawsOf_wrS ..).trans hd) rfl
    rw [sampleCur_eq x hen, curShown_raws, rawsOf_wrS, hbridge, curDelayed, delayedSet_raws hj, driveHead_raws]

end Sys2Proof.Machine
end

section
/-!
SUPPORT. METROLOGY_SAMPLE (R172 to R183): all channels are sampled, and what the port energies and billing then do leaves the
raw values shown.
-/

namespace Sys2Proof.Machine

open Sys2Proof.Num

variable {b c : Blk} {l : List Nat} {x : SensorSet}

/-! All channels. -/

/-- All channels of the front end sampled, the currents first. -/
def sampled (x : SensorSet) (b : Blk) : Blk :=
  forEach (List.range 7) (sampleVolt x) (forEach (List.range 8) (sampleCur x) b)

/-- What a voltage channel's delay rests on. -/
def VoltNeeds (v : Nat) (b c : Blk) : Prop :=
  wordsOf [(MTR.VCH.VPH.PH_DELAY v).a] c = wordsOf [(MTR.VCH.VPH.PH_DELAY v).a] b ∧ rawsOf c (32 + v) = rawsOf b (32 + v)

theorem VoltNeeds.delayed {v : Nat} (h : VoltNeeds v b c) : (voltDelayed x v c).2 = (voltDelayed x v b).2 := by
  obtain ⟨hw, hraws⟩ := h
  have hdelay : voltDelay c v = voltDelay b v := by
    rw [voltDelay, voltDelay, rdI_of_wordsOf hw (List.mem_singleton_self _)]
  rw [voltDelayed, voltDelayed, hdelay, delayed_snd_congr hraws]

/-- What a current channel's raw value rests on. -/
def CurNeeds (n : Nat) (b c : Blk) : Prop :=
  wordsOf [(hEN (pgSNS n)).a, (SNS.SCFG.TYPE n).a, (SNS.SPHASE.PH_DELAY n).a] c =
      wordsOf [(hEN (pgSNS n)).a, (SNS.SCFG.TYPE n).a, (SNS.SPHASE.PH_DELAY n).a] b ∧
    ∀ k, k < 4 → rawsOf c (4 * n + k) = rawsOf b (4 * n + k)

theorem CurNeeds.enabled {n : Nat} (h : CurNeeds n b c) : enabled c (pgSNS n) = enabled b (pgSNS n) :=
  isOn_of_wordsOf h.1 (by simp)

theorem CurNeeds.raw {n : Nat} (h : CurNeeds n b c) : curRaw x n c = curRaw x n b := by
  obtain ⟨hw, hraws⟩ := h
  have hdelay : curDelay c n = curDelay b n := by
    rw [curDelay, curDelay, rdI_of_wordsOf hw (F := SNS.SPHASE.PH_DELAY n) (by simp)]
  rw [curRaw, curRaw, rd_of_wordsOf hw (F := SNS.SCFG.TYPE n) (by simp), isOn_of_wordsOf hw (F := SNS.SCFG.INV n)
    (List.mem_cons_of_mem _ (List.mem_cons_self ..)), delayedSet_snd_congr hdelay hraws]

theorem sampleCur_voltNeeds {n v : Nat} (hn : n < 8) (hv : v < 7) (h : VoltNeeds v b c) :
    VoltNeeds v b (sampleCur x n c) := by
  refine ⟨(wordsOf_sampleCur ?_ ?_).trans h.1, (sampleCur_raws (by omega)).trans h.2⟩
  · simp only [List.mem_singleton, pgSNS, MTR.VCH.VPH.PH_DELAY]
    omega
  · simp only [List.mem_singleton, forall_eq, MTR.VCH.VPH.PH_DELAY]
    omega

theorem sampleVolt_voltNeeds {w v : Nat} (hne : w ≠ v) (h : VoltNeeds v b c) : VoltNeeds v b (sampleVolt x w c) := by
  refine ⟨(wordsOf_sampleVolt ?_ ?_).trans h.1, (sampleVolt_raws (by omega)).trans h.2⟩
  · simp only [List.mem_singleton, pgMTR, MTR.VCH.VPH.PH_DELAY]
    omega
  · simp only [List.mem_singleton, forall_eq, MTR.VCH.VPH.PH_DELAY]
    omega

theorem sampleCur_curNeeds {m n : Nat} (hne : m ≠ n) (h : CurNeeds n b c) : CurNeeds n b (sampleCur x m c) := by
  refine ⟨(wordsOf_sampleCur ?_ ?_).trans h.1, fun k hk => (sampleCur_raws (by omega)).trans (h.2 k hk)⟩
  · simp only [List.mem_cons, List.not_mem_nil, or_false, pgSNS, hEN, SNS.SCFG.TYPE, SNS.SPHASE.PH_DELAY]
    omega
  · simp only [List.forall_mem_cons, pgSNS, hEN, SNS.SCFG.TYPE, SNS.SPHASE.PH_DELAY]
    exact ⟨by omega, by omega, by omega, List.forall_mem_nil _⟩

theorem sampleVolt_otherVolt {w v : Nat} (hne : w ≠ v) :
    rdI (sampleVolt x w c) (MTR.VCH.VRAW.X v) = rdI c (MTR.VCH.VRAW.X v) := by
  refine rdI_of_wordsOf (wordsOf_sampleVolt ?_ ?_) (List.mem_singleton_self _)
  · simp only [List.mem_singleton, pgMTR, MTR.VCH.VRAW.X]
    omega
  · simp only [List.mem_singleton, forall_eq, MTR.VCH.VRAW.X]
    omega

theorem sampleVolt_cur {w n : Nat} (hw : w < 7) : rdI (sampleVolt x w c) (SNS.SRAW.X n) = rdI c (SNS.SRAW.X n) := by
  refine rdI_of_wordsOf (wordsOf_sampleVolt ?_ ?_) (List.mem_singleton_self _)
  · simp only [List.mem_singleton, pgMTR, SNS.SRAW.X]
    omega
  · simp only [List.mem_singleton, forall_eq, SNS.SRAW.X]
    omega

theorem sampleCur_otherCur {m n : Nat} (hne : m ≠ n) : rdI (sampleCur x m c) (SNS.SRAW.X n) = rdI c (SNS.SRAW.X n) := by
  refine rdI_of_wordsOf (wordsOf_sampleCur ?_ ?_) (List.mem_singleton_self _)
  · simp only [List.mem_singleton, pgSNS, SNS.SRAW.X]
    omega
  · simp only [List.mem_singleton, forall_eq, SNS.SRAW.X]
    omega

/-- Every voltage channel shows its raw value once all are sampled. -/
theorem sampled_volt {v : Nat} (hv : v < 7) : rdI (sampled x b) (MTR.VCH.VRAW.X v) = satS 24 (voltDelayed x v b).2 :=
  forEach_shows (P := fun c => rdI c (MTR.VCH.VRAW.X v) = satS 24 (voltDelayed x v b).2) (I := VoltNeeds v b)
    List.nodup_range (List.mem_range.2 hv)
    (fun _ _ hne _ hc => sampleVolt_voltNeeds hne hc)
    (fun _ hc => by rw [sampleVolt_raw, hc.delayed])
    (fun _ _ hne _ hc => (sampleVolt_otherVolt hne).trans hc)
    (forEach_rel _ (fun _ hn _ hc => sampleCur_voltNeeds (List.mem_range.1 hn) hv hc) ⟨rfl, rfl⟩)

/-- Every enabled current channel shows its raw value once all are sampled. -/
theorem sampled_cur {n : Nat} (hn : n < 8) (hen : enabled b (pgSNS n) = true) :
    rdI (sampled x b) (SNS.SRAW.X n) = satS 24 (curRaw x n b) := by
  have hcurs : rdI (forEach (List.range 8) (sampleCur x) b) (SNS.SRAW.X n) = satS 24 (curRaw x n b) :=
    forEach_shows (P := fun c => rdI c (SNS.SRAW.X n) = satS 24 (curRaw x n b)) (I := CurNeeds n b)
      List.nodup_range (List.mem_range.2 hn)
      (fun _ _ hne _ hc => sampleCur_curNeeds hne hc)
      (fun _ hc => by rw [sampleCur_raw x (hc.enabled.trans hen), hc.raw])
      (fun _ _ hne _ hc => (sampleCur_otherCur hne).trans hc)
      ⟨rfl, fun _ _ => rfl⟩
  exact forEach_rel (P := fun c => rdI c (SNS.SRAW.X n) = satS 24 (curRaw x n b)) _
    (fun _ hw _ hc => (sampleVolt_cur (List.mem_range.1 hw)).trans hc) hcurs

/-! What follows the channels. -/

theorem wordsOf_captureAdd (hl : ∀ a ∈ l, 0x140400 ≤ a) : wordsOf l (captureAdd b) = wordsOf l b := by
  have hnot {a : Nat} (h : a < 0x140400) : a ∉ l := fun ha => absurd (hl a ha) (Nat.not_le.2 h)
  unfold captureAdd
  dsimp only
  split
  · rw [wordsOf_wr (hnot (by decide)), wordsOf_wr64 (hnot (by decide)) (hnot (by decide)),
      wordsOf_wr64 (hnot (by decide)) (hnot (by decide))]
  · rfl

theorem acAdd_regs (dt : Nat) : (acAdd dt b).regs = b.regs := by
  unfold acAdd
  split
  · rfl
  · rfl

/-- A port's energies write registers of MTR below the channels'. -/
theorem wordsOf_portEnergy (hl : ∀ a ∈ l, 0x140400 ≤ a) {n : Nat} (hn : n < 4) (dt : Nat) :
    wordsOf l (portEnergy n dt b).1 = wordsOf l b := by
  have hnot {a : Nat} (h : a < 0x140400) : a ∉ l := fun ha => absurd (hl a ha) (Nat.not_le.2 h)
  have hsubst : (MTR.PORT.LSTAT.T_SUBST n).a ∉ l := hnot (by simp only [MTR.PORT.LSTAT.T_SUBST]; omega)
  have hreff : (MTR.PORT.LSTAT.R_EFF n).a ∉ l := hsubst
  have hdv : (MTR.PORT.DROP.DV n).a ∉ l := hnot (by simp only [MTR.PORT.DROP.DV]; omega)
  have hp : (MTR.PDC.P n).a ∉ l := hnot (by simp only [MTR.PDC.P]; omega)
  have hsat : (MTR.PULSE.PSTAT.SAT n).a ∉ l := hnot (by simp only [MTR.PULSE.PSTAT.SAT]; omega)
  unfold portEnergy
  extract_lets i v t r20 reff dv b₁ b₂ creep b₃ eu el e q b₄ src b₅
  have h₂ : wordsOf l b₂ = wordsOf l b := (wordsOf_wrS hdv).trans ((wordsOf_wrU hreff).trans (wordsOf_wrB hsubst))
  have h₃ : wordsOf l b₃ = wordsOf l b := wordsOf_ite ((wordsOf_incWrap (hnot (by decide))).trans h₂) h₂
  have h₄ : wordsOf l b₄ = wordsOf l b := wordsOf_ite h₃ ((wordsOf_wrS hp).trans h₃)
  exact wordsOf_ite ((wordsOf_pulseAdd hsat (hnot (by decide)) _).trans h₄) h₄

theorem pulseAdd_steps (q e : Nat) : (pulseAdd q e b).met.steps = b.met.steps := by rw [pulseAdd_met]

theorem portEnergy_steps (n dt : Nat) : (portEnergy n dt b).1.met.steps = b.met.steps := by
  unfold portEnergy
  extract_lets i v t r20 reff dv b₁ b₂ creep b₃ eu el e q b₄ src b₅
  have h₃ : b₃.met = b.met := by
    unfold b₃
    split
    · rw [incWrap, wr_met, wrS_met, wrU_met, wrB_met]
    · rw [wrS_met, wrU_met, wrB_met]
  have h₄ : b₄.met = b.met := by
    unfold b₄
    split
    · exact h₃
    · rw [wrS_met, h₃]
  dsimp only [b₅]
  split
  · rw [pulseAdd_steps, h₄]
  · rw [h₄]

/-- The ports' energies, one after another. -/
theorem portEnergies_rel {P : Blk → Prop} {dt : Nat} {ns : List Nat} {acc : Blk × List (Nat × PortEnergy)}
    (hstep : ∀ n ∈ ns, ∀ c, P c → P (portEnergy n dt c).1) (h : P acc.1) : P (portEnergies dt ns acc).1 := by
  unfold portEnergies
  induction ns generalizing acc with
  | nil => exact h
  | cons n ns ih => exact ih (fun m hm => hstep m (List.mem_cons_of_mem n hm)) (hstep n List.mem_cons_self _ h)

/-! The whole command. -/

/-- The registers of a list are as they were in another block, and no step of legal time waits for the sample. -/
def StepsEnded (l : List Nat) (b c : Blk) : Prop := wordsOf l c = wordsOf l b ∧ c.met.steps = []

/-- Billing keeps the registers below it and the front end's state. -/
theorem StepsEnded.bill {d : Blk} (h : StepsEnded l b c) (hw : wordsOf l d = wordsOf l c) (hrest : unbilled d = unbilled c) :
    StepsEnded l b d := ⟨hw.trans h.1, by rw [unbilled_met hrest, h.2]⟩

theorem StepsEnded.ports (h : StepsEnded l b c) (hl : ∀ a ∈ l, 0x140400 ≤ a) (dt : Nat) :
    StepsEnded l b (portEnergies dt (List.range 4) (c, [])).1 :=
  portEnergies_rel (P := StepsEnded l b)
    (fun _ hn _ hc => ⟨(wordsOf_portEnergy hl (List.mem_range.1 hn) dt).trans hc.1, (portEnergy_steps ..).trans hc.2⟩) h

theorem doMetrologySample_ends (hrun : b.met.stopped = false) (hl : ∀ a ∈ l, 0x140400 ≤ a ∧ a < 0x150000) :
    StepsEnded l (sampled x b) (doMetrologySample x b) := by
  have hlo : ∀ a ∈ l, 0x140400 ≤ a := fun a ha => (hl a ha).1
  have hhi : ∀ a ∈ l, a < 0x150000 := fun a ha => (hl a ha).2
  unfold doMetrologySample
  rw [hrun, if_neg Bool.false_ne_true]
  extract_lets b₁ b₂ b₃ dt bs be seg steps ac0 m b₄ acDt b₅ m' ac' b₆ clock segSteps
  have h₄ : b₄.regs = b₃.regs := by
    unfold b₄
    split
    · rfl
    · rfl
  have h₃ : wordsOf l b₃ = wordsOf l (sampled x b) := (wordsOf_firstTiming hhi).trans (wordsOf_captureAdd hlo)
  have h₆ : StepsEnded l (sampled x b) b₆ := ⟨(wordsOf_of_regs ((acAdd_regs dt).trans h₄)).trans h₃, rfl⟩
  have hports := h₆.ports hlo dt
  generalize portEnergies dt (List.range 4) (b₆, []) = ports at hports
  obtain ⟨c, es⟩ := ports
  have hred : StepsEnded l (sampled x b) { c with red := { c.red with takenOver := false } } := hports
  dsimp only
  split
  · exact hred
  · refine hred.bill ((wordsOf_settleShown hhi).trans ?_) (unbilled_settleShown.trans ?_)
    · rw [wordsOf_of_unhoused (unhoused_setLive _), wordsOf_runningMeans hhi, wordsOf_of_unhoused (unhoused_setB _)]
      rfl
    · rw [unbilled_setLive, unbilled_runningMeans, unbilled_setB]
      rfl

/-- A metrology sample shows what the channels' samples show, and ends the steps that waited for it. -/
theorem doMetrologySample_shows (hrun : b.met.stopped = false) :
    (∀ v : Nat, v < 7 → rdI (doMetrologySample x b) (MTR.VCH.VRAW.X v) = satS 24 (voltDelayed x v b).2) ∧
      (∀ n : Nat, n < 8 → enabled b (pgSNS n) = true →
        rdI (doMetrologySample x b) (SNS.SRAW.X n) = satS 24 (curRaw x n b)) ∧
      (doMetrologySample x b).met.steps = [] := by
  have hvolt (v : Nat) (hv : v < 7) : StepsEnded [(MTR.VCH.VRAW.X v).a] (sampled x b) (doMetrologySample x b) :=
    doMetrologySample_ends hrun (by simp only [List.mem_singleton, forall_eq, MTR.VCH.VRAW.X]; omega)
  have hcur (n : Nat) (hn : n < 8) : StepsEnded [(SNS.SRAW.X n).a] (sampled x b) (doMetrologySample x b) :=
    doMetrologySample_ends hrun (by simp only [List.mem_singleton, forall_eq, SNS.SRAW.X]; omega)
  refine ⟨fun v hv => ?_, fun n hn hen => ?_, (hvolt 0 (by decide)).2⟩
  · rw [rdI_of_wordsOf (hvolt v hv).1 (List.mem_singleton_self _), sampled_volt hv]
  · rw [rdI_of_wordsOf (hcur n hn).1 (List.mem_singleton_self _), sampled_cur hn hen]

end Sys2Proof.Machine
end

section
/-!
SUPPORT. Conditions that qualify (R173 to R175) and twins that disagree (R193).
-/

namespace Sys2Proof.Machine

open Sys2Proof.Num

variable {b : Blk} {s : Nat}

/-- FAULT holds while a condition does, and until its condition has been gone for its time. -/
theorem snsShow_fault (gone : Bool) :
    isOn (snsShow s gone b) (SNS.SSTAT.FAULT s) = (snsFaulty b s || (isOn b (SNS.SSTAT.FAULT s) && !gone)) := by
  unfold snsShow
  extract_lets was f b₁
  have h₁ : isOn b₁ (SNS.SSTAT.FAULT s) = f := by
    unfold b₁
    rw [isOn_wrB_ne (.inr (.inl (by simp [SNS.SSTAT.FAULT, SNS.SSTAT.VALID]))),
      isOn_wrB_same (by simp [SNS.SSTAT.FAULT]) (by simp [SNS.SSTAT.FAULT])]
  split
  · rw [isOn_raise_ne (by simp only [SNS.SSTAT.FAULT, pgSNS]; omega), incSat,
      isOn_wr_ne (.inr (.inr (by simp [SNS.SSTAT.FAULT, SNS.SSTAT.FAULT_CNT]))), h₁]
  · exact h₁

/-- Bringing FAULT and VALID up to date leaves the flags of the conditions, which stand between them and the count. -/
theorem snsShow_flag {F : Fld} (ha : F.a = 0x14106c + 0x1000 * s) (hlo : 16 ≤ F.lo) (hhi : F.lo + F.w ≤ 30) (gone : Bool) :
    isOn (snsShow s gone b) F = isOn b F := by
  unfold snsShow
  extract_lets was f b₁
  have h₁ : isOn b₁ F = isOn b F := by
    unfold b₁
    rw [isOn_wrB_ne (.inr (.inl (by simp only [SNS.SSTAT.VALID]; omega))),
      isOn_wrB_ne (.inr (.inl (by simpa only [SNS.SSTAT.FAULT] using hhi)))]
  split
  · rw [isOn_raise_ne (by rw [ha]; simp only [pgSNS]; omega), incSat,
      isOn_wr_ne (.inr (.inr (by simpa only [SNS.SSTAT.FAULT_CNT] using hlo))), h₁]
  · exact h₁

/-- The flag of a condition other than FAULT is one bit of SSTAT between the count and FAULT. -/
theorem condFld_bounds {c : SnsCond} (hc : c ≠ .fault) :
    (condFld s c).a = 0x14106c + 0x1000 * s ∧ 16 ≤ (condFld s c).lo ∧ (condFld s c).lo + (condFld s c).w ≤ 30 ∧
      0 < (condFld s c).w := by
  cases c with
  | fault => exact absurd rfl hc
  | ovr | loopSat | excFault | brOpen | brMismatch | stray =>
    exact ⟨rfl, by simp [condFld, SNS.SSTAT.OVR, SNS.SSTAT.LOOP_SAT, SNS.SSTAT.EXC_FAULT, SNS.SSTAT.BR_OPEN,
      SNS.SSTAT.BR_MISMATCH, SNS.SSTAT.STRAY]⟩

theorem doQualify_current {c : SnsCond} {on : Bool} (hs : s < 8) (hen : enabled b (pgSNS s) = true)
    (hnow : condNow b s c on = on) : isOn (doQualify s c on b) (condFld s c) = on := by
  have hact : ¬((!enabled b (pgSNS s)) = true ∨ condNow b s c on ≠ on) := by simp [hen, hnow]
  by_cases hc : c = .fault
  · subst hc
    have hfaulty : snsFaulty b s = on := hnow
    rw [doQualify, if_neg (Nat.not_le.2 hs), if_neg hact, if_pos rfl]
    refine (snsShow_fault _).trans ?_
    rw [hfaulty, Bool.not_not]
    cases on
    · exact Bool.and_false _
    · rfl
  · obtain ⟨ha, hlo, hhi, hw⟩ := condFld_bounds (s := s) hc
    have hraise (x : Prop) [Decidable x] (d : Blk) :
        isOn (if x then raise (pgSNS s) 1 d else d) (condFld s c) = isOn d (condFld s c) := by
      split
      · exact isOn_raise_ne (by rw [ha]; simp only [pgSNS]; omega)
      · rfl
    rw [doQualify, if_neg (Nat.not_le.2 hs), if_neg hact, if_neg hc]
    dsimp only
    rw [snsShow_flag ha hlo hhi, hraise, isOn_wrB_same (by omega) hw]

/-- An overrange of a voltage channel. -/
theorem doQualify_voltage {ch : Nat} {on : Bool} (hch : 8 ≤ ch) (hen : enabled b pgMTR = true)
    (hnow : decide (ovrBound ≤ (rdI b (MTR.VCH.VRAW.X (ch - 8))).natAbs) = on) :
    isOn (doQualify ch .ovr on b) (MTR.VCH.VCTL.OVR (ch - 8)) = on := by
  rw [doQualify, if_pos hch, if_neg (by simp [hen, hnow])]
  dsimp only
  have hset : isOn (wrB b (MTR.VCH.VCTL.OVR (ch - 8)) on) (MTR.VCH.VCTL.OVR (ch - 8)) = on :=
    isOn_wrB_same (by simp [MTR.VCH.VCTL.OVR]) (by simp [MTR.VCH.VCTL.OVR]) on
  split
  · rw [isOn_raise_ne (by simp only [MTR.VCH.VCTL.OVR, pgMTR]; omega), hset]
  · exact hset

theorem doTwinDisagree_shows {c : Nat} (hc : c < 15) (hpair : paired b = true) :
    rdBit (doTwinDisagree c b) MTR.PAIR_STAT.DIFF c = true := by
  rw [doTwinDisagree, if_pos hpair, rdBit, rd_raise_ne (by decide), ← rdBit, rdBit_wrBit (by decide) hc, if_pos rfl]

end Sys2Proof.Machine
end

section
/-!
SUPPORT. The end of a mains cycle (R184 to R188): its frequency, whether the mains is lost, and the next cycle begun.
-/

namespace Sys2Proof.Machine

open Sys2Proof.Num

variable {b : Blk} {l : List Nat}

/-- The keys of FREQ and ACSTAT. -/
def cycleKeys : List Nat := [MTR.FREQ.FREQ.a, MTR.ACSTAT.V_LOST.a]

theorem wordsOf_setMesh (x : MeshSt) : wordsOf l (setMesh x b) = wordsOf l b := rfl

theorem wordsOf_meshSync (hl : ∀ a ∈ l, a < 0x150000) : wordsOf l (meshSync b) = wordsOf l b := by
  have hnot {a : Nat} (h : 0x150000 ≤ a) : a ∉ l := not_mem_below_ch hl h
  unfold meshSync
  dsimp only
  split
  · rw [wordsOf_raise (hnot (by decide)), wordsOf_wrB (hnot (by decide)), wordsOf_setMesh, wordsOf_wrB (hnot (by decide))]
  · exact wordsOf_wrB (hnot (by decide))

/-- What the end of a mains cycle sets first: whether the voltage is lost, its events, and the cycle's length. -/
def cycleShown (freq : Nat) (b : Blk) : Blk :=
  let lost := acLost b.met.ac freq b
  let was := isOn b MTR.ACSTAT.V_LOST
  let c := gated pgMESH meshSync (wrB b MTR.ACSTAT.V_LOST lost)
  let c := if lost ∧ !was then raise pgMTR 1 c else if !lost ∧ was then raise pgMTR 2 c else c
  wrU (wrU c MTR.FREQ.FREQ freq) MTR.FREQ.CYC_LEN b.met.ac.n

theorem cycleShown_freq (freq : Nat) : rd (cycleShown freq b) MTR.FREQ.FREQ = min 65535 freq := by
  unfold cycleShown
  dsimp only
  rw [rd_wrU_beside (by decide), rd_wrU_same (by decide), satU, Nat.min_comm]
  rfl

theorem cycleShown_lost (freq : Nat) : isOn (cycleShown freq b) MTR.ACSTAT.V_LOST = acLost b.met.ac freq b := by
  unfold cycleShown
  extract_lets lost was c₁ c₂
  have h₁ : wordsOf cycleKeys c₁ = wordsOf cycleKeys (wrB b MTR.ACSTAT.V_LOST lost) :=
    gated_rel (P := fun c => wordsOf cycleKeys c = wordsOf cycleKeys (wrB b MTR.ACSTAT.V_LOST lost)) rfl
      (wordsOf_meshSync (by decide))
  have h₂ : wordsOf cycleKeys c₂ = wordsOf cycleKeys c₁ :=
    wordsOf_ite (wordsOf_raise (by decide)) (wordsOf_ite (wordsOf_raise (by decide)) rfl)
  rw [isOn_of_rd ((rd_wrU_ne (by decide)).trans (rd_wrU_ne (by decide))), isOn_of_wordsOf (h₂.trans h₁) (by decide),
    isOn_wrB_same (by decide) (by decide)]

/-- A field of FREQ, or of ACSTAT beside NEU_BAD and the quadrant. -/
structure FirstShown (F : Fld) : Prop where
  reg : F.a ∈ cycleKeys
  lost : F.a = MTR.ACSTAT.V_LOST.a → MTR.ACSTAT.NEU_BAD.lo + 1 ≤ F.lo ∧ F.lo + F.w ≤ MTR.ACSTAT.QUAD.lo

theorem neutralCheck_rd {F : Fld} (hF : FirstShown F) (a : AcCycle) : rd (neutralCheck a b) F = rd b F := by
  have hraise (c : Blk) : rd (raise pgMTR 3 c) F = rd c F :=
    rd_raise_ne fun he => absurd hF.reg (he ▸ by decide)
  have hbad (c : Blk) (v : Bool) : rd (wrB c MTR.ACSTAT.NEU_BAD v) F = rd c F := by
    refine rd_wr_ne ?_
    by_cases ha : F.a = MTR.ACSTAT.NEU_BAD.a
    · exact .inr (.inr (hF.lost ha).1)
    · exact .inl ha
  unfold neutralCheck
  dsimp only
  split
  · split
    · rw [hraise, hbad]
      rfl
    · rfl
  · split
    · rw [hbad]
      rfl
    · rfl

/-- What the end of a mains cycle sets first stands when it is done. -/
theorem acEnd_first {F : Fld} (hF : FirstShown F) (freq : Nat) : rd (acEnd freq b).1 F = rd (cycleShown freq b) F := by
  unfold acEnd
  extract_lets a lost was b₁ b₂ b₃ b₄ start creep b₅ p q s qd b₆ d b₇ b₈ b₉ qual src e b₁₀
  have h₄ : rd b₄ F = rd (cycleShown freq b) F := neutralCheck_rd hF a
  have h₅ : wordsOf cycleKeys b₅ = wordsOf cycleKeys b₄ := wordsOf_ite (wordsOf_incWrap (by decide)) rfl
  have h₆ : rd b₆ F = rd b₅ F := by
    refine rd_wr_ne ?_
    by_cases ha : F.a = MTR.ACSTAT.QUAD.a
    · exact .inr (.inl (hF.lost ha).2)
    · exact .inl ha
  have h₇ : wordsOf cycleKeys b₇ = wordsOf cycleKeys b₆ :=
    wordsOf_ite rfl ((wordsOf_wrU (by decide)).trans ((wordsOf_wrS (by decide)).trans (wordsOf_wrS (by decide))))
  have h₈ : wordsOf cycleKeys b₈ = wordsOf cycleKeys b₇ := wordsOf_forEach _ fun k _ c => wordsOf_wrU (by
    simp only [cycleKeys, MTR.FREQ.FREQ, MTR.ACSTAT.V_LOST, MTR.VCH.VRMS.RMS, List.mem_cons, List.not_mem_nil, or_false]
    omega)
  have h₉ : wordsOf cycleKeys b₉ = wordsOf cycleKeys b₈ := wordsOf_forEach _ fun k _ c => wordsOf_wrU (by
    simp only [cycleKeys, MTR.FREQ.FREQ, MTR.ACSTAT.V_LOST, SNS.SRMS.RMS, List.mem_cons, List.not_mem_nil, or_false]
    omega)
  have h₁₀ : wordsOf cycleKeys b₁₀ = wordsOf cycleKeys b₉ :=
    wordsOf_ite rfl (wordsOf_pulseAdd (by decide) (by decide) _)
  calc rd b₁₀ F = rd b₆ F := rd_of_wordsOf (h₁₀.trans (h₉.trans (h₈.trans h₇))) hF.reg
    _ = rd b₄ F := h₆.trans (rd_of_wordsOf h₅ hF.reg)
    _ = rd (cycleShown freq b) F := h₄

/-- The end of a cycle whose voltage is there at a crossing, or lost for the fixed number of samples (R184). -/
theorem doMainsCycleEnd_shows {cross : Bool} {freq : Nat} (hac : isOn b MTR.MCTL.AC_EN = true) (hn : b.met.ac.n ≠ 0)
    (hrun : b.met.stopped = false) (hlost : acLost b.met.ac freq b = !cross)
    (hend : cross = true ∨ fixedCycle b ≤ b.met.ac.n) :
    (doMainsCycleEnd cross freq b).met.ac = {} ∧ rd (doMainsCycleEnd cross freq b) MTR.FREQ.FREQ = min 65535 freq ∧
      isOn (doMainsCycleEnd cross freq b) MTR.ACSTAT.V_LOST = acLost b.met.ac freq b := by
  have hcycle : ¬(!isOn b MTR.MCTL.AC_EN ∨ b.met.ac.n = 0 ∨ b.met.stopped ∨ cross = acLost b.met.ac freq b ∨
      (!cross ∧ b.met.ac.n < fixedCycle b)) := by
    rw [hac, hrun, hlost]
    cases cross with
    | true => simp [hn]
    | false => simpa [hn] using hend
  suffices h : (doMainsCycleEnd cross freq b).met.ac = {} ∧
      wordsOf cycleKeys (doMainsCycleEnd cross freq b) = wordsOf cycleKeys (acEnd freq b).1 by
    obtain ⟨hmet, hw⟩ := h
    refine ⟨hmet, ?_, ?_⟩
    · rw [rd_of_wordsOf hw (by decide), acEnd_first ⟨by decide, by decide⟩, cycleShown_freq]
    · rw [isOn_of_wordsOf hw (by decide), isOn_of_rd (acEnd_first ⟨by decide, by decide⟩ freq), cycleShown_lost]
  unfold doMainsCycleEnd
  dsimp only
  rw [if_neg hcycle]
  generalize acEnd freq b = res
  obtain ⟨c, r⟩ := res
  dsimp only
  split
  · exact ⟨rfl, rfl⟩
  · refine ⟨?_, (wordsOf_settleShown (by decide)).trans rfl⟩
    exact (congrArg MetSt.ac (unbilled_met unbilled_settleShown)).trans rfl

end Sys2Proof.Machine
end

section
/-!
SUPPORT. The control stream (R177) of the voltage channels: O35.
-/

namespace Sys2Proof.Machine

open Sys2Proof.Num

variable {b c : Blk} {l : List Nat} {x : SensorSet} {v : Nat}

/-- An address that is no VCTL of a voltage channel. -/
def OffVctl (a : Nat) : Prop := a < 0x14041c ∨ 0x1405a0 ≤ a ∨ a % 64 ≠ 0x1c

/-- A calibrated voltage rests on no control sample. -/
theorem voltY_congr (h : ∀ a, OffVctl a → wordOf c a = wordOf b a) (v : Nat) (y : Int) : voltY c v y = voltY b v y := by
  have hrd (F : Fld) (hF : OffVctl F.a) : rd c F = rd b F := congrArg F.of (h F.a hF)
  have hon (F : Fld) (hF : OffVctl F.a) : isOn c F = isOn b F := isOn_of_rd (hrd F hF)
  have hint (F : Fld) (hF : OffVctl F.a) : rdI c F = rdI b F := congrArg (toInt F.w) (hrd F hF)
  have hcal {k : Nat} (hk : k % 64 ≠ 0x1c) : OffVctl (k + 64 * v) := .inr (.inr (by omega))
  have hthm {k i : Nat} (hk : 0x1405a0 ≤ k) : OffVctl (k + i) := .inr (.inl (by omega))
  have htemp (ch : Nat) (sub : Int) : headTemp c ch sub = headTemp b ch sub := by
    rw [headTemp, headTemp, enabled, enabled, hon (hEN pgTHM) (.inr (.inl (by decide))),
      hon (THM.CHN.CSTAT.VALID ch) (hthm (by decide)), hon (THM.CHN.CSTAT.SUBST ch) (hthm (by decide)),
      hint (THM.CHN.CVAL.VAL ch) (hthm (by decide))]
  rw [voltY, voltY, htemp, hint (MTR.VCH.VTEMP.T_CAL v) (hcal (by decide)), hint (MTR.VCH.VTEMP.TC v) (hcal (by decide)),
    hint (MTR.VCH.VOFS.OFS v) (hcal (by decide)), hrd (MTR.VCH.VGAIN.GAIN v) (hcal (by decide)),
    hrd (MTR.VCH.VTCH.T_CH v) (hcal (by decide))]

theorem metSamples_congr (hw : wordOf c (hEN pgMTR).a = wordOf b (hEN pgMTR).a) (hboot : c.boot = b.boot)
    (hmet : c.met = b.met) : metSamples c = metSamples b := by
  have hen : enabled c pgMTR = enabled b pgMTR := isOn_of_rd (congrArg (hEN pgMTR).of hw)
  rw [metSamples, metSamples, hen, hmet, clocked, clocked, hboot]

theorem ctrlValue_bounds (y : Int) : -2 ^ 15 ≤ ctrlValue y ∧ ctrlValue y < 2 ^ 15 := by
  unfold ctrlValue
  omega

theorem wordsOf_wrI {F : Fld} {y : Int} (h : F.a ∉ l) : wordsOf l (wrI b F y) = wordsOf l b := wordsOf_wr h

/-- One voltage channel's control sample changes its VCTL alone. -/
theorem wordsOf_ctrlVolt (h : (MTR.VCH.VCTL.V v).a ∉ l) : wordsOf l (ctrlVolt x v b) = wordsOf l b := by
  have hbad : (MTR.VCH.VCTL.INVALID v).a ∉ l := h
  unfold ctrlVolt
  dsimp only
  split
  · rw [wordsOf_wrI h, wordsOf_wrB hbad]
  · exact wordsOf_wrB hbad

theorem ctrlVolt_boot : (ctrlVolt x v b).boot = b.boot := by
  unfold ctrlVolt
  dsimp only
  split
  · rw [wrI_boot, wrB_boot]
  · rw [wrB_boot]

theorem ctrlVolt_met : (ctrlVolt x v b).met = b.met := by
  unfold ctrlVolt
  dsimp only
  split
  · rw [wrI_met, wrB_met]
  · rw [wrB_met]

/-- What a voltage channel's control sample shows of a block's state. -/
def CtrlShown (x : SensorSet) (v : Nat) (b c : Blk) : Prop :=
  isOn c (MTR.VCH.VCTL.INVALID v) = isOn b (MTR.VCH.VCTL.OVR v) ∧
    rdI c (MTR.VCH.VCTL.V v) = ctrlValue (voltY b v (x.volt.getD v 0))

theorem CtrlShown.of_rd {d : Blk} (h : CtrlShown x v b c) (hrd : ∀ F : Fld, F.a = (MTR.VCH.VCTL.V v).a → rd d F = rd c F) :
    CtrlShown x v b d := by
  obtain ⟨hbad, hval⟩ := h
  exact ⟨(isOn_of_rd (hrd (MTR.VCH.VCTL.INVALID v) rfl)).trans hbad,
    (congrArg (toInt 16) (hrd (MTR.VCH.VCTL.V v) rfl)).trans hval⟩

theorem ctrlVolt_eq (hm : metSamples b = true) (hv : v < 7) : ctrlVolt x v b =
    wrI (wrB b (MTR.VCH.VCTL.INVALID v) (isOn b (MTR.VCH.VCTL.OVR v))) (MTR.VCH.VCTL.V v)
      (ctrlValue (voltY b v (x.volt.getD v 0))) := by
  have hword {a : Nat} (ha : OffVctl a) (y : Bool) : wordOf (wrB b (MTR.VCH.VCTL.INVALID v) y) a = wordOf b a :=
    wordOf_wr_ne fun he => by
      simp only [he, OffVctl, MTR.VCH.VCTL.INVALID] at ha
      omega
  have hm' (y : Bool) : metSamples (wrB b (MTR.VCH.VCTL.INVALID v) y) = true :=
    (metSamples_congr (hword (.inl (by decide)) y) (wrB_boot ..) (wrB_met ..)).trans hm
  have hy (y : Bool) : voltY (wrB b (MTR.VCH.VCTL.INVALID v) y) v (x.volt.getD v 0) = voltY b v (x.volt.getD v 0) :=
    voltY_congr (fun _ ha => hword ha y) v _
  unfold ctrlVolt
  dsimp only
  rw [hm', if_pos rfl, hy, hm, Bool.not_true, Bool.false_or]

/-- While the front end samples, a channel shows its value, and that it is valid where there is no overrange. -/
theorem ctrlVolt_shows (hm : metSamples b = true) (hv : v < 7) : CtrlShown x v b (ctrlVolt x v b) := by
  obtain ⟨hlo, hhi⟩ := ctrlValue_bounds (voltY b v (x.volt.getD v 0))
  rw [ctrlVolt_eq hm hv]
  refine ⟨?_, rdI_wrI_same (by decide) hlo hhi⟩
  rw [wrI, isOn_wr_ne (.inr (.inr (by simp [MTR.VCH.VCTL.V, MTR.VCH.VCTL.INVALID]))),
    isOn_wrB_same (by simp [MTR.VCH.VCTL.INVALID]) (by simp [MTR.VCH.VCTL.INVALID])]

/-- What a voltage channel's control sample rests on. -/
structure CtrlNeeds (v : Nat) (b c : Blk) : Prop where
  off : ∀ a, OffVctl a → wordOf c a = wordOf b a
  own : wordOf c (MTR.VCH.VCTL.V v).a = wordOf b (MTR.VCH.VCTL.V v).a
  boot : c.boot = b.boot
  met : c.met = b.met

theorem CtrlNeeds.shows (h : CtrlNeeds v b c) (hm : metSamples b = true) (hv : v < 7) :
    CtrlShown x v b (ctrlVolt x v c) := by
  have hm' : metSamples c = true := (metSamples_congr (h.off _ (.inl (by decide))) h.boot h.met).trans hm
  obtain ⟨hbad, hval⟩ := ctrlVolt_shows (x := x) hm' hv
  have hovr : isOn c (MTR.VCH.VCTL.OVR v) = isOn b (MTR.VCH.VCTL.OVR v) :=
    isOn_of_rd (congrArg (MTR.VCH.VCTL.OVR v).of h.own)
  exact ⟨hbad.trans hovr, hval.trans (by rw [voltY_congr h.off])⟩

theorem wordOf_ctrlVolt_ne {a : Nat} (h : a ≠ (MTR.VCH.VCTL.V v).a) : wordOf (ctrlVolt x v b) a = wordOf b a :=
  wordOf_of_wordsOf (l := [a]) (wordsOf_ctrlVolt (by simpa using h.symm)) (List.mem_singleton_self a)

theorem CtrlNeeds.otherVolt {w : Nat} (h : CtrlNeeds v b c) (hw : w < 7) (hne : w ≠ v) :
    CtrlNeeds v b (ctrlVolt x w c) where
  off a ha := (wordOf_ctrlVolt_ne fun he => by
    simp only [he, OffVctl, MTR.VCH.VCTL.V] at ha
    omega).trans (h.off a ha)
  own := (wordOf_ctrlVolt_ne (by simp only [MTR.VCH.VCTL.V]; omega)).trans h.own
  boot := ctrlVolt_boot.trans h.boot
  met := ctrlVolt_met.trans h.met

theorem CtrlShown.otherVolt {w : Nat} (h : CtrlShown x v b c) (hne : w ≠ v) : CtrlShown x v b (ctrlVolt x w c) :=
  h.of_rd fun F hF => congrArg F.of (wordOf_ctrlVolt_ne (by rw [hF]; simp only [MTR.VCH.VCTL.V]; omega))

/-- A current channel's control sample writes its SCTL alone. -/
theorem ctrlCur_rd {n : Nat} {F : Fld} (hF : F.a ≠ (SNS.SCTL.I n).a) : rd (ctrlCur x n b) F = rd b F := by
  unfold ctrlCur
  split
  · exact rd_wr_ne (.inl hF)
  · rfl

/-- What becomes of a port's control samples leaves the registers of the metering pages. -/
theorem ctrlPort_rd {k20 : Bool} {n : Nat} {F : Fld} (hlo : 0x51000 ≤ F.a) (hhi : F.a < 0x160000) :
    rd (ctrlPort k20 n b) F = rd b F := by
  unfold ctrlPort
  extract_lets vOk val i iOk w ce b₁ w' thm b₂ live b₃ t trunk b₄
  have h₁ : rd b₁ F = rd b F := by
    unfold b₁
    split
    · rfl
    · rfl
  have h₂ : rd b₂ F = rd b₁ F := by
    unfold b₂
    split
    · rfl
    · rfl
  have h₃ : rd b₃ F = rd b F := by
    unfold b₃
    split
    · rw [vpHold_rd (besideHold_of_lt hhi), wrB, rd_wr_ne (.inl (by simp only [VP.VSTAT.LIVE]; omega)), h₂, h₁]
    · rw [h₂, h₁]
  have h₄ : rd b₄ F = rd b F := h₃
  split
  · split
    · exact ((sends_toOwner ..).rd (by simp only [pgLINK]; omega)).trans h₄
    · exact h₄
  · exact h₃

/-- A control sample shows every voltage channel's value and validity. -/
theorem doControlSample_shows (hm : metSamples b = true) (hv : v < 7) : CtrlShown x v b (doControlSample x b) := by
  have hvolts : CtrlShown x v b (forEach (List.range 7) (ctrlVolt x) b) :=
    forEach_shows (P := CtrlShown x v b) (I := CtrlNeeds v b) List.nodup_range (List.mem_range.2 hv)
      (fun _ hw hne _ hc => hc.otherVolt (List.mem_range.1 hw) hne) (fun _ hc => hc.shows hm hv)
      (fun _ _ hne _ hc => hc.otherVolt hne) ⟨fun _ _ => rfl, rfl, rfl, rfl⟩
  have hcurs : CtrlShown x v b (forEach (List.range 8) (ctrlCur x) (forEach (List.range 7) (ctrlVolt x) b)) :=
    forEach_rel (P := CtrlShown x v b) _ (fun n _ c hc => hc.of_rd fun F hF => ctrlCur_rd (by
      rw [hF]
      simp only [MTR.VCH.VCTL.V, SNS.SCTL.I]
      omega)) hvolts
  have hkey : (MTR.VCH.VCTL.V v).a = 0x14041c + 64 * v := rfl
  exact forEach_rel (P := CtrlShown x v b) _ (fun n _ c hc => hc.of_rd fun F hF => ctrlPort_rd (by omega) (by omega)) hcurs

/-- Settles O35: each command enters at once or runs as it is, and shows what its operation leaves; a sample's values stand
through the port energies, billing and the ports' windows that follow. -/
theorem metrologySamples : Obligations.MetrologySamples := by
  refine ⟨fun x s hen hclk hrun htakes => ?_, fun x s hm htakes => ?_,
    fun cross f s hen hclk hac hn hrun hlost hend htakes => ?_, fun ch c on s hch hen hnow => ?_,
    fun ch on s hch hen hclk hnow => ?_, fun c s hen hclk hpair => ?_⟩
  · refine ⟨_, runIn_now 5 (.metrologySample x) htakes, ?_⟩
    rw [enterMetrologySample, gated_mtr hen hclk]
    exact doMetrologySample_shows hrun
  · exact ⟨_, runIn_now 6 (.controlSample x) htakes, fun _ hv => doControlSample_shows hm hv⟩
  · refine ⟨_, runIn_now 5 (.mainsCycleEnd ⟨cross, f⟩) htakes, ?_⟩
    rw [enterMainsCycleEnd, gated_mtr hen hclk]
    exact doMainsCycleEnd_shows hac hn hrun hlost hend
  · exact completes_run (f := doQualify ch.val c on) rfl (doQualify_current hch hen hnow)
  · exact completes_run (f := doQualify ch.val .ovr on) rfl (doQualify_voltage hch hen hnow)
  · refine completes_run (f := gated pgMTR (doTwinDisagree c.val)) rfl ?_
    rw [gated_mtr hen hclk]
    exact doTwinDisagree_shows c.isLt hpair

end Sys2Proof.Machine
end

section
/-!
SUPPORT. Accepted writes of the TIME page: what a write of STEP_GO has found (R204) and what one of DOM.SRC leaves (R205).
-/

namespace Sys2Proof.Machine

open Sys2Proof.Num

variable {b : Blk} {i : Init} {u : Bool} {pg off d k : Nat} {v : Word}

@[simp] theorem writeOf_time {a : Nat} : (writeOf b i a v).blk.time = b.time := by
  obtain ⟨r, o, x, h⟩ := storeWord_eq b i false (a / 0x1000 * 0x1000) (a % 0x1000) v
  rw [writeOf, h]

theorem domOf_of_time {c : Blk} (h : c.time = b.time) : domOf c d = domOf b d := by rw [domOf, domOf, h]

/-! STEP_GO (R204). -/

/-- A field of access WO that is not refused is allowed by the rules of its block. -/
theorem blockRule_of_wo {f : FieldRow} {n full : Nat} (hf : f.acc = .wo)
    (h : fieldRule b i u pg off f n full = 0 ∨ fieldRule b i u pg off f n full = 9) :
    blockRule b i (u || unlockedFor b i pg) (pg + off) f.lo n full = true := by
  unfold fieldRule at h
  rw [hf] at h
  dsimp only at h
  by_cases hrule : blockRule b i (u || unlockedFor b i pg) (pg + off) f.lo n full = true
  · exact hrule
  · rw [if_neg hrule] at h
    split at h <;> simp at h

/-- The rules of TIME allow GO only while no step of either domain waits to be mirrored. -/
theorem blockRule_stepGo {full : Nat} (h : blockRule b i u TIME.STEP_GO.GO.a 0 1 full = true) :
    (domOf b d).stepDue = none := by
  unfold blockRule at h
  rw [if_neg (by decide), if_neg (by decide), if_neg (by decide), if_neg (by decide), if_neg (by decide),
    if_neg (by decide), if_neg (by decide), if_pos (by decide), ruleTIME, if_neg (by decide), if_pos (by decide)] at h
  simp only [Bool.and_eq_true, Bool.not_eq_true', Bool.or_eq_false_iff, Option.isSome_eq_false_iff,
    Option.isNone_iff_eq_none] at h
  obtain ⟨⟨hta, htb⟩, -⟩ := h
  rw [domOf] at hta htb ⊢
  split
  · exact hta
  · exact htb

/-- A STEP_GO that is accepted finds no step that waits to be mirrored. -/
theorem stepDue_of_accepts (h : Accepts b i TIME.STEP_GO.GO.a v) (hv : v.toNat.testBit 0 = true) :
    (domOf b d).stepDue = none := by
  obtain ⟨-, hs, hm, -⟩ := h
  obtain ⟨p, n, r, j, hp, hr, hj, -⟩ := storeWord_accepted hs hm
  have hfields : r.fields = [RegForm.fd 1 1 .wo .any, RegForm.fd 0 1 .wo .any] :=
    Option.some.inj ((fieldsAt_eq (a := TIME.STEP_GO.GO.a) hp hr).symm.trans (by decide))
  have hgo : Fld.of ⟨0, 0, 1⟩ v = 1 := by
    rw [Nat.testBit_zero, decide_eq_true_eq] at hv
    simpa [Fld.of] using hv
  rw [judged, hfields] at hj
  have hrule := blockRule_of_wo rfl (fieldStep_status hj).2
  simp only [RegForm.fd, hgo] at hrule
  exact blockRule_stepGo (b := touchPage i pgTIME b) hrule

/-! DOM.SRC (R205). -/

/-- A field with a range is left as it was, or stored as a field that takes any value. -/
theorem fieldStep_range {x : Word × Nat × Nat} {f : FieldRow} {lo hi : Nat} (hf : f.acc = .rw) (hchk : f.chk = .range lo hi) :
    (fieldStep b i u pg off v x f).2.1 = x.2.1 ∨
      fieldStep b i u pg off v x f = fieldStep b i u pg off v x { f with chk := .any } := by
  by_cases hin : lo ≤ Fld.of ⟨0, f.lo, f.w⟩ v ∧ Fld.of ⟨0, f.lo, f.w⟩ v ≤ hi
  · right
    simp only [fieldStep, fieldRule, hf, hchk, Chk.take, if_pos hin]
  · left
    unfold fieldStep
    dsimp only
    split
    · rfl
    split
    · rfl
    · simp [hf, hchk, Chk.take, hin]

theorem fieldsAt_src : ∀ d : Fin 2, fieldsAt (TIME.DOM.SRC.SRC d.val).a =
    some ([RegForm.fd 9 1 .rw .any, RegForm.fd 8 1 .rw .any, RegForm.fd 4 4 .rw .any] ++
      [RegForm.fd 0 3 .rw (.range 0 3)]) := by
  decide

theorem src_page : ∀ d : Fin 2, (TIME.DOM.SRC.SRC d.val).a / 0x1000 * 0x1000 = pgTIME := by decide

theorem calPage_src (d : Fin 2) : calPage ((TIME.DOM.SRC.SRC d.val).a / 0x1000 * 0x1000) = false := by
  rw [src_page]
  decide

/-- A field that is not 0 has a bit set. -/
theorem exists_testBit_of_fld {lo w : Nat} (h : Fld.of ⟨k, lo, w⟩ v ≠ 0) :
    ∃ j, j < w ∧ v.toNat.testBit (lo + j) = true := by
  obtain ⟨j, hj⟩ := Nat.exists_testBit_of_ne_zero h
  rw [Fld.of, Nat.testBit_mod_two_pow, BitVec.toNat_ushiftRight, Nat.testBit_shiftRight, Bool.and_eq_true,
    decide_eq_true_eq] at hj
  exact ⟨j, hj⟩

/-- After an accepted write of DOM.SRC with a source that is not 0, SRC reads it. -/
theorem writeOf_src {d : Fin 2} (h : Accepts b i (TIME.DOM.SRC.SRC d.val).a v) (hv : (TIME.DOM.SRC.SRC d.val).of v ≠ 0) :
    rd (writeOf b i (TIME.DOM.SRC.SRC d.val).a v).blk (TIME.DOM.SRC.SRC d.val) = (TIME.DOM.SRC.SRC d.val).of v := by
  obtain ⟨-, -, hm, hand⟩ := h
  obtain ⟨j, hj, hbit⟩ := exists_testBit_of_fld hv
  obtain ⟨r, hr, hmask, hw⟩ := writeOf_taken hm (calPage_src d)
  have hset : (writeOf b i (TIME.DOM.SRC.SRC d.val).a v).mask.testBit (0 + j) = true := by
    rw [← hand, Nat.testBit_and, Bool.and_eq_true] at hbit
    exact hbit.2
  rw [fieldsAt_src, Option.some.injEq] at hr
  rw [hmask] at hset
  unfold judged at hset hw
  rw [← hr, List.foldl_append, List.foldl_cons, List.foldl_nil] at hset hw
  rw [rd, hw _ (by rw [src_page]; simp only [TIME.DOM.SRC.SRC, pgTIME]; omega), wordOf_setWord_same]
  generalize hx : List.foldl _ _ _ = x at hset ⊢
  have hno : x.2.1.testBit (0 + j) = false := by
    refine Bool.eq_false_iff.2 fun hset => ?_
    rw [← hx] at hset
    have hzero := foldl_fieldStep_mask_ne _ (by simp [RegForm.fd]; omega) hset
    simp at hzero
  rcases fieldStep_range (x := x) (f := RegForm.fd 0 3 .rw (.range 0 3)) rfl rfl with hleft | hstored
  · rw [hleft, hno] at hset
    exact absurd hset (by decide)
  · rw [hstored] at hset ⊢
    exact fieldStep_taken (f := RegForm.fd 0 3 .rw .any) ⟨.inl rfl, rfl, by decide⟩ hno hset

/-- After an accepted write of DOM.SRC PTP_LOCK reads what was written. -/
theorem writeOf_ptpLock {d : Fin 2} (h : Accepts b i (TIME.DOM.SRC.SRC d.val).a v) :
    rd (writeOf b i (TIME.DOM.SRC.SRC d.val).a v).blk (TIME.DOM.SRC.PTP_LOCK d.val) = (TIME.DOM.SRC.PTP_LOCK d.val).of v := by
  have hkeep : keepRule (touchPage i ((TIME.DOM.SRC.SRC d.val).a / 0x1000 * 0x1000) b) (TIME.DOM.SRC.SRC d.val).a 9
      (Fld.of ⟨0, 9, 1⟩ v) v.toNat = true := by
    fin_cases d <;> rfl
  exact writeOf_rd_plain (l₁ := []) (f := RegForm.fd 9 1 .rw .any) h (calPage_src d) (fieldsAt_src d) (by decide)
    ⟨.inl rfl, rfl, hkeep, by decide⟩

end Sys2Proof.Machine
end

section
/-!
SUPPORT. The host domains of time: what each operation on a domain leaves of its state and of its STAT register, and the
passage of time (R200 to R207): O21.
-/

namespace Sys2Proof.Machine

open Sys2Proof.Num

variable {b : Blk} {d : Nat}

/-! The state of a domain. -/

@[simp] theorem domOf_setDom_same (x : DomSt) : domOf (setDom d x b) d = x := by
  unfold setDom domOf
  split <;> rfl

@[simp] theorem setDom_rd (k : Nat) (x : DomSt) (F : Fld) : rd (setDom k x b) F = rd b F := by
  unfold setDom
  split <;> rfl

@[simp] theorem setDom_isOn (k : Nat) (x : DomSt) (F : Fld) : isOn (setDom k x b) F = isOn b F := by
  simp only [isOn, setDom_rd]

@[simp] theorem domOf_wr (F : Fld) (v : Nat) : domOf (wr b F v) d = domOf b d := domOf_of_time (wr_time b F v)
@[simp] theorem domOf_wrB (F : Fld) (v : Bool) : domOf (wrB b F v) d = domOf b d := domOf_wr F _
@[simp] theorem domOf_wrS (F : Fld) (v : Int) : domOf (wrS b F v) d = domOf b d := domOf_wr F _
@[simp] theorem domOf_raise (pg k : Nat) : domOf (raise pg k b) d = domOf b d := domOf_of_time (raise_time b pg k)
@[simp] theorem domOf_timeEv (j k : Nat) : domOf (timeEv j k b) d = domOf b d := domOf_raise ..

theorem domOf_when {f : Blk → Blk} (x : Bool) (h : ∀ c, domOf (f c) d = domOf c d) : domOf (when x f b) d = domOf b d := by
  cases x
  · rfl
  · exact h b

@[simp] theorem domOf_setAddend (j v : Nat) : domOf (setAddend j v b) d = domOf b d := by simp [setAddend]

@[simp] theorem domOf_loseLock (j : Nat) : domOf (loseLock j b) d = domOf b d := by
  unfold loseLock
  dsimp only
  split <;> simp

@[simp] theorem domOf_gainLock (j : Nat) : domOf (gainLock j b) d = domOf b d := by
  unfold gainLock
  dsimp only
  split <;> simp

/-! Addends (R203). -/

theorem addendOf_setAddend {v : Nat} (hv : v < 2 ^ 40) : addendOf (setAddend d v b) d = v := by
  unfold addendOf setAddend
  rw [rd_wr_same (by simp [TIME.DOM.ADD_HI.INT]), rd_wr_ne (.inl (by simp [TIME.DOM.ADD_HI.INT, TIME.DOM.ADD_LO.FRAC])),
    rd_wr_same (by simp [TIME.DOM.ADD_LO.FRAC])]
  simp only [TIME.DOM.ADD_HI.INT, TIME.DOM.ADD_LO.FRAC]
  omega

theorem addendOf_lt : addendOf b d < 2 ^ 40 := by
  have hint := rd_lt (b := b) (TIME.DOM.ADD_HI.INT d)
  have hfrac := rd_lt (b := b) (TIME.DOM.ADD_LO.FRAC d)
  simp only [TIME.DOM.ADD_HI.INT, TIME.DOM.ADD_LO.FRAC] at hint hfrac
  simp only [addendOf, TIME.DOM.ADD_HI.INT, TIME.DOM.ADD_LO.FRAC]
  omega

theorem isOn_setAddend {F : Fld} {v : Nat} (hF : 0x20410 + 64 * d ≤ F.a) : isOn (setAddend d v b) F = isOn b F := by
  unfold setAddend
  rw [isOn_wr_ne (.inl (by simp only [TIME.DOM.ADD_HI.INT]; omega)),
    isOn_wr_ne (.inl (by simp only [TIME.DOM.ADD_LO.FRAC]; omega))]

/-! Locks (R207). -/

/-- An event of TIME leaves the registers of the domains. -/
theorem isOn_timeEv {F : Fld} {k : Nat} (hF : 0x20400 ≤ F.a) : isOn (timeEv d k b) F = isOn b F :=
  isOn_raise_ne (by simp only [pgTIME]; omega)

theorem loseLock_stat :
    isOn (loseLock d b) (TIME.DOM.STAT.LOCKED d) = false ∧ isOn (loseLock d b) (TIME.DOM.STAT.HOLD d) = true := by
  have hfields : isOn (wrB (wrB b (TIME.DOM.STAT.LOCKED d) false) (TIME.DOM.STAT.HOLD d) true)
        (TIME.DOM.STAT.LOCKED d) = false ∧
      isOn (wrB (wrB b (TIME.DOM.STAT.LOCKED d) false) (TIME.DOM.STAT.HOLD d) true) (TIME.DOM.STAT.HOLD d) = true := by
    rw [isOn_wrB_ne (.inr (.inr (by simp [TIME.DOM.STAT.LOCKED, TIME.DOM.STAT.HOLD]))),
      isOn_wrB_same (by simp [TIME.DOM.STAT.LOCKED]) (by simp [TIME.DOM.STAT.LOCKED]),
      isOn_wrB_same (by simp [TIME.DOM.STAT.HOLD]) (by simp [TIME.DOM.STAT.HOLD])]
    exact ⟨rfl, rfl⟩
  unfold loseLock
  dsimp only
  split
  · rwa [isOn_timeEv (by simp [TIME.DOM.STAT.LOCKED]; omega), isOn_timeEv (by simp [TIME.DOM.STAT.HOLD]; omega)]
  · exact hfields

theorem gainLock_locked : isOn (gainLock d b) (TIME.DOM.STAT.LOCKED d) = true := by
  have hfield : isOn (wrB (wrB b (TIME.DOM.STAT.LOCKED d) true) (TIME.DOM.STAT.HOLD d) false)
      (TIME.DOM.STAT.LOCKED d) = true := by
    rw [isOn_wrB_ne (.inr (.inr (by simp [TIME.DOM.STAT.LOCKED, TIME.DOM.STAT.HOLD]))),
      isOn_wrB_same (by simp [TIME.DOM.STAT.LOCKED]) (by simp [TIME.DOM.STAT.LOCKED])]
  unfold gainLock
  dsimp only
  split
  · exact hfield
  · rwa [isOn_timeEv (by simp [TIME.DOM.STAT.LOCKED]; omega)]

/-- Losing or gaining lock writes STAT and EVT_RAW alone. -/
theorem loseLock_rd {F : Fld} (hF : F.a ≠ (TIME.DOM.STAT.LOCKED d).a) (hraw : F.a ≠ pgTIME + 0x20) :
    rd (loseLock d b) F = rd b F := by
  have hfields : rd (wrB (wrB b (TIME.DOM.STAT.LOCKED d) false) (TIME.DOM.STAT.HOLD d) true) F = rd b F :=
    (rd_wr_ne (F := TIME.DOM.STAT.HOLD d) (.inl hF)).trans (rd_wr_ne (.inl hF))
  unfold loseLock
  dsimp only
  split
  · rw [timeEv, rd_raise_ne hraw, hfields]
  · exact hfields

theorem gainLock_rd {F : Fld} (hF : F.a ≠ (TIME.DOM.STAT.LOCKED d).a) (hraw : F.a ≠ pgTIME + 0x20) :
    rd (gainLock d b) F = rd b F := by
  have hfields : rd (wrB (wrB b (TIME.DOM.STAT.LOCKED d) true) (TIME.DOM.STAT.HOLD d) false) F = rd b F :=
    (rd_wr_ne (F := TIME.DOM.STAT.HOLD d) (.inl hF)).trans (rd_wr_ne (.inl hF))
  unfold gainLock
  dsimp only
  split
  · exact hfields
  · rw [timeEv, rd_raise_ne hraw, hfields]

/-! Steps (R204). -/

theorem domOf_applyStep (x : Int) :
    domOf (applyStep d x b) d = { domOf b d with
      e := ((((domOf b d).e : Int) + x * 2 ^ 32) % 2 ^ 96).toNat
      stepDue := some ((domOf b d).stepDue.getD 0 + x) } := by
  have hwr64 (c : Blk) (F : Fld) (v : Nat) : domOf (wr64 c F v) d = domOf c d := domOf_of_time (wr64_time c F v)
  unfold applyStep
  dsimp only
  rw [domOf_timeEv, domOf_when _ fun c => domOf_raise .., domOf_wrB, domOf_wrB, incSat, domOf_wr, hwr64, domOf_setDom_same]

theorem applyStep_set (x : Int) : isOn (applyStep d x b) (TIME.DOM.STAT.SET d) = true := by
  have hreq (c : Blk) : isOn (wrB (wrB c (TIME.DOM.STAT.SET d) true) (TIME.DOM.STAT.STEP_REQ d) false) (TIME.DOM.STAT.SET d) =
      true := by
    rw [isOn_wrB_ne (.inr (.inr (by simp [TIME.DOM.STAT.SET, TIME.DOM.STAT.STEP_REQ]))),
      isOn_wrB_same (by simp [TIME.DOM.STAT.SET]) (by simp [TIME.DOM.STAT.SET])]
  have hwhen (w : Bool) (k : Nat) (c : Blk) : isOn (when w (raise pgTIME k) c) (TIME.DOM.STAT.SET d) =
      isOn c (TIME.DOM.STAT.SET d) := by
    cases w with
    | false => rfl
    | true => exact isOn_raise_ne (by simp only [TIME.DOM.STAT.SET, pgTIME]; omega)
  unfold applyStep
  dsimp only
  rw [isOn_timeEv (by simp only [TIME.DOM.STAT.SET]; omega), hwhen, hreq]

/-! The passage of time (R200). -/

theorem domOf_advanceDom_same (delta : Nat) :
    domOf (advanceDom d delta b) d = { domOf b d with e := ((domOf b d).e + delta) % 2 ^ 96 } := by
  unfold advanceDom
  dsimp only
  split <;> simp

theorem domOf_setDom_ne {k : Nat} (x : DomSt) (h : d ≠ 0 ↔ k = 0) : domOf (setDom k x b) d = domOf b d := by
  unfold setDom domOf
  by_cases hk : k = 0
  · simp [hk, h.2 hk]
  · simp [hk, not_not.1 fun hd => hk (h.1 hd)]

theorem domOf_advanceDom_ne {k : Nat} (delta : Nat) (h : d ≠ 0 ↔ k = 0) : domOf (advanceDom k delta b) d = domOf b d := by
  unfold advanceDom
  dsimp only
  split
  · rw [domOf_raise, domOf_setDom_ne _ h]
  · rw [domOf_setDom_ne _ h]

theorem domOf_advanceCopy (k n : Nat) : domOf (advanceCopy k n b) d = domOf b d := by
  unfold advanceCopy setCopy
  dsimp only
  split <;> rfl

theorem domOf_runLocks (n k : Nat) : domOf (runLocks n k b) d = domOf b d := domOf_of_time (by rw [runLocks])

theorem domOf_setClocks (r k : Nat) : domOf { b with time := { b.time with rtc := r, clk := k } } d = domOf b d := by
  unfold domOf
  split <;> rfl

/-- While its island has a clock, a domain moves on by its addend every tick. -/
theorem passTime_e {n : Nat} (hd : d < 2) (hclk : b.boot.host.lost.testBit 2 = false) :
    (domOf (passTime n b) d).e = ((domOf b d).e + n * addendOf b d) % 2 ^ 96 := by
  unfold passTime
  extract_lets b₁ b₂ b₃
  have hadvanced : b₁ = advanceDom 1 (n * addendOf b 1) (advanceDom 0 (n * addendOf b 0) b) := if_neg (by simp [hclk])
  rw [domOf_setClocks, domOf_runLocks, domOf_advanceCopy, domOf_advanceCopy, hadvanced]
  obtain rfl | rfl : d = 0 ∨ d = 1 := by omega
  · rw [domOf_advanceDom_ne _ (by decide), domOf_advanceDom_same]
  · rw [domOf_advanceDom_same, domOf_advanceDom_ne _ (by decide)]

/-- The ticks to a wrap take a counter across it once. -/
theorem wrap_once {e add m n : Nat} (hpos : 0 < add) (hlt : add < m) :
    (e + (m - e % m + add - 1) / add * add) % (m * n) / m = (e / m + 1) % n := by
  have hticks := Nat.div_add_mod' (m - e % m + add - 1) add
  have hrest := Nat.mod_lt (m - e % m + add - 1) hpos
  have hlow := Nat.mod_lt e (hpos.trans hlt)
  generalize (m - e % m + add - 1) / add * add = t at hticks ⊢
  have hcross : (e % m + t) / m = 1 := Nat.div_eq_of_lt_le (by omega) (by omega)
  have hsum : e + t = e % m + t + m * (e / m) := by
    have := Nat.mod_add_div e m
    omega
  rw [Nat.mod_mul_right_div_self, hsum, Nat.add_mul_div_left _ _ (hpos.trans hlt), hcross, Nat.add_comm 1]

theorem doWrap_wraps (hd : d < 2) (hadd : addendOf b d ≠ 0) (hclk : b.boot.host.lost.testBit 2 = false) :
    (domOf (doWrap d b) d).e / 2 ^ 64 = ((domOf b d).e / 2 ^ 64 + 1) % 2 ^ 32 := by
  unfold doWrap
  dsimp only
  rw [passTime_e hd hclk, Nat.max_eq_right (by omega), show 2 ^ 96 = 2 ^ 64 * 2 ^ 32 by norm_num,
    wrap_once (by omega) (addendOf_lt.trans (by norm_num))]

end Sys2Proof.Machine
end

section
/-!
SUPPORT. The commands of the host's time domains (R203 to R207): O21.
-/

namespace Sys2Proof.Machine

open Sys2Proof.Num

variable {b : Blk} {i : Init} {v : Word}

theorem doAddHi_commits {d : Fin 2} (h : Accepts b i (TIME.DOM.ADD_HI.INT d.val).a v)
    (hlo : 0x03FEF9DB23 ≤ v.toNat % 256 * 2 ^ 32 + (domOf b d.val).shadow)
    (hhi : v.toNat % 256 * 2 ^ 32 + (domOf b d.val).shadow ≤ 0x04010624DD) :
    addendOf (doAddHi i d.val v b) d.val = v.toNat % 256 * 2 ^ 32 + (domOf b d.val).shadow := by
  unfold doAddHi
  dsimp only
  rw [writeAct_accepted h, domOf_of_time writeOf_time, if_pos ⟨hlo, hhi⟩, addendOf_setAddend (by omega)]

theorem actStepGo_steps (h : Accepts b i TIME.STEP_GO.GO.a v) (hv : v.toNat.testBit 0 = true) :
    actStepGo v.toNat (writeOf b i TIME.STEP_GO.GO.a v).blk =
      applyStep (v.toNat / 2 % 2) (toInt 64 (rd b TIME.STEP_LO.LO + 2 ^ 32 * rd b TIME.STEP_HI.HI))
        (writeOf b i TIME.STEP_GO.GO.a v).blk := by
  rw [actStepGo, if_pos hv, writeOf_rd_ne h (by decide) (by decide), writeOf_rd_ne h (by decide) (by decide)]

/-- A change of source starts the servo anew. -/
theorem actSrc_of_change {d old : Nat} (h : rd b (TIME.DOM.SRC.SRC d) ≠ old) :
    rd (actSrc d old b) (TIME.DOM.SRC.SRC d) = rd b (TIME.DOM.SRC.SRC d) ∧
      domOf (actSrc d old b) d = { domOf b d with freq := 0, good := 0, hist := [] } := by
  have hstat : (TIME.DOM.SRC.SRC d).a ≠ (TIME.DOM.STAT.LOCKED d).a := by
    simp [TIME.DOM.SRC.SRC, TIME.DOM.STAT.LOCKED]
  have hraw : (TIME.DOM.SRC.SRC d).a ≠ pgTIME + 0x20 := by
    simp only [TIME.DOM.SRC.SRC, pgTIME]
    omega
  unfold actSrc
  dsimp only
  rw [if_pos h]
  split
  · split
    · rw [gainLock_rd hstat hraw, setDom_rd, loseLock_rd hstat hraw]
      simp
    · rw [loseLock_rd hstat hraw, setDom_rd, loseLock_rd hstat hraw]
      simp
  · rw [setDom_rd, loseLock_rd hstat hraw]
    simp

theorem doSrcWrite_accepted {d : Nat} (h : Accepts b i (TIME.DOM.SRC.SRC d).a v) :
    doSrcWrite i d v b = actSrc d (rd b (TIME.DOM.SRC.SRC d)) (writeOf b i (TIME.DOM.SRC.SRC d).a v).blk :=
  writeAct_accepted h

theorem doSrcWrite_changes {d : Fin 2} (h : Accepts b i (TIME.DOM.SRC.SRC d.val).a v)
    (hv : (TIME.DOM.SRC.SRC d.val).of v ≠ 0) (hne : (TIME.DOM.SRC.SRC d.val).of v ≠ rd b (TIME.DOM.SRC.SRC d.val)) :
    rd (doSrcWrite i d.val v b) (TIME.DOM.SRC.SRC d.val) = (TIME.DOM.SRC.SRC d.val).of v ∧
      domOf (doSrcWrite i d.val v b) d.val = { domOf b d.val with freq := 0, good := 0, hist := [] } := by
  have hsrc := writeOf_src h hv
  obtain ⟨hrd, hdom⟩ := actSrc_of_change (hsrc.symm ▸ hne)
  rw [doSrcWrite_accepted h]
  exact ⟨hrd.trans hsrc, hdom.trans (by rw [domOf_of_time writeOf_time])⟩

/-- Under source 1, which stays, PTP_LOCK is copied to LOCKED. -/
theorem actSrc_ptpLock {d : Nat} (hsrc : rd b (TIME.DOM.SRC.SRC d) = 1) :
    isOn (actSrc d 1 b) (TIME.DOM.STAT.LOCKED d) = isOn b (TIME.DOM.SRC.PTP_LOCK d) := by
  unfold actSrc
  simp only [hsrc, ne_eq, not_true_eq_false, if_false, if_true]
  split
  · rename_i hlock
    rw [gainLock_locked, hlock]
  · rename_i hlock
    rw [loseLock_stat.1, Bool.eq_false_iff.2 hlock]

/-- Under source 1 an accepted write of PTP_LOCK shows as LOCKED. -/
theorem doSrcWrite_locks {d : Fin 2} (h : Accepts b i (TIME.DOM.SRC.SRC d.val).a v)
    (hold : rd b (TIME.DOM.SRC.SRC d.val) = 1) (hv : (TIME.DOM.SRC.SRC d.val).of v = 1) :
    isOn (doSrcWrite i d.val v b) (TIME.DOM.STAT.LOCKED d.val) = decide ((TIME.DOM.SRC.PTP_LOCK d.val).of v ≠ 0) := by
  have hsrc := (writeOf_src h (by rw [hv]; exact Nat.one_ne_zero)).trans hv
  rw [doSrcWrite_accepted h, hold, actSrc_ptpLock hsrc, isOn, writeOf_ptpLock h]

theorem doPtpLock_locks {d : Fin 2} {l : Bool}
    (h : Accepts b i (TIME.DOM.SRC.SRC d.val).a
      ((TIME.DOM.SRC.PTP_LOCK d.val).ins (wordOf b (TIME.DOM.SRC.SRC d.val).a) (b2n l)))
    (hsrc : rd b (TIME.DOM.SRC.SRC d.val) = 1) : isOn (doPtpLock i d.val l b) (TIME.DOM.STAT.LOCKED d.val) = l := by
  have hkept := Fld.of_ins_ne (F := TIME.DOM.SRC.PTP_LOCK d.val) (G := TIME.DOM.SRC.SRC d.val)
    (.inl (by simp [TIME.DOM.SRC.SRC, TIME.DOM.SRC.PTP_LOCK]))
    (wordOf b (TIME.DOM.SRC.SRC d.val).a) (b2n l)
  rw [doPtpLock, doSrcWrite_locks h hsrc (hkept.trans hsrc), Fld.of_ins (by simp [TIME.DOM.SRC.PTP_LOCK])]
  cases l <;> rfl

/-- A servo update within the step threshold of a domain that is set adds the offset to F. -/
theorem doServo_freq {d : Nat} {o : Int} (hrun : isStandby b = true ∨ 2 ≤ rd b (TIME.DOM.SRC.SRC d))
    (hset : isOn b (TIME.DOM.STAT.SET d) = true) (ho : o.natAbs ≤ rd b (TIME.DOM.STEP_THR.NS d)) :
    (domOf (doServo d o b) d).freq = (domOf b d).freq + o := by
  have hguard : (!isStandby b && decide (rd b (TIME.DOM.SRC.SRC d) < 2)) = false := by
    rcases hrun with h | h
    · simp [h]
    · rw [decide_eq_false (Nat.not_lt.2 h), Bool.and_false]
  have hthr (x : Int) : rd (wrS b (TIME.DOM.OFFSET.O d) x) (TIME.DOM.STEP_THR.NS d) = rd b (TIME.DOM.STEP_THR.NS d) :=
    rd_wr_ne (.inl (by simp [TIME.DOM.STEP_THR.NS, TIME.DOM.OFFSET.O]))
  have hset' (x : Int) : isOn (wrS b (TIME.DOM.OFFSET.O d) x) (TIME.DOM.STAT.SET d) = isOn b (TIME.DOM.STAT.SET d) :=
    isOn_wr_ne (.inl (by simp [TIME.DOM.STAT.SET, TIME.DOM.OFFSET.O]))
  have hrate (num : Int) (den : Nat) (c : Blk) : (domOf (servoRate d num den c) d).freq = (domOf c d).freq := by
    simp [servoRate]
  unfold doServo
  extract_lets src tau b₁ slew den lim big x _ _ _ f num clamped b₂ b₃ b₄ b₅ good _ b₆
  rw [hguard, if_neg Bool.false_ne_true]
  have hsmall : (big || !isOn b₁ (TIME.DOM.STAT.SET d)) = false := by
    unfold big b₁
    rw [hthr, hset', hset, decide_eq_false (Nat.not_lt.2 ho)]
    rfl
  rw [hsmall, if_neg Bool.false_ne_true]
  have hfreq : (domOf b₆ d).freq = (domOf b d).freq + o := by
    unfold b₆
    rw [domOf_setDom_same]
    change (domOf b₅ d).freq = _
    unfold b₅ b₄ b₃ b₂ f x b₁
    rw [domOf_when _ fun c => domOf_timeEv d 4, domOf_wrB, domOf_wrB, hrate, domOf_setDom_same, domOf_wrS]
  split
  · rw [domOf_gainLock, hfreq]
  · exact hfreq

theorem doSourceLost_holds {d : Nat} (hsrc : 2 ≤ rd b (TIME.DOM.SRC.SRC d)) :
    isOn (doSourceLost d b) (TIME.DOM.STAT.LOCKED d) = false ∧ isOn (doSourceLost d b) (TIME.DOM.STAT.HOLD d) = true := by
  have hguard : (!isStandby b && decide (rd b (TIME.DOM.SRC.SRC d) < 2)) = false := by
    rw [decide_eq_false (Nat.not_lt.2 hsrc), Bool.and_false]
  unfold doSourceLost
  dsimp only
  rw [hguard, if_neg Bool.false_ne_true]
  split
  · simpa using loseLock_stat
  · rw [isOn_setAddend (by simp [TIME.DOM.STAT.LOCKED]), isOn_setAddend (by simp [TIME.DOM.STAT.HOLD])]
    simpa using loseLock_stat

/-- Settles O21: each command by what its operation leaves of the domain; a STEP_GO that finds another step still due is
refused by its block's rules, so an accepted one leaves its own offset to be mirrored. -/
theorem hostTime : Obligations.HostTime := by
  refine ⟨fun i d v s ha hlo hhi => ?_, fun i v s ha hv => ?_, fun i d v s ha hv hne => ?_, fun i d l s ha hsrc => ?_,
    fun d o s hrun hset ho => ?_, fun d s hsrc => ?_, fun d s hadd hclk => ?_⟩
  · exact completes_run (f := doAddHi i d.val v) rfl (doAddHi_commits ha hlo hhi)
  · refine completes_run (f := writeAct i false TIME.STEP_GO.GO.a v actStepGo) rfl ?_
    have hdom (k : Nat) : domOf (writeOf s.blk i TIME.STEP_GO.GO.a v).blk k = domOf s.blk k := domOf_of_time writeOf_time
    rw [writeAct_accepted ha, actStepGo_steps ha hv, domOf_applyStep, hdom, stepDue_of_accepts ha hv]
    exact ⟨by rw [Option.getD_none, Int.zero_add], rfl, applyStep_set _⟩
  · refine completes_run (f := doSrcWrite i d.val v) rfl ?_
    obtain ⟨hsrc, hdom⟩ := doSrcWrite_changes ha hv hne
    rw [hdom]
    exact ⟨hsrc, rfl, rfl, rfl⟩
  · exact completes_run (f := doPtpLock i d.val l) rfl (doPtpLock_locks ha hsrc)
  · exact completes_run (f := doServo d.val o.toInt) rfl (doServo_freq hrun hset ho)
  · exact completes_run (f := doSourceLost d.val) rfl (doSourceLost_holds hsrc)
  · exact completes_run (f := doWrap d.val) rfl (doWrap_wraps d.isLt hadd hclk)

end Sys2Proof.Machine
end

section
/-!
SUPPORT. What a command leaves of a block: the registers of all but some pages, and the block without its registers, its
outputs and the parts the command acts on. The view `apart` shows just that; an operation that leaves it equal keeps it.
-/

namespace Sys2Proof.Machine

open Sys2Proof.Num Sys2Proof.Stated

variable {b c : Blk} {pgs : List Nat} {e : Blk → Blk}

/-- What a block shows outside some register pages, without its outputs and what `e` leaves out. -/
def apart (pgs : List Nat) (e : Blk → Blk) (b : Blk) : (Nat → Word) × Blk :=
  (fun a => if a / 0x1000 * 0x1000 ∈ pgs then 0 else wordOf b a, e (bare b))

theorem apart_wordOf (h : apart pgs e c = apart pgs e b) {a : Nat} (ha : a / 0x1000 * 0x1000 ∉ pgs) :
    wordOf c a = wordOf b a := by
  simpa [apart, ha] using congrFun (congrArg Prod.fst h) a

theorem apart_rest (h : apart pgs e c = apart pgs e b) : e (bare c) = e (bare b) := congrArg Prod.snd h

theorem apart_of_wordOf (hw : ∀ a, a / 0x1000 * 0x1000 ∉ pgs → wordOf c a = wordOf b a) (hr : e (bare c) = e (bare b)) :
    apart pgs e c = apart pgs e b := by
  refine Prod.ext ?_ hr
  funext a
  by_cases ha : a / 0x1000 * 0x1000 ∈ pgs
  · simp [apart, ha]
  · simp [apart, ha, hw a ha]

theorem apart_of_regs (hr : c.regs = b.regs) (h : e (bare c) = e (bare b)) : apart pgs e c = apart pgs e b :=
  apart_of_wordOf (fun a _ => by rw [wordOf, wordOf, hr]) h

theorem apart_of_outside (hw : outside pgs c = outside pgs b) (hr : bare c = bare b) : apart pgs e c = apart pgs e b :=
  apart_of_wordOf (fun _ ha => outside_wordOf hw ha) (congrArg e hr)

/-- A view of less is kept where a view of more is. -/
theorem apart_mono {qs : List Nat} {e' : Blk → Blk} (h : apart pgs e c = apart pgs e b) (hsub : ∀ p ∈ pgs, p ∈ qs)
    (he : ∀ d, e' (e d) = e' d) : apart qs e' c = apart qs e' b :=
  apart_of_wordOf (fun _ ha => apart_wordOf h fun hp => ha (hsub _ hp))
    ((he _).symm.trans ((congrArg e' (apart_rest h)).trans (he _)))

/-- A command that runs an operation which keeps the view changes nothing outside the pages and the parts left out. -/
theorem only_of_apart {i : Instr} {f : Blk → Blk} (hrun : ∀ s, exec i s = run f s)
    (h : ∀ b, apart pgs e (f b) = apart pgs e b) : Only pgs (fun b => e (bare b)) i := by
  intro s t ht
  rw [hrun, run_next_iff] at ht
  rw [ht]
  exact ⟨rfl, fun a ha => apart_wordOf (h s.blk) ha, apart_rest (h s.blk)⟩

/-! Register writes of the pages left out. -/

section
variable {F : Fld}

theorem apart_setWord {a : Nat} {w : Word} (h : a / 0x1000 * 0x1000 ∈ pgs) : apart pgs e (setWord b a w) = apart pgs e b :=
  apart_of_outside (outside_setWord h) rfl

theorem apart_wr {v : Nat} (h : F.a / 0x1000 * 0x1000 ∈ pgs) : apart pgs e (wr b F v) = apart pgs e b := apart_setWord h
theorem apart_wrB {v : Bool} (h : F.a / 0x1000 * 0x1000 ∈ pgs) : apart pgs e (wrB b F v) = apart pgs e b := apart_wr h
theorem apart_wrS {v : Int} (h : F.a / 0x1000 * 0x1000 ∈ pgs) : apart pgs e (wrS b F v) = apart pgs e b := apart_wr h
theorem apart_wrU {v : Nat} (h : F.a / 0x1000 * 0x1000 ∈ pgs) : apart pgs e (wrU b F v) = apart pgs e b := apart_wr h
theorem apart_wrBit {i : Nat} {v : Bool} (h : F.a / 0x1000 * 0x1000 ∈ pgs) : apart pgs e (wrBit b F i v) = apart pgs e b :=
  apart_wr h
theorem apart_incSat {n : Nat} (h : F.a / 0x1000 * 0x1000 ∈ pgs) : apart pgs e (incSat b F n) = apart pgs e b := apart_wr h
theorem apart_incWrap {n : Nat} (h : F.a / 0x1000 * 0x1000 ∈ pgs) : apart pgs e (incWrap b F n) = apart pgs e b := apart_wr h

theorem apart_wr64 {v : Nat} (hlo : F.a / 0x1000 * 0x1000 ∈ pgs) (hhi : (F.a + 4) / 0x1000 * 0x1000 ∈ pgs) :
    apart pgs e (wr64 b F v) = apart pgs e b := (apart_setWord hhi).trans (apart_setWord hlo)

theorem apart_raise {pg k : Nat} (h : (pg + 0x20) / 0x1000 * 0x1000 ∈ pgs) : apart pgs e (raise pg k b) = apart pgs e b := by
  obtain ⟨r, o, hb⟩ := raise_eq b pg k
  exact apart_of_outside (outside_raise h) (by rw [hb])

end

theorem apart_emit (m : Msg) : apart pgs e (emit b m) = apart pgs e b := rfl
theorem apart_answer (r : Resp) : apart pgs e (answer b r) = apart pgs e b := rfl

/-! Guards. -/

theorem apart_ite {p : Prop} [Decidable p] {d : Blk} (hc : apart pgs e c = apart pgs e b) (hd : apart pgs e d = apart pgs e b) :
    apart pgs e (if p then c else d) = apart pgs e b := by
  split
  · exact hc
  · exact hd

theorem apart_when {f : Blk → Blk} (x : Bool) (h : apart pgs e (f b) = apart pgs e b) :
    apart pgs e (when x f b) = apart pgs e b := apart_ite h rfl

theorem apart_gated {f : Blk → Blk} {pg : Nat} (h : apart pgs e (f b) = apart pgs e b) :
    apart pgs e (gated pg f b) = apart pgs e b := gated_rel (P := fun c => apart pgs e c = apart pgs e b) rfl h

end Sys2Proof.Machine
end

section
/-!
SUPPORT. What the commands of the host's and the field's time leave of a block (R205 to R217): O55.
-/

namespace Sys2Proof.Machine

open Sys2Proof.Num Sys2Proof.Stated

variable {b : Blk} {pgs : List Nat}

/-- The pages of time. -/
def timePages : List Nat := [pgTIME, pgFTIME]

/-- A block without its state of time. -/
def timeless (b : Blk) : Blk := { b with time := {} }

theorem apart_setTime (t : TimeSt) : apart pgs timeless { b with time := t } = apart pgs timeless b := rfl

theorem apart_setDom (k : Nat) (x : DomSt) : apart pgs timeless (setDom k x b) = apart pgs timeless b := by
  unfold setDom
  split <;> rfl

theorem apart_timeEv {e : Blk → Blk} (d k : Nat) : apart timePages e (timeEv d k b) = apart timePages e b :=
  apart_raise (by decide)

theorem apart_setAddend {e : Blk → Blk} (d : Fin 2) (v : Nat) :
    apart timePages e (setAddend d.val v b) = apart timePages e b := by
  rw [setAddend, apart_wr (by decide +revert), apart_wr (by decide +revert)]

theorem apart_loseLock {e : Blk → Blk} (d : Fin 2) : apart timePages e (loseLock d.val b) = apart timePages e b := by
  have hfields : apart timePages e (wrB (wrB b (TIME.DOM.STAT.LOCKED d.val) false) (TIME.DOM.STAT.HOLD d.val) true) =
      apart timePages e b := by
    rw [apart_wrB (by decide +revert), apart_wrB (by decide +revert)]
  exact apart_ite ((apart_timeEv ..).trans hfields) hfields

theorem apart_gainLock {e : Blk → Blk} (d : Fin 2) : apart timePages e (gainLock d.val b) = apart timePages e b := by
  have hfields : apart timePages e (wrB (wrB b (TIME.DOM.STAT.LOCKED d.val) true) (TIME.DOM.STAT.HOLD d.val) false) =
      apart timePages e b := by
    rw [apart_wrB (by decide +revert), apart_wrB (by decide +revert)]
  exact apart_ite hfields ((apart_timeEv ..).trans hfields)

theorem apart_servoRate (d : Fin 2) (num : Int) (den : Nat) :
    apart timePages timeless (servoRate d.val num den b) = apart timePages timeless b := by
  rw [servoRate, apart_setDom, apart_setAddend]

theorem apart_applyStep (d : Fin 2) (v : Int) :
    apart timePages timeless (applyStep d.val v b) = apart timePages timeless b := by
  unfold applyStep
  dsimp only
  rw [apart_timeEv, apart_when _ (apart_raise (by decide +revert)), apart_wrB (by decide +revert),
    apart_wrB (by decide +revert), apart_incSat (by decide +revert), apart_wr64 (by decide +revert) (by decide +revert),
    apart_setDom]

theorem apart_doServo (d : Fin 2) (o : Int) : apart timePages timeless (doServo d.val o b) = apart timePages timeless b := by
  unfold doServo
  dsimp only
  refine apart_ite rfl (apart_ite (apart_ite ?stepped ?required) (apart_ite ?locked ?slewed))
  case stepped => rw [apart_applyStep, apart_setDom, apart_wrS (by decide +revert)]
  case required =>
    rw [apart_timeEv, apart_wrB (by decide +revert), apart_servoRate, apart_setDom, apart_timeEv,
      apart_wrB (by decide +revert), apart_wrS (by decide +revert)]
  case locked =>
    rw [apart_gainLock, apart_setDom, apart_when _ (apart_timeEv ..), apart_wrB (by decide +revert),
      apart_wrB (by decide +revert), apart_servoRate, apart_setDom, apart_wrS (by decide +revert)]
  case slewed =>
    rw [apart_setDom, apart_when _ (apart_timeEv ..), apart_wrB (by decide +revert), apart_wrB (by decide +revert),
      apart_servoRate, apart_setDom, apart_wrS (by decide +revert)]

theorem apart_doSourceLost (d : Fin 2) :
    apart timePages timeless (doSourceLost d.val b) = apart timePages timeless b := by
  unfold doSourceLost
  dsimp only
  refine apart_ite rfl ?_
  split
  · rw [apart_setDom, apart_loseLock]
  · rw [apart_setAddend, apart_setDom, apart_loseLock]

theorem apart_doPpsOut {e : Blk → Blk} : apart timePages e (doPpsOut b) = apart timePages e b :=
  apart_ite ((apart_raise (by decide)).trans (apart_emit _)) rfl

theorem apart_doRtcTrim : apart timePages timeless (doRtcTrim b) = apart timePages timeless b := by
  refine apart_ite ?_ (apart_wrB (by decide))
  rw [apart_wrB (by decide), apart_wrB (by decide), apart_setTime]

theorem apart_doVbatPowerOn : apart timePages timeless (doVbatPowerOn b) = apart timePages timeless b := by
  unfold doVbatPowerOn
  dsimp only
  rw [apart_wrB (by decide)]
  refine (apart_setTime _).trans ?_
  rw [apart_wrB (by decide), apart_wrB (by decide)]

theorem apart_doVbatChangeover {e : Blk → Blk} (on : Bool) :
    apart timePages e (doVbatChangeover on b) = apart timePages e b := apart_when on (apart_wrB (by decide))

theorem apart_doTimeSyncSend : apart timePages timeless (doTimeSyncSend b) = apart timePages timeless b := by
  unfold doTimeSyncSend
  dsimp only
  split
  · rw [apart_emit, apart_setDom]
  · rw [apart_emit, apart_setDom]
  · rfl

/-- A read of CINFO moves its FIFO on and drops a shadow of its page. -/
theorem apart_doCaptureRead (i : Init) (k : Nat) :
    apart [] (fun b => { b with time := {}, acc := {} }) (doCaptureRead i k b) =
      apart [] (fun b => { b with time := {}, acc := {} }) b := by
  unfold doCaptureRead
  dsimp only
  exact apart_ite rfl (apart_ite rfl rfl)

end Sys2Proof.Machine
end

section
/-!
SUPPORT. What the checks and the pulses of the metrology front end leave of a block (R173 to R193): O55.
-/

namespace Sys2Proof.Machine

open Sys2Proof.Num Sys2Proof.Stated

variable {b : Blk} {pgs : List Nat} {e : Blk → Blk}

/-- The pages of the front end. -/
def sensorPages : List Nat := [pgMTR, pgSNS 0, pgSNS 1, pgSNS 2, pgSNS 3, pgSNS 4, pgSNS 5, pgSNS 6, pgSNS 7]

theorem apart_doTwinDisagree (k : Nat) : apart [pgMTR] e (doTwinDisagree k b) = apart [pgMTR] e b :=
  apart_ite ((apart_raise (by decide)).trans (apart_wrBit (by decide))) rfl

theorem apart_doCalCheck : apart [pgMTR] e (doCalCheck b) = apart [pgMTR] e b :=
  apart_ite rfl ((apart_raise (by decide)).trans (apart_wrB (by decide)))

theorem apart_doCaptureDone : apart [pgMTR] e (doCaptureDone b) = apart [pgMTR] e b :=
  apart_ite ((apart_raise (by decide)).trans (apart_wrB (by decide))) rfl

/-! Qualified conditions (R175). -/

/-- The registers of a current channel's status lie on its page. -/
theorem sstat_page : ∀ s < 8, (SNS.SSTAT.FAULT s).a / 0x1000 * 0x1000 ∈ sensorPages := by decide

theorem sns_event_page : ∀ s < 8, (pgSNS s + 0x20) / 0x1000 * 0x1000 ∈ sensorPages := by decide

theorem vctl_page : ∀ v < 7, (MTR.VCH.VCTL.OVR v).a / 0x1000 * 0x1000 ∈ sensorPages := by decide

theorem condFld_page {s : Nat} (hs : s < 8) (k : SnsCond) : (condFld s k).a / 0x1000 * 0x1000 ∈ sensorPages := by
  cases k <;> exact sstat_page s hs

theorem apart_snsShow {s : Nat} (hs : s < 8) (gone : Bool) :
    apart sensorPages e (snsShow s gone b) = apart sensorPages e b := by
  have hshown (f v : Bool) : apart sensorPages e (wrB (wrB b (SNS.SSTAT.FAULT s) f) (SNS.SSTAT.VALID s) v) =
      apart sensorPages e b :=
    (apart_wrB (F := SNS.SSTAT.VALID s) (sstat_page s hs)).trans (apart_wrB (sstat_page s hs))
  refine apart_ite ?_ (hshown ..)
  rw [apart_raise (sns_event_page s hs), apart_incSat (F := SNS.SSTAT.FAULT_CNT s) (sstat_page s hs), hshown]

theorem apart_doQualify (ch : Fin 15) (k : SnsCond) (on : Bool) :
    apart sensorPages e (doQualify ch.val k on b) = apart sensorPages e b := by
  unfold doQualify
  dsimp only
  split
  · have hovr := apart_wrB (b := b) (e := e) (v := on) (vctl_page (ch.val - 8) (by omega))
    exact apart_ite rfl (apart_ite ((apart_raise (by decide)).trans hovr) hovr)
  · have hs : ch.val < 8 := by omega
    have hfld : apart sensorPages e (wrB b (condFld ch.val k) on) = apart sensorPages e b := apart_wrB (condFld_page hs k)
    refine apart_ite rfl (apart_ite (apart_snsShow hs _) ?_)
    rw [apart_snsShow hs]
    exact apart_ite ((apart_raise (sns_event_page _ hs)).trans hfld) hfld

/-! Pulses (R190). -/

/-- A block without its front end's state. -/
def unmetered (b : Blk) : Blk := { b with met := {} }

theorem apart_setMet (x : MetSt) : apart pgs unmetered { b with met := x } = apart pgs unmetered b := rfl

theorem apart_pulseAdd (q : Fin 5) (n : Nat) : apart [pgMTR] unmetered (pulseAdd q.val n b) = apart [pgMTR] unmetered b := by
  unfold pulseAdd
  dsimp only
  refine apart_ite ?_ ?_
  · rw [apart_raise (by decide), apart_wrB (by decide +revert), apart_wrU (by decide +revert), apart_setMet]
  · rw [apart_wrB (by decide +revert), apart_wrU (by decide +revert), apart_setMet]

theorem apart_drivePulse (q : Nat) (on : Bool) : apart pgs unmetered (drivePulse q on b) = apart pgs unmetered b := by
  unfold drivePulse
  dsimp only
  exact apart_ite (apart_setMet _) (apart_setMet _)

theorem apart_doPulseStart (q : Fin 5) : apart [pgMTR] unmetered (doPulseStart q.val b) = apart [pgMTR] unmetered b := by
  refine apart_ite rfl ?_
  rw [apart_drivePulse, apart_incWrap (by decide +revert), apart_pulseAdd, apart_setMet]

theorem apart_doPulseEnd (q : Nat) : apart pgs unmetered (doPulseEnd q b) = apart pgs unmetered b :=
  apart_ite (apart_drivePulse q false) rfl

end Sys2Proof.Machine
end

section
/-!
SUPPORT. What the commands of the Counting House, its commits and its signatures leave of a block (R223 to R251): O55.
-/

namespace Sys2Proof.Machine

open Sys2Proof.Num Sys2Proof.Stated

variable {b c : Blk} {pgs : List Nat} {e : Blk → Blk}

theorem apart_of_unhoused (h : unhoused c = unhoused b) : apart pgs unhoused c = apart pgs unhoused b :=
  apart_of_regs (congrArg Blk.regs h :) (congrArg bare h)

theorem apart_setHouse (x : HouseSt) : apart pgs unhoused { b with house := x } = apart pgs unhoused b := rfl

/-! Signatures (R242, R249, R404). -/

/-- The pages a signed record shows itself on. -/
def recordPages : List Nat := [pgCH, pgFSRM]

theorem apart_signRec (r : AedRec) (seq : Nat) (key : Option (Nat × Nat)) :
    apart recordPages e (signRec r seq key b).1 = apart recordPages e b := by
  unfold signRec
  split
  · exact apart_incWrap (by decide)
  · exact apart_raise (by decide)

theorem apart_doSignDone : apart recordPages unhoused (doSignDone b) = apart recordPages unhoused b := by
  unfold doSignDone
  split
  · rfl
  · dsimp only
    rw [apart_raise (by decide)]
    refine apart_ite ?_ ?_
    · rw [apart_emit, apart_setHouse, apart_wr64 (by decide) (by decide), apart_signRec]
    · rw [apart_incSat (by decide), apart_setHouse, apart_wr64 (by decide) (by decide), apart_signRec]

theorem apart_doTallySnapshot (clr : Nat) :
    apart recordPages unhoused (doTallySnapshot clr b) = apart recordPages unhoused b := by
  unfold doTallySnapshot
  dsimp only
  refine apart_ite ?_ ?_
  · rw [apart_emit, apart_setHouse, apart_signRec]
  · rw [apart_setHouse, apart_signRec]

/-! What the commands show (R227, R240, R258). -/

/-- The pages of the Counting House, with those of the mailbox and of the signing keys. -/
def housePages : List Nat := [pgCH, pgDMD, pgTRF, pgFBAR, pgFSRM]

theorem apart_showDstat : apart housePages e (showDstat b) = apart housePages e b := by
  unfold showDstat
  dsimp only
  rw [apart_wrB (by decide), apart_wrB (by decide), apart_wrB (by decide), apart_wrB (by decide), apart_wrB (by decide),
    apart_wrB (by decide)]

theorem apart_showDemand : apart housePages unhoused (showDemand b) = apart housePages unhoused b := by
  have hvalues (d : Blk) (n i r k w : Nat) (x : Bool) (p : Int) :
      apart housePages unhoused (wrS (wrB (wr64 (wr (wr (wr (wr d DMD.INT_NUM.NUM n) DMD.T_INT.MS i) DMD.T_REM.MS r)
        DMD.LIM.KW k) DMD.WIN_E.MWH w) DMD.GRID.ACTIVE x) DMD.PROJ.W p) = apart housePages unhoused d := by
    rw [apart_wrS (by decide), apart_wrB (by decide), apart_wr64 (by decide) (by decide), apart_wr (by decide),
      apart_wr (by decide), apart_wr (by decide), apart_wr (by decide)]
  unfold showDemand
  dsimp only
  refine apart_ite ?_ (hvalues ..)
  rw [apart_raise (by decide), apart_setHouse, hvalues]

theorem apart_moveB : apart housePages unhoused (moveB b) = apart housePages unhoused b := by
  refine apart_ite ?_ rfl
  rw [showTime, apart_wrB (by decide), apart_wr64 (by decide) (by decide), apart_wr64 (by decide) (by decide)]
  exact apart_of_unhoused (unhoused_setB _)

theorem apart_received : apart housePages unhoused (received b) = apart housePages unhoused b := by
  rw [received, apart_moveB, apart_raise (by decide), apart_wrB (by decide)]

theorem apart_cmdDone (code res : Nat) : apart housePages e (cmdDone code res b) = apart housePages e b := by
  have hshown : apart housePages e (incWrap (wr (wr b CH.CMD_STAT.CODE code) CH.CMD_STAT.RESULT res) CH.CMD_STAT.COUNT) =
      apart housePages e b := by
    rw [apart_incWrap (by decide), apart_wr (by decide), apart_wr (by decide)]
  have hrefused := (apart_raise (pg := pgCH) (k := 1) (by decide)).trans hshown
  unfold cmdDone
  dsimp only
  exact apart_ite hshown (apart_ite ((apart_raise (by decide)).trans hrefused) hrefused)

/-- The checks of a frame raise field event 71 where no key verifies it. -/
theorem apart_cmdCheck (f : List Byte) : apart housePages e (cmdCheck f b).2 = apart housePages e b := by
  unfold cmdCheck
  split
  · rfl
  dsimp only
  generalize hsig : (if (!signedCode (payAt f 2 1)) = true then (true, b) else _) = r
  have hverified : apart housePages e r.2 = apart housePages e b := by
    rw [← hsig]
    split
    · rfl
    · split
      · rfl
      · exact apart_raise (by decide)
  simpa only [apply_ite Prod.snd, ite_self] using hverified

/-! The commands (R224). -/

/-- A command of the Counting House keeps the view where its effect does. -/
theorem apart_takeMail {code : Nat} {may : List Byte → Blk → Bool} {act : List Byte → Blk → Blk}
    (hact : ∀ p c, apart housePages unhoused (act p c) = apart housePages unhoused c) :
    apart housePages unhoused (takeMail code may act b) = apart housePages unhoused b := by
  have hchecked : apart housePages unhoused (cmdCheck (mailFrame b) (received b)).2 = apart housePages unhoused b :=
    (apart_cmdCheck _).trans apart_received
  unfold takeMail
  dsimp only
  rw [← received.eq_1]
  generalize cmdCheck (mailFrame b) (received b) = r at hchecked ⊢
  refine apart_ite rfl (apart_ite ((apart_cmdDone ..).trans hchecked) (apart_ite ((apart_cmdDone ..).trans hchecked) ?_))
  rw [apart_cmdDone, hact]
  exact apart_ite ((apart_wr64 (by decide) (by decide)).trans hchecked) hchecked

theorem apart_setSess (n : Nat) (x : Option Session) :
    apart housePages unhoused (setSess n x b) = apart housePages unhoused b :=
  (apart_wrBit (by decide)).trans (apart_of_unhoused (unhoused_setLive _))

theorem apart_doSessionClose (pay : List Byte) :
    apart housePages unhoused (doSessionClose pay b) = apart housePages unhoused b := by
  unfold doSessionClose
  dsimp only
  split
  · rfl
  · exact (apart_setSess ..).trans (apart_of_unhoused (unhoused_issue ..))

theorem apart_doGridLimit (pay : List Byte) : apart housePages unhoused (doGridLimit pay b) = apart housePages unhoused b := by
  unfold doGridLimit
  dsimp only
  rw [apart_showDemand, apart_wr64 (by decide) (by decide), apart_wr64 (by decide) (by decide), apart_wr (by decide)]

theorem apart_doReplay (pay : List Byte) : apart pgs e (doReplay pay b) = apart pgs e b := by
  unfold doReplay
  split
  · exact apart_ite (apart_emit _) rfl
  · rfl

theorem apart_doSetContract (pay : List Byte) :
    apart housePages unhoused (doSetContract pay b) = apart housePages unhoused b := by
  unfold doSetContract
  dsimp only
  rw [apart_of_unhoused (unhoused_eventNow ..), apart_showDemand, apart_wr (by decide)]

theorem apart_doBillingReset (pay : List Byte) :
    apart housePages unhoused (doBillingReset pay b) = apart housePages unhoused b :=
  apart_showDstat.trans (apart_of_unhoused (unhoused_setLive _))

theorem apart_doCalLoad (pay : List Byte) : apart pgs unhoused (doCalLoad pay b) = apart pgs unhoused b :=
  apart_of_unhoused (unhoused_forEach _ fun _ _ => unhoused_setHouse _)

theorem apart_doAckTamper (pay : List Byte) : apart housePages unhoused (doAckTamper pay b) = apart housePages unhoused b := by
  unfold doAckTamper
  dsimp only
  rw [apart_of_unhoused (unhoused_eventNow ..), apart_setHouse, apart_wr (by decide), apart_wr (by decide),
    apart_wrB (by decide)]

/-! A command at the mailbox (R340). -/

/-- A block without its Counting House, its lanes and its part of a pair. -/
def unsent (b : Blk) : Blk := { b with house := {}, lanes := {}, red := {} }

/-- The pages a command of the Counting House shows itself on, and those of the ticket that holds it on the active of a pair. -/
def mailPages : List Nat := housePages ++ [pgRED, pgLINK]

theorem apart_setRed (x : RedSt) : apart pgs unsent { b with red := x } = apart pgs unsent b := rfl

theorem apart_ticketed (src : Nat) (content : List Byte) (input : Option Input) :
    apart [pgRED, pgLINK] unsent (ticketed src content b input) = apart [pgRED, pgLINK] unsent b := by
  have hsent (d : Blk) (m : Msg) : apart [pgRED, pgLINK] unsent (toPartner 1 m d) = apart [pgRED, pgLINK] unsent d :=
    apart_of_wordOf (fun a ha => (sends_toPartner 1 m).words a fun hp => ha (by simp [hp]))
      (congrArg unsent (sends_toPartner (b := d) 1 m).rest :)
  unfold ticketed
  refine apart_ite ?_ rfl
  dsimp only
  refine (apart_setRed _).trans ?_
  rw [apart_incWrap (by decide), hsent, apart_emit]

/-- A command of the mailbox keeps the view where its effect does: it is taken, or held under its ticket. -/
theorem only_mail {i : Instr} {src : Nat} {x : Input} {code : Nat} {may : List Byte → Blk → Bool}
    {act : List Byte → Blk → Blk} (hrun : ∀ s, exec i s = runIn src x (gated pgCH (takeMail code may act)) s)
    (hact : ∀ p c, apart housePages unhoused (act p c) = apart housePages unhoused c) :
    Only mailPages (fun b => unsent (bare b)) i :=
  only_of_apart (e := unsent) hrun fun _ =>
    apart_ite (apart_mono (apart_gated (apart_takeMail hact)) (by decide) fun _ => rfl)
      (apart_mono (apart_ticketed ..) (by decide) fun _ => rfl)

/-- Settles O55: each command runs one operation, and the operation leaves equal what the block shows apart from the pages and
parts the statement names; a command of the mailbox is taken, or held under its ticket. -/
theorem timeAndBillingFrames : Obligations.TimeAndBillingFrames := by
  refine ⟨fun d o => ?_, fun d => ?_, ?_, ?_, ?_, fun v => ?_, ?_, ?_, fun i k => ?_, fun k => ?_, ?_, ?_, fun ch k v => ?_,
    fun q => ?_, fun q => ?_, ?_, ?_, ?_, ?_, ?_, ?_, ?_, ?_, ?_, fun v => ?_, ?_⟩
  · exact only_of_apart (fun _ => rfl) fun _ => apart_doServo d o.toInt
  · exact only_of_apart (fun _ => rfl) fun _ => apart_doSourceLost d
  · exact only_of_apart (e := timeless) (fun _ => rfl) fun _ => apart_doPpsOut
  · exact only_of_apart (fun _ => rfl) fun _ => apart_doRtcTrim
  · exact only_of_apart (fun _ => rfl) fun _ => apart_doVbatPowerOn
  · exact only_of_apart (e := timeless) (fun _ => rfl) fun _ => apart_doVbatChangeover v
  · exact only_of_apart (fun _ => rfl) fun _ => apart_doTimeSyncSend
  · exact only_of_apart (e := timeless) (fun _ => rfl) fun _ => apart_setTime _
  · exact only_of_apart (fun _ => rfl) fun _ => apart_doCaptureRead i k.val
  · exact only_of_apart (e := id) (fun _ => rfl) fun _ => apart_gated (apart_doTwinDisagree k.val)
  · exact only_of_apart (e := id) (fun _ => rfl) fun _ => apart_gated apart_doCalCheck
  · exact only_of_apart (e := id) (fun _ => rfl) fun _ => apart_gated apart_doCaptureDone
  · exact only_of_apart (e := id) (fun _ => rfl) fun _ => apart_doQualify ch k v
  · exact only_of_apart (fun _ => rfl) fun _ => apart_gated (apart_doPulseStart q)
  · exact only_of_apart (fun _ => rfl) fun _ => apart_gated (apart_doPulseEnd q.val)
  · exact only_mail (fun _ => rfl) fun _ _ => apart_setSess ..
  · exact only_mail (fun _ => rfl) fun _ _ => apart_doSessionClose _
  · exact only_mail (fun _ => rfl) fun _ _ => apart_doGridLimit _
  · exact only_mail (fun _ => rfl) fun _ _ => apart_doReplay _
  · exact only_mail (fun _ => rfl) fun _ _ => apart_doSetContract _
  · exact only_mail (fun _ => rfl) fun _ _ => apart_doBillingReset _
  · exact only_mail (fun _ => rfl) fun _ _ => apart_doCalLoad _
  · exact only_mail (fun _ => rfl) fun _ _ => apart_doAckTamper _
  · exact only_of_apart (fun _ => rfl) fun _ => apart_gated (apart_of_unhoused unhoused_commit)
  · exact only_of_apart (fun _ => rfl) fun _ => apart_gated (apart_doTallySnapshot v.toNat)
  · exact only_of_apart (fun _ => rfl) fun _ => apart_gated apart_doSignDone

end Sys2Proof.Machine
end

section
/-!
SUPPORT. The unsigned commands of the mailbox (R224, R225), and what taking a frame leaves of the Counting House.
-/

namespace Sys2Proof.Machine

open Sys2Proof.Num Sys2Proof.Stated

variable {b c : Blk} {f pay : List Byte} {code : Nat}

/-! A frame is taken. -/

/-- An unsigned frame that passes the checks of a block passes them in every block of the same meter. -/
theorem cmdCheck_passes_unsigned (hsigned : signedCode (payAt f 2 1) = false)
    (hid : rd64 c CH.METER_ID.ID = rd64 b CH.METER_ID.ID) (h : (cmdCheck f b).1 = 0) : cmdCheck f c = (0, c) := by
  have hform := frameOk_of_passes h
  unfold cmdCheck at h ⊢
  by_cases hm : payAt f 8 8 = rd64 b CH.METER_ID.ID
  · simp [hform, hsigned, hid, hm]
  · simp [hform, hsigned, hm] at h

/-- An unsigned frame that passes every check acts in the block that received it and completes with RESULT 0. -/
theorem takeMail_passes_unsigned {may : List Byte → Blk → Bool} {act : List Byte → Blk → Blk}
    (hp : mailPasses b code may) (hsigned : signedCode code = false)
    (hmay : may (framePay (mailFrame b)) (received b) = may (framePay (mailFrame b)) b) :
    takeMail code may act b = cmdDone code 0 (act (framePay (mailFrame b)) (received b)) := by
  obtain ⟨-, hbusy, hcode, hcheck, htw, hallowed⟩ := hp
  have hpass : cmdCheck (mailFrame b) (received b) = (0, received b) :=
    cmdCheck_passes_unsigned (hcode ▸ hsigned)
      (rd64_of_wordsOf (l := [CH.METER_ID.ID.a, CH.METER_ID.ID.a + 4]) (wordsOf_received (by decide)) (by decide)
        (by decide))
      hcheck
  have hfree : (received b).house.tw = none := received_tw.trans htw
  unfold takeMail
  simp only [hbusy, hcode, ← received.eq_1, hpass, hsigned, hfree, hmay, hallowed]
  simp

theorem received_busy : isOn (received b) FBAR.MBX_STAT.BUSY = false := by
  rw [received, isOn_of_wordsOf (l := [FBAR.MBX_STAT.BUSY.a]) (wordsOf_moveB (by decide)) (by decide),
    isOn_raise_ne (by decide), isOn_wrB_same (by decide) (by decide)]

@[simp] theorem cmdDone_io : (cmdDone code 0 b).io = b.io := by simp [cmdDone_ok, incWrap]

/-- An unsigned command that passes, and leaves the mailbox as it found it, completes with RESULT 0. -/
theorem completes_unsigned {s : State} {instr : Instr} {i : Input} {may : List Byte → Blk → Bool}
    {act : List Byte → Blk → Blk} {P : Blk → Prop} (hp : mailPasses s.blk code may) (htakes : takesNow s.blk = true)
    (he : exec instr s = runIn 2 i (gated pgCH (takeMail code may act)) s)
    (hsigned : signedCode code = false) (hcode : code < 256)
    (hmay : may (framePay (mailFrame s.blk)) (received s.blk) = may (framePay (mailFrame s.blk)) s.blk)
    (hkeep : wordsOf [FBAR.MBX_STAT.BUSY.a] (act (framePay (mailFrame s.blk)) (received s.blk)) =
      wordsOf [FBAR.MBX_STAT.BUSY.a] (received s.blk))
    (hP : P (cmdDone code 0 (act (framePay (mailFrame s.blk)) (received s.blk)))) :
    Completes instr s fun b => mailDone b code ∧ P b := by
  have hdone := (wordsOf_cmdDone (code := code) (by decide)).trans hkeep
  refine ⟨_, he.trans (runIn_now 2 i htakes), ?_⟩
  dsimp only
  rw [enter_on hp.1, takeMail_passes_unsigned hp hsigned hmay]
  refine ⟨⟨?_, cmdDone_code hcode, cmdDone_result⟩, hP⟩
  rw [isOn_of_wordsOf hdone (by decide), received_busy]

/-! What taking a frame leaves of the Counting House and of the pair. -/

theorem moveB_house : ∃ t, (moveB b).house = { b.house with live := { b.house.live with h := t } } := by
  unfold moveB
  split
  · exact ⟨max b.house.live.h (billNow b), by simp [showTime, setB, setLive]⟩
  · exact ⟨b.house.live.h, rfl⟩

/-- Taking a frame moves billing time and nothing else of the Counting House's own state. -/
theorem received_house : ∃ t, (received b).house = { b.house with live := { b.house.live with h := t } } := by
  obtain ⟨t, ht⟩ := moveB_house (b := raise pgFBAR 1 (wrB b FBAR.MBX_STAT.BUSY false))
  exact ⟨t, ht.trans (by simp)⟩

theorem sessOf_received (n : Nat) : sessOf (received b) n = sessOf b n := by
  obtain ⟨t, ht⟩ := received_house (b := b)
  rw [sessOf, sessOf, ht]

theorem ringRecord_received (seq : Nat) : ringRecord (received b) seq = ringRecord b seq := by
  obtain ⟨t, ht⟩ := received_house (b := b)
  rw [ringRecord, ringRecord, ht]

theorem received_queue : (received b).house.queue = b.house.queue := by
  obtain ⟨t, ht⟩ := received_house (b := b)
  rw [ht]

theorem received_mode : wordOf (received b) SYS.MODE.PAIR.a = wordOf b SYS.MODE.PAIR.a :=
  wordOf_of_wordsOf (l := [SYS.MODE.PAIR.a]) (wordsOf_received (by decide)) (by decide)

theorem received_red : (received b).red = b.red := (congrArg Blk.red untimed_received :)

/-- Where a block stands in its pair rests on SYS.MODE and on the pair's state. -/
theorem paired_congr (hmode : wordOf c SYS.MODE.PAIR.a = wordOf b SYS.MODE.PAIR.a) : paired c = paired b := by
  have hpair : rd c SYS.MODE.PAIR = rd b SYS.MODE.PAIR := congrArg SYS.MODE.PAIR.of hmode
  rw [paired, paired, hpair]

theorem isActive_congr (hmode : wordOf c SYS.MODE.PAIR.a = wordOf b SYS.MODE.PAIR.a) (hred : c.red = b.red) :
    isActive c = isActive b := by
  have hactive : rd c SYS.MODE.ACTIVE = rd b SYS.MODE.ACTIVE := congrArg SYS.MODE.ACTIVE.of hmode
  rw [isActive, isActive, isOn, isOn, hactive, hred]

theorem sends_received : sends (received b) = sends b := by
  rw [sends, sends, paired_congr received_mode, isActive_congr received_mode received_red]

theorem recordsBarred_received : recordsBarred (received b) = recordsBarred b := by
  rw [recordsBarred, recordsBarred, paired_congr received_mode, isActive_congr received_mode received_red, received_acc,
    received_red]

/-! SESSION_OPEN and SESSION_CLOSE. -/

theorem maySessionOpen_received : maySessionOpen pay (received b) = maySessionOpen pay b := by
  rw [maySessionOpen, maySessionOpen, sessOf_received]

theorem maySessionClose_received : maySessionClose pay (received b) = maySessionClose pay b := by
  rw [maySessionClose, maySessionClose, sessOf_received]

theorem sessOf_setSess (n : Nat) (x : Option Session) : sessOf (setSess n x b) n = x := by
  simp [sessOf, setSess, setLive, Tab.at'_put_same]

theorem setSess_queue (n : Nat) (x : Option Session) : (setSess n x b).house.queue = b.house.queue := by
  simp [setSess, setLive]

theorem wordsOf_setSess {l : List Nat} (hl : CH.CSTAT.SESS_OPEN.a ∉ l) (n : Nat) (x : Option Session) :
    wordsOf l (setSess n x b) = wordsOf l b := wordsOf_wr hl

/-- A record issued where records are not barred waits for its signature. -/
theorem issue_queue_length (h : recordsBarred b = false) (type meter flags qual t : Nat) (body : List Byte) :
    (issue type meter flags qual t body b).house.queue.length = b.house.queue.length + 1 := by
  rw [issue, enqueue, if_neg (by simp [h])]
  dsimp only
  split
  · exact List.length_append
  · exact List.length_append

/-- Closing a session issues its record and empties the port's entry. -/
theorem doSessionClose_eq (h : maySessionClose pay b = true) : ∃ flags qual t body, doSessionClose pay b =
    setSess (payAt pay 0 1) none (issue 1 (payAt pay 0 1) flags qual t body b) := by
  obtain ⟨x, hx⟩ := Option.isSome_iff_exists.1 h
  unfold doSessionClose
  simp only [hx]
  exact ⟨_, _, _, _, rfl⟩

theorem doSessionClose_sess (h : maySessionClose pay b = true) : sessOf (doSessionClose pay b) (payAt pay 0 1) = none := by
  obtain ⟨flags, qual, t, body, heq⟩ := doSessionClose_eq h
  rw [heq, sessOf_setSess]

theorem doSessionClose_keeps (h : maySessionClose pay b = true) :
    wordsOf [FBAR.MBX_STAT.BUSY.a] (doSessionClose pay b) = wordsOf [FBAR.MBX_STAT.BUSY.a] b := by
  obtain ⟨flags, qual, t, body, heq⟩ := doSessionClose_eq h
  rw [heq, wordsOf_setSess (by decide), wordsOf_of_unhoused (unhoused_issue ..)]

theorem doSessionClose_queue (h : maySessionClose pay b = true) (hrec : recordsBarred b = false) :
    (doSessionClose pay b).house.queue.length = b.house.queue.length + 1 := by
  obtain ⟨flags, qual, t, body, heq⟩ := doSessionClose_eq h
  rw [heq, setSess_queue, issue_queue_length hrec]

/-! GRID_LIMIT (R240). -/

/-- The demand values shown leave the limit beside ACTIVE. -/
theorem showDemand_gridKw : rd (showDemand b) DMD.GRID.KW = rd b DMD.GRID.KW := by
  have hwin {d : Blk} {v : Nat} : rd (wr64 d DMD.WIN_E.MWH v) DMD.GRID.KW = rd d DMD.GRID.KW :=
    rd_of_wordsOf (l := [DMD.GRID.KW.a]) (wordsOf_wr64 (by decide) (by decide)) (by decide)
  have hset (d : Blk) (n i r k w : Nat) (x : Bool) (p : Int) :
      rd (wrS (wrB (wr64 (wr (wr (wr (wr d DMD.INT_NUM.NUM n) DMD.T_INT.MS i) DMD.T_REM.MS r) DMD.LIM.KW k)
        DMD.WIN_E.MWH w) DMD.GRID.ACTIVE x) DMD.PROJ.W p) DMD.GRID.KW = rd d DMD.GRID.KW := by
    rw [wrS, rd_wr_ne (by decide), wrB, rd_wr_ne (by decide), hwin, rd_wr_ne (by decide), rd_wr_ne (by decide),
      rd_wr_ne (by decide), rd_wr_ne (by decide)]
  have hraised (d : Blk) (x : HouseSt) : rd { d with house := x } DMD.GRID.KW = rd d DMD.GRID.KW := rfl
  unfold showDemand
  dsimp only
  split
  · rw [rd_raise_ne (by decide), hraised, hset]
  · exact hset ..

theorem doGridLimit_keeps :
    wordsOf [FBAR.MBX_STAT.BUSY.a] (doGridLimit pay b) = wordsOf [FBAR.MBX_STAT.BUSY.a] b := by
  rw [doGridLimit, wordsOf_showDemand (by decide) (by decide) (by decide), wordsOf_wr64 (by decide) (by decide),
    wordsOf_wr64 (by decide) (by decide), wordsOf_wr (by decide)]

theorem doGridLimit_start : rd64 (doGridLimit pay b) DMD.GRID_START.B = payAt pay 4 8 := by
  have hw := wordsOf_showDemand (l := [DMD.GRID_START.B.a, DMD.GRID_START.B.a + 4])
    (b := wr64 (wr64 (wr b DMD.GRID.KW (payAt pay 0 4)) DMD.GRID_START.B (payAt pay 4 8)) DMD.GRID_END.B (payAt pay 12 8))
    (by decide) (by decide) (by decide)
  rw [wordsOf_wr64 (F := DMD.GRID_END.B) (by decide) (by decide)] at hw
  rw [doGridLimit, rd64_of_wordsOf hw (by decide) (by decide), rd64_wr64_same (payAt_lt pay 4 8)]

theorem doGridLimit_end : rd64 (doGridLimit pay b) DMD.GRID_END.B = payAt pay 12 8 := by
  rw [doGridLimit, rd64_of_wordsOf (l := [DMD.GRID_END.B.a, DMD.GRID_END.B.a + 4])
    (wordsOf_showDemand (by decide) (by decide) (by decide)) (by decide) (by decide), rd64_wr64_same (payAt_lt pay 12 8)]

theorem doGridLimit_kw (hok : payloadOk 0x03 pay = true) : rd (doGridLimit pay b) DMD.GRID.KW = payAt pay 0 4 := by
  have hend {d : Blk} {v : Nat} : rd (wr64 d DMD.GRID_END.B v) DMD.GRID.KW = rd d DMD.GRID.KW :=
    rd_of_wordsOf (l := [DMD.GRID.KW.a]) (wordsOf_wr64 (by decide) (by decide)) (by decide)
  have hstart {d : Blk} {v : Nat} : rd (wr64 d DMD.GRID_START.B v) DMD.GRID.KW = rd d DMD.GRID.KW :=
    rd_of_wordsOf (l := [DMD.GRID.KW.a]) (wordsOf_wr64 (by decide) (by decide)) (by decide)
  rw [doGridLimit, showDemand_gridKw, hend, hstart, rd_wr_same (by decide)]
  exact Nat.mod_eq_of_lt (of_decide_eq_true hok)

/-! REPLAY (R249). -/

theorem mayReplay_received : mayReplay pay (received b) = mayReplay pay b := by
  rw [mayReplay, mayReplay, ringRecord_received]

theorem doReplay_keeps : wordsOf [FBAR.MBX_STAT.BUSY.a] (doReplay pay b) = wordsOf [FBAR.MBX_STAT.BUSY.a] b := by
  unfold doReplay
  split
  · exact wordsOf_ite rfl rfl
  · rfl

/-- The twin that sends what the Counting House issues sends the record found. -/
theorem doReplay_sends {r : List Byte} (hr : ringRecord b (payAt pay 0 8) = some r) (hs : sends b = true) :
    Msg.meterRecord r ∈ (doReplay pay b).io.out := by
  rw [doReplay]
  simp [hr, hs, emit]

end Sys2Proof.Machine
end

section
/-!
SUPPORT. MBX_CTL.GO and the unsigned commands settle O38.
-/

namespace Sys2Proof.Machine

open Sys2Proof.Num Sys2Proof.Stated

/-- The state allows the command of a frame that passes. -/
theorem may_of_passes {b : Blk} {code : Nat} {may : List Byte → Blk → Bool} (hp : mailPasses b code may) :
    may (framePay (mailFrame b)) b = true := by
  obtain ⟨-, -, -, -, -, hmay⟩ := hp
  exact hmay

theorem actMailboxGo_shows {b : Blk} {v : Nat} (h : v.testBit 0 = true) :
    isOn (actMailboxGo v b) FBAR.MBX_STAT.BUSY = true ∧
      rd (actMailboxGo v b) FBAR.MBX_STAT.LEN = rd b (FBAR.MBX_DATA.DATA 1) % 512 := by
  rw [actMailboxGo, if_pos h]
  refine ⟨isOn_wrB_same (by decide) (by decide) true, ?_⟩
  rw [wrB, rd_wr_ne (by decide), rd_wr_same (by decide)]
  show rd b (FBAR.MBX_DATA.DATA 1) % 2 ^ 16 % 512 % 512 = _
  omega

/-- Settles O38, clause by clause: GO, then the four commands that carry no signature. -/
theorem mailboxCommands : Obligations.MailboxCommands := by
  unfold Obligations.MailboxCommands
  refine ⟨fun i v s ha hv => ?_, fun s hp ht => ?_, fun s hp ht => ?_, fun s hp ht => ?_, fun r s hp hr hs ht => ?_⟩
  · refine completes_run (f := writeAct i false FBAR.MBX_CTL.GO.a v actMailboxGo) rfl ?_
    rw [writeAct_accepted ha, ← writeOf_rd_ne (F := FBAR.MBX_DATA.DATA 1) ha (by decide) (by decide)]
    exact actMailboxGo_shows hv
  · refine completes_unsigned hp ht rfl rfl (by decide) maySessionOpen_received (wordsOf_setSess (by decide) ..) ?_
    rw [sessOf, cmdDone_house, ← sessOf, doSessionOpen, sessOf_setSess]
    rfl
  · have hopen := maySessionClose_received.trans (may_of_passes hp)
    refine completes_unsigned hp ht rfl rfl (by decide) maySessionClose_received (doSessionClose_keeps hopen)
      ⟨?_, fun hrec => ?_⟩
    · rw [sessOf, cmdDone_house, ← sessOf, doSessionClose_sess hopen]
    · rw [cmdDone_house, doSessionClose_queue hopen (recordsBarred_received.trans hrec), received_queue]
  · have hshown := wordsOf_cmdDone (code := 0x03) (l := [DMD.GRID.KW.a, DMD.GRID_START.B.a, DMD.GRID_START.B.a + 4,
      DMD.GRID_END.B.a, DMD.GRID_END.B.a + 4]) (b := doGridLimit (framePay (mailFrame s.blk)) (received s.blk)) (by decide)
    refine completes_unsigned hp ht rfl rfl (by decide) rfl doGridLimit_keeps ⟨?_, ?_, ?_⟩
    · rw [rd_of_wordsOf hshown (by decide), doGridLimit_kw (payloadOk_of_passes hp)]
    · rw [rd64_of_wordsOf hshown (by decide) (by decide), doGridLimit_start]
    · rw [rd64_of_wordsOf hshown (by decide) (by decide), doGridLimit_end]
  · refine completes_unsigned hp ht rfl rfl (by decide) mayReplay_received doReplay_keeps ?_
    rw [cmdDone_io]
    exact doReplay_sends ((ringRecord_received _).trans hr) (sends_received.trans hs)

end Sys2Proof.Machine
end

section
/-!
SUPPORT. What a transfer aborted, a port's hold conditions, a key update abandoned and a failing twin leave of a field
power-fail warning (R489): its bits in FPMU and the Counting House's state.
-/

namespace Sys2Proof.Machine

open Sys2Proof.Num

variable {b c d : Blk} {F : Fld} {g : Nat}

/-! The Counting House's state beside the trunks, the ports and the mesh. -/

theorem Sends.house (h : Sends b c) : c.house = b.house := (congrArg Blk.house h.rest :)

@[simp] theorem setXfer_house (x : XferSt) : (setXfer g x b).house = b.house := by
  unfold setXfer
  split <;> rfl

@[simp] theorem xferResult_house (res : Nat) : (xferResult g res b).house = b.house := by simp [xferResult]

@[simp] theorem tellEnd_house (t phase : Nat) : (tellEnd g t phase b).house = b.house := by
  unfold tellEnd
  dsimp only
  split
  · exact ((sends_emit _).trans (sends_sendRt _ _)).house
  · rfl

@[simp] theorem setClamp_house (on : Bool) : (setClamp g on b).house = b.house :=
  (wrB_house _ _ _).trans (setMod_house ..)

@[simp] theorem coilState_house (n st : Nat) : (coilState n st b).house = b.house := wr_house ..

@[simp] theorem setTrunk_house (t : Nat) : (setTrunk g t b).house = b.house := wr_house ..

theorem weldRetest_house (n : Nat) : (weldRetest g n b).house = b.house :=
  (setXfer_house _).trans (coilState_house n 4)

@[simp] theorem xferEnd_house : (xferEnd g b).house = b.house := by
  unfold xferEnd
  extract_lets x b₁ b₂
  have h₂ : b₂.house = b.house := (setClamp_house false).trans ((wrB_house ..).trans (setXfer_house _))
  split
  · exact (weldRetest_house _).trans h₂
  · exact h₂

@[simp] theorem xferAbort_house (res : Nat) : (xferAbort g res b).house = b.house := by
  unfold xferAbort
  extract_lets x b₁ b₂
  have h₁ : b₁.house = b.house := (tellEnd_house ..).trans ((wrB_house ..).trans (xferResult_house res))
  have h₂ : b₂.house = b.house := by
    unfold b₂
    split
    · exact (setTrunk_house _).trans ((coilState_house ..).trans h₁)
    · exact h₁
  split
  · rfl
  split
  · exact (setXfer_house _).trans h₁
  split
  · exact (setXfer_house _).trans h₁
  · exact xferEnd_house.trans h₂

@[simp] theorem vpHold_house (n : Nat) : (vpHold n b).house = b.house := by
  unfold vpHold
  extract_lets old new b₁ b₂ was now b₃
  have h₃ : b₃.house = b.house := by
    unfold b₃ b₂
    split <;> simp [b₁]
  split
  · rfl
  split
  · unfold vpCause
    split <;> simp [h₃]
  · exact h₃

@[simp] theorem meshPowerFail_house : (meshPowerFail b).house = b.house := by simp [meshPowerFail, meshCut, setMesh]

/-! Key updates abandoned (R400, R410). -/

/-- The pages of the keys of both sides. -/
def keyPages : List Nat := [pgSRM, pgFSRM]

/-- A block without its keys. -/
def keyless (b : Blk) : Blk := { b with srm := {} }

/-- A slot's registers lie on the key page of its side. -/
theorem slot_page {n o lo w : Nat} (hn : n < 80) (ho : 0x28400 ≤ o ∧ o ≤ 0x2840c) :
    (sFld n ⟨o + 16 * sNum n, lo, w⟩).a / 0x1000 * 0x1000 ∈ keyPages := by
  simp only [keyPages, pgSRM, pgFSRM, List.mem_cons, List.not_mem_nil, or_false]
  unfold sFld sNum
  split
  · simp only []
    omega
  · simp only [pgSRM, pgFSRM]
    omega

theorem apart_setKey {n : Nat} (hn : n < 80) (k : KeySlot) :
    apart keyPages keyless (setKey n k b) = apart keyPages keyless b := by
  have hslots (t : Tab KeySlot) :
      apart keyPages keyless { b with srm := { b.srm with slots := t } } = apart keyPages keyless b := rfl
  unfold setKey showSlot
  simp (disch := exact slot_page hn (by decide)) only [SRM.SLOT.SATTR.PARENT, SRM.SLOT.SATTR.TYPE,
    SRM.SLOT.SATTR.ENGINE, SRM.SLOT.SATTR.USAGE, SRM.SLOT.SATTR.STATE, SRM.SLOT.KEY_ID.KEY_ID, SRM.SLOT.SGEN.GEN,
    SRM.SLOT.PGEN.PGEN, apart_wr, hslots]

/-- An abandoned update changes nothing beside the keys and their pages. -/
theorem apart_srmAbandon {n : Nat} (hn : n < 80) (res : Nat) :
    apart keyPages keyless (srmAbandon n res b) = apart keyPages keyless b := by
  have hzeroised (e : Blk) : apart keyPages keyless (sZeroised n 1 e) = apart keyPages keyless e :=
    apart_ite (apart_incSat (by decide)) rfl
  have hresult (e : Blk) : apart keyPages keyless (sResult n res e) = apart keyPages keyless e := by
    unfold sResult
    dsimp only
    refine apart_ite ?_ ?_
    · rw [apart_wrB (by decide), apart_wr (by decide), apart_wr (by decide)]
    · rw [apart_wrB (by decide), apart_wr (by decide), apart_wr (by decide)]
  have hraise (e : Blk) : apart keyPages keyless (sRaise n 1 e) = apart keyPages keyless e :=
    apart_ite (apart_raise (by decide)) (apart_ite (apart_raise (by decide)) (apart_raise (by decide)))
  unfold srmAbandon
  dsimp only
  split
  · rw [hraise, hresult, hzeroised, apart_setKey hn]
  · rfl

theorem srmAbandon_house {n : Nat} (hn : n < 80) (res : Nat) : (srmAbandon n res b).house = b.house :=
  (congrArg Blk.house (apart_rest (apart_srmAbandon hn res)) :)

theorem srmAbandon_memory {n : Nat} (hn : n < 80) (res : Nat) : (srmAbandon n res b).memory = b.memory :=
  (congrArg Blk.memory (apart_rest (apart_srmAbandon hn res)) :)

/-! The warning kept. -/

/-- The bits of FPMU that show a warning. -/
def warningFlds : List Fld := [FPMU.PFSTAT.WARN, FPMU.PFSTAT.REDUCED]

theorem warningFlds_place (h : F ∈ warningFlds) : F.a = 0x101044 ∧ 26 ≤ F.lo :=
  (by decide : ∀ F ∈ warningFlds, F.a = 0x101044 ∧ 26 ≤ F.lo) F h

/-- A field warning and the Counting House are in one block as in another. -/
structure WarningKept (b c : Blk) : Prop where
  flags : ∀ F ∈ warningFlds, rd c F = rd b F
  house : c.house = b.house

namespace WarningKept

theorem refl : WarningKept b b := ⟨fun _ _ => rfl, rfl⟩

theorem trans (h : WarningKept b c) (h' : WarningKept c d) : WarningKept b d :=
  ⟨fun F hF => (h'.flags F hF).trans (h.flags F hF), h'.house.trans h.house⟩

theorem forEach {α : Type} {f : α → Blk → Blk} (l : List α) (h : ∀ x ∈ l, ∀ c, WarningKept c (f x c)) :
    WarningKept b (forEach l f b) :=
  forEach_rel (P := WarningKept b) l (fun x hx c hc => hc.trans (h x hx c)) refl

end WarningKept

theorem warningKept_xferAbort (hg : g < 3) (res : Nat) : WarningKept b (xferAbort g res b) := by
  refine ⟨fun F hF => xferAbort_rd ?_ hg res, xferAbort_house res⟩
  obtain ⟨ha, hlo⟩ := warningFlds_place hF
  exact ⟨by omega, by omega, .inr hlo⟩

theorem warningKept_vpHold (n : Nat) : WarningKept b (vpHold n b) := by
  refine ⟨fun F hF => vpHold_rd (besideHold_of_lt ?_), vpHold_house n⟩
  obtain ⟨ha, -⟩ := warningFlds_place hF
  omega

theorem warningKept_meshPowerFail : WarningKept b (meshPowerFail b) := by
  refine ⟨fun F hF => ?_, meshPowerFail_house⟩
  have hmesh (x : MeshSt) (e : Blk) : rd (setMesh x e) F = rd e F := rfl
  have hbusy : F.a ≠ MESH.STAT.TX_BUSY.a := by
    rw [(warningFlds_place hF).1]
    decide
  unfold meshPowerFail meshCut
  dsimp only
  rw [hmesh, wrB, rd_wr_ne (.inl hbusy), hmesh]

theorem warningKept_srmAbandon {n : Nat} (hn : n < 80) (res : Nat) : WarningKept b (srmAbandon n res b) := by
  refine ⟨fun F hF => congrArg F.of (apart_wordOf (apart_srmAbandon hn res) ?_), srmAbandon_house hn res⟩
  rw [(warningFlds_place hF).1]
  decide

theorem warningKept_failAssert (cause : Nat) : WarningKept b (failAssert cause b) := by
  refine ⟨fun F hF => congrArg F.of (outside_wordOf (outside_failAssert cause) ?_),
    (congrArg Blk.house (still_failAssert cause) :)⟩
  rw [(warningFlds_place hF).1]
  decide

end Sys2Proof.Machine
end

section
/-!
SUPPORT. The warnings of both sides (R488, R489).
-/

namespace Sys2Proof.Machine

open Sys2Proof.Num

variable {b : Blk}

theorem warned_field : warned b true = isOn b FPMU.PFSTAT.WARN := rfl
theorem warned_host : warned b false = isOn b PMU.PFSTAT.WARN := rfl

/-- A side that is not warned takes a warning whose cause is given: by its pin or a forwarded event, or by its supply's voltage. -/
theorem not_warned_of {w p : Bool} {vin th : Nat} (hw : w = false) (hcause : p = true ∨ vin < th) :
    ¬(w = true ∨ (!p) = true ∧ th ≤ vin) := by
  rintro (h | ⟨hpin, hvin⟩)
  · exact absurd (hw.symm.trans h) (by decide)
  · rcases hcause with hp | hlt
    · exact absurd hpin (by rw [hp]; decide)
    · exact absurd hvin (Nat.not_le.2 hlt)

/-- A reported VIN that is not below PF_TH is no warning. -/
theorem doFieldWarning_inRange {vin : Nat} (h : rd b FPMU.PFCTL.PF_TH ≤ vin) : doFieldWarning false vin b = b :=
  if_pos (.inr ⟨by decide, h⟩)

/-- A warning shows on the field, which notes t_w. -/
theorem doFieldWarning_shows {pfail : Bool} {vin : Nat} (hw : warned b true = false)
    (hcause : pfail = true ∨ vin < rd b FPMU.PFCTL.PF_TH) :
    isOn (doFieldWarning pfail vin b) FPMU.PFSTAT.WARN = true ∧
      isOn (doFieldWarning pfail vin b) FPMU.PFSTAT.REDUCED = true ∧ (doFieldWarning pfail vin b).house.tw.isSome = true := by
  unfold doFieldWarning
  rw [if_neg (not_warned_of hw hcause)]
  extract_lets b₁ b₂ side b₃ b₄ b₅ house b₆ b₇ b₈ b₉
  have hset : isOn b₂ FPMU.PFSTAT.WARN = true ∧ isOn b₂ FPMU.PFSTAT.REDUCED = true := by
    constructor
    · rw [isOn_wr_ne (by decide), isOn_wrB_ne (by decide), isOn_wrB_ne (by decide), isOn_wrB_ne (by decide),
        isOn_wrB_same (by decide) (by decide)]
    · rw [isOn_wr_ne (by decide), isOn_wrB_ne (by decide), isOn_wrB_ne (by decide), isOn_wrB_same (by decide) (by decide)]
  have hevent {F : Fld} (hF : F ∈ warningFlds) : rd b₆ F = rd b₂ F := by
    have hraw : F.a ≠ (hRAW pgFPMU).a := by
      rw [(warningFlds_place hF).1]
      decide
    have h₃ : rd b₃ F = rd b₂ F := congrArg F.of (congrArg (Tab.at' resetWord · F.a) (setSide_regs ..))
    have h₄ : rd b₄ F = rd b₃ F := congrArg F.of (wordOf_raiseHw hraw)
    have h₅ : rd b₅ F = rd b₄ F := by
      unfold b₅
      split <;> rfl
    exact (show rd b₆ F = rd b₅ F from rfl).trans (h₅.trans (h₄.trans h₃))
  have h₇ : WarningKept b₆ b₇ := .forEach _ fun g hg c => by
    split
    · exact warningKept_xferAbort (List.mem_range.1 hg) 5
    · exact .refl
  have h₈ : WarningKept b₇ b₈ := .forEach _ fun n _ _ => warningKept_vpHold n
  have h₉ : WarningKept b₈ b₉ := warningKept_meshPowerFail.trans
    (.forEach _ fun n hn _ => warningKept_srmAbandon (Nat.add_lt_add_left (List.mem_range.1 hn) 64) 10)
  have hdown : WarningKept b₆ (if isOn b₉ RED.PSTAT.PEER_HB = true then failAssert 6 b₉ else b₉) := by
    split
    · exact (h₇.trans (h₈.trans h₉)).trans (warningKept_failAssert 6)
    · exact h₇.trans (h₈.trans h₉)
  obtain ⟨hflags, hhouse⟩ := hdown
  refine ⟨?_, ?_, ?_⟩
  · rw [isOn, hflags _ (by decide), hevent (by decide), ← isOn, hset.1]
  · rw [isOn, hflags _ (by decide), hevent (by decide), ← isOn, hset.2]
  · rw [hhouse]
    rfl

/-! The host's warning. -/

theorem daybookSeal_memory : (daybookSeal b).memory = b.memory := by
  have hdropped : (recordDropped b).memory = b.memory := by
    unfold recordDropped hostRecord
    split
    · rfl
    · dsimp only
      split
      · rfl
      · exact wrU_memory ..
  unfold daybookSeal
  split
  · rfl
  · dsimp only
    rw [wrB_memory]
    exact hdropped

/-- A warning shows on the host, which fetches no more descriptors. -/
theorem doHostWarning_reduces {fwd : Bool} {vin : Nat} (hw : warned b false = false)
    (hcause : fwd = true ∨ vin < rd b PMU.PFCTL.PF_TH) :
    isOn (doHostWarning fwd vin b) PMU.PFSTAT.WARN = true ∧ isOn (doHostWarning fwd vin b) PMU.PFSTAT.REDUCED = true ∧
      (doHostWarning fwd vin b).memory.noFetch = true := by
  unfold doHostWarning
  rw [if_neg (not_warned_of hw hcause)]
  extract_lets b₁ b₂ side b₃ boot memory b₄
  have hset : isOn b₂ PMU.PFSTAT.WARN = true ∧ isOn b₂ PMU.PFSTAT.REDUCED = true := by
    have hwarn : isOn b₁ PMU.PFSTAT.WARN = true := by
      rw [isOn_wrB_ne (by decide), isOn_wrB_same (by decide) (by decide)]
    have hreduced : isOn b₁ PMU.PFSTAT.REDUCED = true := isOn_wrB_same (by decide) (by decide) true
    clear_value b₁
    unfold b₂
    split
    · exact ⟨(isOn_wrB_ne (by decide)).trans hwarn, (isOn_wrB_ne (by decide)).trans hreduced⟩
    · rw [isOn_wr_ne (by decide), isOn_wrB_ne (by decide), isOn_wr_ne (by decide), isOn_wrB_ne (by decide)]
      exact ⟨hwarn, hreduced⟩
  have hside : wordsOf forwardKeys b₃ = wordsOf forwardKeys b₂ := wordsOf_of_regs (setSide_regs ..)
  have hevent : wordsOf forwardKeys b₄ = wordsOf forwardKeys b₃ := by
    refine (wordsOf_raise (by decide)).trans ?_
    clear_value b₃
    exact wordsOf_of_regs rfl
  have hkeys : wordsOf forwardKeys (daybookSeal (forEach (List.range 64) (fun n b => srmAbandon n 10 b) b₄)) =
      wordsOf forwardKeys b₂ := by
    rw [wordsOf_forward_daybookSeal,
      wordsOf_forEach _ fun n hn c => wordsOf_forward_srmAbandon 10 (List.mem_range.1 hn), hevent, hside]
  have habandoned : (forEach (List.range 64) (fun n b => srmAbandon n 10 b) b₄).memory = b₄.memory :=
    forEach_rel (P := fun c => c.memory = b₄.memory) _
      (fun n hn c hc => (srmAbandon_memory ((List.mem_range.1 hn).trans (by decide)) 10).trans hc) rfl
  refine ⟨(isOn_of_wordsOf hkeys (by decide)).trans hset.1, (isOn_of_wordsOf hkeys (by decide)).trans hset.2, ?_⟩
  rw [daybookSeal_memory, habandoned]
  exact congrArg MemSt.noFetch (raise_memory ..)

end Sys2Proof.Machine
end

section
/-!
SUPPORT. The power-fail commit and its record (R244), and the supply's return (R490).
-/

namespace Sys2Proof.Machine

open Sys2Proof.Num Sys2Proof.Stated

variable {b : Blk}

/-- The commit stores the live state as it leaves it, stops the front end and notes why (R244, R245). -/
theorem doPfCommit_commits (quiet : Bool) (htw : b.house.tw.isSome = true) (hopen : b.house.committed = false) :
    (doPfCommit quiet b).house.copy = (doPfCommit quiet b).house.live ∧ (doPfCommit quiet b).house.committed = true ∧
      (doPfCommit quiet b).met.stopped = true ∧ (doPfCommit quiet b).house.why = b2n (!quiet) := by
  obtain ⟨t, ht⟩ := Option.isSome_iff_exists.1 htw
  unfold doPfCommit
  simp only [ht, hopen]
  refine ⟨?_, rfl, rfl, rfl⟩
  simp [commit]

/-! Signatures. -/

theorem signRec_house (r : AedRec) (seq : Nat) (key : Option (Nat × Nat)) : (signRec r seq key b).1.house = b.house := by
  unfold signRec
  split
  · exact incWrap_house ..
  · exact raise_house ..

/-- Each signature completes the record at the head of the queue and leaves t_w. -/
theorem doSignDone_queue : (doSignDone b).house.queue = b.house.queue.tail := by
  unfold doSignDone
  split
  · rename_i hq
    rw [hq]
    rfl
  · rename_i r rest hq
    dsimp only
    rw [raise_house, hq]
    split
    · rfl
    · rw [incSat_house]
      rfl

/-- As many signatures as records wait leave none. -/
theorem signAll_queue {n : Nat} (h : b.house.queue.length ≤ n) : (signAll n b).house.queue = [] := by
  induction n generalizing b with
  | zero => exact List.length_eq_zero_iff.1 (Nat.le_zero.1 h)
  | succ n ih =>
    unfold signAll
    split
    · rename_i hq
      exact List.isEmpty_iff.1 hq
    · refine ih ?_
      rw [doSignDone_queue, List.length_tail]
      omega

theorem apart_signAll (n : Nat) : apart recordPages unhoused (signAll n b) = apart recordPages unhoused b := by
  induction n generalizing b with
  | zero => rfl
  | succ n ih => exact apart_ite rfl (ih.trans apart_doSignDone)

/-- The record ends the sequence: t_w is noted no more and no record waits. -/
theorem doPfRecord_ends (htw : b.house.tw.isSome = true) (hdone : b.house.committed = true) :
    (doPfRecord b).house.tw = none ∧ (doPfRecord b).house.queue = [] := by
  obtain ⟨t, ht⟩ := Option.isSome_iff_exists.1 htw
  unfold doPfRecord
  rw [ht]
  dsimp only
  rw [if_neg (by simp [hdone]), raise_house]
  exact ⟨rfl, signAll_queue (Nat.le_succ _)⟩

theorem doPfRecord_boot : (doPfRecord b).boot = b.boot := by
  have hissued (type t a0 a1 : Nat) (a2 : Int) (a3 : Nat) :
      apart recordPages unhoused (issueEvent type t a0 a1 a2 a3 b) = apart recordPages unhoused b :=
    apart_of_unhoused (unhoused_issueEvent ..)
  have hkept : apart recordPages unhoused (doPfRecord b) = apart recordPages unhoused b := by
    unfold doPfRecord
    split
    · rfl
    · refine apart_ite rfl ?_
      dsimp only
      rw [apart_raise (by decide), apart_setHouse, apart_signAll, hissued]
  exact (congrArg Blk.boot (apart_rest hkept) :)

/-- A completed sequence brings no reset where no watchdog timeout waits for it (R493). -/
theorem afterSequence_house {f was : Bool} (h : was = true ∨ (sideOf b f).wdtDue = false) :
    (afterSequence f was b).house = b.house := by
  unfold afterSequence
  split
  · rfl
  · rename_i hnew
    have hdue : (sideOf b f).wdtDue = false := h.resolve_left fun hwas => hnew (by rw [hwas]; rfl)
    have hside (F : Fld) (v : Nat) : sideOf (wrU b F v) f = sideOf b f := by
      rw [sideOf, sideOf, wrU_boot]
    dsimp only
    rw [hside, hdue]
    exact wrU_house ..

/-- The supply's voltage shows, and whether it is in range again (R490). -/
theorem doVinRestored_shows {f : Bool} {v : BitVec 16} (hw : warned b f = true) :
    (sideOf (doVinRestored f v.toNat b) f).vinBack = vinOk f v.toNat ∧
      rd (doVinRestored f v.toNat b) (pmu f PMU.VMEAS.VIN) = v.toNat := by
  have hstill : warned (wr b (pmu f PMU.VMEAS.VIN) v.toNat) f = true := by
    rw [warned, isOn_wr_ne (by cases f <;> decide)]
    exact hw
  have hvin : rd (wr b (pmu f PMU.VMEAS.VIN) v.toNat) (pmu f PMU.VMEAS.VIN) = v.toNat := by
    rw [rd_wr_same (by cases f <;> decide), Nat.mod_eq_of_lt (by cases f <;> exact v.isLt)]
  unfold doVinRestored
  dsimp only
  rw [if_neg (by simp [hstill])]
  generalize wr b (pmu f PMU.VMEAS.VIN) v.toNat = c at hvin ⊢
  have hset (x : SideSt) :
      sideOf (setSide f x c) f = x ∧ rd (setSide f x c) (pmu f PMU.VMEAS.VIN) = rd c (pmu f PMU.VMEAS.VIN) := by
    cases f <;> exact ⟨rfl, rfl⟩
  split
  · exact ⟨congrArg SideSt.vinBack (hset _).1, (hset _).2.trans hvin⟩
  · rw [sideOf, raise_boot, ← sideOf, rd_raise_ne (by cases f <;> decide)]
    exact ⟨congrArg SideSt.vinBack (hset _).1, (hset _).2.trans hvin⟩

/-- Settles O45, clause by clause: the warnings of both sides, the commit, its record, and the supply's return. -/
theorem powerFail : Obligations.PowerFail := by
  unfold Obligations.PowerFail
  refine ⟨fun v s hv => ?_, fun p v s hw hcause => ?_, fun w v s hw hcause => ?_, fun q s hon htw hopen => ?_,
    fun s hon htw hdone hquiet => ?_, fun f v s hw => ?_⟩
  · exact completes_run (f := doFieldWarning false v.toNat) rfl (doFieldWarning_inRange hv)
  · exact completes_run (f := doFieldWarning p v.toNat) rfl (doFieldWarning_shows hw hcause)
  · exact completes_run (f := doHostWarning w v.toNat) rfl (doHostWarning_reduces hw hcause)
  · refine completes_run (f := gated pgCH (doPfCommit q)) rfl ?_
    rw [enter_on hon]
    exact doPfCommit_commits q htw hopen
  · refine completes_run (f := fun b => afterSequence true (seqDone b true) (gated pgCH doPfRecord b)) rfl ?_
    rw [enter_on hon, afterSequence_house]
    · exact doPfRecord_ends htw hdone
    · refine hquiet.symm.imp_right fun hdue => ?_
      rw [sideOf, doPfRecord_boot]
      exact hdue
  · exact completes_run (f := doVinRestored f v.toNat) rfl (doVinRestored_shows hw)

end Sys2Proof.Machine
end

section
/-!
SUPPORT. The registers that the end of an MSDU's lifetime on the mesh writes (R293, R300): O54.
-/

namespace Sys2Proof.Machine

open Sys2Proof.Num Sys2Proof.Stated

/-- Refutes O54: once a partial MSDU of a source expires, the complete one it held back is delivered (R293), and where the
mesh key may not be used that raises the Strongroom's event 1 (R300), so MSDU_LIFETIME_EXPIRE sets a bit of EVT_RAW on FSRM,
which is not the mesh's page. The state has the mesh and the field Strongroom enabled, KEY.SLOT naming an empty slot, and of
node 5 an MSDU 7 without its segment before a whole MSDU 8 for this node. -/
theorem not_portAndLineFrames : ¬ Obligations.PortAndLineFrames := by
  rintro ⟨-, -, -, -, -, -, -, -, -, -, -, -, -, -, -, hexpire, -⟩
  obtain ⟨-, hwords, -⟩ := hexpire false 5 7
    { blk := { wr (wrB (wrB Blk.reset (hEN pgMESH) true) (hEN pgFSRM) true) MESH.KEY.SLOT 3 with
        mesh := { parts := [{ src := 5, dst := 0, num := 7, len := 3, prio := 1 },
          { src := 5, dst := 0, num := 8, len := 3, prio := 1, got := [(0, [0x61, 0x62, 0x63])] }] } }
      pending := [] } _ rfl
  exact absurd (hwords (hRAW pgFSRM).a (by decide)) (by decide)

end Sys2Proof.Machine
end

section
/-!
SUPPORT. What a vehicle port shows after its causes and its hold conditions are brought up (R266, R284).
-/

namespace Sys2Proof.Machine

open Sys2Proof.Num

variable {b c : Blk} {n k : Nat} {F : Fld}

/-- A command of an enabled port completes with what its operation leaves. -/
theorem completes_vp {x : Instr} {f : Blk → Blk} {P : Blk → Prop} {s : State} (p : Fin 4)
    (hen : enabled s.blk (pgVP p.val) = true) (he : exec x s = .next { s with blk := gated (pgVP p.val) f s.blk })
    (h : P (f s.blk)) : Completes x s P := ⟨_, he, by rwa [gated_vp p.isLt hen]⟩

/-! Causes. -/

/-- A cause changes no register but the port's events and causes. -/
theorem vpCause_rd_ne (hraw : F.a ≠ 0x160020 + 0x1000 * n) (hcause : F.a ≠ 0x1600a4 + 0x1000 * n) (k : Nat) :
    rd (vpCause k n b) F = rd b F := by
  unfold vpCause
  split
  · rw [rd_raise_ne (by simp only [pgVP]; omega)]
    exact rd_wr_ne (.inl hcause)
  · rfl

theorem besideHold_en : BesideHold n (hEN (pgVP n)) :=
  ⟨by simp only [hEN, pgVP]; omega, .inl (by simp only [hEN, pgVP]; omega),
    fun h => absurd h (by simp only [hEN, pgVP]; omega)⟩

theorem enabled_vpCause (k : Nat) : enabled (vpCause k n b) (pgVP n) = enabled b (pgVP n) := by
  rw [enabled, isOn, vpCause_rd besideHold_en, ← isOn, ← enabled]

/-- A cause that an enabled page sets shows. -/
theorem vpCause_shows (hen : enabled b (pgVP n) = true) (hk : k < 19) :
    rdBit (vpCause k n b) (VP.CAUSE.CAUSE n) k = true := by
  unfold vpCause
  rw [if_pos hen, rdBit, rd_raise_ne (by simp only [VP.CAUSE.CAUSE, pgVP]; omega), ← rdBit,
    rdBit_wrBit (by simp [VP.CAUSE.CAUSE]) hk, if_pos rfl]

/-! Hold conditions. -/

/-- HOLD brought up to the conditions, and DROP_LATCH with a new one on a live port. -/
def holdLatched (n : Nat) (b : Blk) : Blk :=
  let b' := wr b (VP.VSTAT.HOLD n) (vpHoldBits b n)
  if vpHoldBits b n - (vpHoldBits b n &&& rd b (VP.VSTAT.HOLD n)) ≠ 0 ∧ isOn b' (VP.VSTAT.LIVE n) then
    wrB b' (VP.VSTAT.DROP_LATCH n) true
  else b'

/-- DROP brought up after them. -/
def holdShown (n : Nat) (b : Blk) : Blk :=
  wrB (holdLatched n b) (VP.VSTAT.DROP n)
    (decide (vpHoldBits b n ≠ 0) || isOn (holdLatched n b) (VP.VSTAT.DROP_LATCH n))

/-- Beside events, drop time and cause, an enabled port shows its conditions, latch and drop. -/
theorem vpHold_rd_shown (hen : enabled b (pgVP n) = true) (hraw : F.a ≠ 0x160020 + 0x1000 * n)
    (hdrop : F.a < 0x16009c + 0x1000 * n ∨ 0x1600a8 + 0x1000 * n ≤ F.a) :
    rd (vpHold n b) F = rd (holdShown n b) F := by
  have hshown : vpHold n b = if (decide (vpHoldBits b n ≠ 0) || isOn (holdLatched n b) (VP.VSTAT.DROP_LATCH n)) = true ∧
      (!isOn (holdLatched n b) (VP.VSTAT.DROP n)) = true then
      vpCause 16 n (wr64 (holdShown n b) (VP.DROP_TS.E n) (eFollow (holdShown n b))) else holdShown n b := by
    rw [vpHold, hen, if_neg (by decide)]
    rfl
  have htime (v : Nat) (c : Blk) : rd (wr64 c (VP.DROP_TS.E n) v) F = rd c F :=
    congrArg F.of ((wordOf_setWord_ne (by simp only [VP.DROP_TS.E]; omega)).trans
      (wordOf_setWord_ne (by simp only [VP.DROP_TS.E]; omega)))
  rw [hshown]
  split
  · rw [vpCause_rd_ne hraw (by omega), htime]
  · rfl

/-- A field of VSTAT beside DROP_LATCH and DROP shows what HOLD's write leaves. -/
theorem vpHold_rd_vstat (hen : enabled b (pgVP n) = true) (ha : F.a = 0x160044 + 0x1000 * n) (hF : F.lo + F.w ≤ 22) :
    rd (vpHold n b) F = rd (wr b (VP.VSTAT.HOLD n) (vpHoldBits b n)) F := by
  have hlatched : rd (holdLatched n b) F = rd (wr b (VP.VSTAT.HOLD n) (vpHoldBits b n)) F := by
    unfold holdLatched
    dsimp only
    split
    · exact rd_wr_ne (.inr (.inl hF))
    · rfl
  rw [vpHold_rd_shown hen (by omega) (by omega), holdShown, wrB,
    rd_wr_ne (.inr (.inl (hF.trans (by simp [VP.VSTAT.DROP])))), hlatched]

theorem vpHold_off (h : enabled b (pgVP n) = false) : vpHold n b = b := by simp [vpHold, h]

theorem vpHold_pilot : rd (vpHold n b) (VP.VSTAT.PILOT n) = rd b (VP.VSTAT.PILOT n) := by
  cases hen : enabled b (pgVP n) with
  | false => rw [vpHold_off hen]
  | true =>
    rw [vpHold_rd_vstat hen rfl (by simp [VP.VSTAT.PILOT])]
    exact rd_wr_ne (.inr (.inr (by simp [VP.VSTAT.HOLD, VP.VSTAT.PILOT])))

theorem bit4_of_octet : ∀ x₀ x₁ x₂ x₃ x₄ x₅ x₆ x₇ : Bool, (b2n x₀ + 2 * b2n x₁ + 4 * b2n x₂ + 8 * b2n x₃ + 16 * b2n x₄ +
    32 * b2n x₅ + 64 * b2n x₆ + 128 * b2n x₇).testBit 4 = x₄ := by decide

/-- Hold bit 4 is the insulation input (R266). -/
theorem vpHold_imd (hen : enabled b (pgVP n) = true) : rdBit (vpHold n b) (VP.VSTAT.HOLD n) 4 = (vpOf b n).imdLow := by
  rw [rdBit, vpHold_rd_vstat hen rfl (by simp [VP.VSTAT.HOLD]), rd_wr_same (by simp [VP.VSTAT.HOLD]),
    Nat.testBit_mod_two_pow]
  exact (Bool.true_and _).trans (bit4_of_octet ..)

/-- With no condition and no latch a port leaves drop (R266). -/
theorem vpHold_released (hen : enabled b (pgVP n) = true) (hbits : vpHoldBits b n = 0)
    (hlatch : isOn b (VP.VSTAT.DROP_LATCH n) = false) :
    isOn (vpHold n b) (VP.VSTAT.DROP_LATCH n) = false ∧ isOn (vpHold n b) (VP.VSTAT.DROP n) = false := by
  have hlatched : isOn (holdLatched n b) (VP.VSTAT.DROP_LATCH n) = false := by
    rw [holdLatched, hbits, if_neg (by simp),
      isOn_wr_ne (.inr (.inr (by simp [VP.VSTAT.HOLD, VP.VSTAT.DROP_LATCH]))), hlatch]
  have hraise {G : Fld} (hG : G.a = 0x160044 + 0x1000 * n) : isOn (vpHold n b) G = isOn (holdShown n b) G := by
    rw [isOn, vpHold_rd_shown hen (by omega) (by omega), ← isOn]
  rw [hraise rfl, hraise rfl, holdShown, hbits, hlatched]
  refine ⟨?_, isOn_wrB_same (by simp [VP.VSTAT.DROP]) (by simp [VP.VSTAT.DROP]) false⟩
  rw [isOn_wrB_ne (.inr (.inl (by simp [VP.VSTAT.DROP_LATCH, VP.VSTAT.DROP]))), hlatched]

/-- The fields the conditions are read from. -/
def holdFields (n : Nat) : List Fld :=
  [VP.VCTL.TYPE n, VP.VSTAT.PILOT n, VP.VCTL.LOCK_CH n, VP.LOCK.CMD n, VP.VSTAT.LOCKED n, VP.VSTAT.LOCK_FAULT n,
    VP.VSTAT.DIODE_FAULT n, VP.MCS_CTL.READY_MASK n, VP.VSTAT.PLUG n, VP.VSTAT.PLUG_FAULT n, VP.VSTAT.ESTOP n,
    VP.VSTAT.SITE_ESTOP n, FPMU.PFSTAT.WARN]

theorem vpHoldBits_congr (h : ∀ F ∈ holdFields n, rd c F = rd b F) (hvp : c.vp = b.vp) : vpHoldBits c n = vpHoldBits b n := by
  simp only [holdFields, List.forall_mem_cons, List.not_mem_nil, false_implies, implies_true, and_true] at h
  obtain ⟨htype, hpilot, hlock, hcmd, hlocked, hfault, hdiode, hmask, hplug, hplugFault, hestop, hsite, hwarn⟩ := h
  simp only [vpHoldBits, vpOf, pfWarn, isOn, htype, hpilot, hlock, hcmd, hlocked, hfault, hdiode, hmask, hplug, hplugFault,
    hestop, hsite, hwarn, hvp]

end Sys2Proof.Machine
end

section
/-!
SUPPORT. The plug, the pilot, the insulation input and the drop of a vehicle port (R262 to R269): O24.
-/

namespace Sys2Proof.Machine

open Sys2Proof.Num

variable {b : Blk} {n mv : Nat} {F : Fld}

/-! The vehicle's links. -/

theorem vpLink_rd (hF : BesideHold n F) : rd (vpLink n b) F = rd b F := by
  unfold vpLink
  dsimp only
  split
  · rfl
  · rw [vpCause_rd hF]
    by_cases ha : F.a = 0x160044 + 0x1000 * n
    · exact rd_wr_ne (.inr (.inr (Nat.le_trans (by simp [VP.VSTAT.LINK]) (hF.stat ha))))
    · exact rd_wr_ne (.inl ha)

theorem vpWake_rd (hplc : F.a ≠ 0x160080 + 0x1000 * n) (ht1s : F.a ≠ 0x160088 + 0x1000 * n) :
    rd (vpWake n b) F = rd b F := by
  unfold vpWake
  split
  · exact rd_wr_ne (.inl hplc)
  · exact (rd_wr_ne (.inl ht1s)).trans (rd_wr_ne (.inl ht1s))
  · rfl

/-- A modem that forgets its network changes PLC_STAT alone beside the link it shows. -/
theorem vpForget_rd (hF : BesideHold n F) (hplc : F.a ≠ 0x160080 + 0x1000 * n) : rd (vpForget n b) F = rd b F := by
  unfold vpForget
  dsimp only
  rw [vpLink_rd hF, rd_wr_ne (.inl hplc), rd_wr_ne (.inl hplc), wrB, rd_wr_ne (.inl hplc)]
  rfl

theorem besideHold_joined : BesideHold n (VP.PLC_STAT.JOINED n) :=
  ⟨by simp only [VP.PLC_STAT.JOINED]; omega, .inl (by simp only [VP.PLC_STAT.JOINED]; omega),
    fun h => absurd h (by simp only [VP.PLC_STAT.JOINED]; omega)⟩

theorem vpForget_joined : isOn (vpForget n b) (VP.PLC_STAT.JOINED n) = false := by
  unfold vpForget
  dsimp only
  rw [isOn, vpLink_rd besideHold_joined, rd_wr_ne (.inr (.inr (by simp [VP.PLC_STAT.ATTEN_AVG, VP.PLC_STAT.JOINED]))),
    rd_wr_ne (.inr (.inr (by simp [VP.PLC_STAT.SOUNDS, VP.PLC_STAT.JOINED]))), ← isOn]
  exact isOn_wrB_same (by simp [VP.PLC_STAT.JOINED]) (by simp [VP.PLC_STAT.JOINED]) false

/-! The plug. -/

/-- A sample shown in PLUG_MEAS is judged as before. -/
theorem plugClass_wr_mv (x : Nat) : plugClass (wr b (VP.PLUG_MEAS.MV n) mv) n x = plugClass b n x := by
  have hband {G : Fld} (hG : G.a ≠ 0x160064 + 0x1000 * n) : rd (wr b (VP.PLUG_MEAS.MV n) mv) G = rd b G := rd_wr_ne (.inl hG)
  rw [plugClass, hband (by simp only [VP.PLUG_BAND.P_LO]; omega), hband (by simp only [VP.PLUG_BAND.P_HI]; omega),
    hband (by simp only [VP.ABS_BAND.A_LO]; omega), hband (by simp only [VP.ABS_BAND.A_HI]; omega)]
  rfl

theorem besideHold_plug : BesideHold n (VP.VSTAT.PLUG n) := besideHold_vstat (by decide)

theorem besideHold_plugFault : BesideHold n (VP.VSTAT.PLUG_FAULT n) := besideHold_vstat (by decide)

/-- A lost plug shows absent, and its modem has left the network. -/
theorem plugLost_shows : isOn (plugLost n b) (VP.VSTAT.PLUG n) = false ∧
    (isOn b (VP.VSTAT.PLUG n) = true → isOn (plugLost n b) (VP.PLC_STAT.JOINED n) = false) := by
  unfold plugLost
  extract_lets b₁ b₂
  cases hplug : isOn b (VP.VSTAT.PLUG n) with
  | false => exact ⟨hplug, fun h => absurd h (by decide)⟩
  | true =>
    refine ⟨Eq.trans (b := isOn b₂ (VP.VSTAT.PLUG n)) rfl ?_, fun _ => vpForget_joined⟩
    rw [isOn, vpForget_rd besideHold_plug (by simp only [VP.VSTAT.PLUG]; omega), vpCause_rd besideHold_plug, ← isOn]
    exact isOn_wrB_same (by simp [VP.VSTAT.PLUG]) (by simp [VP.VSTAT.PLUG]) false

theorem plugLost_fault : isOn (plugLost n b) (VP.VSTAT.PLUG_FAULT n) = isOn b (VP.VSTAT.PLUG_FAULT n) := by
  unfold plugLost
  extract_lets b₁ b₂
  split
  · rfl
  · refine Eq.trans (b := isOn b₂ (VP.VSTAT.PLUG_FAULT n)) rfl ?_
    rw [isOn, vpForget_rd besideHold_plugFault (by simp only [VP.VSTAT.PLUG_FAULT]; omega), vpCause_rd besideHold_plugFault,
      ← isOn]
    exact isOn_wrB_ne (.inr (.inl (by simp [VP.VSTAT.PLUG_FAULT, VP.VSTAT.PLUG])))

/-- A plug that comes: its time `t`, its cause, and the wake it brings where AUTO_WAKE is set. -/
def plugCome (n t : Nat) (b : Blk) : Blk :=
  let b := wr64 (wrB b (VP.VSTAT.PLUG n) true) (VP.PLUG_TS.E n) t
  let b := vpCause 0 n (setVp n { vpOf b n with down := false } b)
  if isOn b (VP.VCTL.AUTO_WAKE n) then vpWake n b else b

/-- Of the upper bits of VSTAT it changes PLUG alone. -/
theorem plugCome_vstat (t : Nat) (hF : BesideHold n F) (ha : F.a = 0x160044 + 0x1000 * n) :
    isOn (plugCome n t b) F = isOn (wrB b (VP.VSTAT.PLUG n) true) F := by
  unfold plugCome
  extract_lets b₁ x b₂
  have h₂ : isOn b₂ F = isOn (wrB b (VP.VSTAT.PLUG n) true) F := by
    rw [isOn, vpCause_rd hF]
    exact congrArg (fun w => decide (F.of w ≠ 0)) ((wordOf_setWord_ne (by simp only [VP.PLUG_TS.E]; omega)).trans
      (wordOf_setWord_ne (by simp only [VP.PLUG_TS.E]; omega)))
  split
  · rw [isOn, vpWake_rd (by omega) (by omega), ← isOn, h₂]
  · exact h₂

/-- A present sample shows the plug and no fault (R262). -/
theorem doPlugInsert_shows (h : plugClass b n mv = 0) : isOn (doPlugInsert n mv b) (VP.VSTAT.PLUG n) = true ∧
    isOn (doPlugInsert n mv b) (VP.VSTAT.PLUG_FAULT n) = false := by
  unfold doPlugInsert
  extract_lets b₁ b₂ b₃ x b₄ b₅
  have hclass : ¬plugClass b₁ n mv ≠ 0 := not_not.2 ((plugClass_wr_mv mv).trans h)
  have hfault : isOn b₂ (VP.VSTAT.PLUG_FAULT n) = false :=
    isOn_wrB_same (by simp [VP.VSTAT.PLUG_FAULT]) (by simp [VP.VSTAT.PLUG_FAULT]) false
  rw [if_neg hclass, isOn_vpHold besideHold_plug, isOn_vpHold besideHold_plugFault]
  unfold b₅
  split
  · exact ⟨‹_›, hfault⟩
  · change isOn (plugCome n _ b₂) _ = true ∧ isOn (plugCome n _ b₂) _ = false
    rw [plugCome_vstat _ besideHold_plug rfl, plugCome_vstat _ besideHold_plugFault rfl]
    exact ⟨isOn_wrB_same (by simp [VP.VSTAT.PLUG]) (by simp [VP.VSTAT.PLUG]) true,
      (isOn_wrB_ne (.inr (.inl (by simp [VP.VSTAT.PLUG_FAULT, VP.VSTAT.PLUG])))).trans hfault⟩

/-- Another sample ends the plug and the modem's join (R262, R273). -/
theorem doPlugRemove_ends (h : plugClass b n mv ≠ 0) : isOn (doPlugRemove n mv b) (VP.VSTAT.PLUG n) = false ∧
    (isOn b (VP.VSTAT.PLUG n) = true → isOn (doPlugRemove n mv b) (VP.PLC_STAT.JOINED n) = false) := by
  unfold doPlugRemove
  extract_lets b₁
  have hclass : plugClass b₁ n mv ≠ 0 := by rwa [plugClass_wr_mv]
  have hplug : isOn b₁ (VP.VSTAT.PLUG n) = isOn b (VP.VSTAT.PLUG n) :=
    isOn_wr_ne (.inl (by simp only [VP.VSTAT.PLUG, VP.PLUG_MEAS.MV]; omega))
  rw [if_neg hclass, isOn_vpHold besideHold_plug, isOn_vpHold besideHold_joined, ← hplug]
  exact plugLost_shows

/-- PLUG_FAULT shows whether the sample is a fault (R262). -/
theorem doPlugFault_shows : isOn (doPlugFault n mv b) (VP.VSTAT.PLUG_FAULT n) = decide (plugClass b n mv = 2) := by
  unfold doPlugFault
  extract_lets b₁ f was b₂ b₃
  have h₃ : isOn b₃ (VP.VSTAT.PLUG_FAULT n) = f := by
    have h₂ : isOn b₂ (VP.VSTAT.PLUG_FAULT n) = f :=
      isOn_wrB_same (by simp [VP.VSTAT.PLUG_FAULT]) (by simp [VP.VSTAT.PLUG_FAULT]) f
    unfold b₃
    split
    · rw [plugLost_fault, h₂]
    · exact h₂
  have hcaused : isOn (if f = true ∧ (!was) = true then vpCause 2 n b₃ else b₃) (VP.VSTAT.PLUG_FAULT n) = f := by
    split
    · rw [isOn, vpCause_rd besideHold_plugFault, ← isOn, h₃]
    · exact h₃
  rw [isOn_vpHold besideHold_plugFault, hcaused]
  exact congrArg (fun k => decide (k = 2)) (plugClass_wr_mv mv)

/-! The pilot. -/

theorem pilotClass_lt (hi : Int) : pilotClass hi < 8 := by
  unfold pilotClass
  repeat' split
  all_goals decide

theorem pilotBand_lt (x : Int) : pilotBand b n x < 8 := by
  unfold pilotBand
  dsimp only
  repeat' split
  all_goals decide

/-- The thresholds of MCS stand apart from the plateaus measured. -/
theorem pilotBand_wr {G : Fld} {v : Nat} (hG : G.a = 0x16004c + 0x1000 * n) (x : Int) :
    pilotBand (wr b G v) n x = pilotBand b n x := by
  have hth {F : Fld} (hF : F.a ≠ 0x16004c + 0x1000 * n) : rdI (wr b G v) F = rdI b F :=
    congrArg (toInt F.w) (rd_wr_ne (.inl (by omega)))
  rw [pilotBand, hth (by simp only [VP.MBAND_LO.TH0]; omega), hth (by simp only [VP.MBAND_LO.TH1]; omega),
    hth (by simp only [VP.MBAND_HI.TH2]; omega), hth (by simp only [VP.MBAND_HI.TH3]; omega)]
  rfl

/-- The state or band of a pilot's high plateau, by the port's type (R263, R264). -/
def pilotOf (b : Blk) (n : Nat) (hi : Int) : Nat := if rd b (VP.VCTL.TYPE n) = 1 then pilotClass hi else pilotBand b n hi

theorem pilotOf_lt (hi : Int) : pilotOf b n hi < 8 := by
  unfold pilotOf
  split
  · exact pilotClass_lt hi
  · exact pilotBand_lt hi

/-- A pilot that agreed shows its state or band. -/
theorem doPilot_shows (htype : rd b (VP.VCTL.TYPE n) ≠ 0) (hi lo : Int) :
    rd (doPilot n hi lo b) (VP.VSTAT.PILOT n) = pilotOf b n hi := by
  have hbeside {c : Blk} {k : Nat} : rd (vpCause k n c) (VP.VSTAT.PILOT n) = rd c (VP.VSTAT.PILOT n) :=
    vpCause_rd_ne (by simp only [VP.VSTAT.PILOT]; omega) (by simp only [VP.VSTAT.PILOT]; omega) k
  have hdiode {c : Blk} {v : Bool} : rd (wrB c (VP.VSTAT.DIODE_FAULT n) v) (VP.VSTAT.PILOT n) = rd c (VP.VSTAT.PILOT n) :=
    rd_wr_ne (.inr (.inl (by simp [VP.VSTAT.DIODE_FAULT, VP.VSTAT.PILOT])))
  unfold doPilot
  extract_lets type osc b₁ b₂ p b₃ d b₄ b₅
  have hp : p = pilotOf b n hi := by
    have h₁ : pilotBand b₁ n hi = pilotBand b n hi := pilotBand_wr rfl hi
    have h₂ : pilotBand b₂ n hi = pilotBand b n hi := by
      unfold b₂
      split
      · exact (pilotBand_wr rfl hi).trans h₁
      · exact h₁
    rw [pilotOf, ← h₂]
  have h₃ : rd b₃ (VP.VSTAT.PILOT n) = p := by
    unfold b₃
    split
    · rw [hbeside, rd_wr_same (by simp [VP.VSTAT.PILOT])]
      exact Nat.mod_eq_of_lt (hp ▸ pilotOf_lt hi)
    · rename_i heq
      exact (not_not.1 heq).symm
  have h₅ : rd b₅ (VP.VSTAT.PILOT n) = p := by
    unfold b₅
    split
    · exact h₃
    · split
      · rw [hbeside, hdiode, h₃]
      · rw [hdiode, h₃]
  rw [if_neg htype, vpHold_pilot, h₅, hp]

/-! The insulation input and the drop. -/

/-- The insulation input moves IMD_OK and hold bit 4 (R266). -/
theorem doImd_shows (hen : enabled b (pgVP n) = true) (low : Bool) : isOn (doImd low n b) (VP.VSTAT.IMD_OK n) = !low ∧
    rdBit (doImd low n b) (VP.VSTAT.HOLD n) 4 = low := by
  have hF : BesideHold n (VP.VSTAT.IMD_OK n) := besideHold_vstat (by decide)
  unfold doImd
  extract_lets was x b₁
  have h₁ : isOn b₁ (VP.VSTAT.IMD_OK n) = (!low) ∧ enabled b₁ (pgVP n) = true ∧ (vpOf b₁ n).imdLow = low := by
    refine ⟨isOn_wrB_same (by simp [VP.VSTAT.IMD_OK]) (by simp [VP.VSTAT.IMD_OK]) _, ?_, ?_⟩
    · exact (isOn_wrB_ne (.inl (by simp only [hEN, pgVP, VP.VSTAT.IMD_OK]; omega))).trans hen
    · rw [vpOf, wrB_vp, ← vpOf, vpOf_setVp]
  obtain ⟨hok, hen₁, himd⟩ := h₁
  rw [isOn_vpHold hF]
  split
  · rw [isOn, vpCause_rd hF, ← isOn, vpHold_imd ((enabled_vpCause 13).trans hen₁), vpOf, vpCause_vp]
    exact ⟨hok, himd⟩
  · rw [vpHold_imd hen₁]
    exact ⟨hok, himd⟩

/-- An accepted write of ARM leaves every register but ARM. -/
theorem writeOf_arm_rd {i : Init} {v : Word} (p : Fin 4) (ha : Accepts b i (VP.ARM.DROP_CLR p.val).a v)
    (hF : F.a ≠ 0x1600a8 + 0x1000 * p.val) : rd (writeOf b i (VP.ARM.DROP_CLR p.val).a v).blk F = rd b F :=
  writeOf_rd_ne ha (calPage_arm p) hF

theorem writeOf_arm_enabled {i : Init} {v : Word} (p : Fin 4) (ha : Accepts b i (VP.ARM.DROP_CLR p.val).a v) :
    enabled (writeOf b i (VP.ARM.DROP_CLR p.val).a v).blk (pgVP p.val) = enabled b (pgVP p.val) := by
  rw [enabled, isOn, writeOf_arm_rd p ha (by simp only [hEN, pgVP]; omega), ← isOn, ← enabled]

theorem writeOf_vp {i : Init} {a : Nat} {v : Word} : (writeOf b i a v).blk.vp = b.vp := by
  obtain ⟨r, o, x, h⟩ := storeWord_eq b i false (a / 0x1000 * 0x1000) (a % 0x1000) v
  rw [writeOf, h]

/-- An accepted write of one bit of ARM on an enabled page acts on the block as the write leaves it. -/
theorem armWrite_accepted {i : Init} {k : Nat} {v : Word} {f : Blk → Blk} (p : Fin 4) (hen : enabled b (pgVP p.val) = true)
    (ha : Accepts b i (VP.ARM.DROP_CLR p.val).a v) (hv : BitVec.ofNat 32 (2 ^ k) = v)
    (hact : ∀ c, enabled c (pgVP p.val) = true → actArm p.val v.toNat c = f c) :
    armWrite i p.val k b = f (writeOf b i (VP.ARM.DROP_CLR p.val).a v).blk := by
  rw [armWrite, hv, writeAct_accepted ha, hact _ ((writeOf_arm_enabled p ha).trans hen)]

/-- A write of ARM with the bit of DROP_CLR alone, on an enabled page (R283). -/
theorem actArm_dropClr (hn : n < 4) (hen : enabled b (pgVP n) = true) : actArm n 1 b = dropClr n b := by
  rw [actArm, gated_vp hn hen]
  rfl

/-- None of the conditions is read from ARM or DROP_LATCH. -/
theorem holdFields_beside : ∀ F ∈ holdFields n, F.a ≠ 0x1600a8 + 0x1000 * n ∧
    (F.a ≠ 0x160044 + 0x1000 * n ∨ F.lo + F.w ≤ 22 ∨ 23 ≤ F.lo) := by
  simp only [holdFields, List.forall_mem_cons, VP.VCTL.TYPE, VP.VSTAT.PILOT, VP.VCTL.LOCK_CH, VP.LOCK.CMD, VP.VSTAT.LOCKED,
    VP.VSTAT.LOCK_FAULT, VP.VSTAT.DIODE_FAULT, VP.MCS_CTL.READY_MASK, VP.VSTAT.PLUG, VP.VSTAT.PLUG_FAULT, VP.VSTAT.ESTOP,
    VP.VSTAT.SITE_ESTOP, FPMU.PFSTAT.WARN, List.not_mem_nil, false_implies, implies_true, and_true]
  refine ⟨?_, ?_, ?_, ?_, ?_, ?_, ?_, ?_, ?_, ?_, ?_, ?_, ?_⟩ <;> omega

/-- With no condition an accepted DROP_CLR ends the drop (R269). -/
theorem armWrite_dropClr {i : Init} (p : Fin 4) (hen : enabled b (pgVP p.val) = true)
    (ha : Accepts b i (VP.ARM.DROP_CLR p.val).a 1) (hbits : vpHoldBits b p.val = 0) :
    isOn (armWrite i p.val 0 b) (VP.VSTAT.DROP_LATCH p.val) = false ∧
      isOn (armWrite i p.val 0 b) (VP.VSTAT.DROP p.val) = false := by
  rw [armWrite_accepted p hen ha rfl fun _ => actArm_dropClr p.isLt]
  have hen' := (writeOf_arm_enabled p ha).trans hen
  have hrd : ∀ F ∈ holdFields p.val, rd (writeOf b i (VP.ARM.DROP_CLR p.val).a 1).blk F = rd b F :=
    fun F hF => writeOf_arm_rd p ha (holdFields_beside F hF).1
  refine vpHold_released ?_ ?_ ?_
  · exact (isOn_wrB_ne (.inl (by simp only [hEN, pgVP, VP.VSTAT.DROP_LATCH]; omega))).trans hen'
  · refine (vpHoldBits_congr (fun F hF => ?_) ((wrB_vp ..).trans writeOf_vp)).trans hbits
    exact (rd_wr_ne ((holdFields_beside F hF).2)).trans (hrd F hF)
  · exact isOn_wrB_same (by simp [VP.VSTAT.DROP_LATCH]) (by simp [VP.VSTAT.DROP_LATCH]) false

/-- Settles O24: each command of an enabled port by what its operation shows, ARM's DROP_CLR by what its register does. -/
theorem vehiclePlugs : Obligations.VehiclePlugs := by
  refine ⟨fun p mv s hen h hnow => ?_, fun p mv s hen h hnow => ?_, fun p mv s hen hnow => ?_,
    fun p hi lo s hen htype hnow => ?_, fun p s hen hnow => ?_, fun p s hen hnow => ?_, fun i p s hen ha hbits => ?_,
    fun p s hen hdrop hlive => ?_⟩
  · exact completes_vp p hen (runIn_now 8 _ hnow) (doPlugInsert_shows h)
  · exact completes_vp p hen (runIn_now 8 _ hnow) (doPlugRemove_ends h)
  · exact completes_vp p hen (runIn_now 8 _ hnow) doPlugFault_shows
  · exact completes_vp p hen (runIn_now 8 _ hnow) (doPilot_shows htype hi.toInt lo.toInt)
  · exact completes_vp p hen (runIn_now 8 _ hnow) (doImd_shows hen true)
  · exact completes_vp p hen (runIn_now 8 _ hnow) (doImd_shows hen false)
  · exact completes_run (f := armWrite i p.val 0) rfl (armWrite_dropClr p hen ha hbits)
  · refine completes_vp (f := doDischTo p.val) p hen rfl ?_
    rw [doDischTo, if_pos ⟨hdrop, hlive⟩]
    exact vpCause_shows hen (by decide)

end Sys2Proof.Machine
end

section
/-!
SUPPORT. The buttons and the touch electrodes of a vehicle port (R277, R278, R283): O27.
-/

namespace Sys2Proof.Machine

open Sys2Proof.Num

variable {b : Blk} {n e : Nat}

/-! Buttons. -/

/-- A cause leaves what the person's register shows. -/
theorem vpCause_person {F : Fld} (hF : F.a = 0x16007c + 0x1000 * n) (k : Nat) : rd (vpCause k n b) F = rd b F :=
  vpCause_rd_ne (by omega) (by omega) k

theorem enabled_wrBit {F : Fld} (hF : F.a ≠ 0x16000c + 0x1000 * n) (k : Nat) (v : Bool) :
    enabled (wrBit b F k v) (pgVP n) = enabled b (pgVP n) :=
  isOn_wr_ne (.inl (by simp only [hEN, pgVP]; omega))

/-- A qualified change of a button shows and is a cause (R277). -/
theorem doButton_shows {k : Nat} {on : Bool} (hen : enabled b (pgVP n) = true) (hk : k < 2)
    (h : rdBit b (VP.PERSON.BTN n) k ≠ on) : rdBit (doButton n k on b) (VP.PERSON.BTN n) k = on ∧
      rdBit (doButton n k on b) (VP.CAUSE.CAUSE n) 6 = true := by
  unfold doButton
  extract_lets b₁
  have h₁ : rdBit b₁ (VP.PERSON.BTN n) k = on ∧ enabled b₁ (pgVP n) = true :=
    ⟨by rw [rdBit_wrBit (by simp [VP.PERSON.BTN]) hk, if_pos rfl],
      (enabled_wrBit (by simp only [VP.PERSON.BTN]; omega) k on).trans hen⟩
  have h₂ : rdBit (if on = true then b₁ else wrBit b₁ (VP.PERSON.LONG n) k false) (VP.PERSON.BTN n) k = on ∧
      enabled (if on = true then b₁ else wrBit b₁ (VP.PERSON.LONG n) k false) (pgVP n) = true := by
    obtain ⟨hbtn, hen₁⟩ := h₁
    split
    · exact ⟨hbtn, hen₁⟩
    · refine ⟨?_, (enabled_wrBit (by simp only [VP.PERSON.LONG]; omega) k false).trans hen₁⟩
      rwa [rdBit, wrBit, rd_wr_ne (.inr (.inl (by simp [VP.PERSON.BTN, VP.PERSON.LONG])))]
  obtain ⟨hbtn, hen₂⟩ := h₂
  rw [if_neg h]
  exact ⟨by rwa [rdBit, vpCause_person rfl], vpCause_shows hen₂ (by decide)⟩

/-- A long press of a button held shows (R277). -/
theorem doLongPress_shows {k : Nat} (hk : k < 2) (h : rdBit b (VP.PERSON.BTN n) k = true) :
    rdBit (doLongPress n k b) (VP.PERSON.LONG n) k = true := by
  unfold doLongPress
  cases hlong : rdBit b (VP.PERSON.LONG n) k with
  | true => rw [if_neg (by simp), hlong]
  | false => rw [if_pos ⟨h, rfl⟩, rdBit, vpCause_person rfl, ← rdBit, rdBit_wrBit (by simp [VP.PERSON.LONG]) hk, if_pos rfl]

/-! Touch: BASE becomes RAW (R278). -/

theorem vpCause_traw {F : Fld} (hF : F.a = 0x160404 + 0x1000 * n + 16 * e) (k : Nat) : rd (vpCause k n b) F = rd b F :=
  vpCause_rd_ne (by omega) (by omega) k

/-- The base set is the raw count: both are of 16 bits. -/
theorem touchBase_shows (n e : Nat) : rd (touchBase n e b) (VP.TCH.TRAW.BASE n e) = rd b (VP.TCH.TRAW.RAW n e) := by
  rw [touchBase, rd_wr_ne (.inl (by simp only [VP.TCH.TRAW.BASE, VP.TCH.TSTAT.DELTA]; omega)),
    rd_wr_same (by simp [VP.TCH.TRAW.BASE])]
  exact Nat.mod_eq_of_lt (rd_lt (VP.TCH.TRAW.RAW n e))

theorem touchBase_raw (k : Nat) : rd (touchBase n k b) (VP.TCH.TRAW.RAW n e) = rd b (VP.TCH.TRAW.RAW n e) := by
  rw [touchBase, rd_wr_ne (.inl (by simp only [VP.TCH.TRAW.RAW, VP.TCH.TSTAT.DELTA]; omega))]
  exact rd_wr_ne (.inr (.inl (by simp [VP.TCH.TRAW.RAW, VP.TCH.TRAW.BASE])))

theorem touchBase_ne {k : Nat} (hk : e ≠ k) :
    rd (touchBase n k b) (VP.TCH.TRAW.BASE n e) = rd b (VP.TCH.TRAW.BASE n e) := by
  rw [touchBase, rd_wr_ne (.inl (by simp only [VP.TCH.TRAW.BASE, VP.TCH.TSTAT.DELTA]; omega))]
  exact rd_wr_ne (.inl (by simp only [VP.TCH.TRAW.BASE]; omega))

theorem touchBase_enabled (k : Nat) : enabled (touchBase n k b) (pgVP n) = enabled b (pgVP n) := by
  rw [enabled, touchBase, isOn_wr_ne (.inl (by simp only [hEN, pgVP, VP.TCH.TSTAT.DELTA]; omega)),
    isOn_wr_ne (.inl (by simp only [hEN, pgVP, VP.TCH.TRAW.BASE]; omega)), ← enabled]

/-- An electrode touched for too long takes its raw count as its base, with its cause (R278). -/
theorem doTouchRecal_shows (hen : enabled b (pgVP n) = true) (h : isOn b (VP.TCH.TSTAT.TOUCHED n e) = true) :
    rd (doTouchRecal n e b) (VP.TCH.TRAW.BASE n e) = rd b (VP.TCH.TRAW.RAW n e) ∧
      rdBit (doTouchRecal n e b) (VP.CAUSE.CAUSE n) 10 = true := by
  rw [doTouchRecal, if_pos h]
  exact ⟨(vpCause_traw rfl 10).trans (touchBase_shows n e), vpCause_shows ((touchBase_enabled e).trans hen) (by decide)⟩

/-- RECAL does so for every electrode. -/
theorem touchRecalAll_shows (he : e < 4) :
    rd (touchRecalAll n b) (VP.TCH.TRAW.BASE n e) = rd b (VP.TCH.TRAW.RAW n e) := by
  have hraw : rd (forEach (List.range 4) (touchBase n) b) (VP.TCH.TRAW.RAW n e) = rd b (VP.TCH.TRAW.RAW n e) :=
    forEach_rel (P := fun c => rd c (VP.TCH.TRAW.RAW n e) = rd b (VP.TCH.TRAW.RAW n e)) _
      (fun k _ _ hc => (touchBase_raw k).trans hc) rfl
  have hbase := forEach_each (b := b) (f := touchBase n) (l := List.range 4)
    (P := fun k c => rd c (VP.TCH.TRAW.BASE n k) = rd c (VP.TCH.TRAW.RAW n k))
    (fun k _ _ => (touchBase_shows n k).trans (touchBase_raw k).symm)
    (fun j _ k _ hne _ hc => (touchBase_ne hne).trans (hc.trans (touchBase_raw k).symm)) e (List.mem_range.2 he)
  exact ((vpCause_traw rfl 10).trans hbase).trans hraw

/-- A write of ARM with the bit of RECAL alone, on an enabled page (R283). -/
theorem actArm_recal (hn : n < 4) (hen : enabled b (pgVP n) = true) : actArm n 2 b = touchRecalAll n b := by
  rw [actArm, gated_vp hn hen]
  rfl

/-! Touch: a scan (R278). -/

theorem setTouched_raw (k : Nat) (on : Bool) :
    rd (setTouched n k on b) (VP.TCH.TRAW.RAW n e) = rd b (VP.TCH.TRAW.RAW n e) := by
  unfold setTouched
  split
  · rfl
  · rw [vpCause_traw rfl, wrBit, rd_wr_ne (.inl (by simp only [VP.TCH.TRAW.RAW, VP.PERSON.TOUCHED]; omega)), wrB]
    exact rd_wr_ne (.inl (by simp only [VP.TCH.TRAW.RAW, VP.TCH.TSTAT.TOUCHED]; omega))

theorem touchDrift_raw (k d : Nat) : rd (touchDrift n k d b) (VP.TCH.TRAW.RAW n e) = rd b (VP.TCH.TRAW.RAW n e) :=
  rd_wr_ne (.inr (.inl (by simp [VP.TCH.TRAW.RAW, VP.TCH.TRAW.BASE])))

theorem touchJudge_raw (d k : Nat) : rd (touchJudge n d k b) (VP.TCH.TRAW.RAW n e) = rd b (VP.TCH.TRAW.RAW n e) := by
  unfold touchJudge
  extract_lets x delta th up low b₁ on b₂
  have h₂ : rd b₂ (VP.TCH.TRAW.RAW n e) = rd b (VP.TCH.TRAW.RAW n e) := setTouched_raw k on
  split
  · exact h₂
  · exact (touchDrift_raw k d).trans h₂

/-- What a scan stores of an electrode: its raw count and its difference from the base. -/
def touchTake (n : Nat) (raw : List (BitVec 16)) (k : Nat) (b : Blk) : Blk :=
  let b := wr b (VP.TCH.TRAW.RAW n k) (raw.getD k 0).toNat
  wrS b (VP.TCH.TSTAT.DELTA n k) (touchDelta b n k)

theorem touchTake_same (n k : Nat) (raw : List (BitVec 16)) :
    rd (touchTake n raw k b) (VP.TCH.TRAW.RAW n k) = (raw.getD k 0).toNat := by
  rw [touchTake, wrS, rd_wr_ne (.inl (by simp only [VP.TCH.TRAW.RAW, VP.TCH.TSTAT.DELTA]; omega)),
    rd_wr_same (by simp [VP.TCH.TRAW.RAW])]
  exact Nat.mod_eq_of_lt (raw.getD k 0).isLt

theorem touchTake_ne {k : Nat} (raw : List (BitVec 16)) (hk : e ≠ k) :
    rd (touchTake n raw k b) (VP.TCH.TRAW.RAW n e) = rd b (VP.TCH.TRAW.RAW n e) := by
  rw [touchTake, wrS, rd_wr_ne (.inl (by simp only [VP.TCH.TRAW.RAW, VP.TCH.TSTAT.DELTA]; omega))]
  exact rd_wr_ne (.inl (by simp only [VP.TCH.TRAW.RAW]; omega))

/-- What a scan makes of the counts taken leaves them as they are. -/
theorem doTouchScan_raw (n : Nat) (raw : List (BitVec 16)) :
    rd (doTouchScan n raw b) (VP.TCH.TRAW.RAW n e) =
      rd (forEach ((List.range 4).filter fun k => isOn b (VP.TCH.TCFG.EN n k)) (touchTake n raw) b)
        (VP.TCH.TRAW.RAW n e) := by
  have heach {f : Nat → Blk → Blk} {c : Blk} (l : List Nat)
      (hf : ∀ k d, rd (f k d) (VP.TCH.TRAW.RAW n e) = rd d (VP.TCH.TRAW.RAW n e)) :
      rd (forEach l f c) (VP.TCH.TRAW.RAW n e) = rd c (VP.TCH.TRAW.RAW n e) :=
    forEach_rel (P := fun d => rd d (VP.TCH.TRAW.RAW n e) = rd c (VP.TCH.TRAW.RAW n e)) l
      (fun k _ d hd => (hf k d).trans hd) rfl
  unfold doTouchScan
  extract_lets en b₁ reach x dry wasWet wet acc b₂ b₃ y b₄ b₅
  have h₃ : rd b₃ (VP.TCH.TRAW.RAW n e) = rd b₁ (VP.TCH.TRAW.RAW n e) :=
    rd_wr_ne (.inl (by simp only [VP.TCH.TRAW.RAW, VP.PERSON.WET]; omega))
  have h₅ : rd b₅ (VP.TCH.TRAW.RAW n e) = rd b₁ (VP.TCH.TRAW.RAW n e) :=
    (heach _ fun k _ => setTouched_raw k false).trans h₃
  split
  · split
    · exact h₅
    · exact (vpCause_traw rfl 9).trans h₅
  · exact (heach _ fun k _ => touchJudge_raw (acc / 1000) k).trans h₃

/-- A scan shows the raw counts of the enabled electrodes. -/
theorem doTouchScan_shows (raw : List (BitVec 16)) (he : e < 4) (h : isOn b (VP.TCH.TCFG.EN n e) = true) :
    rd (doTouchScan n raw b) (VP.TCH.TRAW.RAW n e) = (raw.getD e 0).toNat := by
  rw [doTouchScan_raw]
  exact forEach_each (P := fun k c => rd c (VP.TCH.TRAW.RAW n k) = (raw.getD k 0).toNat)
    (fun k _ _ => touchTake_same n k raw) (fun j _ k _ hne _ hc => (touchTake_ne raw hne).trans hc) e
    (List.mem_filter.2 ⟨List.mem_range.2 he, h⟩)

/-- Settles O27: each command of an enabled port by what its operation shows, ARM's RECAL by what its register does. -/
theorem vehiclePerson : Obligations.VehiclePerson := by
  refine ⟨fun p k on s hen h hnow => ?_, fun p k s hen h hnow => ?_, fun p raw s hen hnow => ?_, fun p e s hen h => ?_,
    fun i p s hen ha => ?_⟩
  · exact completes_vp p hen (runIn_now 8 _ hnow) (doButton_shows hen k.isLt h)
  · exact completes_vp p hen (runIn_now 8 _ hnow) (doLongPress_shows k.isLt h)
  · exact completes_vp p hen (runIn_now 8 _ hnow) fun e he hon => doTouchScan_shows raw he hon
  · exact completes_vp p hen rfl (doTouchRecal_shows hen h)
  · refine completes_run (f := armWrite i p.val 1) rfl fun e he => ?_
    rw [armWrite_accepted p hen ha rfl fun _ => actArm_recal p.isLt, touchRecalAll_shows he]
    exact writeOf_arm_rd p ha (by simp only [VP.TCH.TRAW.RAW]; omega)

end Sys2Proof.Machine
end
